-- ==== Sys2Proof/Word.lean ====
section
/-! DEFINITION.  The word types of the block: bytes, 32-bit registers (00_scope R14) and the 256-bit
sliver word (02_hypervector_algebra R54). -/

namespace Sys2Proof

abbrev Byte := BitVec 8

/-- A BAR0 register or a Flint word. -/
abbrev Word := BitVec 32

/-- A 64-bit quantity of R22. -/
abbrev Word64 := BitVec 64

/-- 256 consecutive dimensions of a hypervector (R54). -/
abbrev Sliver := BitVec 256

/-- A 64-byte ring slot: a descriptor or a record (R421). -/
abbrev Slot := BitVec 512

end Sys2Proof
end

