-- ==== Sys2Proof/Syntax.lean ====
section
/-! DEFINITION.  The commands of the block: one constructor per row of the command table, in the
table's order.  A command names what comes from outside the part, or a step the part takes by itself
(a time-out, a completion, an event of its own engines).  Operand types have the widths the
specification gives (00_scope R25, R26), so an operand cannot name a stream, ring or register that
does not exist. -/

namespace Sys2Proof

/-- Stream number, 0 to 65,535 (R26). -/
abbrev Stream := BitVec 16
/-- Adit port, 0 to 3 (R26). -/
abbrev Port := BitVec 2
/-- Lode die, 0 to 7 (R26). -/
abbrev Die := BitVec 3
/-- Ring, 0 to 63 (R421). -/
abbrev Ring := BitVec 6
/-- Library, 0 to 15 (R26). -/
abbrev Lib := BitVec 4
/-- Mailbox channel, 0 to 31 (Table LANTERN-13). -/
abbrev Chan := BitVec 5
/-- Core group, 0 to 63 (Table GAL-13). -/
abbrev Group := BitVec 6
/-- Tunnel port, 0 or 1 (R26). -/
abbrev TPort := BitVec 1
/-- Cascade member position, 0 to 7. -/
abbrev Member := BitVec 3
/-- Flint scalar register s0 to s31 (R25). -/
abbrev SReg := BitVec 5
/-- Flint sliver register v0 to v15 (R25). -/
abbrev VReg := BitVec 4
/-- A physical Flint core, numbered y × 96 + x over the 96 × 88 mesh. -/
abbrev CoreId := Fin 8448

/-- The two register access paths of R22. -/
inductive Path where
  | bar0
  | mport
  deriving DecidableEq, Repr

/-- What the SRAM's ECC found on a read: nothing, a corrected error, an uncorrectable error that the
n-th re-read cleared, or one that no re-read cleared (R182). -/
inductive Ecc where
  | ok
  | corrected
  | retried (n : Nat)
  | failed
  deriving DecidableEq, Repr

/-- The issue of one Flint instruction: the core, and what its fetch and its data reads find. -/
structure Issue where
  core : CoreId
  fetch : Ecc
  data : Ecc
  deriving DecidableEq, Repr

/-- The 16-bit immediate of a Flint instruction. -/
abbrev Imm16 := BitVec 16

/-! ### Fabric messages and networks -/

/-- A class 0 message (Tables GAL-3, GAL-4): the header's fields and its payload flits. -/
structure Msg where
  tick : BitVec 16
  tag : BitVec 12
  src : BitVec 14
  dest : BitVec 14
  payload : List Word64
  deriving DecidableEq, Repr

/-- A parameter set (Table SNN-3). -/
structure PSet where
  alif : Bool
  leakV : BitVec 3
  leakA : BitVec 3
  leakT : BitVec 3
  theta : BitVec 16
  vReset : BitVec 16
  vMin : BitVec 16
  aInc : BitVec 16
  tInc : BitVec 16
  tRef : BitVec 6
  deriving DecidableEq, Repr

/-- A synapse word (Table SNN-7). -/
structure Synapse where
  weight : BitVec 8
  delay : BitVec 6
  plastic : Bool
  post : BitVec 10
  deriving DecidableEq, Repr

/-- A matrix of a network header (Table SNN-5). -/
structure MatrixUse where
  matrix : BitVec 8
  md : BitVec 4
  mshift : BitVec 4
  preBase : BitVec 16
  rows : BitVec 16
  postBase : BitVec 16
  cols : BitVec 16
  deriving DecidableEq, Repr

/-- A stream's network as its core group's image defines it (Tables SNN-1, SNN-5): the header, the parameter sets, each
population neuron's parameter set, the synapse rows held in SRAM, and the enabled matrices. -/
structure NetDef where
  stream : Stream
  inputs : BitVec 11
  outputs : BitVec 11
  wshift : BitVec 4
  inPset : BitVec 4
  wheelCap : BitVec 8
  warmWin : BitVec 8
  recItems : BitVec 13
  tproc : BitVec 21
  psets : List PSet
  neurons : List (BitVec 4)
  rows : List (List Synapse)
  matrices : List MatrixUse
  deriving DecidableEq, Repr

/-- What GAL_CFG_WRITE writes (R153): GAL_CFG.DSEL, or both halves of the codebook seed. -/
inductive GalCfg where
  | dsel (v : BitVec 2)
  | seed (v : Word64)
  deriving DecidableEq, Repr

/-- Scope of a BARRIER (Table FLINT-6). -/
inductive Scope where
  | sliver
  | group
  | device
  deriving DecidableEq, Repr


/-! ### Readings of the arrays -/

/-- A key or query over all D dimensions, dimension d at bit d (R55); bits at and above D are zero. -/
abbrev Key := BitVec 32768

/-- One reading of a cell (R258): the tile of its bench, its physical column, its row and the reading in mu. -/
structure CellRead where
  tile : BitVec 5
  col : BitVec 11
  row : BitVec 10
  mu : Int
  deriving DecidableEq, Repr

/-- A cell still outside its verify window after a program loop (R251): its verify reading, and whether it has risen. -/
structure LoopCell where
  cell : CellRead
  rose : Bool
  deriving DecidableEq, Repr

/-- The fit of one physical column (R260, R261): G_rel in Q2.14, O_rel in Q11.4, and whether the residue exceeds 0.5 count. -/
structure ColFit where
  col : BitVec 11
  gain : BitVec 16
  offset : BitVec 16
  noisy : Bool
  deriving DecidableEq, Repr

/-- The deviations of the four reference readouts of a pattern pass of 1,024 rows from their exact values (R263). -/
structure RefRead where
  r0 : Int
  r1 : Int
  r2 : Int
  r3 : Int
  deriving DecidableEq, Repr

/-- What a program loop runs on: a batch of a die-local bench, or an upkeep write of one physical tile. -/
inductive ProgTarget where
  | bench (b : BitVec 13)
  | tile (phys : BitVec 16)
  deriving DecidableEq, Repr

/-- How a pump's soft start ends (R279, R280). -/
inductive PumpStart where
  | ok
  | slow
  | short
  deriving DecidableEq, Repr

/-- What a die's measurements of the last 30 service days give the plan beyond the die's own counts (R286): the drift rate r
in millionths of a level step a day, whether the residue exceeds 0.5 count, the largest change of a corrected full-range
count in ten-thousandths, and whether columns with high counts drift at more than twice the median rate. -/
structure Measure where
  drift : Nat
  residueHigh : Bool
  change : Nat
  highDrift : Bool
  deriving DecidableEq, Repr

/-- A Tunnel frame (Table CASC-3), without its CRC. -/
structure Frame where
  type : BitVec 8
  src : BitVec 3
  dst : BitVec 8
  lseq : BitVec 16
  ack : BitVec 16
  req : BitVec 32
  arg0 : BitVec 64
  arg1 : BitVec 64
  payload : List Byte
  deriving DecidableEq, Repr

/-- A library's part of a HELLO (R369). -/
structure HelloLib where
  active : Bool
  span : Bool
  kind : Nat
  pstep : Nat
  novelDist : Nat
  recallMask : Nat
  append : Bool
  base : Nat
  len : Nat
  gen : Nat
  deriving DecidableEq, Repr

/-- A HELLO's content (R369). -/
structure HelloRec where
  n : Nat
  position : Nat
  role : Nat
  seedCheck : Nat
  dim : Nat
  libs : List HelloLib
  deriving DecidableEq, Repr

/-- What a read of a ring's doorbell line finds (R419, R422): HOST_INDEX, and the contents of the descriptors from the next to
take onwards; `none` is a read that fails (R432). -/
structure Doorbell where
  ring : Ring
  host : Option Word
  descs : List (Option Slot)
  deriving DecidableEq, Repr

/-- Another copy of an entry's key that reads clean (R409): the device bench and column of the entry, the copy's SEQ and key. -/
structure KeyCopy where
  bench : BitVec 16
  col : BitVec 10
  seq : BitVec 64
  key : Key
  deriving DecidableEq, Repr
/-- The commands. -/
inductive Instr where
  | registerWrite (path : Path) (addr : BitVec 25) (bytes : Nat) (value : Word64)
  | counterReadClear (path : Path) (addr : BitVec 25) (event : Nat)
  | readLoLatch (path : Path) (addr : BitVec 25)
  | writeLoHold (path : Path) (addr : BitVec 25) (value : Word)
  | writeHiCommit (path : Path) (addr : BitVec 25) (value : Word)
  | resetNAssert
  | resetNRelease (aGood bGood : Bool)
  | bootDone (copiesOk : Bool)
  | pciePerst
  | pcieLinkDown
  | tickBoundary
  | tickNotice (core : CoreId)
  | aditRound (port : Port) (header : Word64) (samples : List (BitVec 24)) (crcBad : List Nat) (badMultiblocks : Nat)
  | aditIdleUnit (port : Port) (header : Word64)
  | sysrefEdge (port : Port) (onBoundary : Bool)
  | aditLaneFault (port : Port) (lane : BitVec 3)
  | aditTickTimeout (port : Port)
  | aditCloseSend (stream : Stream)
  | aditRelease (stream : Stream)
  | bundle (ring : Ring) (idx : Word) (payload : List Byte) (dmaOk : Bool)
  | frame (ring : Ring) (idx : Word) (payload : List Byte) (dmaOk : Bool)
  | replayRead (ring : Ring) (idx : Word) (overrun : Nat)
  | plan
  | planDone
  | streamEnable (stream : Stream) (cfg : Word)
  | streamStop (stream : Stream)
  | streamStopEffect (stream : Stream)
  | abort (stream : Stream)
  | profileChange (stream : Stream) (profile : BitVec 6)
  | profileChangeEffect (stream : Stream)
  | profileWrite (offset : BitVec 17) (value : Word)
  | portEnable (port : Port)
  | portDisable (port : Port)
  | portIntakeStop (port : Port)
  | streamResume (stream : Stream)
  | resync (port : Port)
  | lanesWrite (port : Port) (lanes : BitVec 2)
  | ctxFault (stream : Stream) (hard intact : Bool)
  | ctxMove (stream : Stream)
  | msgEject (msg : Msg)
  | ejectWaitExpiry (core : CoreId)
  | fetchReply (core : CoreId) (slot : BitVec 2)
  | stop (group : Group)
  | stoppingDone (group : Group)
  | start (group : Group)
  | reset (group : Group)
  | selftest (group : Group)
  | freeze (group : Group)
  | thaw (group : Group)
  | groupCmdEffect (group : Group)
  | selftestDone (group : Group) (failed : List (BitVec 8)) (routerFault : Bool)
  | loadComplete (group : Group)
  | streamMapWrite (stream : Stream) (value : Word)
  | streamMapEffect (stream : Stream)
  | galCfgWrite (what : GalCfg)
  | spareSubstitute (core : CoreId) (readable : Bool)
  | spareStart (core : CoreId)
  | snapshot (cores : List CoreId)
  | add (i : Issue) (rd ra rb : SReg)
  | sub (i : Issue) (rd ra rb : SReg)
  | and (i : Issue) (rd ra rb : SReg)
  | or (i : Issue) (rd ra rb : SReg)
  | xor (i : Issue) (rd ra rb : SReg)
  | sll (i : Issue) (rd ra rb : SReg)
  | srl (i : Issue) (rd ra rb : SReg)
  | sra (i : Issue) (rd ra rb : SReg)
  | slt (i : Issue) (rd ra rb : SReg)
  | sltu (i : Issue) (rd ra rb : SReg)
  | mul (i : Issue) (rd ra rb : SReg)
  | mulh (i : Issue) (rd ra rb : SReg)
  | adds (i : Issue) (rd ra rb : SReg)
  | subs (i : Issue) (rd ra rb : SReg)
  | min (i : Issue) (rd ra rb : SReg)
  | max (i : Issue) (rd ra rb : SReg)
  | popc (i : Issue) (rd ra rb : SReg)
  | clz (i : Issue) (rd ra rb : SReg)
  | ctz (i : Issue) (rd ra rb : SReg)
  | fxadd (i : Issue) (rd ra rb : SReg)
  | fxsub (i : Issue) (rd ra rb : SReg)
  | fxmul (i : Issue) (rd ra rb : SReg)
  | addi (i : Issue) (rd ra : SReg) (imm : Imm16)
  | andi (i : Issue) (rd ra : SReg) (imm : Imm16)
  | ori (i : Issue) (rd ra : SReg) (imm : Imm16)
  | xori (i : Issue) (rd ra : SReg) (imm : Imm16)
  | slti (i : Issue) (rd ra : SReg) (imm : Imm16)
  | shi (i : Issue) (rd ra : SReg) (imm : Imm16)
  | lui (i : Issue) (rd ra : SReg) (imm : Imm16)
  | lw (i : Issue) (rd ra : SReg) (imm : Imm16)
  | lh (i : Issue) (rd ra : SReg) (imm : Imm16)
  | lhu (i : Issue) (rd ra : SReg) (imm : Imm16)
  | lb (i : Issue) (rd ra : SReg) (imm : Imm16)
  | lbu (i : Issue) (rd ra : SReg) (imm : Imm16)
  | sw (i : Issue) (rb ra : SReg) (imm : Imm16)
  | sh (i : Issue) (rb ra : SReg) (imm : Imm16)
  | sb (i : Issue) (rb ra : SReg) (imm : Imm16)
  | beq (i : Issue) (rb ra : SReg) (imm : Imm16)
  | bne (i : Issue) (rb ra : SReg) (imm : Imm16)
  | blt (i : Issue) (rb ra : SReg) (imm : Imm16)
  | bge (i : Issue) (rb ra : SReg) (imm : Imm16)
  | bltu (i : Issue) (rb ra : SReg) (imm : Imm16)
  | bgeu (i : Issue) (rb ra : SReg) (imm : Imm16)
  | jal (i : Issue) (off : BitVec 26)
  | jalr (i : Issue) (rd ra : SReg) (imm : Imm16)
  | vld (i : Issue) (vd : VReg) (ra : SReg) (imm : Imm16)
  | vst (i : Issue) (vd : VReg) (ra : SReg) (imm : Imm16)
  | vmov (i : Issue) (vd va vb : VReg) (sx : SReg)
  | vnot (i : Issue) (vd va vb : VReg) (sx : SReg)
  | vand (i : Issue) (vd va vb : VReg) (sx : SReg)
  | vor (i : Issue) (vd va vb : VReg) (sx : SReg)
  | vxor (i : Issue) (vd va vb : VReg) (sx : SReg)
  | vandn (i : Issue) (vd va vb : VReg) (sx : SReg)
  | vtbind (i : Issue) (vd va vb : VReg) (sx : SReg)
  | vbtbind (i : Issue) (vd va vb : VReg) (sx : SReg)
  | vrot (i : Issue) (vd va vb : VReg) (sx : SReg)
  | vperm (i : Issue) (vd va vb : VReg) (sx : SReg)
  | vpop (i : Issue) (vd va vb : VReg) (sx : SReg)
  | vpopand (i : Issue) (vd va vb : VReg) (sx : SReg)
  | vpopxor (i : Issue) (vd va vb : VReg) (sx : SReg)
  | vdott2 (i : Issue) (vd va vb : VReg) (sx : SReg)
  | vcadd (i : Issue) (vd va vb : VReg) (sx : SReg)
  | vcaddt (i : Issue) (vd va vb : VReg) (sx : SReg)
  | vsign (i : Issue) (vd va vb : VReg) (sx : SReg)
  | vthin (i : Issue) (vd va vb : VReg) (sx : SReg)
  | tclr (i : Issue) (vd va vb : VReg) (sx : SReg)
  | tsave (i : Issue) (vd : VReg) (ra : SReg) (imm : Imm16)
  | tload (i : Issue) (vd : VReg) (ra : SReg) (imm : Imm16)
  | vdot8 (i : Issue) (vd va vb : VReg) (sx : SReg)
  | vext (i : Issue) (vd va vb : VReg) (sx : SReg) (word : BitVec 3)
  | vins (i : Issue) (vd va vb : VReg) (sx : SReg) (word : BitVec 3)
  | send (i : Issue) (rd ra : SReg) (imm : Imm16)
  | recv (i : Issue) (rd ra : SReg) (imm : Imm16)
  | wait (i : Issue) (rd ra : SReg) (imm : Imm16)
  | waitWake (core : CoreId)
  | fetch (i : Issue) (rd ra rb : SReg) (fn : BitVec 6)
  | fwait (i : Issue) (rd ra : SReg) (imm : Imm16)
  | fwaitDone (core : CoreId)
  | trace (i : Issue) (rd ra : SReg) (imm : Imm16)
  | barrier (i : Issue) (rd ra : SReg) (imm : Imm16)
  | barrierComplete (scope : Scope) (region : BitVec 9)
  | barrierTimeout (core : CoreId)
  | fence (i : Issue) (rd ra : SReg) (imm : Imm16)
  | fenceDone (core : CoreId)
  | halt (i : Issue) (off : BitVec 26)
  | csrr (i : Issue) (rd ra : SReg) (imm : Imm16)
  | csrw (i : Issue) (rd ra : SReg) (imm : Imm16)
  | csrc (i : Issue) (rd ra : SReg) (imm : Imm16)
  | eret (i : Issue) (off : BitVec 26)
  | flintTimerMatch (core : CoreId)
  | coreRestart (core : CoreId)
  | aditSpikes (stream : Stream)
  | tprocExpiry (stream : Stream)
  | sliverEncode (stream : Stream)
  | synapseRequest (msg : Msg)
  | epochHandshake (core : CoreId)
  | tilePassStart (die : Die) (bench : BitVec 13) (tag : Word) (tile : BitVec 5) (pattern : List RefRead)
  | tilePassComplete (die : Die) (bench : BitVec 13) (tag : Word) (tile : BitVec 5) (noise : List (BitVec 11 × Int))
  | benchResult (die : Die) (bench : BitVec 13) (tag : Word)
  | shaftLinkRetire (die : Die) (link : BitVec 1)
  | shaftLinkDown (die : Die) (link : BitVec 1)
  | batchStart (die : Die) (bench : BitVec 13)
  | programLoop (die : Die) (target : ProgTarget) (left : List LoopCell)
  | offline (die : Die)
  | online (die : Die)
  | check (die : Die)
  | dieReady (die : Die) (links : BitVec 2) (copies : BitVec 2)
  | benchCheckStart (die : Die)
  | benchCheckDone (die : Die) (bench : BitVec 13) (cells : List CellRead) (copies : List KeyCopy)
  | fullCalibration (die : Die) (phys : BitVec 16) (cells : List CellRead) (fits : List ColFit) (withheld : Bool)
  | recalibrationDue (die : Die) (tile : BitVec 15) (pattern : List RefRead)
  | patrolTile (die : Die) (cells : List CellRead) (fits : List ColFit) (withheld : Bool)
  | patrolRound (die : Die) (badSpares : List (BitVec 16))
  | refresh (die : Die)
  | stagingFill (die : Die) (tile : BitVec 15) (stuck : List CellRead) (fits : List ColFit)
  | stagingSwap (die : Die) (tile : BitVec 15)
  | tileReplace (die : Die) (tile : BitVec 15) (stuck : List CellRead)
  | benchMove (die : Die) (bench : BitVec 13)
  | pumpSoftStart (die : Die) (pump : BitVec 4) (outcome : PumpStart)
  | pumpStop (die : Die) (pump : BitVec 4)
  | oscRead (die : Die) (slowdown : List (BitVec 16))
  | serviceDayAdvance
  | planDue (measures : List Measure)
  | replan (die : Die) (measure : Measure)
  | recalNow (die : Die)
  | patrolNow (die : Die)
  | create (ring : Ring) (idx : Word)
  | deleteLib (ring : Ring) (idx : Word)
  | addBench (ring : Ring) (idx : Word)
  | removeBench (ring : Ring) (idx : Word)
  | write (ring : Ring) (idx : Word) (buf : List Byte) (dmaOk : Bool)
  | invalidate (ring : Ring) (idx : Word) (buf : List Byte) (dmaOk : Bool)
  | setFields (ring : Ring) (idx : Word) (buf : List Byte) (dmaOk : Bool)
  | read (ring : Ring) (idx : Word) (buf : List Byte) (dmaOk : Bool)
  | defineMatrix (ring : Ring) (idx : Word)
  | writeMatrix (ring : Ring) (idx : Word) (buf : List Byte) (dmaOk : Bool)
  | repair (ring : Ring) (idx : Word)
  | repairDone (lib : Lib) (entry : BitVec 24) (cells : List CellRead)
  | sliver (msg : Msg)
  | sliverWaitExpiry (stream : Stream) (start : Word64)
  | closeWaitExpiry (stream : Stream) (start : Word64)
  | requestAdmit
  | verify (tag : Word) (bad : List (Lib × BitVec 24))
  | appendWaitExpiry (lib : Lib)
  | writeStep (lib : Lib)
  | batchResult (die : Die) (bench : BitVec 13)
  | join
  | leave
  | tokenTake (lib : Lib)
  | tunnelPortUp (port : TPort)
  | tunnelLaneFault (port : TPort) (lane : BitVec 3)
  | hello (port : TPort) (frame : Frame) (crcOk : Bool) (content : HelloRec) (copies : List KeyCopy)
  | query (port : TPort) (frame : Frame) (crcOk : Bool)
  | answer (port : TPort) (frame : Frame) (crcOk : Bool)
  | append (port : TPort) (frame : Frame) (crcOk : Bool)
  | appendAck (port : TPort) (frame : Frame) (crcOk : Bool)
  | token (port : TPort) (frame : Frame) (crcOk : Bool)
  | lost (port : TPort) (frame : Frame) (crcOk : Bool)
  | mirror (port : TPort) (frame : Frame) (crcOk : Bool)
  | benchOp (port : TPort) (frame : Frame) (crcOk : Bool)
  | chain (port : TPort) (frame : Frame) (crcOk : Bool)
  | nak (port : TPort) (frame : Frame) (crcOk : Bool)
  | idle (port : TPort) (frame : Frame) (crcOk : Bool)
  | idleFrameSend (port : TPort)
  | cascSyncHigh
  | syncTimeout
  | matchTimeout
  | portDownTimeout (port : TPort)
  | checkingTimeout
  | answerTimeout (tag : Word)
  | appendAckTimeout (tag : Word)
  | epochBoundary
  | hsDone (msg : Msg)
  | hsWaitExpiry
  | closePoint
  | commitNow
  | confirm (ring : Ring) (idx : Word)
  | exportOp (ring : Ring) (idx : Word)
  | loadShadow (ring : Ring) (idx : Word) (buf : List Byte) (dmaOk : Bool)
  | chiselLcapWrite (hold : Bool) (value : Word)
  | chiselLibLearnWrite (lib : Lib) (value : Word)
  | kick (line : Doorbell)
  | doorbellPoll (lines : List Doorbell)
  | cancel (ring : Ring) (value : Word64)
  | ringEnable (ring : Ring) (cfg : Word) (host : Option Word)
  | ringZeroFillDone (ring : Ring) (ok : Bool)
  | ringDisable (ring : Ring)
  | ringStopped (ring : Ring)
  | search (ring : Ring) (idx : Word) (buf : List Byte) (dmaOk : Bool)
  | matrix (ring : Ring) (idx : Word) (buf : List Byte) (dmaOk : Bool)
  | exportBuffer (ring : Ring) (idx : Word) (dmaOk : Bool)
  | irqTimer (ring : Ring)
  | backlogDrain (ring : Ring) (ok : Bool)
  | watchdogExpiry (aGood bGood : Bool)
  | mbxInWrite (chan : Chan) (word : Word)
  | mbxOutRead (chan : Chan)
  | mbxWordTake (chan : Chan)
  | replyWrite (chan : Chan)
  | sync (chan : Chan)
  | version (chan : Chan)
  | loadProgram (chan : Chan) (image : List Byte) (nets : List NetDef) (dmaOk : Bool)
  | inspect (chan : Chan) (bad : Option (BitVec 9)) (dmaOk : Bool)
  | fwDownload (chan : Chan) (image : List Byte) (dmaOk : Bool)
  | fwVerify (chan : Chan) (sigOk : Bool)
  | fwActivate (chan : Chan)
  | bankSwitchDone (aGood bGood : Bool)
  | fwConfirm (chan : Chan)
  | fwRollback (chan : Chan)
  | trialExpiry
  | libDownload (chan : Chan) (image : List Byte) (dmaOk : Bool)
  | libDownloadDone
  | libVerify (chan : Chan) (sigOk : Bool)
  | libActivate (chan : Chan)
  | libConfirm (chan : Chan)
  | libRollback (chan : Chan)
  | libAbort (chan : Chan)
  | keyEnrol (chan : Chan) (image : List Byte) (sigOk dmaOk : Bool)
  | updateStatus (chan : Chan)
  | gmbxCoreWrite (msg : Msg)
  | gmbxCoreRequest (msg : Msg)
  | gmbxDataWrite (box : BitVec 3) (word : Word)
  | gmbxDataRead (box : BitVec 3)
  | tempSample (readings : List (BitVec 12))
  | tripLockoutExpiry
  | powerRun (path : Path)
  | powerIdle (path : Path)
  | powerSleep (path : Path)
  | powerDeepSleep (path : Path)
  | powerOff (path : Path)
  | streamQuiesceDone
  | entryAbort (refuser : BitVec 4)
  | powerEntryDone
  | powerExitDone (lines : List Doorbell)
  | wakeN
  | wakeTimerExpiry
  | pfwNFall
  | pfwNRise
  | journalFlushDone
  | journalPeriodic
  | railOffStep (stuck : Bool) (early : Option (BitVec 3))
  | railOnStep
  | por
  | brownout
  | railLow
  | powerLoss (vstbyLost : Bool)
  | sumpFault
  | sumpRestartDone
  | chiselFault
  | alarmDeliver (ok : Bool)
  | logRecordWrite (ok : Bool)
  | pmbAlert (words : List (BitVec 16))
  | voutRequest (core : Bool) (slowdown : BitVec 16) (ok : Bool)
  | mportRead (addr : Word) (badOp : Bool)
  | mportWrite (addr : Word) (value : Word) (badOp : Bool)
  | mportAbort (addr : Word) (write : Option Word) (cycle : BitVec 7)
  | timePpsEdge
  | ref10mLost
  | ref10mReturn
  | ppsLost
  | tickStart
  | extest (shift : BitVec 226) (pins : BitVec 226)
  | idcode
  | samplePreload (shift : BitVec 226) (pins : BitVec 226)
  | clamp
  | highz
  | extestPulse (shift : BitVec 226) (pins : BitVec 226)
  | extestTrain (shift : BitVec 226) (pins : BitVec 226)
  | bypass
  | prbsOff (p : Fin 6)
  | prbsCheck (p : Fin 6)
  | prbsGenerate (p : Fin 6)
  | pcieLinkUp (speed : BitVec 4) (width : BitVec 5)
  | illegalInstruction (i : Issue) (word : Word)
  | flintMFault (sram aGood bGood : Bool)
  | fatalDeviceFault (cause : Fin 3)
  | chiselReady
  | hbmTrained (ok : Bool)
  | fwDownloadDone (ok : Bool)
  | testLogicReset
  | prbsLock (p : Fin 6) (errors : BitVec 32)
  | faultAgeOut
  deriving DecidableEq, Repr

end Sys2Proof
end

