-- ==== Sys2Proof/Decode.lean ====
section
/-! DEFINITION.  The command that a word of the command table spells.  The table gives none of its rows any bits: the part takes its
commands as register accesses, protocol units and events, not as words, so no word spells one. -/

namespace Sys2Proof

/-- The command of a table word: none. -/
def decodeTableWord (_nbits _w : Nat) : Option Instr := none

end Sys2Proof
end

