-- ==== Sys2Proof/Config.lean ====
section
/-! DEFINITION.  What the specification leaves open: constants with no body, so that no proof can see
their value (assumptions 2 and 10).  A statement about the model holds for every value of them. -/

namespace Sys2Proof.Config

/-- A value the specification leaves open, by the number drawn from the state's counter. -/
opaque freeNat : Nat → Nat

/-- The decimator's output before rounding limits, for DEC_LOG2 and the input samples since the
synchronising reset, newest first: R108 gives the structure of the filters and not their taps. -/
opaque decimate : Nat → List Int → Int

/-- A die's 64-bit digest seed Z_k, set at manufacture (R246); the specification gives no value. -/
opaque digestSeed : Nat → BitVec 64

/-- Farwin's JEP106 identity in IDCODE, given only in the BSDL file (Table PINS-10). -/
opaque jep106 : BitVec 11

/-- The hub's fused VDD_CORE value in mV (Table PINS-4, R539). -/
opaque fusedCore : Nat

end Sys2Proof.Config
end

