-- ==== Sys2Proof/Machine/RegMap.lean ====
section
/-! DEFINITION.  The register map of BAR0: the address of every register, every field, and for
each register its access-code masks and its reset value (00_scope R14 to R23 and the register tables
of the chapters 03 to 16; Tables ADIT-13 to 23, GAL-13 to 16, SEAM-12 to 16, UPKEEP-10 to 13,
SUMP-12 to 14, APPROX-11 and 12, CASC-10 and 11, CHISEL-10 to 12, HOST-17 to 19, LANTERN-13 to 15,
POWER-12 and 13, PINS-13 and 14).

DESIGN CHOICE (assumption 3): a field whose Reset column reads "see Meaning" holds here the value
its Meaning gives for a new or fresh part; where its Meaning gives none, the value assumption 3
lists. -/

namespace Sys2Proof.Machine

/-- A field of a register: BAR0 byte offset of the register, lowest bit, width (R9, R18). -/
structure Fld where
  addr : Nat
  lo : Nat
  w : Nat
  deriving DecidableEq, Repr

/-- One row of the map: `count` registers `stride` bytes apart from `off` within their block.
`rw` and `w1c` are the bits a write stores and clears (Table SCOPE-6, without the fields whose writes
have a command of their own), `rc` the bits a read clears, `rd` the bits that read as stored, `nv`
the bits loaded from non-volatile state at bring-up (reset column "see Meaning"). -/
structure RegRow where
  off : Nat
  stride : Nat
  count : Nat
  rw : Nat
  w1c : Nat
  rc : Nat
  rd : Nat
  nv : Nat
  reset : Nat
  deriving DecidableEq, Repr

namespace R

abbrev ADIT_TIMEOUT : Nat := 0x200000
abbrev ADIT_STATUS : Nat := 0x200004
abbrev ADIT_SPARE_CTX : Nat := 0x200008
abbrev ADIT_REORDER_FILL : Nat := 0x20000C
abbrev ADIT_ALARM : Nat := 0x200010
abbrev ADIT_REPLAY_CTRL : Nat := 0x200014
abbrev ADIT_SSEL : Nat := 0x200020
abbrev ADIT_SS_STATE : Nat := 0x200024
abbrev ADIT_SS_MERGE : Nat := 0x200028
abbrev ADIT_SS_UNMAPPED : Nat := 0x20002C
abbrev ADIT_SS_LATE : Nat := 0x200030
abbrev ADIT_SS_BADEV : Nat := 0x200034
abbrev ADIT_SS_FILL : Nat := 0x200038
abbrev ADIT_SS_WAKE : Nat := 0x20003C
abbrev ADIT_PORT_CTRL (p : Nat) : Nat := 0x200100 + 0x40 * p
abbrev ADIT_PORT_SLOTS (p : Nat) : Nat := 0x200104 + 0x40 * p
abbrev ADIT_PORT_PERIOD (p : Nat) : Nat := 0x200108 + 0x40 * p
abbrev ADIT_PORT_LAT (p : Nat) : Nat := 0x20010C + 0x40 * p
abbrev ADIT_PORT_GAIN (p : Nat) : Nat := 0x200110 + 0x40 * p
abbrev ADIT_PORT_STATUS (p : Nat) : Nat := 0x200114 + 0x40 * p
abbrev ADIT_PORT_CRC (p : Nat) : Nat := 0x200118 + 0x40 * p
abbrev ADIT_PORT_GAPS (p : Nat) : Nat := 0x20011C + 0x40 * p
abbrev ADIT_PORT_LATE (p : Nat) : Nat := 0x200120 + 0x40 * p
abbrev ADIT_PORT_SLIP (p : Nat) : Nat := 0x200124 + 0x40 * p
abbrev ADIT_PORT_FRAME (p : Nat) : Nat := 0x200128 + 0x40 * p
abbrev ADIT_STREAM_CFG (n : Nat) : Nat := 0x300000 + 0x10 * n
abbrev ADIT_STREAM_WIN (n : Nat) : Nat := 0x300004 + 0x10 * n
abbrev ADIT_STREAM_TIME (n : Nat) : Nat := 0x300008 + 0x10 * n
abbrev ADIT_STREAM_NET (n : Nat) : Nat := 0x30000C + 0x10 * n
abbrev GAL_CFG : Nat := 0x400000
abbrev GAL_STATUS : Nat := 0x400004
abbrev GAL_SEED_LO : Nat := 0x400008
abbrev GAL_SEED_HI : Nat := 0x40000C
abbrev GAL_EJECT_WAIT : Nat := 0x400010
abbrev GAL_ALARM : Nat := 0x400014
abbrev GAL_EDGE_BADDEST : Nat := 0x400018
abbrev GAL_GROUP_READY_LO : Nat := 0x400020
abbrev GAL_GROUP_READY_HI : Nat := 0x400024
abbrev GAL_TOTAL_SUNK_LO : Nat := 0x400028
abbrev GAL_TOTAL_SUNK_HI : Nat := 0x40002C
abbrev GAL_TOTAL_DROP_LO : Nat := 0x400030
abbrev GAL_TOTAL_DROP_HI : Nat := 0x400034
abbrev GAL_CSEL : Nat := 0x400040
abbrev GAL_CS_STATE : Nat := 0x400044
abbrev GAL_CS_SENT : Nat := 0x400048
abbrev GAL_CS_RECV : Nat := 0x40004C
abbrev GAL_CS_SUNK : Nat := 0x400050
abbrev GAL_CS_DROP : Nat := 0x400054
abbrev GAL_CS_EJWAIT : Nat := 0x400058
abbrev GAL_CS_OVFPEAK : Nat := 0x40005C
abbrev GAL_CS_UNINIT : Nat := 0x400060
abbrev GAL_CS_CODERR : Nat := 0x400064
abbrev GAL_CS_ECC : Nat := 0x400068
abbrev GAL_GROUP_CTRL (g : Nat) : Nat := 0x400100 + 0x10 * g
abbrev GAL_GROUP_STATUS (g : Nat) : Nat := 0x400104 + 0x10 * g
abbrev GAL_PF_CTRL (n : Nat) : Nat := 0x400800 + 0x10 * n
abbrev GAL_PF_BASE (n : Nat) : Nat := 0x400804 + 0x10 * n
abbrev GAL_PF_LEN (n : Nat) : Nat := 0x400808 + 0x10 * n
abbrev GAL_PF_HITS (n : Nat) : Nat := 0x40080C + 0x10 * n
abbrev GAL_SUBST (k : Nat) : Nat := 0x400C00 + 0x4 * k
abbrev GAL_STREAM_MAP (s : Nat) : Nat := 0x500000 + 0x4 * s
abbrev SEAM_STATUS (k : Nat) : Nat := 0x800000 + 0x100000 * k
abbrev SEAM_SLOTS (k : Nat) : Nat := 0x800004 + 0x100000 * k
abbrev SEAM_PUMPS (k : Nat) : Nat := 0x800008 + 0x100000 * k
abbrev SEAM_ALARM (k : Nat) : Nat := 0x80000C + 0x100000 * k
abbrev SEAM_EVALS_LO (k : Nat) : Nat := 0x800010 + 0x100000 * k
abbrev SEAM_EVALS_HI (k : Nat) : Nat := 0x800014 + 0x100000 * k
abbrev SEAM_CHECK_FAIL (k : Nat) : Nat := 0x800018 + 0x100000 * k
abbrev SEAM_RETRY (k : Nat) : Nat := 0x80001C + 0x100000 * k
abbrev SEAM_TRUNC (k : Nat) : Nat := 0x800020 + 0x100000 * k
abbrev SEAM_BATCHES (k : Nat) : Nat := 0x800024 + 0x100000 * k
abbrev SEAM_OUTLIER_OVF (k : Nat) : Nat := 0x800028 + 0x100000 * k
abbrev SEAM_BSEL (k : Nat) : Nat := 0x800040 + 0x100000 * k
abbrev SEAM_BENCH_STATE (k : Nat) : Nat := 0x800044 + 0x100000 * k
abbrev SEAM_BENCH_CMD (k : Nat) : Nat := 0x800048 + 0x100000 * k
abbrev SEAM_BENCH_READY (k w : Nat) : Nat := 0x800100 + 0x100000 * k + 0x4 * w
abbrev SEAM_TSEL (k : Nat) : Nat := 0x800800 + 0x100000 * k
abbrev SEAM_TILE_STATE (k : Nat) : Nat := 0x800804 + 0x100000 * k
abbrev SEAM_TILE_INFO (k : Nat) : Nat := 0x800808 + 0x100000 * k
abbrev SEAM_TILE_WEAR (k : Nat) : Nat := 0x80080C + 0x100000 * k
abbrev SEAM_TILE_BUDGET (k : Nat) : Nat := 0x800810 + 0x100000 * k
abbrev SEAM_TILE_MARGIN (k : Nat) : Nat := 0x800814 + 0x100000 * k
abbrev SEAM_UPKEEP_CTRL (k : Nat) : Nat := 0x800A00 + 0x100000 * k
abbrev SEAM_UPKEEP_STATUS (k : Nat) : Nat := 0x800A04 + 0x100000 * k
abbrev SEAM_PLAN_MARGIN (k : Nat) : Nat := 0x800A08 + 0x100000 * k
abbrev SEAM_PLAN_TIME (k : Nat) : Nat := 0x800A0C + 0x100000 * k
abbrev SEAM_PLAN_WEAR (k : Nat) : Nat := 0x800A10 + 0x100000 * k
abbrev SEAM_PLAN_INFO (k : Nat) : Nat := 0x800A14 + 0x100000 * k
abbrev SEAM_PLAN_GUARD (k : Nat) : Nat := 0x800A18 + 0x100000 * k
abbrev SEAM_UPKEEP_ALARM (k : Nat) : Nat := 0x800A1C + 0x100000 * k
abbrev SEAM_REFRESH_COLS (k : Nat) : Nat := 0x800A20 + 0x100000 * k
abbrev SEAM_DRIFT_LATE (k : Nat) : Nat := 0x800A24 + 0x100000 * k
abbrev SEAM_FLIPPED (k : Nat) : Nat := 0x800A28 + 0x100000 * k
abbrev SEAM_RECALS (k : Nat) : Nat := 0x800A2C + 0x100000 * k
abbrev SEAM_REMAPS (k : Nat) : Nat := 0x800A30 + 0x100000 * k
abbrev SEAM_FILLS (k : Nat) : Nat := 0x800A34 + 0x100000 * k
abbrev SEAM_PUMP_FAULTS (k : Nat) : Nat := 0x800A38 + 0x100000 * k
abbrev SEAM_OSC (k p : Nat) : Nat := 0x800A40 + 0x100000 * k + 0x4 * p
abbrev SEAM_COLMAP (k n : Nat) : Nat := 0x801000 + 0x100000 * k + 0x4 * n
abbrev SEAM_OUTLIER (k n : Nat) : Nat := 0x802000 + 0x100000 * k + 0x4 * n
abbrev SEAM_CAL_GAIN (k n : Nat) : Nat := 0x804000 + 0x100000 * k + 0x4 * n
abbrev SEAM_CAL_OFFSET (k n : Nat) : Nat := 0x806000 + 0x100000 * k + 0x4 * n
abbrev SEAM_WEAR (k n : Nat) : Nat := 0x808000 + 0x100000 * k + 0x4 * n
abbrev SUMP_CFG : Nat := 0x1000000
abbrev SUMP_STATUS : Nat := 0x1000004
abbrev SUMP_ALARM : Nat := 0x1000008
abbrev SUMP_MIRROR_BASE : Nat := 0x100000C
abbrev SUMP_SLIVER_WAIT : Nat := 0x1000010
abbrev SUMP_THROTTLE : Nat := 0x1000014
abbrev SUMP_QDEPTH : Nat := 0x1000018
abbrev SUMP_APPEND_WAIT : Nat := 0x100001C
abbrev SUMP_QUERIES_LO : Nat := 0x1000020
abbrev SUMP_QUERIES_HI : Nat := 0x1000024
abbrev SUMP_VERIFIES_LO : Nat := 0x1000028
abbrev SUMP_VERIFIES_HI : Nat := 0x100002C
abbrev SUMP_FALSE_HITS : Nat := 0x1000030
abbrev SUMP_BOUND_EXCEED : Nat := 0x1000034
abbrev SUMP_MIRROR_ERRS : Nat := 0x1000038
abbrev SUMP_BUSY_SKIPS : Nat := 0x100003C
abbrev SUMP_LATE_SLIVERS : Nat := 0x1000040
abbrev SUMP_RECALL_DROPS : Nat := 0x1000044
abbrev SUMP_BADTAG : Nat := 0x1000048
abbrev SUMP_SYN_DROPS : Nat := 0x100004C
abbrev SUMP_WRITE_FAILS : Nat := 0x1000050
abbrev SUMP_QUARANTINED : Nat := 0x1000060
abbrev SUMP_LIB_CFG (l : Nat) : Nat := 0x1000100 + 0x10 * l
abbrev SUMP_LIB_NOVEL (l : Nat) : Nat := 0x1000104 + 0x10 * l
abbrev SUMP_LIB_SIZE (l : Nat) : Nat := 0x1000108 + 0x10 * l
abbrev SUMP_LIB_CURSOR (l : Nat) : Nat := 0x100010C + 0x10 * l
abbrev SUMP_BSEL : Nat := 0x1000200
abbrev SUMP_BENCH_LIB : Nat := 0x1000204
abbrev SUMP_ESEL : Nat := 0x1000210
abbrev SUMP_ENTRY (w : Nat) : Nat := 0x1000220 + 0x4 * w
abbrev SUMP_MTX (n : Nat) : Nat := 0x1000400 + 0x10 * n
abbrev SUMP_MTX_SHAPE (n : Nat) : Nat := 0x1000404 + 0x10 * n
abbrev SUMP_MTX_AREA (n : Nat) : Nat := 0x1000408 + 0x10 * n
abbrev SUMP_STREAM (s : Nat) : Nat := 0x1080000 + 0x4 * s
abbrev SUMP_QCFG : Nat := 0x1002000
abbrev SUMP_QBAND (q : Nat) : Nat := 0x1002000 + 0x4 * q
abbrev SUMP_Q_PREFIX : Nat := 0x1002020
abbrev SUMP_Q_REFINE : Nat := 0x1002024
abbrev SUMP_Q_EDGE : Nat := 0x1002028
abbrev SUMP_Q_FORCED : Nat := 0x100202C
abbrev SUMP_Q_MSB : Nat := 0x1002030
abbrev SUMP_QSTREAM (w : Nat) : Nat := 0x1020000 + 0x4 * w
abbrev TUNNEL_CFG : Nat := 0x1300000
abbrev TUNNEL_CTRL : Nat := 0x1300004
abbrev TUNNEL_STATUS : Nat := 0x1300008
abbrev TUNNEL_ALARM : Nat := 0x130000C
abbrev TUNNEL_ANS_WAIT : Nat := 0x1300010
abbrev TUNNEL_MIRROR : Nat := 0x1300014
abbrev TUNNEL_FWD : Nat := 0x1300020
abbrev TUNNEL_SERVED : Nat := 0x1300024
abbrev TUNNEL_PARTIAL : Nat := 0x1300028
abbrev TUNNEL_LATE_ANS : Nat := 0x130002C
abbrev TUNNEL_REMOTE_BUSY : Nat := 0x1300030
abbrev TUNNEL_APPEND_LOST : Nat := 0x1300034
abbrev TUNNEL_PORT_STATUS (p : Nat) : Nat := 0x1300100 + 0x40 * p
abbrev TUNNEL_PORT_CRC (p : Nat) : Nat := 0x1300104 + 0x40 * p
abbrev TUNNEL_PORT_REPLAY (p : Nat) : Nat := 0x1300108 + 0x40 * p
abbrev TUNNEL_PORT_RETRAIN (p : Nat) : Nat := 0x130010C + 0x40 * p
abbrev TUNNEL_LIB (l : Nat) : Nat := 0x1300200 + 0x10 * l
abbrev TUNNEL_LIB_RANGE (l : Nat) : Nat := 0x1300204 + 0x10 * l
abbrev TUNNEL_LIB_GEN (l : Nat) : Nat := 0x1300208 + 0x10 * l
abbrev CHISEL_CFG : Nat := 0x1100000
abbrev CHISEL_CTRL : Nat := 0x1100004
abbrev CHISEL_STATUS : Nat := 0x1100008
abbrev CHISEL_ALARM : Nat := 0x110000C
abbrev CHISEL_EPOCH_LO : Nat := 0x1100010
abbrev CHISEL_EPOCH_HI : Nat := 0x1100014
abbrev CHISEL_SEQ : Nat := 0x1100018
abbrev CHISEL_CLOSE_WAIT : Nat := 0x110001C
abbrev CHISEL_HS_WAIT : Nat := 0x1100020
abbrev CHISEL_PROTO : Nat := 0x1100024
abbrev CHISEL_COMMIT : Nat := 0x1100028
abbrev CHISEL_POOL : Nat := 0x110002C
abbrev CHISEL_STDP : Nat := 0x1100030
abbrev CHISEL_DELAY : Nat := 0x1100034
abbrev CHISEL_BG : Nat := 0x1100038
abbrev CHISEL_EXCL : Nat := 0x110003C
abbrev CHISEL_LCAP : Nat := 0x1100040
abbrev CHISEL_HOLD : Nat := 0x1100044
abbrev CHISEL_USED : Nat := 0x1100048
abbrev CHISEL_BG_BASE : Nat := 0x110004C
abbrev CHISEL_UPDATES_LO : Nat := 0x1100060
abbrev CHISEL_UPDATES_HI : Nat := 0x1100064
abbrev CHISEL_LATE : Nat := 0x1100068
abbrev CHISEL_CONF_DROPS : Nat := 0x110006C
abbrev CHISEL_POOL_DROPS : Nat := 0x1100070
abbrev CHISEL_COMMITS : Nat := 0x1100074
abbrev CHISEL_DEFERRED : Nat := 0x1100078
abbrev CHISEL_CREATED : Nat := 0x110007C
abbrev CHISEL_HS_LATE : Nat := 0x1100080
abbrev CHISEL_CONFLICTS : Nat := 0x1100084
abbrev CHISEL_SHADOW_DISCARDS : Nat := 0x1100088
abbrev CHISEL_BADTAG : Nat := 0x110008C
abbrev CHISEL_LIB (l : Nat) : Nat := 0x1100100 + 0x10 * l
abbrev CHISEL_LIB_DIST (l : Nat) : Nat := 0x1100104 + 0x10 * l
abbrev CHISEL_LIB_DUE (l : Nat) : Nat := 0x1100108 + 0x10 * l
abbrev CHISEL_STREAM (s : Nat) : Nat := 0x1180000 + 0x4 * s
abbrev HOST_STATUS : Nat := 0x100000
abbrev HOST_ALARM : Nat := 0x100004
abbrev HOST_DB_LO : Nat := 0x100008
abbrev HOST_DB_HI : Nat := 0x10000C
abbrev HOST_SP_LO : Nat := 0x100010
abbrev HOST_SP_HI : Nat := 0x100014
abbrev HOST_POLL : Nat := 0x100018
abbrev HOST_ACCESS_ERR : Nat := 0x100020
abbrev HOST_DMA_ERR : Nat := 0x100024
abbrev HOST_UNINIT : Nat := 0x100028
abbrev HOST_HBM_UNINIT : Nat := 0x10002C
abbrev HOST_RING_CFG (r : Nat) : Nat := 0x101000 + 0x40 * r
abbrev HOST_RING_BASE_LO (r : Nat) : Nat := 0x101004 + 0x40 * r
abbrev HOST_RING_BASE_HI (r : Nat) : Nat := 0x101008 + 0x40 * r
abbrev HOST_RING_IRQ (r : Nat) : Nat := 0x10100C + 0x40 * r
abbrev HOST_RING_STATUS (r : Nat) : Nat := 0x101010 + 0x40 * r
abbrev HOST_RING_DEV (r : Nat) : Nat := 0x101014 + 0x40 * r
abbrev HOST_RING_HOST (r : Nat) : Nat := 0x101018 + 0x40 * r
abbrev HOST_RING_FLUSHED (r : Nat) : Nat := 0x10101C + 0x40 * r
abbrev HOST_RING_CANCELLED (r : Nat) : Nat := 0x101020 + 0x40 * r
abbrev HOST_RING_LATECANCEL (r : Nat) : Nat := 0x101024 + 0x40 * r
abbrev HOST_STREAM_RING (w : Nat) : Nat := 0x140000 + 0x4 * w
abbrev LANTERN_STATUS : Nat := 0x0
abbrev LANTERN_ALARM : Nat := 0x4
abbrev LANTERN_FW_RUN : Nat := 0x8
abbrev LANTERN_SVN : Nat := 0xC
abbrev LANTERN_BANKS : Nat := 0x10
abbrev LANTERN_BANK_VER (n : Nat) : Nat := 0x14 + 0x4 * n
abbrev LANTERN_UPDATE : Nat := 0x1C
abbrev LANTERN_TRIAL_WAIT : Nat := 0x20
abbrev LANTERN_RESTARTS : Nat := 0x24
abbrev LANTERN_MBX_DROP : Nat := 0x28
abbrev LANTERN_BADTAG : Nat := 0x2C
abbrev MBX_IN_DATA (n : Nat) : Nat := 0x100 + 0x4 * n
abbrev MBX_OUT_DATA (n : Nat) : Nat := 0x180 + 0x4 * n
abbrev MBX_IN_FULL : Nat := 0x200
abbrev MBX_IN_COLLISION : Nat := 0x204
abbrev MBX_OUT_FULL : Nat := 0x208
abbrev MBX_OUT_COLLISION : Nat := 0x20C
abbrev MBX_IRQ : Nat := 0x210
abbrev LANTERN_GMBX_DATA (n : Nat) : Nat := 0x300 + 0x4 * n
abbrev LANTERN_GMBX_STATUS : Nat := 0x320
abbrev LANTERN_GMBX_SRC (n : Nat) : Nat := 0x324 + 0x4 * n
abbrev POWER_CMD : Nat := 0x1200000
abbrev POWER_STATUS : Nat := 0x1200004
abbrev POWER_READY : Nat := 0x1200008
abbrev POWER_ALARM : Nat := 0x120000C
abbrev POWER_SUMMARY : Nat := 0x1200010
abbrev POWER_ALERT_EN : Nat := 0x1200014
abbrev POWER_LAST_WAKE : Nat := 0x1200018
abbrev POWER_WAKE_CFG : Nat := 0x120001C
abbrev POWER_WAKE_TIMER : Nat := 0x1200020
abbrev POWER_PFW_CFG : Nat := 0x1200024
abbrev POWER_THERMAL : Nat := 0x1200028
abbrev POWER_FAULT : Nat := 0x120002C
abbrev POWER_SEQ : Nat := 0x1200030
abbrev POWER_LOG_CFG : Nat := 0x1200034
abbrev POWER_UPTIME_LO : Nat := 0x1200038
abbrev POWER_UPTIME_HI : Nat := 0x120003C
abbrev POWER_REFUSE (n : Nat) : Nat := 0x1200040 + 0x4 * n
abbrev POWER_LOG_DROP : Nat := 0x1200070
abbrev POWER_ALARM_LOST : Nat := 0x1200074
abbrev POWER_ASLEEP_ACCESS : Nat := 0x1200078
abbrev POWER_TEMP (n : Nat) : Nat := 0x1200080 + 0x4 * n
abbrev TEST_ID : Nat := 0x1400000
abbrev TEST_ALARM : Nat := 0x1400004
abbrev TEST_SERIAL_LO : Nat := 0x1400008
abbrev TEST_SERIAL_HI : Nat := 0x140000C
abbrev TEST_PMB_CFG : Nat := 0x1400010
abbrev TEST_MPORT_ABORT : Nat := 0x1400014
abbrev TEST_PMB_ERR : Nat := 0x1400018
abbrev TEST_PMB_RAIL (n : Nat) : Nat := 0x1400020 + 0x4 * n
abbrev TEST_RAIL (n : Nat) : Nat := 0x1400060 + 0x4 * n
abbrev TEST_TIME_CTRL : Nat := 0x1400100
abbrev TEST_TIME_STATUS : Nat := 0x1400104
abbrev TEST_TIME_NEXT_LO : Nat := 0x1400108
abbrev TEST_TIME_NEXT_HI : Nat := 0x140010C
abbrev TEST_TIME_NOW_LO : Nat := 0x1400110
abbrev TEST_TIME_NOW_HI : Nat := 0x1400114
abbrev TEST_TIME_OFFSET : Nat := 0x1400118
abbrev TEST_TICK_CTRL : Nat := 0x1400120
abbrev TEST_TICK_PERIOD : Nat := 0x1400124
abbrev TEST_TICK_T0_LO : Nat := 0x1400128
abbrev TEST_TICK_T0_HI : Nat := 0x140012C
abbrev TEST_TICK_NOW_LO : Nat := 0x1400130
abbrev TEST_TICK_NOW_HI : Nat := 0x1400134
abbrev TEST_PRBS_CTRL (p : Nat) : Nat := 0x1400200 + 0x10 * p
abbrev TEST_PRBS_ERR (p : Nat) : Nat := 0x1400204 + 0x10 * p

end R

namespace F

abbrev ADIT_TIMEOUT_TIMEOUT : Fld := ⟨R.ADIT_TIMEOUT, 0, 16⟩
abbrev ADIT_STATUS_REPLAY_READY : Fld := ⟨R.ADIT_STATUS, 5, 1⟩
abbrev ADIT_STATUS_HOST_INGEST_READY : Fld := ⟨R.ADIT_STATUS, 4, 1⟩
abbrev ADIT_STATUS_PORT_READY : Fld := ⟨R.ADIT_STATUS, 0, 4⟩
abbrev ADIT_SPARE_CTX_SPARES : Fld := ⟨R.ADIT_SPARE_CTX, 0, 11⟩
abbrev ADIT_REORDER_FILL_EVENTS : Fld := ⟨R.ADIT_REORDER_FILL, 0, 26⟩
abbrev ADIT_ALARM_FRAME_ERR : Fld := ⟨R.ADIT_ALARM, 7, 1⟩
abbrev ADIT_ALARM_PROFILE_BUSY : Fld := ⟨R.ADIT_ALARM, 6, 1⟩
abbrev ADIT_ALARM_RATE_REFUSED : Fld := ⟨R.ADIT_ALARM, 5, 1⟩
abbrev ADIT_ALARM_REORDER_FULL : Fld := ⟨R.ADIT_ALARM, 4, 1⟩
abbrev ADIT_ALARM_LANE_RETIRED : Fld := ⟨R.ADIT_ALARM, 3, 1⟩
abbrev ADIT_ALARM_STREAM_RETIRED : Fld := ⟨R.ADIT_ALARM, 2, 1⟩
abbrev ADIT_ALARM_CTX_RETIRED : Fld := ⟨R.ADIT_ALARM, 1, 1⟩
abbrev ADIT_ALARM_SYSREF_SLIP : Fld := ⟨R.ADIT_ALARM, 0, 1⟩
abbrev ADIT_REPLAY_CTRL_PLANNING : Fld := ⟨R.ADIT_REPLAY_CTRL, 2, 1⟩
abbrev ADIT_REPLAY_CTRL_PLANNED : Fld := ⟨R.ADIT_REPLAY_CTRL, 1, 1⟩
abbrev ADIT_REPLAY_CTRL_PLAN : Fld := ⟨R.ADIT_REPLAY_CTRL, 0, 1⟩
abbrev ADIT_SSEL_STREAM : Fld := ⟨R.ADIT_SSEL, 0, 16⟩
abbrev ADIT_SS_STATE_RETIRED : Fld := ⟨R.ADIT_SS_STATE, 31, 1⟩
abbrev ADIT_SS_STATE_SUSPENDED : Fld := ⟨R.ADIT_SS_STATE, 30, 1⟩
abbrev ADIT_SS_STATE_NO_QUIET : Fld := ⟨R.ADIT_SS_STATE, 29, 1⟩
abbrev ADIT_SS_STATE_BG_WARM : Fld := ⟨R.ADIT_SS_STATE, 28, 1⟩
abbrev ADIT_SS_STATE_GAIN_HOLD : Fld := ⟨R.ADIT_SS_STATE, 27, 1⟩
abbrev ADIT_SS_STATE_SETTLING : Fld := ⟨R.ADIT_SS_STATE, 26, 1⟩
abbrev ADIT_SS_STATE_FAULTS24H : Fld := ⟨R.ADIT_SS_STATE, 24, 2⟩
abbrev ADIT_SS_STATE_STOP_PENDING : Fld := ⟨R.ADIT_SS_STATE, 23, 1⟩
abbrev ADIT_SS_STATE_CTX : Fld := ⟨R.ADIT_SS_STATE, 0, 17⟩
abbrev ADIT_SS_MERGE_COUNT : Fld := ⟨R.ADIT_SS_MERGE, 0, 32⟩
abbrev ADIT_SS_UNMAPPED_COUNT : Fld := ⟨R.ADIT_SS_UNMAPPED, 0, 32⟩
abbrev ADIT_SS_LATE_COUNT : Fld := ⟨R.ADIT_SS_LATE, 0, 32⟩
abbrev ADIT_SS_BADEV_COUNT : Fld := ⟨R.ADIT_SS_BADEV, 0, 32⟩
abbrev ADIT_SS_FILL_COUNT : Fld := ⟨R.ADIT_SS_FILL, 0, 32⟩
abbrev ADIT_SS_WAKE_LAST_WAKE : Fld := ⟨R.ADIT_SS_WAKE, 0, 32⟩
abbrev ADIT_PORT_CTRL_EMB (p : Nat) : Fld := ⟨R.ADIT_PORT_CTRL p, 6, 2⟩
abbrev ADIT_PORT_CTRL_RESYNC (p : Nat) : Fld := ⟨R.ADIT_PORT_CTRL p, 5, 1⟩
abbrev ADIT_PORT_CTRL_WIDTH (p : Nat) : Fld := ⟨R.ADIT_PORT_CTRL p, 4, 1⟩
abbrev ADIT_PORT_CTRL_LANES (p : Nat) : Fld := ⟨R.ADIT_PORT_CTRL p, 2, 2⟩
abbrev ADIT_PORT_CTRL_EN (p : Nat) : Fld := ⟨R.ADIT_PORT_CTRL p, 0, 1⟩
abbrev ADIT_PORT_SLOTS_SLOTS (p : Nat) : Fld := ⟨R.ADIT_PORT_SLOTS p, 0, 15⟩
abbrev ADIT_PORT_PERIOD_PERIOD (p : Nat) : Fld := ⟨R.ADIT_PORT_PERIOD p, 0, 24⟩
abbrev ADIT_PORT_LAT_LAT (p : Nat) : Fld := ⟨R.ADIT_PORT_LAT p, 0, 16⟩
abbrev ADIT_PORT_GAIN_SHIFT3 (p : Nat) : Fld := ⟨R.ADIT_PORT_GAIN p, 12, 4⟩
abbrev ADIT_PORT_GAIN_SHIFT2 (p : Nat) : Fld := ⟨R.ADIT_PORT_GAIN p, 8, 4⟩
abbrev ADIT_PORT_GAIN_SHIFT1 (p : Nat) : Fld := ⟨R.ADIT_PORT_GAIN p, 4, 4⟩
abbrev ADIT_PORT_GAIN_SHIFT0 (p : Nat) : Fld := ⟨R.ADIT_PORT_GAIN p, 0, 4⟩
abbrev ADIT_PORT_STATUS_LANE_UP (p : Nat) : Fld := ⟨R.ADIT_PORT_STATUS p, 16, 8⟩
abbrev ADIT_PORT_STATUS_LANE_RETIRED (p : Nat) : Fld := ⟨R.ADIT_PORT_STATUS p, 8, 8⟩
abbrev ADIT_PORT_STATUS_SYSREF_CAPTURED (p : Nat) : Fld := ⟨R.ADIT_PORT_STATUS p, 2, 1⟩
abbrev ADIT_PORT_STATUS_ALIGNED (p : Nat) : Fld := ⟨R.ADIT_PORT_STATUS p, 1, 1⟩
abbrev ADIT_PORT_STATUS_READY (p : Nat) : Fld := ⟨R.ADIT_PORT_STATUS p, 0, 1⟩
abbrev ADIT_PORT_CRC_COUNT (p : Nat) : Fld := ⟨R.ADIT_PORT_CRC p, 0, 32⟩
abbrev ADIT_PORT_GAPS_COUNT (p : Nat) : Fld := ⟨R.ADIT_PORT_GAPS p, 0, 32⟩
abbrev ADIT_PORT_LATE_COUNT (p : Nat) : Fld := ⟨R.ADIT_PORT_LATE p, 0, 32⟩
abbrev ADIT_PORT_SLIP_COUNT (p : Nat) : Fld := ⟨R.ADIT_PORT_SLIP p, 0, 32⟩
abbrev ADIT_PORT_FRAME_COUNT (p : Nat) : Fld := ⟨R.ADIT_PORT_FRAME p, 0, 32⟩
abbrev ADIT_STREAM_CFG_EN (n : Nat) : Fld := ⟨R.ADIT_STREAM_CFG n, 31, 1⟩
abbrev ADIT_STREAM_CFG_WATCH (n : Nat) : Fld := ⟨R.ADIT_STREAM_CFG n, 30, 1⟩
abbrev ADIT_STREAM_CFG_ABORT (n : Nat) : Fld := ⟨R.ADIT_STREAM_CFG n, 29, 1⟩
abbrev ADIT_STREAM_CFG_SOURCE (n : Nat) : Fld := ⟨R.ADIT_STREAM_CFG n, 26, 3⟩
abbrev ADIT_STREAM_CFG_PROFILE (n : Nat) : Fld := ⟨R.ADIT_STREAM_CFG n, 20, 6⟩
abbrev ADIT_STREAM_CFG_SLOT (n : Nat) : Fld := ⟨R.ADIT_STREAM_CFG n, 0, 14⟩
abbrev ADIT_STREAM_WIN_W (n : Nat) : Fld := ⟨R.ADIT_STREAM_WIN n, 16, 16⟩
abbrev ADIT_STREAM_WIN_PHASE (n : Nat) : Fld := ⟨R.ADIT_STREAM_WIN n, 0, 16⟩
abbrev ADIT_STREAM_TIME_G (n : Nat) : Fld := ⟨R.ADIT_STREAM_TIME n, 16, 16⟩
abbrev ADIT_STREAM_TIME_DELAY (n : Nat) : Fld := ⟨R.ADIT_STREAM_TIME n, 0, 16⟩
abbrev ADIT_STREAM_NET_N (n : Nat) : Fld := ⟨R.ADIT_STREAM_NET n, 21, 11⟩
abbrev ADIT_STREAM_NET_REPLAY_SRC (n : Nat) : Fld := ⟨R.ADIT_STREAM_NET n, 0, 16⟩
abbrev GAL_CFG_DSEL : Fld := ⟨R.GAL_CFG, 0, 2⟩
abbrev GAL_STATUS_SPARES : Fld := ⟨R.GAL_STATUS, 0, 9⟩
abbrev GAL_SEED_LO_SEED : Fld := ⟨R.GAL_SEED_LO, 0, 32⟩
abbrev GAL_SEED_HI_SEED : Fld := ⟨R.GAL_SEED_HI, 0, 32⟩
abbrev GAL_EJECT_WAIT_WAIT : Fld := ⟨R.GAL_EJECT_WAIT, 0, 16⟩
abbrev GAL_ALARM_CMD_REFUSED : Fld := ⟨R.GAL_ALARM, 6, 1⟩
abbrev GAL_ALARM_CFG_BUSY : Fld := ⟨R.GAL_ALARM, 5, 1⟩
abbrev GAL_ALARM_NO_SPARE : Fld := ⟨R.GAL_ALARM, 4, 1⟩
abbrev GAL_ALARM_SPARE_BORROWED : Fld := ⟨R.GAL_ALARM, 3, 1⟩
abbrev GAL_ALARM_CORE_FENCED : Fld := ⟨R.GAL_ALARM, 2, 1⟩
abbrev GAL_ALARM_EVENT_DROP : Fld := ⟨R.GAL_ALARM, 1, 1⟩
abbrev GAL_ALARM_UNINIT_READ : Fld := ⟨R.GAL_ALARM, 0, 1⟩
abbrev GAL_EDGE_BADDEST_COUNT : Fld := ⟨R.GAL_EDGE_BADDEST, 0, 32⟩
abbrev GAL_GROUP_READY_LO_READY : Fld := ⟨R.GAL_GROUP_READY_LO, 0, 32⟩
abbrev GAL_GROUP_READY_HI_READY : Fld := ⟨R.GAL_GROUP_READY_HI, 0, 32⟩
abbrev GAL_TOTAL_SUNK_LO_COUNT : Fld := ⟨R.GAL_TOTAL_SUNK_LO, 0, 32⟩
abbrev GAL_TOTAL_SUNK_HI_COUNT : Fld := ⟨R.GAL_TOTAL_SUNK_HI, 0, 32⟩
abbrev GAL_TOTAL_DROP_LO_COUNT : Fld := ⟨R.GAL_TOTAL_DROP_LO, 0, 32⟩
abbrev GAL_TOTAL_DROP_HI_COUNT : Fld := ⟨R.GAL_TOTAL_DROP_HI, 0, 32⟩
abbrev GAL_CSEL_Y : Fld := ⟨R.GAL_CSEL, 7, 7⟩
abbrev GAL_CSEL_X : Fld := ⟨R.GAL_CSEL, 0, 7⟩
abbrev GAL_CS_STATE_FENCED : Fld := ⟨R.GAL_CS_STATE, 31, 1⟩
abbrev GAL_CS_STATE_SPARE : Fld := ⟨R.GAL_CS_STATE, 30, 1⟩
abbrev GAL_CS_STATE_FINISHED : Fld := ⟨R.GAL_CS_STATE, 29, 1⟩
abbrev GAL_CS_STATE_IN_RESET : Fld := ⟨R.GAL_CS_STATE, 28, 1⟩
abbrev GAL_CS_STATE_LOGICAL : Fld := ⟨R.GAL_CS_STATE, 15, 13⟩
abbrev GAL_CS_STATE_INBOX : Fld := ⟨R.GAL_CS_STATE, 10, 5⟩
abbrev GAL_CS_STATE_OVF : Fld := ⟨R.GAL_CS_STATE, 0, 10⟩
abbrev GAL_CS_SENT_COUNT : Fld := ⟨R.GAL_CS_SENT, 0, 32⟩
abbrev GAL_CS_RECV_COUNT : Fld := ⟨R.GAL_CS_RECV, 0, 32⟩
abbrev GAL_CS_SUNK_COUNT : Fld := ⟨R.GAL_CS_SUNK, 0, 32⟩
abbrev GAL_CS_DROP_COUNT : Fld := ⟨R.GAL_CS_DROP, 0, 32⟩
abbrev GAL_CS_EJWAIT_COUNT : Fld := ⟨R.GAL_CS_EJWAIT, 0, 32⟩
abbrev GAL_CS_OVFPEAK_PEAK : Fld := ⟨R.GAL_CS_OVFPEAK, 0, 10⟩
abbrev GAL_CS_UNINIT_COUNT : Fld := ⟨R.GAL_CS_UNINIT, 0, 32⟩
abbrev GAL_CS_CODERR_COUNT : Fld := ⟨R.GAL_CS_CODERR, 0, 32⟩
abbrev GAL_CS_ECC_UNCORR : Fld := ⟨R.GAL_CS_ECC, 16, 16⟩
abbrev GAL_CS_ECC_CORR : Fld := ⟨R.GAL_CS_ECC, 0, 16⟩
abbrev GAL_GROUP_CTRL_CMD (g : Nat) : Fld := ⟨R.GAL_GROUP_CTRL g, 0, 3⟩
abbrev GAL_GROUP_STATUS_STATE (g : Nat) : Fld := ⟨R.GAL_GROUP_STATUS g, 16, 4⟩
abbrev GAL_GROUP_STATUS_LOADED (g : Nat) : Fld := ⟨R.GAL_GROUP_STATUS g, 12, 1⟩
abbrev GAL_GROUP_STATUS_SPARES (g : Nat) : Fld := ⟨R.GAL_GROUP_STATUS g, 8, 4⟩
abbrev GAL_GROUP_STATUS_FENCED (g : Nat) : Fld := ⟨R.GAL_GROUP_STATUS g, 0, 8⟩
abbrev GAL_PF_CTRL_EN (n : Nat) : Fld := ⟨R.GAL_PF_CTRL n, 31, 1⟩
abbrev GAL_PF_CTRL_OWNER (n : Nat) : Fld := ⟨R.GAL_PF_CTRL n, 30, 1⟩
abbrev GAL_PF_CTRL_DEPTH (n : Nat) : Fld := ⟨R.GAL_PF_CTRL n, 16, 8⟩
abbrev GAL_PF_CTRL_STRIDE (n : Nat) : Fld := ⟨R.GAL_PF_CTRL n, 8, 8⟩
abbrev GAL_PF_BASE_LINE (n : Nat) : Fld := ⟨R.GAL_PF_BASE n, 0, 32⟩
abbrev GAL_PF_LEN_LINES (n : Nat) : Fld := ⟨R.GAL_PF_LEN n, 0, 32⟩
abbrev GAL_PF_HITS_COUNT (n : Nat) : Fld := ⟨R.GAL_PF_HITS n, 0, 32⟩
abbrev GAL_SUBST_VALID (k : Nat) : Fld := ⟨R.GAL_SUBST k, 31, 1⟩
abbrev GAL_SUBST_LOGICAL (k : Nat) : Fld := ⟨R.GAL_SUBST k, 14, 13⟩
abbrev GAL_SUBST_Y (k : Nat) : Fld := ⟨R.GAL_SUBST k, 7, 7⟩
abbrev GAL_SUBST_X (k : Nat) : Fld := ⟨R.GAL_SUBST k, 0, 7⟩
abbrev GAL_STREAM_MAP_VALID (s : Nat) : Fld := ⟨R.GAL_STREAM_MAP s, 31, 1⟩
abbrev GAL_STREAM_MAP_PARKED (s : Nat) : Fld := ⟨R.GAL_STREAM_MAP s, 30, 1⟩
abbrev GAL_STREAM_MAP_PENDING (s : Nat) : Fld := ⟨R.GAL_STREAM_MAP s, 29, 1⟩
abbrev GAL_STREAM_MAP_SGROUP (s : Nat) : Fld := ⟨R.GAL_STREAM_MAP s, 16, 9⟩
abbrev GAL_STREAM_MAP_HOME (s : Nat) : Fld := ⟨R.GAL_STREAM_MAP s, 0, 7⟩
abbrev SEAM_STATUS_DIE_READY (k : Nat) : Fld := ⟨R.SEAM_STATUS k, 31, 1⟩
abbrev SEAM_STATUS_RECORD_OK (k : Nat) : Fld := ⟨R.SEAM_STATUS k, 30, 1⟩
abbrev SEAM_STATUS_SHAFT_UP (k : Nat) : Fld := ⟨R.SEAM_STATUS k, 28, 2⟩
abbrev SEAM_STATUS_SHAFT_RETIRED (k : Nat) : Fld := ⟨R.SEAM_STATUS k, 26, 2⟩
abbrev SEAM_STATUS_SPARE_TILES (k : Nat) : Fld := ⟨R.SEAM_STATUS k, 0, 12⟩
abbrev SEAM_SLOTS_UPKEEP (k : Nat) : Fld := ⟨R.SEAM_SLOTS k, 16, 8⟩
abbrev SEAM_SLOTS_ACTIVE (k : Nat) : Fld := ⟨R.SEAM_SLOTS k, 8, 8⟩
abbrev SEAM_SLOTS_LIMIT (k : Nat) : Fld := ⟨R.SEAM_SLOTS k, 0, 8⟩
abbrev SEAM_PUMPS_RETIRED (k : Nat) : Fld := ⟨R.SEAM_PUMPS k, 16, 16⟩
abbrev SEAM_PUMPS_ACTIVE (k : Nat) : Fld := ⟨R.SEAM_PUMPS k, 0, 16⟩
abbrev SEAM_ALARM_CMD_REFUSED (k : Nat) : Fld := ⟨R.SEAM_ALARM k, 6, 1⟩
abbrev SEAM_ALARM_PUMP_RETIRED (k : Nat) : Fld := ⟨R.SEAM_ALARM k, 5, 1⟩
abbrev SEAM_ALARM_TILE_RETIRED (k : Nat) : Fld := ⟨R.SEAM_ALARM k, 4, 1⟩
abbrev SEAM_ALARM_COLUMN_REMAPPED (k : Nat) : Fld := ⟨R.SEAM_ALARM k, 3, 1⟩
abbrev SEAM_ALARM_OUTLIER_FULL (k : Nat) : Fld := ⟨R.SEAM_ALARM k, 2, 1⟩
abbrev SEAM_ALARM_CHECK_FAIL (k : Nat) : Fld := ⟨R.SEAM_ALARM k, 1, 1⟩
abbrev SEAM_ALARM_RECORD_ERR (k : Nat) : Fld := ⟨R.SEAM_ALARM k, 0, 1⟩
abbrev SEAM_EVALS_LO_COUNT (k : Nat) : Fld := ⟨R.SEAM_EVALS_LO k, 0, 32⟩
abbrev SEAM_EVALS_HI_COUNT (k : Nat) : Fld := ⟨R.SEAM_EVALS_HI k, 0, 32⟩
abbrev SEAM_CHECK_FAIL_COUNT (k : Nat) : Fld := ⟨R.SEAM_CHECK_FAIL k, 0, 32⟩
abbrev SEAM_RETRY_COUNT (k : Nat) : Fld := ⟨R.SEAM_RETRY k, 0, 32⟩
abbrev SEAM_TRUNC_COUNT (k : Nat) : Fld := ⟨R.SEAM_TRUNC k, 0, 32⟩
abbrev SEAM_BATCHES_COUNT (k : Nat) : Fld := ⟨R.SEAM_BATCHES k, 0, 32⟩
abbrev SEAM_OUTLIER_OVF_COUNT (k : Nat) : Fld := ⟨R.SEAM_OUTLIER_OVF k, 0, 32⟩
abbrev SEAM_BSEL_BENCH (k : Nat) : Fld := ⟨R.SEAM_BSEL k, 0, 13⟩
abbrev SEAM_BENCH_STATE_STATE (k : Nat) : Fld := ⟨R.SEAM_BENCH_STATE k, 29, 3⟩
abbrev SEAM_BENCH_STATE_FORMAT (k : Nat) : Fld := ⟨R.SEAM_BENCH_STATE k, 28, 1⟩
abbrev SEAM_BENCH_STATE_ASSIGNED (k : Nat) : Fld := ⟨R.SEAM_BENCH_STATE k, 27, 1⟩
abbrev SEAM_BENCH_STATE_LIBRARY (k : Nat) : Fld := ⟨R.SEAM_BENCH_STATE k, 23, 4⟩
abbrev SEAM_BENCH_STATE_BATCH (k : Nat) : Fld := ⟨R.SEAM_BENCH_STATE k, 22, 1⟩
abbrev SEAM_BENCH_CMD_CMD (k : Nat) : Fld := ⟨R.SEAM_BENCH_CMD k, 0, 2⟩
abbrev SEAM_BENCH_READY_READY (k w : Nat) : Fld := ⟨R.SEAM_BENCH_READY k w, 0, 32⟩
abbrev SEAM_TSEL_PHYS (k : Nat) : Fld := ⟨R.SEAM_TSEL k, 0, 16⟩
abbrev SEAM_TILE_STATE_ROLE (k : Nat) : Fld := ⟨R.SEAM_TILE_STATE k, 30, 2⟩
abbrev SEAM_TILE_STATE_FORMAT (k : Nat) : Fld := ⟨R.SEAM_TILE_STATE k, 29, 1⟩
abbrev SEAM_TILE_STATE_PUMP (k : Nat) : Fld := ⟨R.SEAM_TILE_STATE k, 25, 4⟩
abbrev SEAM_TILE_STATE_LOGICAL (k : Nat) : Fld := ⟨R.SEAM_TILE_STATE k, 0, 15⟩
abbrev SEAM_TILE_INFO_SPARE_COLS (k : Nat) : Fld := ⟨R.SEAM_TILE_INFO k, 26, 6⟩
abbrev SEAM_TILE_INFO_OUTLIERS (k : Nat) : Fld := ⟨R.SEAM_TILE_INFO k, 17, 9⟩
abbrev SEAM_TILE_INFO_FAULTS24H (k : Nat) : Fld := ⟨R.SEAM_TILE_INFO k, 0, 2⟩
abbrev SEAM_COLMAP_VALID (k n : Nat) : Fld := ⟨R.SEAM_COLMAP k n, 31, 1⟩
abbrev SEAM_COLMAP_LOGICAL (k n : Nat) : Fld := ⟨R.SEAM_COLMAP k n, 0, 10⟩
abbrev SEAM_OUTLIER_VALID (k n : Nat) : Fld := ⟨R.SEAM_OUTLIER k n, 31, 1⟩
abbrev SEAM_OUTLIER_DELTA (k n : Nat) : Fld := ⟨R.SEAM_OUTLIER k n, 28, 3⟩
abbrev SEAM_OUTLIER_KIND (k n : Nat) : Fld := ⟨R.SEAM_OUTLIER k n, 26, 2⟩
abbrev SEAM_OUTLIER_COL (k n : Nat) : Fld := ⟨R.SEAM_OUTLIER k n, 10, 11⟩
abbrev SEAM_OUTLIER_ROW (k n : Nat) : Fld := ⟨R.SEAM_OUTLIER k n, 0, 10⟩
abbrev SEAM_CAL_GAIN_GAIN (k n : Nat) : Fld := ⟨R.SEAM_CAL_GAIN k n, 0, 16⟩
abbrev SEAM_CAL_OFFSET_CEIL (k n : Nat) : Fld := ⟨R.SEAM_CAL_OFFSET k n, 30, 2⟩
abbrev SEAM_CAL_OFFSET_OFFSET (k n : Nat) : Fld := ⟨R.SEAM_CAL_OFFSET k n, 0, 16⟩
abbrev SEAM_UPKEEP_CTRL_REPLAN (k : Nat) : Fld := ⟨R.SEAM_UPKEEP_CTRL k, 2, 1⟩
abbrev SEAM_UPKEEP_CTRL_RECAL_NOW (k : Nat) : Fld := ⟨R.SEAM_UPKEEP_CTRL k, 1, 1⟩
abbrev SEAM_UPKEEP_CTRL_PATROL_NOW (k : Nat) : Fld := ⟨R.SEAM_UPKEEP_CTRL k, 0, 1⟩
abbrev SEAM_UPKEEP_STATUS_PATROL_POS (k : Nat) : Fld := ⟨R.SEAM_UPKEEP_STATUS k, 16, 16⟩
abbrev SEAM_UPKEEP_STATUS_QUEUED (k : Nat) : Fld := ⟨R.SEAM_UPKEEP_STATUS k, 0, 16⟩
abbrev SEAM_PLAN_MARGIN_F (k : Nat) : Fld := ⟨R.SEAM_PLAN_MARGIN k, 20, 10⟩
abbrev SEAM_PLAN_MARGIN_A (k : Nat) : Fld := ⟨R.SEAM_PLAN_MARGIN k, 10, 10⟩
abbrev SEAM_PLAN_MARGIN_V (k : Nat) : Fld := ⟨R.SEAM_PLAN_MARGIN k, 0, 10⟩
abbrev SEAM_PLAN_TIME_PATROL_H (k : Nat) : Fld := ⟨R.SEAM_PLAN_TIME k, 16, 16⟩
abbrev SEAM_PLAN_TIME_RECAL_MS (k : Nat) : Fld := ⟨R.SEAM_PLAN_TIME k, 0, 16⟩
abbrev SEAM_PLAN_WEAR_WEAR_LIMIT (k : Nat) : Fld := ⟨R.SEAM_PLAN_WEAR k, 16, 16⟩
abbrev SEAM_PLAN_WEAR_COMMIT_CEIL (k : Nat) : Fld := ⟨R.SEAM_PLAN_WEAR k, 0, 16⟩
abbrev SEAM_PLAN_INFO_PLAN (k : Nat) : Fld := ⟨R.SEAM_PLAN_INFO k, 16, 16⟩
abbrev SEAM_PLAN_INFO_DAYS (k : Nat) : Fld := ⟨R.SEAM_PLAN_INFO k, 0, 16⟩
abbrev SEAM_PLAN_GUARD_GUARD_MV (k : Nat) : Fld := ⟨R.SEAM_PLAN_GUARD k, 0, 8⟩
abbrev SEAM_UPKEEP_ALARM_PLAN_CHANGED (k : Nat) : Fld := ⟨R.SEAM_UPKEEP_ALARM k, 5, 1⟩
abbrev SEAM_UPKEEP_ALARM_WEAR_LIMIT (k : Nat) : Fld := ⟨R.SEAM_UPKEEP_ALARM k, 4, 1⟩
abbrev SEAM_UPKEEP_ALARM_NO_SPARE_TILE (k : Nat) : Fld := ⟨R.SEAM_UPKEEP_ALARM k, 3, 1⟩
abbrev SEAM_UPKEEP_ALARM_PUMP_SHORT (k : Nat) : Fld := ⟨R.SEAM_UPKEEP_ALARM k, 2, 1⟩
abbrev SEAM_UPKEEP_ALARM_FLIPPED (k : Nat) : Fld := ⟨R.SEAM_UPKEEP_ALARM k, 1, 1⟩
abbrev SEAM_UPKEEP_ALARM_DRIFT_LATE (k : Nat) : Fld := ⟨R.SEAM_UPKEEP_ALARM k, 0, 1⟩
abbrev SEAM_REFRESH_COLS_COUNT (k : Nat) : Fld := ⟨R.SEAM_REFRESH_COLS k, 0, 32⟩
abbrev SEAM_DRIFT_LATE_COUNT (k : Nat) : Fld := ⟨R.SEAM_DRIFT_LATE k, 0, 32⟩
abbrev SEAM_FLIPPED_COUNT (k : Nat) : Fld := ⟨R.SEAM_FLIPPED k, 0, 32⟩
abbrev SEAM_RECALS_COUNT (k : Nat) : Fld := ⟨R.SEAM_RECALS k, 0, 32⟩
abbrev SEAM_REMAPS_COUNT (k : Nat) : Fld := ⟨R.SEAM_REMAPS k, 0, 32⟩
abbrev SEAM_FILLS_COUNT (k : Nat) : Fld := ⟨R.SEAM_FILLS k, 0, 32⟩
abbrev SEAM_PUMP_FAULTS_COUNT (k : Nat) : Fld := ⟨R.SEAM_PUMP_FAULTS k, 0, 32⟩
abbrev SEAM_OSC_SLOWDOWN (k p : Nat) : Fld := ⟨R.SEAM_OSC k p, 0, 16⟩
abbrev SEAM_TILE_WEAR_MEAN (k : Nat) : Fld := ⟨R.SEAM_TILE_WEAR k, 16, 16⟩
abbrev SEAM_TILE_WEAR_MAX (k : Nat) : Fld := ⟨R.SEAM_TILE_WEAR k, 0, 16⟩
abbrev SEAM_TILE_BUDGET_HEADROOM (k : Nat) : Fld := ⟨R.SEAM_TILE_BUDGET k, 0, 32⟩
abbrev SEAM_TILE_MARGIN_WORST (k : Nat) : Fld := ⟨R.SEAM_TILE_MARGIN k, 16, 10⟩
abbrev SEAM_TILE_MARGIN_AGE_H (k : Nat) : Fld := ⟨R.SEAM_TILE_MARGIN k, 0, 16⟩
abbrev SEAM_WEAR_COUNT (k n : Nat) : Fld := ⟨R.SEAM_WEAR k n, 0, 16⟩
abbrev SUMP_CFG_MAXMISS : Fld := ⟨R.SUMP_CFG, 16, 8⟩
abbrev SUMP_CFG_KDEF : Fld := ⟨R.SUMP_CFG, 8, 6⟩
abbrev SUMP_CFG_RECALL_EN : Fld := ⟨R.SUMP_CFG, 0, 1⟩
abbrev SUMP_STATUS_READY : Fld := ⟨R.SUMP_STATUS, 31, 1⟩
abbrev SUMP_STATUS_FAULT : Fld := ⟨R.SUMP_STATUS, 30, 1⟩
abbrev SUMP_STATUS_MISSING : Fld := ⟨R.SUMP_STATUS, 16, 8⟩
abbrev SUMP_ALARM_CONFLICT : Fld := ⟨R.SUMP_ALARM, 9, 1⟩
abbrev SUMP_ALARM_LIMIT : Fld := ⟨R.SUMP_ALARM, 8, 1⟩
abbrev SUMP_ALARM_BUSY : Fld := ⟨R.SUMP_ALARM, 7, 1⟩
abbrev SUMP_ALARM_THROTTLE : Fld := ⟨R.SUMP_ALARM, 6, 1⟩
abbrev SUMP_ALARM_WRITE_LOST : Fld := ⟨R.SUMP_ALARM, 5, 1⟩
abbrev SUMP_ALARM_WRITE_FAIL : Fld := ⟨R.SUMP_ALARM, 4, 1⟩
abbrev SUMP_ALARM_RECALL_DROP : Fld := ⟨R.SUMP_ALARM, 3, 1⟩
abbrev SUMP_ALARM_QUARANTINE : Fld := ⟨R.SUMP_ALARM, 2, 1⟩
abbrev SUMP_ALARM_MIRROR_ERR : Fld := ⟨R.SUMP_ALARM, 1, 1⟩
abbrev SUMP_ALARM_BOUND_EXCEEDED : Fld := ⟨R.SUMP_ALARM, 0, 1⟩
abbrev SUMP_MIRROR_BASE_BASE : Fld := ⟨R.SUMP_MIRROR_BASE, 0, 32⟩
abbrev SUMP_SLIVER_WAIT_WAIT : Fld := ⟨R.SUMP_SLIVER_WAIT, 0, 16⟩
abbrev SUMP_THROTTLE_LEVEL : Fld := ⟨R.SUMP_THROTTLE, 0, 24⟩
abbrev SUMP_QDEPTH_RECALL : Fld := ⟨R.SUMP_QDEPTH, 25, 7⟩
abbrev SUMP_QDEPTH_WATCH : Fld := ⟨R.SUMP_QDEPTH, 16, 9⟩
abbrev SUMP_QDEPTH_ORDINARY : Fld := ⟨R.SUMP_QDEPTH, 0, 16⟩
abbrev SUMP_APPEND_WAIT_MS : Fld := ⟨R.SUMP_APPEND_WAIT, 0, 16⟩
abbrev SUMP_QUERIES_LO_COUNT : Fld := ⟨R.SUMP_QUERIES_LO, 0, 32⟩
abbrev SUMP_QUERIES_HI_COUNT : Fld := ⟨R.SUMP_QUERIES_HI, 0, 32⟩
abbrev SUMP_VERIFIES_LO_COUNT : Fld := ⟨R.SUMP_VERIFIES_LO, 0, 32⟩
abbrev SUMP_VERIFIES_HI_COUNT : Fld := ⟨R.SUMP_VERIFIES_HI, 0, 32⟩
abbrev SUMP_FALSE_HITS_COUNT : Fld := ⟨R.SUMP_FALSE_HITS, 0, 32⟩
abbrev SUMP_BOUND_EXCEED_COUNT : Fld := ⟨R.SUMP_BOUND_EXCEED, 0, 32⟩
abbrev SUMP_MIRROR_ERRS_COUNT : Fld := ⟨R.SUMP_MIRROR_ERRS, 0, 32⟩
abbrev SUMP_BUSY_SKIPS_COUNT : Fld := ⟨R.SUMP_BUSY_SKIPS, 0, 32⟩
abbrev SUMP_LATE_SLIVERS_COUNT : Fld := ⟨R.SUMP_LATE_SLIVERS, 0, 32⟩
abbrev SUMP_RECALL_DROPS_COUNT : Fld := ⟨R.SUMP_RECALL_DROPS, 0, 32⟩
abbrev SUMP_BADTAG_COUNT : Fld := ⟨R.SUMP_BADTAG, 0, 32⟩
abbrev SUMP_SYN_DROPS_COUNT : Fld := ⟨R.SUMP_SYN_DROPS, 0, 32⟩
abbrev SUMP_WRITE_FAILS_COUNT : Fld := ⟨R.SUMP_WRITE_FAILS, 0, 32⟩
abbrev SUMP_QUARANTINED_COUNT : Fld := ⟨R.SUMP_QUARANTINED, 0, 24⟩
abbrev SUMP_LIB_CFG_ACTIVE (l : Nat) : Fld := ⟨R.SUMP_LIB_CFG l, 31, 1⟩
abbrev SUMP_LIB_CFG_KIND (l : Nat) : Fld := ⟨R.SUMP_LIB_CFG l, 29, 2⟩
abbrev SUMP_LIB_CFG_APPEND (l : Nat) : Fld := ⟨R.SUMP_LIB_CFG l, 28, 1⟩
abbrev SUMP_LIB_CFG_PSTEP (l : Nat) : Fld := ⟨R.SUMP_LIB_CFG l, 24, 4⟩
abbrev SUMP_LIB_CFG_BATCH (l : Nat) : Fld := ⟨R.SUMP_LIB_CFG l, 23, 1⟩
abbrev SUMP_LIB_CFG_BENCHES (l : Nat) : Fld := ⟨R.SUMP_LIB_CFG l, 0, 16⟩
abbrev SUMP_LIB_NOVEL_RECALL_MASK (l : Nat) : Fld := ⟨R.SUMP_LIB_NOVEL l, 16, 16⟩
abbrev SUMP_LIB_NOVEL_NOVEL_DIST (l : Nat) : Fld := ⟨R.SUMP_LIB_NOVEL l, 0, 16⟩
abbrev SUMP_LIB_SIZE_VALID (l : Nat) : Fld := ⟨R.SUMP_LIB_SIZE l, 0, 24⟩
abbrev SUMP_LIB_CURSOR_CURSOR (l : Nat) : Fld := ⟨R.SUMP_LIB_CURSOR l, 0, 24⟩
abbrev SUMP_BSEL_BENCH : Fld := ⟨R.SUMP_BSEL, 0, 16⟩
abbrev SUMP_BENCH_LIB_ASSIGNED : Fld := ⟨R.SUMP_BENCH_LIB, 31, 1⟩
abbrev SUMP_BENCH_LIB_LIBRARY : Fld := ⟨R.SUMP_BENCH_LIB, 27, 4⟩
abbrev SUMP_BENCH_LIB_POS : Fld := ⟨R.SUMP_BENCH_LIB, 0, 16⟩
abbrev SUMP_ESEL_LIBRARY : Fld := ⟨R.SUMP_ESEL, 28, 4⟩
abbrev SUMP_ESEL_ENTRY : Fld := ⟨R.SUMP_ESEL, 0, 24⟩
abbrev SUMP_ENTRY_DATA (w : Nat) : Fld := ⟨R.SUMP_ENTRY w, 0, 32⟩
abbrev SUMP_MTX_VALID (n : Nat) : Fld := ⟨R.SUMP_MTX n, 31, 1⟩
abbrev SUMP_MTX_FORMAT (n : Nat) : Fld := ⟨R.SUMP_MTX n, 30, 1⟩
abbrev SUMP_MTX_LIBRARY (n : Nat) : Fld := ⟨R.SUMP_MTX n, 26, 4⟩
abbrev SUMP_MTX_POS (n : Nat) : Fld := ⟨R.SUMP_MTX n, 0, 16⟩
abbrev SUMP_MTX_SHAPE_COLS (n : Nat) : Fld := ⟨R.SUMP_MTX_SHAPE n, 16, 16⟩
abbrev SUMP_MTX_SHAPE_ROWS (n : Nat) : Fld := ⟨R.SUMP_MTX_SHAPE n, 0, 16⟩
abbrev SUMP_MTX_AREA_BASE (n : Nat) : Fld := ⟨R.SUMP_MTX_AREA n, 0, 32⟩
abbrev SUMP_STREAM_MASK (s : Nat) : Fld := ⟨R.SUMP_STREAM s, 16, 16⟩
abbrev SUMP_STREAM_K (s : Nat) : Fld := ⟨R.SUMP_STREAM s, 0, 6⟩
abbrev SUMP_QCFG_DEFQ : Fld := ⟨R.SUMP_QCFG, 0, 3⟩
abbrev SUMP_QBAND_BETA (q : Nat) : Fld := ⟨R.SUMP_QBAND q, 16, 16⟩
abbrev SUMP_QBAND_M (q : Nat) : Fld := ⟨R.SUMP_QBAND q, 0, 8⟩
abbrev SUMP_Q_PREFIX_COUNT : Fld := ⟨R.SUMP_Q_PREFIX, 0, 32⟩
abbrev SUMP_Q_REFINE_COUNT : Fld := ⟨R.SUMP_Q_REFINE, 0, 32⟩
abbrev SUMP_Q_EDGE_COUNT : Fld := ⟨R.SUMP_Q_EDGE, 0, 32⟩
abbrev SUMP_Q_FORCED_COUNT : Fld := ⟨R.SUMP_Q_FORCED, 0, 32⟩
abbrev SUMP_Q_MSB_COUNT : Fld := ⟨R.SUMP_Q_MSB, 0, 32⟩
abbrev SUMP_QSTREAM_Q (w : Nat) : Fld := ⟨R.SUMP_QSTREAM w, 0, 32⟩
abbrev TUNNEL_CFG_N : Fld := ⟨R.TUNNEL_CFG, 8, 4⟩
abbrev TUNNEL_CFG_POSITION : Fld := ⟨R.TUNNEL_CFG, 4, 3⟩
abbrev TUNNEL_CFG_ROLE : Fld := ⟨R.TUNNEL_CFG, 0, 2⟩
abbrev TUNNEL_CTRL_LEAVE : Fld := ⟨R.TUNNEL_CTRL, 1, 1⟩
abbrev TUNNEL_CTRL_JOIN : Fld := ⟨R.TUNNEL_CTRL, 0, 1⟩
abbrev TUNNEL_STATUS_STATE : Fld := ⟨R.TUNNEL_STATUS, 29, 3⟩
abbrev TUNNEL_STATUS_READY : Fld := ⟨R.TUNNEL_STATUS, 28, 1⟩
abbrev TUNNEL_STATUS_RESPONDING : Fld := ⟨R.TUNNEL_STATUS, 20, 8⟩
abbrev TUNNEL_STATUS_MEMBERS : Fld := ⟨R.TUNNEL_STATUS, 12, 8⟩
abbrev TUNNEL_STATUS_PORT_UP : Fld := ⟨R.TUNNEL_STATUS, 10, 2⟩
abbrev TUNNEL_ALARM_LANE_RETIRED : Fld := ⟨R.TUNNEL_ALARM, 9, 1⟩
abbrev TUNNEL_ALARM_CMD_REFUSED : Fld := ⟨R.TUNNEL_ALARM, 8, 1⟩
abbrev TUNNEL_ALARM_CFG_BUSY : Fld := ⟨R.TUNNEL_ALARM, 7, 1⟩
abbrev TUNNEL_ALARM_SYNC_TIMEOUT : Fld := ⟨R.TUNNEL_ALARM, 6, 1⟩
abbrev TUNNEL_ALARM_TOKEN_LOST : Fld := ⟨R.TUNNEL_ALARM, 5, 1⟩
abbrev TUNNEL_ALARM_MIRROR_TAKEN : Fld := ⟨R.TUNNEL_ALARM, 4, 1⟩
abbrev TUNNEL_ALARM_MIRROR_SHORT : Fld := ⟨R.TUNNEL_ALARM, 3, 1⟩
abbrev TUNNEL_ALARM_ANSWER_TIMEOUT : Fld := ⟨R.TUNNEL_ALARM, 2, 1⟩
abbrev TUNNEL_ALARM_PEER_LOST : Fld := ⟨R.TUNNEL_ALARM, 1, 1⟩
abbrev TUNNEL_ALARM_MISMATCH : Fld := ⟨R.TUNNEL_ALARM, 0, 1⟩
abbrev TUNNEL_ANS_WAIT_US : Fld := ⟨R.TUNNEL_ANS_WAIT, 0, 16⟩
abbrev TUNNEL_MIRROR_IN_USE : Fld := ⟨R.TUNNEL_MIRROR, 16, 16⟩
abbrev TUNNEL_MIRROR_RESERVED : Fld := ⟨R.TUNNEL_MIRROR, 0, 16⟩
abbrev TUNNEL_FWD_COUNT : Fld := ⟨R.TUNNEL_FWD, 0, 32⟩
abbrev TUNNEL_SERVED_COUNT : Fld := ⟨R.TUNNEL_SERVED, 0, 32⟩
abbrev TUNNEL_PARTIAL_COUNT : Fld := ⟨R.TUNNEL_PARTIAL, 0, 32⟩
abbrev TUNNEL_LATE_ANS_COUNT : Fld := ⟨R.TUNNEL_LATE_ANS, 0, 32⟩
abbrev TUNNEL_REMOTE_BUSY_COUNT : Fld := ⟨R.TUNNEL_REMOTE_BUSY, 0, 32⟩
abbrev TUNNEL_APPEND_LOST_COUNT : Fld := ⟨R.TUNNEL_APPEND_LOST, 0, 32⟩
abbrev TUNNEL_PORT_STATUS_LANE_UP (p : Nat) : Fld := ⟨R.TUNNEL_PORT_STATUS p, 16, 8⟩
abbrev TUNNEL_PORT_STATUS_LANE_RETIRED (p : Nat) : Fld := ⟨R.TUNNEL_PORT_STATUS p, 8, 8⟩
abbrev TUNNEL_PORT_STATUS_HELLO_OK (p : Nat) : Fld := ⟨R.TUNNEL_PORT_STATUS p, 2, 1⟩
abbrev TUNNEL_PORT_STATUS_HALF (p : Nat) : Fld := ⟨R.TUNNEL_PORT_STATUS p, 1, 1⟩
abbrev TUNNEL_PORT_STATUS_UP (p : Nat) : Fld := ⟨R.TUNNEL_PORT_STATUS p, 0, 1⟩
abbrev TUNNEL_PORT_CRC_COUNT (p : Nat) : Fld := ⟨R.TUNNEL_PORT_CRC p, 0, 32⟩
abbrev TUNNEL_PORT_REPLAY_COUNT (p : Nat) : Fld := ⟨R.TUNNEL_PORT_REPLAY p, 0, 32⟩
abbrev TUNNEL_PORT_RETRAIN_COUNT (p : Nat) : Fld := ⟨R.TUNNEL_PORT_RETRAIN p, 0, 32⟩
abbrev TUNNEL_LIB_SPAN (l : Nat) : Fld := ⟨R.TUNNEL_LIB l, 31, 1⟩
abbrev TUNNEL_LIB_TOKEN (l : Nat) : Fld := ⟨R.TUNNEL_LIB l, 30, 1⟩
abbrev TUNNEL_LIB_TOKEN_TAKE (l : Nat) : Fld := ⟨R.TUNNEL_LIB l, 29, 1⟩
abbrev TUNNEL_LIB_SHARES (l : Nat) : Fld := ⟨R.TUNNEL_LIB l, 0, 8⟩
abbrev TUNNEL_LIB_RANGE_LEN (l : Nat) : Fld := ⟨R.TUNNEL_LIB_RANGE l, 16, 16⟩
abbrev TUNNEL_LIB_RANGE_BASE (l : Nat) : Fld := ⟨R.TUNNEL_LIB_RANGE l, 0, 16⟩
abbrev TUNNEL_LIB_GEN_GEN (l : Nat) : Fld := ⟨R.TUNNEL_LIB_GEN l, 0, 32⟩
abbrev CHISEL_CFG_EN : Fld := ⟨R.CHISEL_CFG, 31, 1⟩
abbrev CHISEL_CFG_CE : Fld := ⟨R.CHISEL_CFG, 16, 11⟩
abbrev CHISEL_CFG_E : Fld := ⟨R.CHISEL_CFG, 0, 10⟩
abbrev CHISEL_CTRL_COMMIT_NOW : Fld := ⟨R.CHISEL_CTRL, 0, 1⟩
abbrev CHISEL_STATUS_READY : Fld := ⟨R.CHISEL_STATUS, 31, 1⟩
abbrev CHISEL_STATUS_COMMITTING : Fld := ⟨R.CHISEL_STATUS, 30, 1⟩
abbrev CHISEL_STATUS_EXPORT_OPEN : Fld := ⟨R.CHISEL_STATUS, 29, 1⟩
abbrev CHISEL_STATUS_CLOSING : Fld := ⟨R.CHISEL_STATUS, 28, 1⟩
abbrev CHISEL_STATUS_HS_PENDING : Fld := ⟨R.CHISEL_STATUS, 0, 16⟩
abbrev CHISEL_ALARM_CHAIN_EPOCH : Fld := ⟨R.CHISEL_ALARM, 6, 1⟩
abbrev CHISEL_ALARM_HS_LATE : Fld := ⟨R.CHISEL_ALARM, 5, 1⟩
abbrev CHISEL_ALARM_CFG_BUSY : Fld := ⟨R.CHISEL_ALARM, 4, 1⟩
abbrev CHISEL_ALARM_HBM_SHORT : Fld := ⟨R.CHISEL_ALARM, 3, 1⟩
abbrev CHISEL_ALARM_POOL_FULL : Fld := ⟨R.CHISEL_ALARM, 2, 1⟩
abbrev CHISEL_ALARM_COMMIT_DEFERRED : Fld := ⟨R.CHISEL_ALARM, 1, 1⟩
abbrev CHISEL_ALARM_CONFLICT : Fld := ⟨R.CHISEL_ALARM, 0, 1⟩
abbrev CHISEL_EPOCH_LO_EPOCH : Fld := ⟨R.CHISEL_EPOCH_LO, 0, 32⟩
abbrev CHISEL_EPOCH_HI_EPOCH : Fld := ⟨R.CHISEL_EPOCH_HI, 0, 32⟩
abbrev CHISEL_SEQ_SEQ : Fld := ⟨R.CHISEL_SEQ, 0, 32⟩
abbrev CHISEL_CLOSE_WAIT_MS : Fld := ⟨R.CHISEL_CLOSE_WAIT, 0, 16⟩
abbrev CHISEL_HS_WAIT_US : Fld := ⟨R.CHISEL_HS_WAIT, 0, 16⟩
abbrev CHISEL_PROTO_INIT : Fld := ⟨R.CHISEL_PROTO, 24, 8⟩
abbrev CHISEL_PROTO_W_SUP : Fld := ⟨R.CHISEL_PROTO, 16, 8⟩
abbrev CHISEL_PROTO_W_UNSUP : Fld := ⟨R.CHISEL_PROTO, 8, 8⟩
abbrev CHISEL_PROTO_DECAY : Fld := ⟨R.CHISEL_PROTO, 0, 3⟩
abbrev CHISEL_COMMIT_MAX : Fld := ⟨R.CHISEL_COMMIT, 16, 16⟩
abbrev CHISEL_COMMIT_THRESH : Fld := ⟨R.CHISEL_COMMIT, 0, 16⟩
abbrev CHISEL_POOL_AGE : Fld := ⟨R.CHISEL_POOL, 24, 8⟩
abbrev CHISEL_POOL_MIN_HITS : Fld := ⟨R.CHISEL_POOL, 16, 8⟩
abbrev CHISEL_POOL_SIZE : Fld := ⟨R.CHISEL_POOL, 0, 13⟩
abbrev CHISEL_STDP_A_PLUS : Fld := ⟨R.CHISEL_STDP, 24, 8⟩
abbrev CHISEL_STDP_A_MINUS : Fld := ⟨R.CHISEL_STDP, 16, 8⟩
abbrev CHISEL_STDP_TP : Fld := ⟨R.CHISEL_STDP, 12, 3⟩
abbrev CHISEL_STDP_TM : Fld := ⟨R.CHISEL_STDP, 8, 3⟩
abbrev CHISEL_STDP_ETA : Fld := ⟨R.CHISEL_STDP, 4, 3⟩
abbrev CHISEL_DELAY_D_TGT : Fld := ⟨R.CHISEL_DELAY, 8, 6⟩
abbrev CHISEL_DELAY_DV : Fld := ⟨R.CHISEL_DELAY, 0, 7⟩
abbrev CHISEL_BG_BG_THETA : Fld := ⟨R.CHISEL_BG, 8, 8⟩
abbrev CHISEL_BG_BG_DECAY : Fld := ⟨R.CHISEL_BG, 0, 3⟩
abbrev CHISEL_EXCL_ADIT : Fld := ⟨R.CHISEL_EXCL, 16, 16⟩
abbrev CHISEL_EXCL_FLAGS : Fld := ⟨R.CHISEL_EXCL, 0, 16⟩
abbrev CHISEL_LCAP_ENTRIES : Fld := ⟨R.CHISEL_LCAP, 0, 20⟩
abbrev CHISEL_HOLD_SLOTS : Fld := ⟨R.CHISEL_HOLD, 0, 20⟩
abbrev CHISEL_USED_ENTRIES : Fld := ⟨R.CHISEL_USED, 0, 20⟩
abbrev CHISEL_BG_BASE_BASE : Fld := ⟨R.CHISEL_BG_BASE, 0, 32⟩
abbrev CHISEL_UPDATES_LO_COUNT : Fld := ⟨R.CHISEL_UPDATES_LO, 0, 32⟩
abbrev CHISEL_UPDATES_HI_COUNT : Fld := ⟨R.CHISEL_UPDATES_HI, 0, 32⟩
abbrev CHISEL_LATE_COUNT : Fld := ⟨R.CHISEL_LATE, 0, 32⟩
abbrev CHISEL_CONF_DROPS_COUNT : Fld := ⟨R.CHISEL_CONF_DROPS, 0, 32⟩
abbrev CHISEL_POOL_DROPS_COUNT : Fld := ⟨R.CHISEL_POOL_DROPS, 0, 32⟩
abbrev CHISEL_COMMITS_COUNT : Fld := ⟨R.CHISEL_COMMITS, 0, 32⟩
abbrev CHISEL_DEFERRED_COUNT : Fld := ⟨R.CHISEL_DEFERRED, 0, 32⟩
abbrev CHISEL_CREATED_COUNT : Fld := ⟨R.CHISEL_CREATED, 0, 32⟩
abbrev CHISEL_HS_LATE_COUNT : Fld := ⟨R.CHISEL_HS_LATE, 0, 32⟩
abbrev CHISEL_CONFLICTS_COUNT : Fld := ⟨R.CHISEL_CONFLICTS, 0, 32⟩
abbrev CHISEL_SHADOW_DISCARDS_COUNT : Fld := ⟨R.CHISEL_SHADOW_DISCARDS, 0, 32⟩
abbrev CHISEL_BADTAG_COUNT : Fld := ⟨R.CHISEL_BADTAG, 0, 32⟩
abbrev CHISEL_LIB_LEARN (l : Nat) : Fld := ⟨R.CHISEL_LIB l, 31, 1⟩
abbrev CHISEL_LIB_CREATE (l : Nat) : Fld := ⟨R.CHISEL_LIB l, 30, 1⟩
abbrev CHISEL_LIB_BG (l : Nat) : Fld := ⟨R.CHISEL_LIB l, 29, 1⟩
abbrev CHISEL_LIB_NEWPRIO (l : Nat) : Fld := ⟨R.CHISEL_LIB l, 0, 8⟩
abbrev CHISEL_LIB_DIST_POOL_DIST (l : Nat) : Fld := ⟨R.CHISEL_LIB_DIST l, 16, 16⟩
abbrev CHISEL_LIB_DIST_ASSIGN_DIST (l : Nat) : Fld := ⟨R.CHISEL_LIB_DIST l, 0, 16⟩
abbrev CHISEL_LIB_DUE_DUE (l : Nat) : Fld := ⟨R.CHISEL_LIB_DUE l, 0, 24⟩
abbrev CHISEL_STREAM_LEARN (s : Nat) : Fld := ⟨R.CHISEL_STREAM s, 31, 1⟩
abbrev CHISEL_STREAM_STDP (s : Nat) : Fld := ⟨R.CHISEL_STREAM s, 30, 1⟩
abbrev CHISEL_STREAM_DELAY (s : Nat) : Fld := ⟨R.CHISEL_STREAM s, 29, 1⟩
abbrev CHISEL_STREAM_BG (s : Nat) : Fld := ⟨R.CHISEL_STREAM s, 28, 1⟩
abbrev CHISEL_STREAM_HOLD (s : Nat) : Fld := ⟨R.CHISEL_STREAM s, 26, 2⟩
abbrev HOST_STATUS_LINK_READY : Fld := ⟨R.HOST_STATUS, 31, 1⟩
abbrev HOST_STATUS_SPEED : Fld := ⟨R.HOST_STATUS, 20, 4⟩
abbrev HOST_STATUS_WIDTH : Fld := ⟨R.HOST_STATUS, 15, 5⟩
abbrev HOST_ALARM_BACKLOG_FULL : Fld := ⟨R.HOST_ALARM, 5, 1⟩
abbrev HOST_ALARM_HBM_UNINIT : Fld := ⟨R.HOST_ALARM, 4, 1⟩
abbrev HOST_ALARM_RING_ERROR : Fld := ⟨R.HOST_ALARM, 3, 1⟩
abbrev HOST_ALARM_CMD_REFUSED : Fld := ⟨R.HOST_ALARM, 2, 1⟩
abbrev HOST_ALARM_DMA_ERR : Fld := ⟨R.HOST_ALARM, 1, 1⟩
abbrev HOST_ALARM_ACCESS_ERR : Fld := ⟨R.HOST_ALARM, 0, 1⟩
abbrev HOST_DB_LO_ADDR : Fld := ⟨R.HOST_DB_LO, 0, 32⟩
abbrev HOST_DB_HI_ADDR : Fld := ⟨R.HOST_DB_HI, 0, 32⟩
abbrev HOST_SP_LO_ADDR : Fld := ⟨R.HOST_SP_LO, 0, 32⟩
abbrev HOST_SP_HI_ADDR : Fld := ⟨R.HOST_SP_HI, 0, 32⟩
abbrev HOST_POLL_US : Fld := ⟨R.HOST_POLL, 0, 16⟩
abbrev HOST_ACCESS_ERR_COUNT : Fld := ⟨R.HOST_ACCESS_ERR, 0, 32⟩
abbrev HOST_DMA_ERR_COUNT : Fld := ⟨R.HOST_DMA_ERR, 0, 32⟩
abbrev HOST_UNINIT_COUNT : Fld := ⟨R.HOST_UNINIT, 0, 32⟩
abbrev HOST_HBM_UNINIT_COUNT : Fld := ⟨R.HOST_HBM_UNINIT, 0, 32⟩
abbrev HOST_RING_CFG_EN (r : Nat) : Fld := ⟨R.HOST_RING_CFG r, 31, 1⟩
abbrev HOST_RING_CFG_TYPE (r : Nat) : Fld := ⟨R.HOST_RING_CFG r, 28, 3⟩
abbrev HOST_RING_CFG_SIZE (r : Nat) : Fld := ⟨R.HOST_RING_CFG r, 24, 4⟩
abbrev HOST_RING_CFG_VECTOR (r : Nat) : Fld := ⟨R.HOST_RING_CFG r, 16, 8⟩
abbrev HOST_RING_CFG_RO (r : Nat) : Fld := ⟨R.HOST_RING_CFG r, 15, 1⟩
abbrev HOST_RING_CFG_RESULT_RING (r : Nat) : Fld := ⟨R.HOST_RING_CFG r, 8, 6⟩
abbrev HOST_RING_BASE_LO_ADDR (r : Nat) : Fld := ⟨R.HOST_RING_BASE_LO r, 0, 32⟩
abbrev HOST_RING_BASE_HI_ADDR (r : Nat) : Fld := ⟨R.HOST_RING_BASE_HI r, 0, 32⟩
abbrev HOST_RING_IRQ_TIME_US (r : Nat) : Fld := ⟨R.HOST_RING_IRQ r, 16, 16⟩
abbrev HOST_RING_IRQ_COUNT (r : Nat) : Fld := ⟨R.HOST_RING_IRQ r, 0, 16⟩
abbrev HOST_RING_STATUS_STATE (r : Nat) : Fld := ⟨R.HOST_RING_STATUS r, 29, 3⟩
abbrev HOST_RING_STATUS_DEPTH (r : Nat) : Fld := ⟨R.HOST_RING_STATUS r, 0, 17⟩
abbrev HOST_RING_DEV_INDEX (r : Nat) : Fld := ⟨R.HOST_RING_DEV r, 0, 32⟩
abbrev HOST_RING_HOST_INDEX (r : Nat) : Fld := ⟨R.HOST_RING_HOST r, 0, 32⟩
abbrev HOST_RING_FLUSHED_COUNT (r : Nat) : Fld := ⟨R.HOST_RING_FLUSHED r, 0, 32⟩
abbrev HOST_RING_CANCELLED_COUNT (r : Nat) : Fld := ⟨R.HOST_RING_CANCELLED r, 0, 32⟩
abbrev HOST_RING_LATECANCEL_COUNT (r : Nat) : Fld := ⟨R.HOST_RING_LATECANCEL r, 0, 32⟩
abbrev HOST_STREAM_RING_RING0 (w : Nat) : Fld := ⟨R.HOST_STREAM_RING w, 0, 6⟩
abbrev HOST_STREAM_RING_RING1 (w : Nat) : Fld := ⟨R.HOST_STREAM_RING w, 8, 6⟩
abbrev HOST_STREAM_RING_RING2 (w : Nat) : Fld := ⟨R.HOST_STREAM_RING w, 16, 6⟩
abbrev HOST_STREAM_RING_RING3 (w : Nat) : Fld := ⟨R.HOST_STREAM_RING w, 24, 6⟩
abbrev LANTERN_STATUS_READY : Fld := ⟨R.LANTERN_STATUS, 31, 1⟩
abbrev LANTERN_STATUS_RECOVERY : Fld := ⟨R.LANTERN_STATUS, 30, 1⟩
abbrev LANTERN_STATUS_SWITCHING : Fld := ⟨R.LANTERN_STATUS, 29, 1⟩
abbrev LANTERN_STATUS_TRIAL : Fld := ⟨R.LANTERN_STATUS, 28, 1⟩
abbrev LANTERN_STATUS_ACTIVE_BANK : Fld := ⟨R.LANTERN_STATUS, 27, 1⟩
abbrev LANTERN_STATUS_HEARTBEAT : Fld := ⟨R.LANTERN_STATUS, 0, 16⟩
abbrev LANTERN_ALARM_FALLBACK_BOOT : Fld := ⟨R.LANTERN_ALARM, 7, 1⟩
abbrev LANTERN_ALARM_BADTAG : Fld := ⟨R.LANTERN_ALARM, 6, 1⟩
abbrev LANTERN_ALARM_MBX_DROP : Fld := ⟨R.LANTERN_ALARM, 5, 1⟩
abbrev LANTERN_ALARM_RECORD_ERR : Fld := ⟨R.LANTERN_ALARM, 4, 1⟩
abbrev LANTERN_ALARM_RESTART : Fld := ⟨R.LANTERN_ALARM, 3, 1⟩
abbrev LANTERN_ALARM_LIB_ROLLBACK : Fld := ⟨R.LANTERN_ALARM, 2, 1⟩
abbrev LANTERN_ALARM_UPDATE_LOST : Fld := ⟨R.LANTERN_ALARM, 1, 1⟩
abbrev LANTERN_ALARM_FW_ROLLBACK : Fld := ⟨R.LANTERN_ALARM, 0, 1⟩
abbrev LANTERN_FW_RUN_VERSION : Fld := ⟨R.LANTERN_FW_RUN, 0, 32⟩
abbrev LANTERN_SVN_RUN_SVN : Fld := ⟨R.LANTERN_SVN, 16, 16⟩
abbrev LANTERN_SVN_MIN_SVN : Fld := ⟨R.LANTERN_SVN, 0, 16⟩
abbrev LANTERN_BANKS_B : Fld := ⟨R.LANTERN_BANKS, 4, 3⟩
abbrev LANTERN_BANKS_A : Fld := ⟨R.LANTERN_BANKS, 0, 3⟩
abbrev LANTERN_BANK_VER_VERSION (n : Nat) : Fld := ⟨R.LANTERN_BANK_VER n, 0, 32⟩
abbrev LANTERN_UPDATE_LIBRARY : Fld := ⟨R.LANTERN_UPDATE, 28, 4⟩
abbrev LANTERN_UPDATE_LIB_STATE : Fld := ⟨R.LANTERN_UPDATE, 25, 3⟩
abbrev LANTERN_UPDATE_ENTRIES : Fld := ⟨R.LANTERN_UPDATE, 0, 20⟩
abbrev LANTERN_TRIAL_WAIT_S : Fld := ⟨R.LANTERN_TRIAL_WAIT, 0, 16⟩
abbrev LANTERN_RESTARTS_COUNT : Fld := ⟨R.LANTERN_RESTARTS, 0, 32⟩
abbrev LANTERN_MBX_DROP_COUNT : Fld := ⟨R.LANTERN_MBX_DROP, 0, 32⟩
abbrev LANTERN_BADTAG_COUNT : Fld := ⟨R.LANTERN_BADTAG, 0, 32⟩
abbrev MBX_IN_DATA_DATA (n : Nat) : Fld := ⟨R.MBX_IN_DATA n, 0, 32⟩
abbrev MBX_OUT_DATA_DATA (n : Nat) : Fld := ⟨R.MBX_OUT_DATA n, 0, 32⟩
abbrev MBX_IN_FULL_FULL : Fld := ⟨R.MBX_IN_FULL, 0, 32⟩
abbrev MBX_IN_COLLISION_COLLISION : Fld := ⟨R.MBX_IN_COLLISION, 0, 32⟩
abbrev MBX_OUT_FULL_FULL : Fld := ⟨R.MBX_OUT_FULL, 0, 32⟩
abbrev MBX_OUT_COLLISION_COLLISION : Fld := ⟨R.MBX_OUT_COLLISION, 0, 32⟩
abbrev MBX_IRQ_EN : Fld := ⟨R.MBX_IRQ, 8, 1⟩
abbrev MBX_IRQ_VECTOR : Fld := ⟨R.MBX_IRQ, 0, 8⟩
abbrev LANTERN_GMBX_DATA_DATA (n : Nat) : Fld := ⟨R.LANTERN_GMBX_DATA n, 0, 32⟩
abbrev LANTERN_GMBX_STATUS_COLLISION : Fld := ⟨R.LANTERN_GMBX_STATUS, 8, 8⟩
abbrev LANTERN_GMBX_STATUS_FULL : Fld := ⟨R.LANTERN_GMBX_STATUS, 0, 8⟩
abbrev LANTERN_GMBX_SRC_LOGICAL (n : Nat) : Fld := ⟨R.LANTERN_GMBX_SRC n, 0, 13⟩
abbrev POWER_CMD_TARGET : Fld := ⟨R.POWER_CMD, 0, 3⟩
abbrev POWER_STATUS_STATE : Fld := ⟨R.POWER_STATUS, 29, 3⟩
abbrev POWER_STATUS_TARGET : Fld := ⟨R.POWER_STATUS, 26, 3⟩
abbrev POWER_STATUS_PFW : Fld := ⟨R.POWER_STATUS, 25, 1⟩
abbrev POWER_STATUS_FLUSHING : Fld := ⟨R.POWER_STATUS, 24, 1⟩
abbrev POWER_STATUS_HELD : Fld := ⟨R.POWER_STATUS, 23, 1⟩
abbrev POWER_STATUS_RESULT : Fld := ⟨R.POWER_STATUS, 14, 2⟩
abbrev POWER_STATUS_REFUSER : Fld := ⟨R.POWER_STATUS, 8, 4⟩
abbrev POWER_READY_MBX : Fld := ⟨R.POWER_READY, 31, 1⟩
abbrev POWER_READY_HOST_LINK : Fld := ⟨R.POWER_READY, 30, 1⟩
abbrev POWER_READY_LANTERN : Fld := ⟨R.POWER_READY, 29, 1⟩
abbrev POWER_READY_GROTTO : Fld := ⟨R.POWER_READY, 28, 1⟩
abbrev POWER_READY_HBM : Fld := ⟨R.POWER_READY, 27, 1⟩
abbrev POWER_READY_SUMP : Fld := ⟨R.POWER_READY, 26, 1⟩
abbrev POWER_READY_CHISEL : Fld := ⟨R.POWER_READY, 25, 1⟩
abbrev POWER_READY_TUNNEL : Fld := ⟨R.POWER_READY, 24, 1⟩
abbrev POWER_READY_ADIT_PORT : Fld := ⟨R.POWER_READY, 20, 4⟩
abbrev POWER_READY_LODE_DIE : Fld := ⟨R.POWER_READY, 12, 8⟩
abbrev POWER_READY_GROUPS_ALL : Fld := ⟨R.POWER_READY, 11, 1⟩
abbrev POWER_READY_GROUPS_ANY : Fld := ⟨R.POWER_READY, 10, 1⟩
abbrev POWER_READY_BENCHES_ALL : Fld := ⟨R.POWER_READY, 9, 1⟩
abbrev POWER_READY_REPLAY : Fld := ⟨R.POWER_READY, 8, 1⟩
abbrev POWER_READY_HOST_INGEST : Fld := ⟨R.POWER_READY, 7, 1⟩
abbrev POWER_ALARM_PFW : Fld := ⟨R.POWER_ALARM, 9, 1⟩
abbrev POWER_ALARM_LOG_DROP : Fld := ⟨R.POWER_ALARM, 8, 1⟩
abbrev POWER_ALARM_ALARM_LOST : Fld := ⟨R.POWER_ALARM, 7, 1⟩
abbrev POWER_ALARM_DEVICE_FAULT : Fld := ⟨R.POWER_ALARM, 6, 1⟩
abbrev POWER_ALARM_THERMAL_TRIPPED : Fld := ⟨R.POWER_ALARM, 5, 1⟩
abbrev POWER_ALARM_JOURNAL_LOST : Fld := ⟨R.POWER_ALARM, 4, 1⟩
abbrev POWER_ALARM_SEQ_FAULT : Fld := ⟨R.POWER_ALARM, 3, 1⟩
abbrev POWER_ALARM_BROWNOUT : Fld := ⟨R.POWER_ALARM, 2, 1⟩
abbrev POWER_ALARM_ENTRY_ABORTED : Fld := ⟨R.POWER_ALARM, 1, 1⟩
abbrev POWER_ALARM_CMD_REFUSED : Fld := ⟨R.POWER_ALARM, 0, 1⟩
abbrev POWER_SUMMARY_LOST : Fld := ⟨R.POWER_SUMMARY, 12, 1⟩
abbrev POWER_SUMMARY_THERMAL : Fld := ⟨R.POWER_SUMMARY, 11, 1⟩
abbrev POWER_SUMMARY_FAULT : Fld := ⟨R.POWER_SUMMARY, 10, 1⟩
abbrev POWER_SUMMARY_BLOCK : Fld := ⟨R.POWER_SUMMARY, 0, 10⟩
abbrev POWER_ALERT_EN_EN : Fld := ⟨R.POWER_ALERT_EN, 0, 13⟩
abbrev POWER_LAST_WAKE_SOURCE : Fld := ⟨R.POWER_LAST_WAKE, 24, 8⟩
abbrev POWER_LAST_WAKE_FROM : Fld := ⟨R.POWER_LAST_WAKE, 20, 4⟩
abbrev POWER_LAST_WAKE_BROWNOUT : Fld := ⟨R.POWER_LAST_WAKE, 19, 1⟩
abbrev POWER_LAST_WAKE_COUNT : Fld := ⟨R.POWER_LAST_WAKE, 0, 16⟩
abbrev POWER_WAKE_CFG_STBY_NORMAL : Fld := ⟨R.POWER_WAKE_CFG, 7, 1⟩
abbrev POWER_WAKE_CFG_PFW_RETURN : Fld := ⟨R.POWER_WAKE_CFG, 4, 1⟩
abbrev POWER_WAKE_CFG_TIMER : Fld := ⟨R.POWER_WAKE_CFG, 3, 1⟩
abbrev POWER_WAKE_CFG_HOST : Fld := ⟨R.POWER_WAKE_CFG, 2, 1⟩
abbrev POWER_WAKE_CFG_MPORT : Fld := ⟨R.POWER_WAKE_CFG, 1, 1⟩
abbrev POWER_WAKE_CFG_WAKE_N : Fld := ⟨R.POWER_WAKE_CFG, 0, 1⟩
abbrev POWER_WAKE_TIMER_SECONDS : Fld := ⟨R.POWER_WAKE_TIMER, 0, 32⟩
abbrev POWER_PFW_CFG_SHED : Fld := ⟨R.POWER_PFW_CFG, 0, 1⟩
abbrev POWER_THERMAL_HOTTEST : Fld := ⟨R.POWER_THERMAL, 16, 8⟩
abbrev POWER_THERMAL_SENSOR : Fld := ⟨R.POWER_THERMAL, 12, 4⟩
abbrev POWER_THERMAL_LEVEL : Fld := ⟨R.POWER_THERMAL, 0, 3⟩
abbrev POWER_FAULT_KIND : Fld := ⟨R.POWER_FAULT, 30, 2⟩
abbrev POWER_FAULT_CAUSE : Fld := ⟨R.POWER_FAULT, 16, 8⟩
abbrev POWER_FAULT_UNIT : Fld := ⟨R.POWER_FAULT, 0, 16⟩
abbrev POWER_SEQ_RAIL : Fld := ⟨R.POWER_SEQ, 28, 4⟩
abbrev POWER_SEQ_STUCK : Fld := ⟨R.POWER_SEQ, 27, 1⟩
abbrev POWER_SEQ_EARLY : Fld := ⟨R.POWER_SEQ, 26, 1⟩
abbrev POWER_LOG_CFG_RATE : Fld := ⟨R.POWER_LOG_CFG, 0, 16⟩
abbrev POWER_UPTIME_LO_MS : Fld := ⟨R.POWER_UPTIME_LO, 0, 32⟩
abbrev POWER_UPTIME_HI_MS : Fld := ⟨R.POWER_UPTIME_HI, 0, 32⟩
abbrev POWER_REFUSE_ABORTED (n : Nat) : Fld := ⟨R.POWER_REFUSE n, 16, 16⟩
abbrev POWER_REFUSE_REFUSED (n : Nat) : Fld := ⟨R.POWER_REFUSE n, 0, 16⟩
abbrev POWER_LOG_DROP_COUNT : Fld := ⟨R.POWER_LOG_DROP, 0, 32⟩
abbrev POWER_ALARM_LOST_COUNT : Fld := ⟨R.POWER_ALARM_LOST, 0, 32⟩
abbrev POWER_ASLEEP_ACCESS_COUNT : Fld := ⟨R.POWER_ASLEEP_ACCESS, 0, 32⟩
abbrev POWER_TEMP_TEMP (n : Nat) : Fld := ⟨R.POWER_TEMP n, 0, 12⟩
abbrev TEST_ID_REV : Fld := ⟨R.TEST_ID, 28, 4⟩
abbrev TEST_ID_GRADE : Fld := ⟨R.TEST_ID, 27, 1⟩
abbrev TEST_ID_PART : Fld := ⟨R.TEST_ID, 0, 16⟩
abbrev TEST_ALARM_TICK_REFUSED : Fld := ⟨R.TEST_ALARM, 8, 1⟩
abbrev TEST_ALARM_PRBS_REFUSED : Fld := ⟨R.TEST_ALARM, 7, 1⟩
abbrev TEST_ALARM_PRBS_ERR : Fld := ⟨R.TEST_ALARM, 6, 1⟩
abbrev TEST_ALARM_MPORT_ABORT : Fld := ⟨R.TEST_ALARM, 5, 1⟩
abbrev TEST_ALARM_PPS_JUMP : Fld := ⟨R.TEST_ALARM, 4, 1⟩
abbrev TEST_ALARM_PPS_LOST : Fld := ⟨R.TEST_ALARM, 3, 1⟩
abbrev TEST_ALARM_REF10M_LOST : Fld := ⟨R.TEST_ALARM, 2, 1⟩
abbrev TEST_ALARM_RAIL_LOW : Fld := ⟨R.TEST_ALARM, 1, 1⟩
abbrev TEST_ALARM_PMB_FAULT : Fld := ⟨R.TEST_ALARM, 0, 1⟩
abbrev TEST_SERIAL_LO_SERIAL : Fld := ⟨R.TEST_SERIAL_LO, 0, 32⟩
abbrev TEST_SERIAL_HI_SERIAL : Fld := ⟨R.TEST_SERIAL_HI, 0, 32⟩
abbrev TEST_PMB_CFG_PEC : Fld := ⟨R.TEST_PMB_CFG, 1, 1⟩
abbrev TEST_PMB_CFG_SPEED : Fld := ⟨R.TEST_PMB_CFG, 0, 1⟩
abbrev TEST_MPORT_ABORT_COUNT : Fld := ⟨R.TEST_MPORT_ABORT, 0, 32⟩
abbrev TEST_PMB_ERR_COUNT : Fld := ⟨R.TEST_PMB_ERR, 0, 32⟩
abbrev TEST_PMB_RAIL_EN (n : Nat) : Fld := ⟨R.TEST_PMB_RAIL n, 31, 1⟩
abbrev TEST_PMB_RAIL_ADDR (n : Nat) : Fld := ⟨R.TEST_PMB_RAIL n, 24, 7⟩
abbrev TEST_PMB_RAIL_PAGE (n : Nat) : Fld := ⟨R.TEST_PMB_RAIL n, 16, 8⟩
abbrev TEST_PMB_RAIL_VSET_MV (n : Nat) : Fld := ⟨R.TEST_PMB_RAIL n, 0, 16⟩
abbrev TEST_RAIL_MV (n : Nat) : Fld := ⟨R.TEST_RAIL n, 0, 16⟩
abbrev TEST_TIME_CTRL_REF10M_EN : Fld := ⟨R.TEST_TIME_CTRL, 1, 1⟩
abbrev TEST_TIME_CTRL_PPS_EN : Fld := ⟨R.TEST_TIME_CTRL, 0, 1⟩
abbrev TEST_TIME_STATUS_PPS_LOCK : Fld := ⟨R.TEST_TIME_STATUS, 31, 1⟩
abbrev TEST_TIME_STATUS_ON_10M : Fld := ⟨R.TEST_TIME_STATUS, 30, 1⟩
abbrev TEST_TIME_STATUS_TICKS_STARTED : Fld := ⟨R.TEST_TIME_STATUS, 29, 1⟩
abbrev TEST_TIME_STATUS_PPS_COUNT : Fld := ⟨R.TEST_TIME_STATUS, 0, 16⟩
abbrev TEST_TIME_NEXT_LO_TS : Fld := ⟨R.TEST_TIME_NEXT_LO, 0, 32⟩
abbrev TEST_TIME_NEXT_HI_TS : Fld := ⟨R.TEST_TIME_NEXT_HI, 0, 32⟩
abbrev TEST_TIME_NOW_LO_TS : Fld := ⟨R.TEST_TIME_NOW_LO, 0, 32⟩
abbrev TEST_TIME_NOW_HI_TS : Fld := ⟨R.TEST_TIME_NOW_HI, 0, 32⟩
abbrev TEST_TIME_OFFSET_UNITS : Fld := ⟨R.TEST_TIME_OFFSET, 0, 32⟩
abbrev TEST_TICK_CTRL_START : Fld := ⟨R.TEST_TICK_CTRL, 0, 1⟩
abbrev TEST_TICK_PERIOD_P : Fld := ⟨R.TEST_TICK_PERIOD, 0, 24⟩
abbrev TEST_TICK_T0_LO_TS : Fld := ⟨R.TEST_TICK_T0_LO, 0, 32⟩
abbrev TEST_TICK_T0_HI_TS : Fld := ⟨R.TEST_TICK_T0_HI, 0, 32⟩
abbrev TEST_TICK_NOW_LO_TICK : Fld := ⟨R.TEST_TICK_NOW_LO, 0, 32⟩
abbrev TEST_TICK_NOW_HI_TICK : Fld := ⟨R.TEST_TICK_NOW_HI, 0, 32⟩
abbrev TEST_PRBS_CTRL_LOCK (p : Nat) : Fld := ⟨R.TEST_PRBS_CTRL p, 31, 1⟩
abbrev TEST_PRBS_CTRL_MODE (p : Nat) : Fld := ⟨R.TEST_PRBS_CTRL p, 0, 2⟩
abbrev TEST_PRBS_ERR_COUNT (p : Nat) : Fld := ⟨R.TEST_PRBS_ERR p, 0, 32⟩

end F

/-- The LANTERN block (block base 0x0). -/
def rowsLantern : List RegRow :=
  [
   ⟨0, 4, 1, 0, 0, 0, 0xF800FFFF, 0x18000000, 0⟩,
   ⟨4, 4, 1, 0, 0xFF, 0, 0xFF, 0, 0⟩,
   ⟨8, 4, 1, 0, 0, 0, 0xFFFFFFFF, 0xFFFFFFFF, 0⟩,
   ⟨0xC, 4, 1, 0, 0, 0, 0xFFFFFFFF, 0xFFFFFFFF, 0⟩,
   ⟨0x10, 4, 1, 0, 0, 0, 0x77, 0x77, 5⟩,
   ⟨0x14, 4, 2, 0, 0, 0, 0xFFFFFFFF, 0xFFFFFFFF, 0⟩,
   ⟨0x1C, 4, 1, 0, 0, 0, 0xFE0FFFFF, 0xFE000000, 0⟩,
   ⟨0x20, 4, 1, 0xFFFF, 0, 0, 0xFFFF, 0, 0x258⟩,
   ⟨0x24, 4, 1, 0, 0, 0xFFFFFFFF, 0xFFFFFFFF, 0, 0⟩,
   ⟨0x28, 4, 1, 0, 0, 0xFFFFFFFF, 0xFFFFFFFF, 0, 0⟩,
   ⟨0x2C, 4, 1, 0, 0, 0xFFFFFFFF, 0xFFFFFFFF, 0, 0⟩,
   ⟨0x100, 4, 32, 0, 0, 0, 0xFFFFFFFF, 0, 0⟩,
   ⟨0x180, 4, 32, 0, 0, 0xFFFFFFFF, 0xFFFFFFFF, 0, 0⟩,
   ⟨0x200, 4, 1, 0, 0, 0, 0xFFFFFFFF, 0, 0⟩,
   ⟨0x204, 4, 1, 0, 0xFFFFFFFF, 0, 0xFFFFFFFF, 0, 0⟩,
   ⟨0x208, 4, 1, 0, 0, 0, 0xFFFFFFFF, 0, 0⟩,
   ⟨0x20C, 4, 1, 0, 0xFFFFFFFF, 0, 0xFFFFFFFF, 0, 0⟩,
   ⟨0x210, 4, 1, 0x1FF, 0, 0, 0x1FF, 0, 0⟩,
   ⟨0x300, 4, 4, 0, 0, 0xFFFFFFFF, 0xFFFFFFFF, 0, 0⟩,
   ⟨0x310, 4, 4, 0, 0, 0, 0xFFFFFFFF, 0, 0⟩,
   ⟨0x320, 4, 1, 0, 0xFF00, 0, 0xFFFF, 0, 0⟩,
   ⟨0x324, 4, 4, 0, 0, 0, 0x1FFF, 0, 0⟩]

/-- The HOST block (block base 0x100000). -/
def rowsHost : List RegRow :=
  [
   ⟨0, 4, 1, 0, 0, 0, 0x80FF8000, 0, 0⟩,
   ⟨4, 4, 1, 0, 0x3F, 0, 0x3F, 0, 0⟩,
   ⟨8, 4, 1, 0xFFFFFFFF, 0, 0, 0xFFFFFFFF, 0, 0⟩,
   ⟨0xC, 4, 1, 0xFFFFFFFF, 0, 0, 0xFFFFFFFF, 0, 0⟩,
   ⟨0x10, 4, 1, 0xFFFFFFFF, 0, 0, 0xFFFFFFFF, 0, 0⟩,
   ⟨0x14, 4, 1, 0xFFFFFFFF, 0, 0, 0xFFFFFFFF, 0, 0⟩,
   ⟨0x18, 4, 1, 0xFFFF, 0, 0, 0xFFFF, 0, 0xA⟩,
   ⟨0x20, 4, 1, 0, 0, 0xFFFFFFFF, 0xFFFFFFFF, 0, 0⟩,
   ⟨0x24, 4, 1, 0, 0, 0xFFFFFFFF, 0xFFFFFFFF, 0, 0⟩,
   ⟨0x28, 4, 1, 0, 0, 0xFFFFFFFF, 0xFFFFFFFF, 0, 0⟩,
   ⟨0x2C, 4, 1, 0, 0, 0xFFFFFFFF, 0xFFFFFFFF, 0, 0⟩,
   ⟨0x1000, 0x40, 64, 0x7FFFBF00, 0, 0, 0xFFFFBF00, 0, 0⟩,
   ⟨0x1004, 0x40, 64, 0xFFFFFFFF, 0, 0, 0xFFFFFFFF, 0, 0⟩,
   ⟨0x1008, 0x40, 64, 0xFFFFFFFF, 0, 0, 0xFFFFFFFF, 0, 0⟩,
   ⟨0x100C, 0x40, 64, 0xFFFFFFFF, 0, 0, 0xFFFFFFFF, 0, 0⟩,
   ⟨0x1010, 0x40, 64, 0, 0, 0, 0xE001FFFF, 0, 0⟩,
   ⟨0x1014, 0x40, 64, 0, 0, 0, 0xFFFFFFFF, 0, 0⟩,
   ⟨0x1018, 0x40, 64, 0, 0, 0, 0xFFFFFFFF, 0, 0⟩,
   ⟨0x101C, 0x40, 64, 0, 0, 0xFFFFFFFF, 0xFFFFFFFF, 0, 0⟩,
   ⟨0x1020, 0x40, 64, 0, 0, 0xFFFFFFFF, 0xFFFFFFFF, 0, 0⟩,
   ⟨0x1024, 0x40, 64, 0, 0, 0xFFFFFFFF, 0xFFFFFFFF, 0, 0⟩,
   ⟨0x40000, 4, 16384, 0x3F3F3F3F, 0, 0, 0x3F3F3F3F, 0, 0⟩,
   ⟨0x8000, 0x10, 256, 0xFFFFFFFC, 0, 0, 0xFFFFFFFC, 0, 0⟩,
   ⟨0x8004, 0x10, 256, 0xFFFFFFFF, 0, 0, 0xFFFFFFFF, 0, 0⟩,
   ⟨0x8008, 0x10, 256, 0xFFFFFFFF, 0, 0, 0xFFFFFFFF, 0, 0⟩,
   ⟨0x800C, 0x10, 256, 1, 0, 0, 1, 0, 1⟩,
   ⟨0x9000, 4, 8, 0, 0, 0, 0xFFFFFFFF, 0, 0⟩]

/-- The ADIT block (block base 0x200000). -/
def rowsAdit : List RegRow :=
  [
   ⟨0, 4, 1, 0xFFFF, 0, 0, 0xFFFF, 0, 0x1388⟩,
   ⟨4, 4, 1, 0, 0, 0, 0x3F, 0, 0⟩,
   ⟨8, 4, 1, 0, 0, 0, 0x7FF, 0x7FF, 0x400⟩,
   ⟨0xC, 4, 1, 0, 0, 0, 0x3FFFFFF, 0, 0⟩,
   ⟨0x10, 4, 1, 0, 0xFF, 0, 0xFF, 0, 0⟩,
   ⟨0x14, 4, 1, 0, 0, 0, 6, 0, 0⟩,
   ⟨0x20, 4, 1, 0xFFFF, 0, 0, 0xFFFF, 0, 0⟩,
   ⟨0x24, 4, 1, 0, 0, 0, 0xFF81FFFF, 0x1FFFF, 0⟩,
   ⟨0x28, 4, 1, 0, 0, 0xFFFFFFFF, 0xFFFFFFFF, 0, 0⟩,
   ⟨0x2C, 4, 1, 0, 0, 0xFFFFFFFF, 0xFFFFFFFF, 0, 0⟩,
   ⟨0x30, 4, 1, 0, 0, 0xFFFFFFFF, 0xFFFFFFFF, 0, 0⟩,
   ⟨0x34, 4, 1, 0, 0, 0xFFFFFFFF, 0xFFFFFFFF, 0, 0⟩,
   ⟨0x38, 4, 1, 0, 0, 0xFFFFFFFF, 0xFFFFFFFF, 0, 0⟩,
   ⟨0x3C, 4, 1, 0, 0, 0, 0xFFFFFFFF, 0, 0⟩,
   ⟨0x100, 0x40, 4, 0xD0, 0, 0, 0xDD, 0, 0⟩,
   ⟨0x104, 0x40, 4, 0x7FFF, 0, 0, 0x7FFF, 0, 0⟩,
   ⟨0x108, 0x40, 4, 0xFFFFFF, 0, 0, 0xFFFFFF, 0, 0x2710⟩,
   ⟨0x10C, 0x40, 4, 0xFFFF, 0, 0, 0xFFFF, 0, 0⟩,
   ⟨0x110, 0x40, 4, 0xFFFF, 0, 0, 0xFFFF, 0, 0⟩,
   ⟨0x114, 0x40, 4, 0, 0, 0, 0xFFFF07, 0xFF00, 0⟩,
   ⟨0x118, 0x40, 4, 0, 0, 0xFFFFFFFF, 0xFFFFFFFF, 0, 0⟩,
   ⟨0x11C, 0x40, 4, 0, 0, 0xFFFFFFFF, 0xFFFFFFFF, 0, 0⟩,
   ⟨0x120, 0x40, 4, 0, 0, 0xFFFFFFFF, 0xFFFFFFFF, 0, 0⟩,
   ⟨0x124, 0x40, 4, 0, 0, 0xFFFFFFFF, 0xFFFFFFFF, 0, 0⟩,
   ⟨0x128, 0x40, 4, 0, 0, 0xFFFFFFFF, 0xFFFFFFFF, 0, 0⟩,
   ⟨0x100000, 0x10, 65536, 0x5FF03FFF, 0, 0, 0xDFF03FFF, 0, 0⟩,
   ⟨0x100004, 0x10, 65536, 0xFFFFFFFF, 0, 0, 0xFFFFFFFF, 0xFFFF, 0x640000⟩,
   ⟨0x100008, 0x10, 65536, 0xFFFFFFFF, 0, 0, 0xFFFFFFFF, 0, 0x10000⟩,
   ⟨0x10000C, 0x10, 65536, 0xFFE0FFFF, 0, 0, 0xFFE0FFFF, 0, 0⟩,
   ⟨0x80000, 4, 131072, 0, 0, 0, 0xFFFFFFFF, 0, 0⟩]

/-- The GALLERY block (block base 0x400000). -/
def rowsGallery : List RegRow :=
  [
   ⟨0, 4, 1, 0, 0, 0, 3, 3, 2⟩,
   ⟨4, 4, 1, 0, 0, 0, 0x1FF, 0x1FF, 0x100⟩,
   ⟨8, 4, 1, 0, 0, 0, 0xFFFFFFFF, 0xFFFFFFFF, 0⟩,
   ⟨0xC, 4, 1, 0, 0, 0, 0xFFFFFFFF, 0xFFFFFFFF, 0⟩,
   ⟨0x10, 4, 1, 0xFFFF, 0, 0, 0xFFFF, 0, 0x7D0⟩,
   ⟨0x14, 4, 1, 0, 0x7F, 0, 0x7F, 0, 0⟩,
   ⟨0x18, 4, 1, 0, 0, 0xFFFFFFFF, 0xFFFFFFFF, 0, 0⟩,
   ⟨0x20, 4, 1, 0, 0, 0, 0xFFFFFFFF, 0, 0⟩,
   ⟨0x24, 4, 1, 0, 0, 0, 0xFFFFFFFF, 0, 0⟩,
   ⟨0x28, 4, 1, 0, 0, 0, 0xFFFFFFFF, 0, 0⟩,
   ⟨0x2C, 4, 1, 0, 0, 0, 0xFFFFFFFF, 0, 0⟩,
   ⟨0x30, 4, 1, 0, 0, 0, 0xFFFFFFFF, 0, 0⟩,
   ⟨0x34, 4, 1, 0, 0, 0, 0xFFFFFFFF, 0, 0⟩,
   ⟨0x40, 4, 1, 0x3FFF, 0, 0, 0x3FFF, 0, 0⟩,
   ⟨0x44, 4, 1, 0, 0, 0, 0xFFFFFFFF, 0xCFFF8000, 0x10000000⟩,
   ⟨0x48, 4, 1, 0, 0, 0xFFFFFFFF, 0xFFFFFFFF, 0, 0⟩,
   ⟨0x4C, 4, 1, 0, 0, 0xFFFFFFFF, 0xFFFFFFFF, 0, 0⟩,
   ⟨0x50, 4, 1, 0, 0, 0xFFFFFFFF, 0xFFFFFFFF, 0, 0⟩,
   ⟨0x54, 4, 1, 0, 0, 0xFFFFFFFF, 0xFFFFFFFF, 0, 0⟩,
   ⟨0x58, 4, 1, 0, 0, 0xFFFFFFFF, 0xFFFFFFFF, 0, 0⟩,
   ⟨0x5C, 4, 1, 0, 0, 0x3FF, 0x3FF, 0, 0⟩,
   ⟨0x60, 4, 1, 0, 0, 0xFFFFFFFF, 0xFFFFFFFF, 0, 0⟩,
   ⟨0x64, 4, 1, 0, 0, 0xFFFFFFFF, 0xFFFFFFFF, 0, 0⟩,
   ⟨0x68, 4, 1, 0, 0, 0xFFFFFFFF, 0xFFFFFFFF, 0, 0⟩,
   ⟨0x100, 0x10, 64, 0, 0, 0, 0, 0, 0⟩,
   ⟨0x104, 0x10, 64, 0, 0, 0, 0xF1FFF, 0xFFF, 0x400⟩,
   ⟨0x800, 0x10, 32, 0x80FFFF00, 0, 0, 0xC0FFFF00, 0, 0x80100⟩,
   ⟨0x804, 0x10, 32, 0xFFFFFFFF, 0, 0, 0xFFFFFFFF, 0, 0⟩,
   ⟨0x808, 0x10, 32, 0xFFFFFFFF, 0, 0, 0xFFFFFFFF, 0, 0⟩,
   ⟨0x80C, 0x10, 32, 0, 0, 0xFFFFFFFF, 0xFFFFFFFF, 0, 0⟩,
   ⟨0xC00, 4, 256, 0, 0, 0, 0x87FFFFFF, 0x87FFFFFF, 0⟩,
   ⟨0x100000, 4, 65536, 0, 0, 0, 0xE1FF007F, 0, 0⟩]

/-- The SEAM block (block base 0x800000). -/
def rowsSeam : List RegRow :=
  [
   ⟨0, 4, 1, 0, 0, 0, 0xFC000FFF, 0xC000FFF, 0x800⟩,
   ⟨4, 4, 1, 0, 0, 0, 0xFFFFFF, 0, 0x80⟩,
   ⟨8, 4, 1, 0, 0, 0, 0xFFFFFFFF, 0xFFFF0000, 0⟩,
   ⟨0xC, 4, 1, 0, 0x7F, 0, 0x7F, 0, 0⟩,
   ⟨0x10, 4, 1, 0, 0, 0, 0xFFFFFFFF, 0, 0⟩,
   ⟨0x14, 4, 1, 0, 0, 0, 0xFFFFFFFF, 0, 0⟩,
   ⟨0x18, 4, 1, 0, 0, 0xFFFFFFFF, 0xFFFFFFFF, 0, 0⟩,
   ⟨0x1C, 4, 1, 0, 0, 0xFFFFFFFF, 0xFFFFFFFF, 0, 0⟩,
   ⟨0x20, 4, 1, 0, 0, 0xFFFFFFFF, 0xFFFFFFFF, 0, 0⟩,
   ⟨0x24, 4, 1, 0, 0, 0xFFFFFFFF, 0xFFFFFFFF, 0, 0⟩,
   ⟨0x28, 4, 1, 0, 0, 0xFFFFFFFF, 0xFFFFFFFF, 0, 0⟩,
   ⟨0x40, 4, 1, 0x1FFF, 0, 0, 0x1FFF, 0, 0⟩,
   ⟨0x44, 4, 1, 0, 0, 0, 0xFFC00000, 0, 0⟩,
   ⟨0x48, 4, 1, 0, 0, 0, 0, 0, 0⟩,
   ⟨0x100, 4, 240, 0, 0, 0, 0xFFFFFFFF, 0, 0⟩,
   ⟨0x800, 4, 1, 0xFFFF, 0, 0, 0xFFFF, 0, 0⟩,
   ⟨0x804, 4, 1, 0, 0, 0, 0xFE007FFF, 0xFE007FFF, 0⟩,
   ⟨0x808, 4, 1, 0, 0, 0, 0xFFFE0003, 0xFFFE0000, 0⟩,
   ⟨0x80C, 4, 1, 0, 0, 0, 0xFFFFFFFF, 0xFFFFFFFF, 0⟩,
   ⟨0x810, 4, 1, 0, 0, 0, 0xFFFFFFFF, 0xFFFFFFFF, 0⟩,
   ⟨0x814, 4, 1, 0, 0, 0, 0x3FFFFFF, 0, 0⟩,
   ⟨0xA00, 4, 1, 0, 0, 0, 0, 0, 0⟩,
   ⟨0xA04, 4, 1, 0, 0, 0, 0xFFFFFFFF, 0, 0⟩,
   ⟨0xA08, 4, 1, 0, 0, 0, 0x3FFFFFFF, 0x3FFFFFFF, 0x1332E052⟩,
   ⟨0xA0C, 4, 1, 0, 0, 0, 0xFFFFFFFF, 0xFFFFFFFF, 0x1807D0⟩,
   ⟨0xA10, 4, 1, 0, 0, 0, 0xFFFFFFFF, 0xFFFFFFFF, 0x27102328⟩,
   ⟨0xA14, 4, 1, 0, 0, 0, 0xFFFFFFFF, 0xFFFFFFFF, 0⟩,
   ⟨0xA18, 4, 1, 0, 0, 0, 0xFF, 0xFF, 0xA⟩,
   ⟨0xA1C, 4, 1, 0, 0x3F, 0, 0x3F, 0, 0⟩,
   ⟨0xA20, 4, 1, 0, 0, 0xFFFFFFFF, 0xFFFFFFFF, 0, 0⟩,
   ⟨0xA24, 4, 1, 0, 0, 0xFFFFFFFF, 0xFFFFFFFF, 0, 0⟩,
   ⟨0xA28, 4, 1, 0, 0, 0xFFFFFFFF, 0xFFFFFFFF, 0, 0⟩,
   ⟨0xA2C, 4, 1, 0, 0, 0xFFFFFFFF, 0xFFFFFFFF, 0, 0⟩,
   ⟨0xA30, 4, 1, 0, 0, 0xFFFFFFFF, 0xFFFFFFFF, 0, 0⟩,
   ⟨0xA34, 4, 1, 0, 0, 0xFFFFFFFF, 0xFFFFFFFF, 0, 0⟩,
   ⟨0xA38, 4, 1, 0, 0, 0xFFFFFFFF, 0xFFFFFFFF, 0, 0⟩,
   ⟨0xA40, 4, 16, 0, 0, 0, 0xFFFF, 0xFFFF, 0⟩,
   ⟨0x1000, 4, 32, 0, 0, 0, 0x800003FF, 0x800003FF, 0⟩,
   ⟨0x2000, 4, 256, 0, 0, 0, 0xFC1FFFFF, 0xFC1FFFFF, 0⟩,
   ⟨0x4000, 4, 1064, 0, 0, 0, 0xFFFF, 0xFFFF, 0⟩,
   ⟨0x6000, 4, 1064, 0, 0, 0, 0xC000FFFF, 0xC000FFFF, 0⟩,
   ⟨0x8000, 4, 1064, 0, 0, 0, 0xFFFF, 0xFFFF, 0⟩]

/-- The SUMP block (block base 0x1000000). -/
def rowsSump : List RegRow :=
  [
   ⟨0, 4, 1, 0xFF3F01, 0, 0, 0xFF3F01, 0, 0x40801⟩,
   ⟨4, 4, 1, 0, 0, 0, 0xC0FF0000, 0, 0⟩,
   ⟨8, 4, 1, 0, 0x3FF, 0, 0x3FF, 0, 0⟩,
   ⟨0xC, 4, 1, 0, 0, 0, 0xFFFFFFFF, 0xFFFFFFFF, 0⟩,
   ⟨0x10, 4, 1, 0xFFFF, 0, 0, 0xFFFF, 0, 0x61A8⟩,
   ⟨0x14, 4, 1, 0, 0, 0, 0xFFFFFF, 0, 0⟩,
   ⟨0x18, 4, 1, 0, 0, 0, 0xFFFFFFFF, 0, 0⟩,
   ⟨0x1C, 4, 1, 0xFFFF, 0, 0, 0xFFFF, 0, 0x3E8⟩,
   ⟨0x20, 4, 1, 0, 0, 0, 0xFFFFFFFF, 0, 0⟩,
   ⟨0x24, 4, 1, 0, 0, 0, 0xFFFFFFFF, 0, 0⟩,
   ⟨0x28, 4, 1, 0, 0, 0, 0xFFFFFFFF, 0, 0⟩,
   ⟨0x2C, 4, 1, 0, 0, 0, 0xFFFFFFFF, 0, 0⟩,
   ⟨0x30, 4, 1, 0, 0, 0xFFFFFFFF, 0xFFFFFFFF, 0, 0⟩,
   ⟨0x34, 4, 1, 0, 0, 0xFFFFFFFF, 0xFFFFFFFF, 0, 0⟩,
   ⟨0x38, 4, 1, 0, 0, 0xFFFFFFFF, 0xFFFFFFFF, 0, 0⟩,
   ⟨0x3C, 4, 1, 0, 0, 0xFFFFFFFF, 0xFFFFFFFF, 0, 0⟩,
   ⟨0x40, 4, 1, 0, 0, 0xFFFFFFFF, 0xFFFFFFFF, 0, 0⟩,
   ⟨0x44, 4, 1, 0, 0, 0xFFFFFFFF, 0xFFFFFFFF, 0, 0⟩,
   ⟨0x48, 4, 1, 0, 0, 0xFFFFFFFF, 0xFFFFFFFF, 0, 0⟩,
   ⟨0x4C, 4, 1, 0, 0, 0xFFFFFFFF, 0xFFFFFFFF, 0, 0⟩,
   ⟨0x50, 4, 1, 0, 0, 0xFFFFFFFF, 0xFFFFFFFF, 0, 0⟩,
   ⟨0x60, 4, 1, 0, 0, 0, 0xFFFFFF, 0xFFFFFF, 0⟩,
   ⟨0x100, 0x10, 16, 0x1F000000, 0, 0, 0xFF80FFFF, 0xFF00FFFF, 0⟩,
   ⟨0x104, 0x10, 16, 0xFFFFFFFF, 0, 0, 0xFFFFFFFF, 0xFFFFFFFF, 0xFFFF⟩,
   ⟨0x108, 0x10, 16, 0, 0, 0, 0xFFFFFF, 0xFFFFFF, 0⟩,
   ⟨0x10C, 0x10, 16, 0xFFFFFF, 0, 0, 0xFFFFFF, 0xFFFFFF, 0⟩,
   ⟨0x200, 4, 1, 0xFFFF, 0, 0, 0xFFFF, 0, 0⟩,
   ⟨0x204, 4, 1, 0, 0, 0, 0xF800FFFF, 0, 0⟩,
   ⟨0x210, 4, 1, 0xF0FFFFFF, 0, 0, 0xF0FFFFFF, 0, 0⟩,
   ⟨0x220, 4, 8, 0, 0, 0, 0xFFFFFFFF, 0, 0⟩,
   ⟨0x400, 0x10, 256, 0, 0, 0, 0xFC00FFFF, 0xFC00FFFF, 0⟩,
   ⟨0x404, 0x10, 256, 0, 0, 0, 0xFFFFFFFF, 0xFFFFFFFF, 0⟩,
   ⟨0x408, 0x10, 256, 0, 0, 0, 0xFFFFFFFF, 0xFFFFFFFF, 0⟩,
   ⟨0x80000, 4, 65536, 0xFFFF003F, 0, 0, 0xFFFF003F, 0xFFFF003F, 0x10000⟩,
   ⟨0x2000, 4, 1, 7, 0, 0, 7, 7, 3⟩,
   ⟨0x2004, 4, 6, 0xFF, 0, 0, 0xFFFF00FF, 0xFFFF00FF, 0⟩,
   ⟨0x2020, 4, 1, 0, 0, 0xFFFFFFFF, 0xFFFFFFFF, 0, 0⟩,
   ⟨0x2024, 4, 1, 0, 0, 0xFFFFFFFF, 0xFFFFFFFF, 0, 0⟩,
   ⟨0x2028, 4, 1, 0, 0, 0xFFFFFFFF, 0xFFFFFFFF, 0, 0⟩,
   ⟨0x202C, 4, 1, 0, 0, 0xFFFFFFFF, 0xFFFFFFFF, 0, 0⟩,
   ⟨0x2030, 4, 1, 0, 0, 0xFFFFFFFF, 0xFFFFFFFF, 0, 0⟩,
   ⟨0x20000, 4, 8192, 0xFFFFFFFF, 0, 0, 0xFFFFFFFF, 0xFFFFFFFF, 0xFFFFFFFF⟩]

/-- The CHISEL block (block base 0x1100000). -/
def rowsChisel : List RegRow :=
  [
   ⟨0, 4, 1, 0x87FF03FF, 0, 0, 0x87FF03FF, 0x87FF03FF, 0x5A00258⟩,
   ⟨4, 4, 1, 0, 0, 0, 0, 0, 0⟩,
   ⟨8, 4, 1, 0, 0, 0, 0xF000FFFF, 0, 0⟩,
   ⟨0xC, 4, 1, 0, 0x7F, 0, 0x7F, 0, 0⟩,
   ⟨0x10, 4, 1, 0, 0, 0, 0xFFFFFFFF, 0, 0⟩,
   ⟨0x14, 4, 1, 0, 0, 0, 0xFFFFFFFF, 0, 0⟩,
   ⟨0x18, 4, 1, 0, 0, 0, 0xFFFFFFFF, 0xFFFFFFFF, 0⟩,
   ⟨0x1C, 4, 1, 0xFFFF, 0, 0, 0xFFFF, 0, 0x14⟩,
   ⟨0x20, 4, 1, 0xFFFF, 0, 0, 0xFFFF, 0, 0x1388⟩,
   ⟨0x24, 4, 1, 0xFFFFFF07, 0, 0, 0xFFFFFF07, 0xFFFFFF07, 0x20080100⟩,
   ⟨0x28, 4, 1, 0xFFFFFFFF, 0, 0, 0xFFFFFFFF, 0xFFFFFFFF, 0x10000100⟩,
   ⟨0x2C, 4, 1, 0xFFFF1FFF, 0, 0, 0xFFFF1FFF, 0xFFFF1FFF, 0x3C140400⟩,
   ⟨0x30, 4, 1, 0xFFFF7770, 0, 0, 0xFFFF7770, 0xFFFF7770, 0x100C2240⟩,
   ⟨0x34, 4, 1, 0x3F7F, 0, 0, 0x3F7F, 0x3F7F, 0x208⟩,
   ⟨0x38, 4, 1, 0xFF07, 0, 0, 0xFF07, 0xFF07, 0x803⟩,
   ⟨0x3C, 4, 1, 0xFFFFFFFF, 0, 0, 0xFFFFFFFF, 0xFFFFFFFF, 0x5DF607E⟩,
   ⟨0x40, 4, 1, 0, 0, 0, 0xFFFFF, 0xFFFFF, 0⟩,
   ⟨0x44, 4, 1, 0, 0, 0, 0xFFFFF, 0xFFFFF, 0x10000⟩,
   ⟨0x48, 4, 1, 0, 0, 0, 0xFFFFF, 0, 0⟩,
   ⟨0x4C, 4, 1, 0, 0, 0, 0xFFFFFFFF, 0xFFFFFFFF, 0⟩,
   ⟨0x60, 4, 1, 0, 0, 0, 0xFFFFFFFF, 0, 0⟩,
   ⟨0x64, 4, 1, 0, 0, 0, 0xFFFFFFFF, 0, 0⟩,
   ⟨0x68, 4, 1, 0, 0, 0xFFFFFFFF, 0xFFFFFFFF, 0, 0⟩,
   ⟨0x6C, 4, 1, 0, 0, 0xFFFFFFFF, 0xFFFFFFFF, 0, 0⟩,
   ⟨0x70, 4, 1, 0, 0, 0xFFFFFFFF, 0xFFFFFFFF, 0, 0⟩,
   ⟨0x74, 4, 1, 0, 0, 0xFFFFFFFF, 0xFFFFFFFF, 0, 0⟩,
   ⟨0x78, 4, 1, 0, 0, 0xFFFFFFFF, 0xFFFFFFFF, 0, 0⟩,
   ⟨0x7C, 4, 1, 0, 0, 0xFFFFFFFF, 0xFFFFFFFF, 0, 0⟩,
   ⟨0x80, 4, 1, 0, 0, 0xFFFFFFFF, 0xFFFFFFFF, 0, 0⟩,
   ⟨0x84, 4, 1, 0, 0, 0xFFFFFFFF, 0xFFFFFFFF, 0, 0⟩,
   ⟨0x88, 4, 1, 0, 0, 0xFFFFFFFF, 0xFFFFFFFF, 0, 0⟩,
   ⟨0x8C, 4, 1, 0, 0, 0xFFFFFFFF, 0xFFFFFFFF, 0, 0⟩,
   ⟨0x100, 0x10, 16, 0x600000FF, 0, 0, 0xE00000FF, 0xE00000FF, 0⟩,
   ⟨0x104, 0x10, 16, 0xFFFFFFFF, 0, 0, 0xFFFFFFFF, 0xFFFFFFFF, 0⟩,
   ⟨0x108, 0x10, 16, 0, 0, 0, 0xFFFFFF, 0, 0⟩,
   ⟨0x80000, 4, 65536, 0xFC000000, 0, 0, 0xFC000000, 0xFC000000, 0⟩]

/-- The POWER block (block base 0x1200000). -/
def rowsPower : List RegRow :=
  [
   ⟨0, 4, 1, 0, 0, 0, 0, 0, 0⟩,
   ⟨4, 4, 1, 0, 0, 0, 0xFF80CF00, 0, 0xF00⟩,
   ⟨8, 4, 1, 0, 0, 0, 0xFFFFFF80, 0, 0⟩,
   ⟨0xC, 4, 1, 0, 0x3FF, 0, 0x3FF, 0, 0⟩,
   ⟨0x10, 4, 1, 0, 0x1FFF, 0, 0x1FFF, 0x1FFF, 0⟩,
   ⟨0x14, 4, 1, 0x1FFF, 0, 0, 0x1FFF, 0, 0x1FFF⟩,
   ⟨0x18, 4, 1, 0, 0, 0, 0xFFF8FFFF, 0xFFF8FFFF, 0x400000⟩,
   ⟨0x1C, 4, 1, 0x9F, 0, 0, 0x9F, 0x9F, 7⟩,
   ⟨0x20, 4, 1, 0xFFFFFFFF, 0, 0, 0xFFFFFFFF, 0xFFFFFFFF, 0⟩,
   ⟨0x24, 4, 1, 1, 0, 0, 1, 0, 0⟩,
   ⟨0x28, 4, 1, 0, 0, 0, 0xFFF007, 0, 0⟩,
   ⟨0x2C, 4, 1, 0, 0, 0, 0xC0FFFFFF, 0, 0⟩,
   ⟨0x30, 4, 1, 0, 0, 0, 0xFC000000, 0xFC000000, 0⟩,
   ⟨0x34, 4, 1, 0xFFFF, 0, 0, 0xFFFF, 0, 0x7D0⟩,
   ⟨0x38, 4, 1, 0, 0, 0, 0xFFFFFFFF, 0xFFFFFFFF, 0⟩,
   ⟨0x3C, 4, 1, 0, 0, 0, 0xFFFFFFFF, 0xFFFFFFFF, 0⟩,
   ⟨0x40, 4, 9, 0, 0, 0xFFFFFFFF, 0xFFFFFFFF, 0xFFFFFFFF, 0⟩,
   ⟨0x70, 4, 1, 0, 0, 0xFFFFFFFF, 0xFFFFFFFF, 0, 0⟩,
   ⟨0x74, 4, 1, 0, 0, 0xFFFFFFFF, 0xFFFFFFFF, 0, 0⟩,
   ⟨0x78, 4, 1, 0, 0, 0xFFFFFFFF, 0xFFFFFFFF, 0, 0⟩,
   ⟨0x80, 4, 9, 0, 0, 0, 0xFFF, 0, 0⟩]

/-- The TUNNEL block (block base 0x1300000). -/
def rowsTunnel : List RegRow :=
  [
   ⟨0, 4, 1, 0xF73, 0, 0, 0xF73, 0xF73, 0x100⟩,
   ⟨4, 4, 1, 0, 0, 0, 0, 0, 0⟩,
   ⟨8, 4, 1, 0, 0, 0, 0xFFFFFC00, 0, 0⟩,
   ⟨0xC, 4, 1, 0, 0x3FF, 0, 0x3FF, 0, 0⟩,
   ⟨0x10, 4, 1, 0xFFFF, 0, 0, 0xFFFF, 0, 0x3A98⟩,
   ⟨0x14, 4, 1, 0, 0, 0, 0xFFFFFFFF, 0, 0⟩,
   ⟨0x20, 4, 1, 0, 0, 0xFFFFFFFF, 0xFFFFFFFF, 0, 0⟩,
   ⟨0x24, 4, 1, 0, 0, 0xFFFFFFFF, 0xFFFFFFFF, 0, 0⟩,
   ⟨0x28, 4, 1, 0, 0, 0xFFFFFFFF, 0xFFFFFFFF, 0, 0⟩,
   ⟨0x2C, 4, 1, 0, 0, 0xFFFFFFFF, 0xFFFFFFFF, 0, 0⟩,
   ⟨0x30, 4, 1, 0, 0, 0xFFFFFFFF, 0xFFFFFFFF, 0, 0⟩,
   ⟨0x34, 4, 1, 0, 0, 0xFFFFFFFF, 0xFFFFFFFF, 0, 0⟩,
   ⟨0x100, 0x40, 2, 0, 0, 0, 0xFFFF07, 0xFF00, 0⟩,
   ⟨0x104, 0x40, 2, 0, 0, 0xFFFFFFFF, 0xFFFFFFFF, 0, 0⟩,
   ⟨0x108, 0x40, 2, 0, 0, 0xFFFFFFFF, 0xFFFFFFFF, 0, 0⟩,
   ⟨0x10C, 0x40, 2, 0, 0, 0xFFFFFFFF, 0xFFFFFFFF, 0, 0⟩,
   ⟨0x200, 0x10, 16, 0x80000000, 0, 0, 0xC00000FF, 0xC0000000, 0⟩,
   ⟨0x204, 0x10, 16, 0xFFFFFFFF, 0, 0, 0xFFFFFFFF, 0xFFFFFFFF, 0⟩,
   ⟨0x208, 0x10, 16, 0, 0, 0, 0xFFFFFFFF, 0xFFFFFFFF, 0⟩]

/-- The TEST block (block base 0x1400000). -/
def rowsTest : List RegRow :=
  [
   ⟨0, 4, 1, 0, 0, 0, 0xF800FFFF, 0xF8000000, 0x10000A01⟩,
   ⟨4, 4, 1, 0, 0x1FF, 0, 0x1FF, 0, 0⟩,
   ⟨8, 4, 1, 0, 0, 0, 0xFFFFFFFF, 0xFFFFFFFF, 0⟩,
   ⟨0xC, 4, 1, 0, 0, 0, 0xFFFFFFFF, 0xFFFFFFFF, 0⟩,
   ⟨0x10, 4, 1, 3, 0, 0, 3, 3, 2⟩,
   ⟨0x14, 4, 1, 0, 0, 0xFFFFFFFF, 0xFFFFFFFF, 0, 0⟩,
   ⟨0x18, 4, 1, 0, 0, 0xFFFFFFFF, 0xFFFFFFFF, 0, 0⟩,
   ⟨0x20, 4, 9, 0xFFFF0000, 0, 0, 0xFFFFFFFF, 0xFFFF0000, 0x80000000⟩,
   ⟨0x60, 4, 10, 0, 0, 0, 0xFFFF, 0, 0⟩,
   ⟨0x100, 4, 1, 3, 0, 0, 3, 0, 3⟩,
   ⟨0x104, 4, 1, 0, 0, 0, 0xE000FFFF, 0, 0⟩,
   ⟨0x108, 4, 1, 0xFFFFFFFF, 0, 0, 0xFFFFFFFF, 0, 0⟩,
   ⟨0x10C, 4, 1, 0xFFFFFFFF, 0, 0, 0xFFFFFFFF, 0, 0⟩,
   ⟨0x110, 4, 1, 0, 0, 0, 0xFFFFFFFF, 0, 0⟩,
   ⟨0x114, 4, 1, 0, 0, 0, 0xFFFFFFFF, 0, 0⟩,
   ⟨0x118, 4, 1, 0, 0, 0, 0xFFFFFFFF, 0, 0⟩,
   ⟨0x120, 4, 1, 0, 0, 0, 0, 0, 0⟩,
   ⟨0x124, 4, 1, 0xFFFFFF, 0, 0, 0xFFFFFF, 0, 0x186A0⟩,
   ⟨0x128, 4, 1, 0xFFFFFFFF, 0, 0, 0xFFFFFFFF, 0, 0⟩,
   ⟨0x12C, 4, 1, 0xFFFFFFFF, 0, 0, 0xFFFFFFFF, 0, 0⟩,
   ⟨0x130, 4, 1, 0, 0, 0, 0xFFFFFFFF, 0, 0⟩,
   ⟨0x134, 4, 1, 0, 0, 0, 0xFFFFFFFF, 0, 0⟩,
   ⟨0x200, 0x10, 6, 0, 0, 0, 0x80000003, 0, 0⟩,
   ⟨0x204, 0x10, 6, 0, 0, 0xFFFFFFFF, 0xFFFFFFFF, 0, 0⟩]

/-- The rows of a block, by the block's position in the order of R23. -/
def blockRows : Nat → List RegRow
  | 0 => rowsLantern | 1 => rowsHost | 2 => rowsAdit | 3 => rowsGallery | 4 => rowsSeam
  | 5 => rowsSump | 6 => rowsChisel | 7 => rowsPower | 8 => rowsTunnel | 9 => rowsTest | _ => []

/-- The block (order of R23), the instance (the Lode die) and the offset that a BAR0 offset names. -/
def blockOf (a : Nat) : Nat × Nat × Nat :=
  if a < 0x100000 then (0, 0, a)
  else if a < 0x200000 then (1, 0, a - 0x100000)
  else if a < 0x400000 then (2, 0, a - 0x200000)
  else if a < 0x800000 then (3, 0, a - 0x400000)
  else if a < 0x1000000 then (4, (a - 0x800000) / 0x100000, (a - 0x800000) % 0x100000)
  else if a < 0x1100000 then (5, 0, a - 0x1000000)
  else if a < 0x1200000 then (6, 0, a - 0x1100000)
  else if a < 0x1300000 then (7, 0, a - 0x1200000)
  else if a < 0x1400000 then (8, 0, a - 0x1300000)
  else (9, 0, a - 0x1400000)

/-- Does the row hold a register at offset `o`? -/
def RegRow.covers (r : RegRow) (o : Nat) : Bool :=
  r.off ≤ o && (o - r.off) % r.stride == 0 && (o - r.off) / r.stride < r.count

/-- The row of the register at a BAR0 offset, if one is assigned there (R16). -/
def regRow (a : Nat) : Option RegRow :=
  let b := blockOf a
  (blockRows b.1).find? (fun r => r.covers b.2.2)

/-- Reset values that depend on the index: PHASE of stream n is n mod 100 (Table ADIT-23), M of
SUMP_QBAND_q on a new part (Table APPROX-12), PMBus address 0x20 + n and VSET 0
(Table PINS-14). -/
def indexedReset (a : Nat) : Option Nat :=
  if 0x300000 ≤ a ∧ a < 0x400000 ∧ a % 16 = 4 then some (100 * 0x10000 + (a - 0x300000) / 16 % 100)
  else if a = 0x1002004 then some (4)
  else if a = 0x1002008 then some (8)
  else if a = 0x100200C then some (12)
  else if a = 0x1002010 then some (16)
  else if a = 0x1002014 then some (24)
  else if a = 0x1002018 then some (32)
  else if 0x1400020 ≤ a ∧ a < 0x1400044 then some (0x80000000 + (0x20 + (a - 0x1400020) / 4) * 0x1000000)
  else none

/-- The value of a register after reset on a new part (R19); 0 where nothing is assigned (R16). -/
def regReset (a : Nat) : BitVec 32 :=
  match indexedReset a with
  | some v => BitVec.ofNat 32 v
  | none => match regRow a with
    | some r => BitVec.ofNat 32 r.reset
    | none => 0#32

end Sys2Proof.Machine
end

