-- ==== Sys2Proof/Machine/TypesAdit.lean ====
section
/-! DEFINITION.  Adit's hidden state: stream contexts, sample chains, replay areas and ports
(03_adit_ingest R84 to R126). -/

namespace Sys2Proof.Machine

/-- One band of a stream's filterbank: two second-order sections, envelope, background, encoder
(R109 to R114).  Section values are in 2^-8 sample LSB, `bg` and `ref` in FX16. -/
structure Band where
  x1 : Int := 0
  x2 : Int := 0
  u1 : Int := 0
  u2 : Int := 0
  y1 : Int := 0
  y2 : Int := 0
  env : Int := 0
  bg : Int := 0
  level : Int := 0
  ref : Int := 0
  deriving DecidableEq, Repr

/-- A stream's sample chain (R106 to R117) and its history block in progress (R120). -/
structure Chain where
  /-- input samples since the synchronising reset, newest first, as far as the decimator spans -/
  dec : List Int := []
  /-- input samples since the last output of the decimator -/
  phase : Nat := 0
  settle : Nat := 0
  gainPend : Bool := false
  gainLeft : Nat := 0
  encInit : Bool := true
  warmPend : Bool := false
  warmLeft : Nat := 0
  noQuiet : Bool := false
  quietRun : Nat := 0
  age : Nat := 0
  bands : List Band := []
  fillPend : Bool := false
  block : List Int := []
  blockTs : Nat := 0
  blockFill : Bool := false
  blockSettle : Bool := false
  blockSpos : Option Nat := none
  blockGpos : Option Nat := none
  blockNo : Nat := 0
  /-- last received input sample, before the gain shift (R91) -/
  last : Int := 0
  deriving DecidableEq, Repr

/-- A retained history block: timestamp of its first sample and its 18 bytes (R61, R120). -/
structure Block where
  ts : Nat
  bytes : BitVec 144
  deriving DecidableEq, Repr

/-- One stream's state in Adit. -/
structure StreamSt where
  /-- window number at which a pending stop takes effect (R124) -/
  stopWin : Option Nat := none
  suspending : Bool := false
  suspended : Bool := false
  retired : Bool := false
  /-- pending PROFILE change and the window number in which it was written (R125) -/
  profPend : Option (Nat × Nat) := none
  /-- context in use, when it is not the context of the stream's own number (R126) -/
  ctx : Option Nat := none
  /-- spare context a move is to, and the window number of the fault (R126) -/
  movePend : Option (Nat × Nat) := none
  merge : Nat := 0
  unmapped : Nat := 0
  late : Nat := 0
  badev : Nat := 0
  fill : Nat := 0
  lastWake : Nat := 0
  /-- next window to close, as a window number (R34, R86); none before the first window -/
  nextWin : Option Nat := none
  /-- Adit flag words gathered for windows not yet closed, by window number (R118) -/
  wflags : List (Nat × Nat) := []
  /-- flags owed to the next window to close (R102, R104) -/
  owed : Nat := 0
  chain : Chain := {}
  /-- events not yet sent to the home core: (tick, input neuron), ascending -/
  events : List (Nat × Nat) := []
  /-- SEQ of the last bundle accepted since EN was set (R100) -/
  seq : Option Nat := none
  /-- PERIOD and expected next timestamp of the frame stream, and its GSHIFT (R105, R107) -/
  frame : Option (Nat × Nat × Nat) := none
  /-- replay area: capacity in blocks and retained blocks, newest first (R119, R120) -/
  cap : Nat := 0
  blocks : List Block := []
  /-- replay streams: timestamp up to which the source's history has been read (R122) -/
  replayPos : Nat := 0
  /-- the stream unparks at its next window boundary: after START (WARMUP) or THAW (GAP) (Table GAL-8) -/
  unpark : Option Bool := none
  /-- pending GAL_STREAM_MAP word, and the window number in which it was written (R152) -/
  mapPend : Option (Word × Nat) := none
  /-- windows still to carry WARMUP (R326, R215), and whether the window in progress carries GAP -/
  warmWins : Nat := 0
  /-- the window in progress lost its spike record when its home core failed (R157) -/
  coreLost : Bool := false
  gapNow : Bool := false
  deriving DecidableEq, Repr

/-- An Adit port's hidden state (R89 to R98, R123). -/
structure PortSt where
  prevRound : Option Nat := none
  /-- T_sync, and the index of the last round since alignment (R93) -/
  tsync : Nat := 0
  roundIdx : Nat := 0
  /-- ticks below this one are complete (R94) -/
  complete : Nat := 0
  /-- gain range in force, by slot (R107) -/
  gains : List (Nat × Nat) := []
  stopping : Bool := false
  /-- timestamps of the framing errors and discarded rounds of the last 1 ms (R92) -/
  errs : List Nat := []
  /-- a realignment waits for the next SYSREF edge (R92, R96) -/
  waitSysref : Bool := false
  roundSeen : Bool := false
  deriving DecidableEq, Repr

end Sys2Proof.Machine
end

