-- ==== Sys2Proof/Machine/TypesChisel.lean ====
section
/-! DEFINITION.  Chisel's hidden state (12_chisel_learning Table CHISEL-1). -/

namespace Sys2Proof.Machine

/-- The shadow of a learning entry: P, the two banks of U by epoch parity with the updates they took, and the header. -/
structure Shadow where
  p : List Int
  u0 : List Int := []
  u1 : List Int := []
  n0 : Nat := 0
  n1 : Nat := 0
  seq : Nat := 0
  hits : Nat := 0
  due : Bool := false
  /-- seeded since the last Off (Table CHISEL-5) -/
  rebuilt : Bool := false
  deriving DecidableEq, Repr

/-- A prototype of the novelty pool (R391). `first` is the query that started it, until its first close point; `last` the
epoch of its last update. -/
structure Proto where
  lib : Nat
  index : Nat
  shadow : Shadow
  first : Option Key
  last : Nat
  label : Nat := 0xFFFFFFFF
  deriving DecidableEq, Repr

/-- A slot of the hold ring (R392). -/
structure HoldSlot where
  key : Key
  present : Nat
  stream : Nat
  start : Nat
  epoch : Nat
  /-- verdicts applied, with library and entry -/
  applied : List (Nat × Nat × Nat) := []
  deriving DecidableEq, Repr

/-- A stream's background model (R398, R399). -/
structure BgModel where
  b : List Int := []
  u0 : List Int := []
  u1 : List Int := []
  n0 : Nat := 0
  n1 : Nat := 0
  deriving DecidableEq, Repr

/-- An open export (R405, R406): its descriptor and kind. Its records are drawn up when it is admitted. -/
structure ExportSt where
  ring : Nat
  idx : Nat
  kind : Nat
  deriving DecidableEq, Repr

/-- A plastic synapse as learned: presynaptic row, index within the row, weight and delay. -/
structure SynWord where
  row : Nat
  index : Nat
  weight : Int
  delay : Nat
  deriving DecidableEq, Repr

/-- A stream's synapse shadow: the epoch it was taken for, and its plastic synapse words (R383). -/
structure SynShadow where
  epoch : Nat
  words : List SynWord
  deriving DecidableEq, Repr

/-- A PROTO record loaded for the next close point (R407). -/
structure LoadRec where
  lib : Nat
  entry : Nat
  seq : Nat
  p : List Int
  deriving DecidableEq, Repr

/-- Chisel. Shadows by device bench × 1,024 + column; synapse shadows by stream. -/
structure ChiselSt where
  shadows : List (Nat × Option Shadow) := []
  pool : List Proto := []
  hold : List HoldSlot := []
  bg : List (Nat × BgModel) := []
  synShadow : List (Nat × Option SynShadow) := []
  /-- COMMIT_NOW epochs, and EN as latched at the last boundary -/
  commitNow : List Nat := []
  en : Bool := false
  /-- EN of the epoch before -/
  enLast : Bool := false
  /-- epochs not yet closed, oldest first, with the timestamp of their close point -/
  closes : List (Nat × Nat) := []
  /-- the last epoch closed, the notice's cores that have not reported, and the end of the handshake wait -/
  closed : Option Nat := none
  pendingCores : List Nat := []
  hsAt : Option Nat := none
  /-- the snapshot of the new epoch waits for the next tick boundary -/
  snapDue : Bool := false
  exportSt : Option ExportSt := none
  loads : List LoadRec := []
  deriving DecidableEq, Repr

end Sys2Proof.Machine
end

