-- ==== Sys2Proof/Machine/TypesCore.lean ====
section
/-! DEFINITION.  Hidden state of Gallery: Flint cores (05_flint_instructions R164, Table FLINT-1), core groups
(04_gallery_fabric Table GAL-8) and the networks of the streams (06_spiking_execution). -/

namespace Sys2Proof.Machine

/-- Why a core does not issue: a wait it is in. -/
inductive Wait where
  | none
  | wait (rd mask : Nat)
  | fwait (mask : Nat)
  | barrier (scope : Scope) (expiry : Option Nat)
  | fence (mask : Nat)
  deriving DecidableEq, Repr

/-- One fetch outstanding (R149): the HBM byte address, the SRAM landing address and the length in bytes. -/
structure FetchReq where
  hbm : Nat
  land : Nat
  len : Nat
  deriving DecidableEq, Repr

/-- The learning parameters of the last EPOCH notice a core applied or holds (Table CHISEL-4). -/
structure EpochCfg where
  number : Nat := 0
  len : Nat := 0
  aPlus : Nat := 0
  aMinus : Nat := 0
  tp : Nat := 0
  tm : Nat := 0
  eta : Nat := 0
  dTgt : Nat := 0
  dv : Nat := 0
  /-- DELAY_EN and STDP_EN of the core's home streams, two bits each in ascending stream number -/
  enables : Nat := 0
  deriving DecidableEq, Repr

/-- A Flint core. -/
structure CoreSt where
  /-- logical address served; none for an unused spare and for a fenced core -/
  logical : Option Nat := none
  fenced : Bool := false
  inReset : Bool := true
  /-- a program has been started on the core -/
  started : Bool := false
  /-- a loaded spare starts at the next tick boundary (R155); a restarted core does (R182) -/
  startPend : Bool := false
  restartPend : Bool := false
  finished : Bool := false
  /-- stopped by an uncorrectable error that no re-read cleared (R182) -/
  faulted : Bool := false
  wait : Wait := .none
  sregs : List (Nat × Word) := []
  vregs : List (Nat × Sliver) := []
  tally : List (Nat × Int) := []
  tlsat : Bool := false
  pc : Word := 0
  /-- cycle count of the device clock at the core's last reset, and the cycle from which the issue stage is free -/
  cycleBase : Nat := 0
  busy : Nat := 0
  cycleLatch : Word := 0
  tick : Nat := 0
  /-- device cycle at which the current tick began for the core -/
  tickCycle : Nat := 0
  tmr : Word := 0
  /-- the timer has matched, or can no longer match, in this tick -/
  tmrDone : Bool := false
  tmrev : Bool := false
  tickev : Bool := false
  eccRetry : Bool := false
  loss : Bool := false
  uninit : Bool := false
  t2 : Bool := false
  ovfBase : Nat := 0
  ovfSize : Nat := 0
  fetches : List (Nat × FetchReq) := []
  fetchDone : Nat := 0
  fwinLo : Word := 0
  fwinHi : Word := 0
  barTimeout : Word := 0
  /-- snapshot bases and lengths by range number -/
  snapBase : List (Nat × Word) := []
  snapLen : List (Nat × Word) := []
  excVec : Word := 0
  epc : Word := 0
  inHandler : Bool := false
  cause : Nat := 0
  badaddr : Word := 0
  scratch : Word := 0
  traceDrop : Nat := 0
  /-- held messages in the order they were ejected; true: in the overflow area (R142, R145) -/
  held : List (Bool × Msg) := []
  /-- overflow slot the next message goes to -/
  ovfNext : Nat := 0
  /-- messages waiting in the router's core port, with the timestamp since which each waits -/
  portQ : List (Nat × Msg) := []
  /-- trace queue: tick, code and value -/
  traceQ : List (Nat × Nat × Word) := []
  /-- registers whose result an instruction just after must wait for, and for how long (R170); 32 + n is vn -/
  haz : List Nat := []
  hazWait : Nat := 0
  sent : Nat := 0
  recvd : Nat := 0
  sunk : Nat := 0
  drop : Nat := 0
  ejwait : Nat := 0
  ovfPeak : Nat := 0
  uninitCount : Nat := 0
  codErr : Nat := 0
  eccCorr : Nat := 0
  eccUncorr : Nat := 0
  /-- local SRAM, by byte address; an unlisted byte is zero (R147) -/
  sram : List Host.Cell := []
  /-- the 64-bit words written since the last reset, by word number (R147) -/
  written : List (Nat × Bool) := []
  /-- the last read-out of the snapshot ranges (R160), and its tick -/
  snapBuf : List Byte := []
  snapTick : Option Nat := none
  epoch : EpochCfg := {}
  /-- an EPOCH notice taken and not yet applied (R383) -/
  notice : Option EpochCfg := none
  deriving DecidableEq, Repr

/-- A core group. -/
structure GroupSt where
  /-- START (2), FREEZE (5) or THAW (6) waiting for the next tick boundary (R151) -/
  pend : Option Nat := none
  /-- the cores halt at the next tick boundary (Table GAL-8, STOPPING) -/
  halting : Bool := false
  /-- the program image last loaded, and the networks it defines (R186, R189) -/
  image : List Byte := []
  nets : List NetDef := []
  /-- a load in progress: its image and networks (R462) -/
  loading : Option (List Byte × List NetDef) := none
  deriving DecidableEq, Repr

/-! ### Networks -/

/-- A population neuron's state (Table SNN-2), in FX16 LSB. -/
structure Neuron where
  tr : Int := 0
  a : Int := 0
  v : Int := 0
  ref : Nat := 0
  pset : Nat := 0
  deriving DecidableEq, Repr

/-- A synapse in SRAM with its learning state E and V (R394). -/
structure SynSt where
  weight : Int
  delay : Nat
  plastic : Bool
  post : Nat
  e : Int := 0
  v : Int := 0
  deriving DecidableEq, Repr

/-- A spike record broadcast to the sliver group (R202): the window's start tick, its spikes as (τ, neuron) in order, and
the network loss flag copied for it (R203). -/
structure Broadcast where
  start : Nat
  spikes : List (Nat × Nat)
  loss : Bool
  deriving DecidableEq, Repr

/-- The network instance of one stream on its home core. -/
structure Net where
  /-- the network, when an instance exists -/
  net : Option NetDef := none
  neurons : List Neuron := []
  traces : List Int := []
  rows : List (List SynSt) := []
  /-- delay wheel: entries (neuron, contribution) by slot, oldest first (Table SNN-8) -/
  wheel : List (Nat × List (Nat × Int)) := []
  /-- spike record in progress: (tick, neuron), in order, and its items -/
  record : List (Nat × Nat) := []
  /-- input spikes taken for ticks not yet processed -/
  inputs : List (Nat × List Nat) := []
  /-- first tick to process for the stream (R214), and the next one -/
  first : Option Nat := none
  next : Option Nat := none
  /-- network loss flag (R203) -/
  lossFlag : Bool := false
  /-- loss causes by trace code: total, and within the window in progress (Table SNN-6) -/
  causes : List (Nat × Nat) := []
  winCauses : List (Nat × Nat) := []
  /-- ticks for which a request was made, by matrix index (R212) -/
  reqs : List (Nat × Nat) := []
  /-- last spike of each row and of each post neuron, from the epoch's start (R394) -/
  lp : List (Nat × Option Nat) := []
  lq : List (Nat × Option Nat) := []
  stdp : Bool := false
  delayEn : Bool := false
  outbox : List Broadcast := []
  deriving DecidableEq, Repr

/-- The last synapse result blocks in HBM (Table SNN-9b): position t mod 16 of a matrix and stream. -/
structure SynBlock where
  tick : Nat
  status : Nat
  satCount : Nat
  sums : List Int
  deriving DecidableEq, Repr

end Sys2Proof.Machine
end

