-- ==== Sys2Proof/Machine/TypesHost.lean ====
section
/-! DEFINITION.  Result records and the hidden state of the host rings (09_associative_search
Table SUMP-8, 13_host_rings). -/

namespace Sys2Proof.Machine

/-- A result record's content (Table SUMP-8); "none" is all ones (R324). -/
structure Result where
  kind : Nat := 0
  status : Nat := 0
  reason : Nat := 0
  stream : Nat := 0
  windows : Nat := 1
  start : Nat := 0
  candidates : Nat := 0
  responders : Nat := 1
  bestLib : Nat := 0xF
  bestEntry : Nat := 0xFFFFFF
  bestDist : Nat := 0xFFFF
  bestPrio : Nat := 0xFF
  bestClass : Nat := 0xFFFFFFFF
  secondLib : Nat := 0xF
  secondEntry : Nat := 0xFFFFFF
  secondDist : Nat := 0xFFFF
  errBound : Nat := 0
  dims : Nat := 0
  benchMiss : Nat := 0
  nobench : Nat := 0
  aditFlags : Nat := 0
  flags : Nat := 0
  archEntry : Nat := 0xFFFFFF
  archLib : Nat := 0xFF
  deriving DecidableEq, Repr

/-- A record waiting for its ring.  A result record is serialised when it is written, since its TS is
the timestamp of that moment; a log record is held as its bytes. `query` is the ring and index of
the host query that the record completes (R434). -/
inductive RingRec where
  | result (r : Result) (query : Option (Nat × Nat))
  | raw (r : Slot)
  deriving DecidableEq, Repr

/-- Output of one request waiting for export buffers (R436). `ring`, `idx` and `tag` name the
requesting descriptor; `status`, `cflags`, `aux` and `result` its completion, made when the last byte
is written; `first` is true until a buffer takes the first byte. -/
structure ExportReq where
  ring : Nat
  idx : Nat
  tag : Nat
  bytes : List Byte
  first : Bool := true
  uninit : Bool := false
  status : Nat := 0
  cflags : Nat := 0
  aux : Nat := 0
  result : Nat := 0
  /-- a matrix query's record, sent to this ring after the last byte in place of the completion (R434) -/
  record : Option (Nat × Result) := none
  /-- an EXPORT of Chisel's, whose end closes the export (R406) -/
  learn : Bool := false
  /-- the request has nothing more to add -/
  closed : Bool := true
  deriving DecidableEq, Repr

/-- Hidden state of one ring. -/
structure RingSt where
  /-- descriptors taken and not completed: index and the 64 bytes read (R422) -/
  taken : List (Nat × Slot) := []
  /-- taken descriptors whose work has begun and completes later -/
  begun : List Nat := []
  /-- work begun before the ring was last enabled: its completion is discarded (R431) -/
  orphans : List Nat := []
  /-- indices at or above DEV_INDEX whose descriptors have completed -/
  doneIdx : List Nat := []
  /-- next index to take -/
  next : Nat := 0
  /-- cancelled spans: first index and count (R428) -/
  marks : List (Nat × Nat) := []
  /-- records waiting for the ring, oldest first (R438) -/
  backlog : List RingRec := []
  /-- completions covered since the last MSI-X message (R427) -/
  irqCount : Nat := 0
  /-- when the first of them was covered -/
  irqAt : Nat := 0
  /-- export rings: requests whose output waits, oldest first (R436) -/
  exports : List ExportReq := []
  deriving DecidableEq, Repr

/-- A run of SKIPPED windows that found its backlog full (R438). -/
structure SkipRun where
  stream : Nat
  start : Nat
  count : Nat
  aditFlags : Nat
  deriving DecidableEq, Repr

/-- Hidden state of the host interface. -/
structure HostSt where
  rings : List (Nat × RingSt) := []
  runs : List SkipRun := []
  /-- ring last used by a stream's records, when a change of HOST_STREAM_RING must wait (R439) -/
  oldRing : List (Nat × Nat) := []
  /-- MSI-X messages sent, newest first: the vectors -/
  msix : List Nat := []
  /-- when the doorbell lines were last polled (R419) -/
  polledAt : Nat := 0
  /-- a backlog has filled since bring-up -/
  backlogFull : Bool := false
  /-- the last tick in which a record was written (R499) -/
  lastRecord : Nat := 0
  /-- PCIE_PERST_N is asserted, or has been since the link last trained -/
  perst : Bool := false
  /-- the time before which the log collector's rate allows no further record (R501) -/
  logNext : Nat := 0
  deriving DecidableEq, Repr

end Sys2Proof.Machine
end

