-- ==== Sys2Proof/Machine/TypesSump.lean ====
section
/-! DEFINITION.  Sump's hidden state: window queries in assembly, libraries, entries and their key mirrors, requests and
their evaluation (09_associative_search, 10_approximate_modes). -/

namespace Sys2Proof.Machine

/-- One sliver of a query, as its SLIVER message carried it (Table GAL-4). -/
structure SliverIn where
  pos : Nat
  bits : Sliver
  pop : Nat
  sat : Bool
  loss : Bool
  zero : Bool
  deriving DecidableEq, Repr

/-- A window query being assembled (R305): the CLOSE's flag word and deadline once it has come, the
deadline of the sliver wait once a sliver has, and the slivers present. -/
structure Assembly where
  stream : Nat
  start : Nat
  aditFlags : Nat := 0
  /-- WARMUP and GAP bits owed to this window's record (R326) -/
  flags : Nat := 0
  closeBy : Option Nat := none
  sliverBy : Option Nat := none
  slivers : List SliverIn := []
  deriving DecidableEq, Repr

/-- A side-record (Table SUMP-3). `state` and `origin` are the two fields of STATE. -/
structure Entry where
  mirror : Nat := 0
  pop : Nat := 0
  popPre : Nat := 0
  prio : Nat := 0
  state : Nat := 0
  origin : Nat := 0
  cls : Nat := 0
  seq : Nat := 0
  crc : Nat := 0
  ts : Nat := 0
  deriving DecidableEq, Repr

/-- Where a batch of a library comes from: a host descriptor, Chisel, an append, upkeep of one tile, or a bench copy. -/
inductive BatchSrc where
  | host (ring idx : Nat)
  | chisel
  | append
  | upkeep
  | move
  | peer
  deriving DecidableEq, Repr

/-- An item of a batch: column, key and the side-record fields the write sets. -/
structure WriteItem where
  col : Nat
  key : Key
  prio : Nat
  cls : Nat
  origin : Nat
  seq : Nat
  ts : Nat
  created : Bool := false
  deriving DecidableEq, Repr

/-- A batch of a library (R316). `written`: its mirrors and side-records are already written. `waits`: requests admitted
before step 1 that have not yet received the bench's result. -/
structure LibBatch where
  src : BatchSrc
  pos : Nat
  items : List WriteItem
  written : Bool := false
  /-- invalidated, and then sent to the die -/
  begun : Bool := false
  sent : Bool := false
  waits : List Nat := []
  /-- a matrix write: matrix, first column and the new weights by column -/
  matrix : Option (Nat × Nat × List (List Int)) := none
  deriving DecidableEq, Repr

/-- A library: its bench list, its batches (the first is in flight), and its pending batch of appends with the time its
first entry was filed (R294, R316, R322). -/
structure LibSt where
  benches : List Nat := []
  queue : List LibBatch := []
  pend : Option (Nat × Nat × List WriteItem) := none
  deriving DecidableEq, Repr

/-- The kinds of request (Table SUMP-5); a served request names its origin and its serial there. -/
inductive ReqKind where
  | window
  | rcall
  | host (ring idx : Nat)
  | served (origin req : Nat)
  | synapse
  | matrix (ring idx : Nat)
  deriving DecidableEq, Repr

/-- One bench of an admitted request: the entries VALID at admission with their keys, the tiles counted and the counts, and
what has come back. -/
structure BenchEval where
  bench : Nat
  lib : Nat
  pos : Nat
  entries : List (Nat × Entry × Option Key) := []
  counted : Nat := 0
  withheld : Bool := false
  counts : List Nat := []
  /-- left out: not READY at admission or NOT_READY at the result -/
  miss : Bool := false
  waiting : Bool := true
  refined : Bool := false
  /-- status of a matrix evaluation, and its passes: tile, half, digit-column counts and input sum -/
  status : Nat := 0
  got : List (Nat × Nat × List Int × Nat) := []
  deriving DecidableEq, Repr

/-- A verified candidate: library, entry number, exact distance, priority, class, PSTEP-ranked distance. -/
structure Cand where
  lib : Nat
  entry : Nat
  dist : Nat
  prio : Nat
  cls : Nat
  rank : Int
  deriving DecidableEq, Repr

/-- What a device contributes to a merged record (Table CASC-2). -/
structure Answer where
  from_ : Nat
  errBound : Nat
  benchMiss : Nat
  nobench : Nat
  flags : Nat
  cands : List Cand
  deriving DecidableEq, Repr

/-- A request. Fields from `benches` on are fixed at or after admission. -/
structure Request where
  kind : ReqKind
  tag : Nat := 0
  stream : Nat := 0
  start : Nat := 0
  key : Key := 0
  /-- slivers present -/
  present : Nat := 0
  mask : Nat := 0
  k : Nat := 0
  q : Nat := 0
  beta : Nat := 0
  append : Bool := false
  aditFlags : Nat := 0
  flags : Nat := 0
  ring : Nat := 0
  startTs : Nat := 0
  /-- synapse and matrix requests: matrix, input kind, inputs by row -/
  matrix : Nat := 0
  inkind : Nat := 0
  rows : List Int := []
  export_ : Nat := 0
  /-- TAG of a host descriptor -/
  hostTag : Nat := 0
  benches : List BenchEval := []
  refined : Bool := false
  forced : Bool := false
  edge : Bool := false
  noBench : Nat := 0
  missed : Nat := 0
  /-- CLASS libraries of the mask that held no VALID entry at admission, and libraries searched -/
  emptyLibs : Nat := 0
  searched : Nat := 0
  /-- every result is back, verification is due -/
  ready : Bool := false
  /-- forwarding: members whose answers are expected, answers in, deadline, own contribution -/
  expect : List Nat := []
  answers : List Answer := []
  deadline : Nat := 0
  own : Option Answer := none
  /-- the record waits for an APPEND_ACK: library -/
  acks : List Nat := []
  /-- a SPAN library could not be reached beyond this device (R368) -/
  partial_ : Bool := false
  throttled : Bool := false
  /-- the record, held until its APPEND_ACKs are in (R359) -/
  record : Option Result := none
  deriving DecidableEq, Repr

/-- A synapse request whose last message has not come: source, stream, matrix, tick and rows so far. -/
structure SynPart where
  src : Nat
  stream : Nat
  matrix : Nat
  tick : Nat
  rows : List Nat
  deriving DecidableEq, Repr

/-- A repair in progress: bench × 1,024 + column, and the host descriptor it completes (R311). -/
structure RepairJob where
  at_ : Nat
  host : Option (Nat × Nat)
  dropped : Bool := false
  deriving DecidableEq, Repr

/-- Sump. Entries by device bench × 1,024 + column; mirrors by slot; matrix weights by matrix × 65,536 + column. -/
structure SumpSt where
  libs : List (Nat × LibSt) := []
  entries : List (Nat × Entry) := []
  mirrors : List (Nat × Option Key) := []
  weights : List (Nat × List Int) := []
  watchQ : List Request := []
  ordQ : List Request := []
  recallQ : List Request := []
  active : List Request := []
  nextTag : Nat := 0
  repairs : List RepairJob := []
  syn : List SynPart := []
  /-- benches moving, and the benches their entries are copied to (R277) -/
  moving : List (Nat × Nat) := []
  /-- benches that a library update holds outside any library: its candidates, and in a trial the old benches (R472, R473) -/
  held : List Nat := []
  /-- window records that wait for an earlier window of their stream (R33) -/
  outOfTurn : List Result := []
  deriving DecidableEq, Repr

end Sys2Proof.Machine
end

