-- ==== Sys2Proof/Machine/TypesLantern.lean ====
section
/-! DEFINITION.  Hidden state of Lantern: channels, firmware banks, updates (14_lantern_mailboxes_updates). -/

namespace Sys2Proof.Machine

/-- A mailbox channel (R455 to R459): its command queue, the reply words held, whether it is in resync, and whether a command
taken from it has not been answered. -/
structure ChanSt where
  queue : List Word := []
  replies : List Word := []
  resync : Bool := false
  busy : Bool := false
  deriving DecidableEq, Repr

/-- A command whose answer comes later: channel and TAG; no channel when a restart discarded it (R450). -/
structure Waiting where
  chan : Option Nat
  tag : Nat
  deriving DecidableEq, Repr

/-- A firmware download in progress (R467): bank, and the image's header. -/
structure FwJob where
  who : Waiting
  bank : Nat
  hdr : List Byte
  deriving DecidableEq, Repr

/-- A program load in progress (R462). -/
structure LoadJob where
  who : Waiting
  group : Nat
  bytes : Nat
  deriving DecidableEq, Repr

/-- A library update (R472 to R474): the candidate's benches, the batches still to send by bench, what the image sets, and what
LIB_ROLLBACK restores. -/
structure LibJob where
  who : Waiting
  lib : Nat
  kind : Nat
  version : Nat
  keySlot : Nat
  pstep : Nat
  novel : Nat
  recallMask : Nat
  entries : Nat
  benches : List Nat
  todo : List (Nat × List WriteItem)
  /-- the target before the swap: bench list, ACTIVE, PSTEP, NOVEL_DIST, RECALL_MASK, CURSOR -/
  oldBenches : List Nat := []
  oldActive : Bool := false
  oldKind : Nat := 0
  oldPstep : Nat := 0
  oldNovel : Nat := 0
  oldMask : Nat := 0
  deriving DecidableEq, Repr

/-- A start of firmware in progress: the bank being verified and started, whether it is a planned bank switch (R469), and the
cause of an unplanned restart (R450). -/
structure Boot where
  bank : Nat
  switch : Bool := false
  cause : Nat := 0
  rollback : Bool := false
  deriving DecidableEq, Repr

/-- An owner key slot's public key (R466). -/
structure OwnerKey where
  slot : Nat
  key : List Byte
  deriving DecidableEq, Repr

/-- A bank's image header (Table LANTERN-7). -/
structure BankHdr where
  bank : Nat
  hdr : List Byte
  deriving DecidableEq, Repr

/-- Lantern. -/
structure LanternSt where
  chans : List (Nat × ChanSt) := []
  hdrs : List BankHdr := []
  /-- Farwin key slots revoked by fuses, and the owner keys (R466) -/
  revoked : List Nat := []
  keys : List OwnerKey := []
  boot : Option Boot := none
  /-- when the trial of the running bank began, on the standby clock -/
  trialAt : Nat := 0
  fwJob : Option FwJob := none
  load : Option LoadJob := none
  libJob : Option LibJob := none
  /-- an update lost at the last reset, to be reported at the next start: 0 firmware, 1 + l library l (R475) -/
  updateLost : List Nat := []
  /-- notices of rollbacks to be sent at the next start, coded likewise -/
  rolledBack : List Nat := []
  /-- upkeep of Chisel that fell due while Lantern did not run: an EPOCH notice (R450, R469) -/
  noticesDue : Bool := false
  deriving DecidableEq, Repr

end Sys2Proof.Machine
end

