-- ==== Sys2Proof/Machine/TypesPower.lean ====
section
/-! DEFINITION.  Hidden state of the power block, the standby domain and the journal (15_power_health), and of the rail
monitors (16_pins_package_test). -/

namespace Sys2Proof.Machine

/-- A unit that keeps a fault history (R496, Table POWER-7). -/
inductive FaultUnit where
  | aditLane (port lane : Nat)
  | context (ctx : Nat)
  | core (core : Nat)
  | tile (die tile : Nat)
  | pump (die pump : Nat)
  | shaftLink (die link : Nat)
  | tunnelLane (port lane : Nat)
  | sump
  | chisel
  | lantern
  deriving DecidableEq, Repr

/-- What the journal carries across a loss of power (R489, R504). -/
structure Journal where
  uptime : Nat := 0
  faults : List (FaultUnit × Nat) := []
  refuse : List Word := []
  summary : Word := 0
  alarms : List Slot := []
  patrol : List Nat := []
  aseq : Nat := 0
  ts : Nat := 0
  /-- the flush that wrote the copy closed it -/
  closed : Bool := true
  /-- no copy has been written since manufacture -/
  blank : Bool := true
  deriving DecidableEq, Repr

/-- Power state that no register shows. -/
structure PowerSt where
  /-- Off (Table POWER-1): nothing is reachable and only the standby domain runs -/
  off : Bool := false
  /-- VSTBY is present -/
  vstby : Bool := true
  /-- TRIPPED (R495), and the time of the trip, its sensor and reading -/
  tripped : Bool := false
  tripAt : Nat := 0
  tripSensor : Nat := 0
  tripReading : BitVec 12 := 0
  /-- wakes are ignored: fewer than 60 s have passed since the trip -/
  lockout : Bool := false
  /-- the trip's clocks have stopped and its flush and rail steps are under way -/
  tripping : Bool := false
  /-- RESET_N is asserted, or the internal reset of R493 -/
  inReset : Bool := true
  /-- the state left by the transition in progress, or that the part wakes from, coded as POWER_LAST_WAKE.FROM -/
  from_ : Nat := 0
  /-- the entry's quiesce is over and its groups are halted (R479 step 4) -/
  quiet : Bool := false
  /-- the entry is past its point of no return -/
  pnr : Bool := false
  /-- SOURCE of the exit or bring-up in progress -/
  source : Nat := 0
  /-- SOURCE of a wake that came after the point of no return -/
  wakePend : Option Nat := none
  /-- SOURCE of an exit refused with THERMAL, which starts when the part cools (R485) -/
  thermalWait : Option Nat := none
  /-- steps of Table POWER-6 made -/
  railsOff : Nat := 0
  /-- a wake from Off or TRIPPED is turning the rails on -/
  waking : Bool := false
  railsOn : Nat := 0
  /-- rails 0 to 8 of Table PINS-3 that are on -/
  railUp : List Nat := [0, 1, 2, 3, 4, 5, 6, 7, 8]
  /-- PFW_N is low, after filtering -/
  pfwLow : Bool := false
  /-- the journal flush of the entry to Off in progress has ended -/
  offFlushed : Bool := false
  /-- when the exit or wake in progress began (R486) -/
  exitAt : Nat := 0
  /-- a rail fell low: reported at the next start (R516) -/
  railLow : Bool := false
  /-- sensors that read 110 °C or more in their last sample (R495) -/
  hot : List Nat := []
  /-- 10 ns units since VSTBY was applied, on the standby clock -/
  clock : Nat := 0
  /-- what is left of the wake timer, in 10 ns units, and whether it has reached zero and its expiry is due -/
  timerLeft : Nat := 0
  timerDue : Bool := false
  /-- when Deep sleep was entered -/
  deepAt : Nat := 0
  /-- the journal's newest copy, and when it was last written -/
  journal : Journal := {}
  journalAt : Nat := 0
  /-- the standby domain browned out since the last wake (R488) -/
  brown : Bool := false
  /-- ASEQ must be resumed from the journal at the next start (R504) -/
  aseqLost : Bool := false
  /-- Sump and Chisel are not ready until RESET_N after a permanent fault (R497) -/
  sumpDead : Bool := false
  chiselDead : Bool := false
  /-- GROTTO and HBM ready (R500) -/
  grotto : Bool := false
  hbm : Bool := false
  /-- HBM contents count as lost at the bring-up in progress (R547) -/
  hbmLost : Bool := true
  deriving DecidableEq, Repr

end Sys2Proof.Machine
end

