-- ==== Sys2Proof/Machine/TypesSeam.lean ====
section
/-! DEFINITION.  Hidden state of the Seam dies: tiles, cells, benches, evaluations, batches and upkeep (07_seam_arrays,
08_seam_upkeep). -/

namespace Sys2Proof.Machine

/-- An outlier entry (R244). `phys` is the physical column; kind 0 a cell outside its window, 1 a digit above the ceiling. -/
structure Outlier where
  col : Nat
  row : Nat
  delta : Int
  kind : Nat
  deriving DecidableEq, Repr

/-- The sums of one reference column's readouts since the last recalibration (R242): passes, readouts, squares, exact
values, products, exact squares. -/
structure RefAcc where
  n : Nat := 0
  x : Int := 0
  xx : Int := 0
  e : Int := 0
  ex : Int := 0
  ee : Int := 0
  deriving DecidableEq, Repr

/-- What the correction store and the record area hold for one physical tile, by physical column where a table. -/
structure TileSt where
  retired : Bool := false
  fourLevel : Bool := false
  /-- spare column n carries a logical column (R275) -/
  colmap : List (Nat × Nat) := []
  /-- physical columns never used again, and spare columns that failed their last fit -/
  dead : List Nat := []
  outliers : List Outlier := []
  ceil : List (Nat × Nat) := []
  gain : List (Nat × Nat) := []
  offset : List (Nat × Int) := []
  /-- G_rel and O_rel of the last full calibration (R260) -/
  gainRel : List (Nat × Nat) := []
  offsetRel : List (Nat × Int) := []
  /-- program counts (R283) -/
  wear : List (Nat × Nat) := []
  /-- accumulators of REF0 to REF3 -/
  acc : List RefAcc := [{}, {}, {}, {}]
  /-- when the tile was last calibrated, powered ms, and the die temperature then, 0.25 °C -/
  calAt : Option (Nat × Int) := none
  /-- worst deviation at the last margin scan, mu, and when it was made -/
  worst : Nat := 0
  scanAt : Option Nat := none
  /-- by physical column: when it was last refreshed, and the stamps of up to two times it was out of margin again within 24 h -/
  refreshed : List (Nat × List Nat) := []
  /-- give-ups at the top level since the last plan (R286) -/
  giveups : List (Nat × Nat) := []
  deriving DecidableEq, Repr

/-- State of a bench (Table SEAM-8). -/
inductive BenchState where
  | checking
  | ready
  | offline
  | moving
  | retired
  deriving DecidableEq, Repr

/-- A check of a bench in progress (R271): tiles calibrated, and the columns found out of margin, as (tile, logical). -/
structure BenchCheck where
  done : List Nat := []
  cols : List (Nat × Nat) := []
  deriving DecidableEq, Repr

/-- A bench. Its format is that of the library it first joined; a bench that never joined one has none yet. -/
structure BenchSt where
  state : BenchState := .checking
  fourLevel : Option Bool := none
  lib : Option Nat := none
  /-- OFFLINE waits for the batch in progress -/
  offlinePend : Bool := false
  check : Option BenchCheck := none
  deriving DecidableEq, Repr

/-- What a pass latches (R224, R228): the tile, its tables, the inputs and the digits converted. -/
structure Latch where
  phys : Nat
  tile : TileSt
  input : List Nat
  tries : Nat := 0
  deriving DecidableEq, Repr

/-- How far a pass of a tile has come. -/
inductive PassSt where
  | waiting
  | running (l : Latch)
  | done (counts : List Int) (x : Nat) (t : Nat) (corr : Nat)
  | withheld
  deriving DecidableEq, Repr

/-- One pass of an evaluation: tile of the bench, half (0 single or low nibble, 1 high nibble), and the digit columns converted
(0 all, 1 the ×16 and ×64 columns, 2 the ×1 and ×4 columns; R341). -/
structure PassJob where
  tile : Nat
  half : Nat := 0
  digits : Nat := 0
  st : PassSt := .waiting
  deriving DecidableEq, Repr

/-- The inputs of an evaluation: a query, or one value per row of a matrix. -/
inductive EvalInput where
  | query (q : Key)
  | rows (x : List Int)
  deriving DecidableEq, Repr

/-- An evaluation on a die (R237, R238). `kind` is that of Table SEAM-7; `cls` the precedence of Table FLOW-6, 0 watch,
1 ordinary, 2 recall; `part` 0 the first evaluation, 1 the refinement. -/
structure Eval where
  die : Nat
  bench : Nat
  tag : Nat
  kind : Nat
  cls : Nat
  part : Nat := 0
  input : EvalInput
  passes : List PassJob
  retries : Nat := 0
  /-- the bench was not READY when the evaluation would have latched -/
  notReady : Bool := false
  deriving DecidableEq, Repr

/-- A batch (R251) or an upkeep write (R268). `levels` gives the intended level of each row of a column, two bits a row, by
(tile index, logical column). -/
structure Batch where
  target : ProgTarget
  /-- the bench the tiles belong to, when they are a bench's -/
  bench : Option Nat
  phys : List Nat
  cols : List Nat
  levels : List ((Nat × Nat) × BitVec 2048)
  /-- a batch of a library sent by Sump -/
  lib : Option Nat := none
  upkeep : Bool := false
  started : Bool := false
  erase : Nat := 4
  loops : Nat := 0
  /-- cells that have not risen, with the loops in a row -/
  stuck : List (CellRead × Nat) := []
  givenUp : List CellRead := []
  deriving DecidableEq, Repr

/-- A batch result on its way to Sump: bench, and the logical columns reported failing (R245, R252). -/
structure BatchRes where
  bench : Nat
  cols : List Nat
  failing : List Nat
  deriving DecidableEq, Repr

/-- A column queued for refresh: logical tile, logical column (1,024 and above: a fixed column), and whether it is drifted
or flipped (R266 to R268). -/
structure RefreshJob where
  tile : Nat
  col : Nat
  late : Bool
  deriving DecidableEq, Repr

/-- A Lode die. -/
structure DieSt where
  /-- pumps that have passed their start test since bring-up -/
  tested : List Nat := []
  /-- sensor reading at the last sample, 0.25 °C -/
  temp : Int := 100
  refreshQ : List RefreshJob := []
  evals : List Eval := []
  batches : List Batch := []
  results : List BatchRes := []
  /-- tiles to be replaced, by logical number -/
  replaceDue : List Nat := []
  /-- columns to be remapped: logical tile and logical column -/
  remapDue : List (Nat × Nat) := []
  /-- logical tiles due a full calibration ahead of the patrol (R314) -/
  calDue : List Nat := []
  /-- staging fills done: logical tile and the staging tile's logical number -/
  fills : List (Nat × Nat) := []
  /-- calibrations made before this powered time are not current (RECAL_NOW) -/
  recalFrom : Nat := 0
  /-- when the present patrol round began, and whether it has reached its end -/
  roundAt : Nat := 0
  roundDone : Bool := false
  /-- program loops and batches of the last 30 days -/
  loopSum : Nat := 0
  batchSum : Nat := 0
  /-- recalibrations have all stayed under 0.0625 count since the last plan -/
  lastPlanDay : Nat := 0
  planned : Bool := false
  /-- copies of the record area that are unreadable -/
  badCopies : Nat := 0
  deriving DecidableEq, Repr

/-- The Seam dies. Keys: tiles die × 34,816 + physical; cells × 1,064 + physical column; map die × 32,768 + logical; benches
die × 8,192 + die-local number; weight totals bench key × 512 + weight column. -/
structure SeamSt where
  tiles : List (Nat × TileSt) := []
  cells : List (Nat × BitVec 2048) := []
  tmap : List (Nat × Nat) := []
  benches : List (Nat × BenchSt) := []
  dies : List (Nat × DieSt) := []
  wtot : List (Nat × Int) := []
  deriving DecidableEq, Repr

end Sys2Proof.Machine
end

