-- ==== Sys2Proof/Machine/TypesTest.lean ====
section
/-! DEFINITION.  Hidden state of the timestamp inputs, the tick counter's start, the PMBus master and the TAP
(16_pins_package_test). -/

namespace Sys2Proof.Machine

/-- Cells of the boundary register (R536). -/
abbrev Boundary := BitVec 226

/-- The TEST block and the pins. -/
structure TestSt where
  /-- units still to be slewed, and time elapsed towards the next unit (R524) -/
  slew : Int := 0
  slewSub : Nat := 0
  /-- timestamp of the last PPS edge -/
  ppsAt : Nat := 0
  /-- START has been written: the timestamp at which the tick counter starts, and its tick (R525) -/
  start : Option (Nat × Nat) := none
  /-- when each of VDD_LODE (1) and VDD_CORE (8) last made a step (R518) -/
  voutAt : List (Nat × Nat) := []
  /-- TAP: instruction in force, boundary cells driven, cells last sampled, data register selected (R534) -/
  ir : BitVec 8 := 1
  drive : Boundary := 0
  sample : Boundary := 0
  dr : Word := 0
  /-- the TAP holds the pins (R535), and a RESET_N release that waits for them, with the outcomes of the boot ROM's checks -/
  pinsHeld : Bool := false
  waitRelease : Option (Bool × Bool) := none
  /-- MPORT: DATA and STATUS of the last transaction (R526, R527) -/
  mdata : Word := 0
  mstatus : BitVec 8 := 0
  deriving DecidableEq, Repr

end Sys2Proof.Machine
end

