-- ==== Sys2Proof/Machine/TypesTunnel.lean ====
section
/-! DEFINITION.  Hidden state of the Tunnel ports and the chain (11_cascade). -/

namespace Sys2Proof.Machine

/-- One Tunnel port (R362 to R364): the next LSEQ to send, the last received in order, the frames not yet acknowledged,
how often the oldest has been replayed, the timestamp since which it is down, and that of its last frame. -/
structure TPortSt where
  txSeq : Nat := 0
  rxSeq : Nat := 0
  replay : List Frame := []
  replays : Nat := 0
  downAt : Option Nat := none
  lastSent : Nat := 0
  deriving DecidableEq, Repr

/-- A mirror bench hosted for a peer (R376, R377). -/
structure Hosted where
  owner : Nat
  lib : Nat
  gpos : Nat
  bench : Nat
  deriving DecidableEq, Repr

/-- A chain barrier that the device takes part in (R367). -/
structure Barrier where
  from_ : Nat
  cmd : Nat
  arg : Nat
  since : Nat
  released : Bool := false
  deriving DecidableEq, Repr

/-- A filing that waits for its APPEND_ACK (R359). -/
structure AppendWait where
  tag : Nat
  serial : Nat
  lib : Nat
  since : Nat
  deriving DecidableEq, Repr

/-- A chunk of a bench copy (R376). -/
structure Chunk where
  index : Nat
  bytes : List Byte
  deriving DecidableEq, Repr

/-- A bench copy being received: owner, library, global position, the chunks that have come. -/
structure Copying where
  owner : Nat
  lib : Nat
  gpos : Nat
  chunks : List Chunk
  deriving DecidableEq, Repr

/-- The Tunnel. -/
structure TunnelSt where
  ports : List (Nat × TPortSt) := []
  hellos : List (Nat × Option HelloRec) := []
  helloAt : Option Nat := none
  joined : Bool := false
  lost : List Nat := []
  reserved : List Nat := []
  hosted : List Hosted := []
  /-- benches of the device's own shares served by peers: library, position, peer -/
  away : List (Nat × Nat × Nat) := []
  serial : Nat := 0
  /-- last known token holder by library -/
  holder : List (Nat × Nat) := []
  barriers : List Barrier := []
  appends : List AppendWait := []
  /-- CASC_SYNC held low by this device, and MATCH_IN's last edge -/
  syncLow : Bool := false
  matchEdge : Nat := 0
  matchOut : Bool := false
  /-- bench copies being received -/
  copying : List Copying := []
  /-- frames sent, by port, oldest first -/
  sent : List (Nat × Frame) := []
  deriving DecidableEq, Repr

end Sys2Proof.Machine
end

