-- ==== Sys2Proof/Machine/State.lean ====
section
/-! DEFINITION.  The state of the block: plain data, holding everything the specification gives the
part, and the state right after reset. -/

namespace Sys2Proof.Machine

/-- No command of this model ends in a fault: the part completes every access without error (R15) and
reports its own errors in registers, records and alarms.  `impossible` is raised by no command. -/
inductive Fault where
  /-- raised by nothing; safe -/
  | impossible
  deriving DecidableEq, Repr

/-- Why a command is refused. -/
inductive Refusal where
  /-- the command has no meaning yet; raised by the dispatch alone; safe -/
  | notModelled (mnemonic : String)
  deriving DecidableEq, Repr

/-- The state. -/
structure State where
  /-- commands waiting, first in, first out -/
  pending : List Instr
  /-- the model's own: how many free values have been drawn (assumption 2) -/
  free : Nat
  /-- every register whose value differs from its reset value, by BAR0 offset -/
  regs : List (Nat × Word)
  /-- read latches of R22, by LO offset: BAR0, then MPORT -/
  latchB : List (Nat × Word)
  latchM : List (Nat × Word)
  /-- write holds of R22 -/
  holdB : List (Nat × Word)
  holdM : List (Nat × Word)
  /-- value returned by the last register read -/
  rdata : Word64
  /-- fault histories: unit and powered-time stamp in ms, newest first (R496) -/
  faults : List (FaultUnit × Nat)
  streams : List (Nat × StreamSt)
  ports : List (Nat × PortSt)
  /-- streams enabled when PLAN was written (R119) -/
  planSet : List Nat
  /-- Flint cores by physical number, core groups, and network instances by stream -/
  cores : List (Nat × CoreSt)
  groups : List (Nat × GroupSt)
  nets : List (Nat × Net)
  /-- synapse result areas: by (matrix × 65,536 + stream) × 16 + t mod 16 (R211) -/
  synBlocks : List (Nat × Option SynBlock)
  /-- class 0 messages sent and not yet taken, oldest first (R139) -/
  fabric : List Msg
  /-- HBM bytes outside the typed areas, and the pages written (R443) -/
  hbm : List Host.Cell
  hbmPages : List (Nat × Bool)
  /-- by stream prefetcher: the furthest line fetched, and the lines brought into Grotto (R150) -/
  prefetched : List (Nat × (Nat × List Nat))
  /-- trace words at the log collector: source logical address, tick, code, value, oldest first (R501) -/
  traceLog : List (Nat × Nat × Nat × Word)
  /-- trace words dropped since the last log and trace record (Table HOST-12) -/
  logDropped : Nat
  /-- window queries being assembled (R305) -/
  asm : List Assembly
  seam : SeamSt
  sump : SumpSt
  chisel : ChiselSt
  tunnel : TunnelSt
  power : PowerSt
  lantern : LanternSt
  test : TestSt
  host : HostSt
  /-- bytes the part has written to host memory -/
  hostMem : List Host.Cell
  /-- alarm records waiting, in delivery order, the next ASEQ, and the alarms not queued: count and first ASEQ (R504) -/
  alarmQ : List Slot
  aseq : Nat
  alarmLost : Option (Nat × Nat)
  deriving DecidableEq, Repr

/-- The state right after reset: VSTBY has come, the rails are up and RESET_N is low on a part as shipped (R493, R543). Every register
reads its reset value, and nothing is waiting. RESET_N_RELEASE starts the boot. -/
def State.reset : State := {
  pending := [], free := 0, regs := [], latchB := [], latchM := [], holdB := [], holdM := [], rdata := 0, faults := [], streams := [], ports := []
  planSet := [], cores := [], groups := [], nets := [], synBlocks := [], fabric := [], hbm := [], hbmPages := [], prefetched := [], traceLog := []
  logDropped := 0, asm := [], seam := {}, sump := {}, chisel := {}, tunnel := {}, power := { source := 1, from_ := 4 }, lantern := {}, test := {}
  host := {}, hostMem := [], alarmQ := [], aseq := 0, alarmLost := none }

end Sys2Proof.Machine
end

