-- ==== Sys2Proof/Machine/Store.lean ====
section
/-! DEFINITION.  Sparse tables: lists of (key, value) pairs with strictly rising keys and no entry
equal to what an unlisted key reads as.  Registers, SRAM, HBM, per-stream and per-unit state are held
in this form, so that equal contents are equal data. -/

namespace Sys2Proof.Machine

/-- The value at key `k`; `d k` where nothing is listed. -/
def tget {α : Type} (d : Nat → α) (m : List (Nat × α)) (k : Nat) : α :=
  match m with
  | [] => d k
  | (a, v) :: t => if a = k then v else tget d t k

/-- Remove every entry of key `k`. -/
def tdel {α : Type} (m : List (Nat × α)) (k : Nat) : List (Nat × α) :=
  match m with
  | [] => []
  | (a, v) :: t => if a = k then tdel t k else (a, v) :: tdel t k

/-- Insert an entry before the first larger key. -/
def tins {α : Type} (m : List (Nat × α)) (k : Nat) (v : α) : List (Nat × α) :=
  match m with
  | [] => [(k, v)]
  | (a, w) :: t => if k < a then (k, v) :: (a, w) :: t else (a, w) :: tins t k v

/-- Store `v` at `k`; storing what an unlisted key reads as removes the entry. -/
def tset {α : Type} [DecidableEq α] (d : Nat → α) (m : List (Nat × α)) (k : Nat) (v : α) : List (Nat × α) :=
  if v = d k then tdel m k else tins (tdel m k) k v

/-- Keep only the entries whose key satisfies `p`. -/
def tfilter {α : Type} (p : Nat → Bool) (m : List (Nat × α)) : List (Nat × α) :=
  m.filter (fun e => p e.1)

/-- The canonical form, as a computable test. -/
def tableWf {α : Type} [DecidableEq α] (d : Nat → α) (m : List (Nat × α)) : Bool :=
  match m with
  | [] => true
  | (a, v) :: t => decide (v ≠ d a) && t.all (fun e => decide (a < e.1)) && tableWf d t

end Sys2Proof.Machine
end

