-- ==== Sys2Proof/Machine/Ops.lean ====
section
/-! DEFINITION.  Named operations over the registers, counters, time, alarms and fault histories. -/

namespace Sys2Proof.Machine

/-! ### Registers and fields -/

/-- The stored value of a register. -/
def State.reg (s : State) (a : Nat) : Word := tget regReset s.regs a

def State.setReg (s : State) (a : Nat) (v : Word) : State := { s with regs := tset regReset s.regs a v }

/-- The value of a field, as a number. -/
def State.fld (s : State) (f : Fld) : Nat := ((s.reg f.addr).extractLsb' f.lo f.w).toNat

/-- A word with the bits of a field replaced by the low bits of `v`. -/
def putField (w : Word) (lo width v : Nat) : Word :=
  (w &&& ~~~(BitVec.ofNat 32 ((2 ^ width - 1) * 2 ^ lo))) ||| BitVec.ofNat 32 (v % 2 ^ width * 2 ^ lo)

def State.setFld (s : State) (f : Fld) (v : Nat) : State :=
  s.setReg f.addr (putField (s.reg f.addr) f.lo f.w v)

/-- Set a one-bit field. -/
def State.setBit (s : State) (f : Fld) (b : Bool) : State := s.setFld f (if b then 1 else 0)

/-- Is a one-bit field set? -/
def State.bit (s : State) (f : Fld) : Bool := s.fld f == 1

/-- Add to a counter field, which saturates at all ones (R21). -/
def State.bump (s : State) (f : Fld) (n : Nat) : State := s.setFld f (min (s.fld f + n) (2 ^ f.w - 1))

/-- A bit of a register named by position. -/
def State.regBit (s : State) (a i : Nat) : Bool := (s.reg a).getLsbD i

def State.setRegBit (s : State) (a i : Nat) (b : Bool) : State :=
  s.setReg a (putField (s.reg a) i 1 (if b then 1 else 0))

/-- A 64-bit quantity held in two registers, the low half at `a` (R22). -/
def State.get64 (s : State) (a : Nat) : Nat := (s.reg a).toNat + 2 ^ 32 * (s.reg (a + 4)).toNat

def State.set64 (s : State) (a v : Nat) : State :=
  (s.setReg a (BitVec.ofNat 32 v)).setReg (a + 4) (BitVec.ofNat 32 (v / 2 ^ 32))

def State.bump64 (s : State) (a n : Nat) : State := s.set64 a (min (s.get64 a + n) (2 ^ 64 - 1))

/-- A saturating 32-bit count held outside the registers (R21). -/
def sat32 (n : Nat) : Nat := min n 0xFFFFFFFF

/-! ### Time (R12, R78) -/

/-- The current timestamp, in 10 ns units. -/
def State.now (s : State) : Nat := s.get64 R.TEST_TIME_NOW_LO

/-- The current tick. -/
def State.tick (s : State) : Nat := s.get64 R.TEST_TICK_NOW_LO

def State.ticking (s : State) : Bool := s.bit F.TEST_TIME_STATUS_TICKS_STARTED

/-- T0 of R78. -/
def State.t0 (s : State) : Nat := s.get64 R.TEST_TICK_T0_LO
/-- P, from 5,000 to 100,000 units; values outside act as the nearer limit (R525). -/
def State.tickPeriod (s : State) : Nat := min 100000 (max 5000 (s.fld F.TEST_TICK_PERIOD_P))

/-- The tick of a timestamp at or after T0 (R78). -/
def State.tickOf (s : State) (ts : Nat) : Nat := (ts - s.t0) / s.tickPeriod

/-- The timestamp at which a tick begins. -/
def State.tickStart (s : State) (t : Nat) : Nat := s.t0 + t * s.tickPeriod

/-- Powered time in ms (R496, R284). -/
def State.uptime (s : State) : Nat := s.get64 R.POWER_UPTIME_LO

/-- A port's PRBS checker and generator stop (R538): Adit ports 0 to 3, Tunnel ports 4 and 5. -/
def State.prbsOff (s : State) (p : Nat) : State := (s.setFld (F.TEST_PRBS_CTRL_MODE p) 0).setFld (F.TEST_PRBS_CTRL_LOCK p) 0

/-! ### Free values -/

/-- Draw one free value: the number that names it, and the state with the counter advanced. -/
def State.draw (s : State) : Nat × State := (s.free, { s with free := s.free + 1 })

/-! ### Units' states -/

def streamDefault (_ : Nat) : StreamSt := {}
def State.stream (s : State) (n : Nat) : StreamSt := tget streamDefault s.streams n
def State.setStream (s : State) (n : Nat) (v : StreamSt) : State :=
  { s with streams := tset streamDefault s.streams n v }

def portDefault (_ : Nat) : PortSt := {}
def State.port (s : State) (p : Nat) : PortSt := tget portDefault s.ports p
def State.setPort (s : State) (p : Nat) (v : PortSt) : State :=
  { s with ports := tset portDefault s.ports p v }

def ringDefault (_ : Nat) : RingSt := {}
def State.ring (s : State) (r : Nat) : RingSt := tget ringDefault s.host.rings r
def State.setRing (s : State) (r : Nat) (v : RingSt) : State :=
  { s with host := { s.host with rings := tset ringDefault s.host.rings r v } }

/-- The registers listed with a value of their own in `[lo, hi)`, as offsets. -/
def State.listed (s : State) (lo hi : Nat) : List Nat :=
  (s.regs.map Prod.fst).filter (fun a => lo ≤ a && a < hi)

/-- Streams whose EN is 1. -/
def State.enabledStreams (s : State) : List Nat :=
  ((s.listed 0x300000 0x400000).filter (fun a => a % 16 == 0 && s.regBit a 31)).map (fun a => (a - 0x300000) / 16)

/-! ### Fault histories (R496) -/

/-- 24 h of powered time in ms. -/
def dayMs : Nat := 86400000

/-- Earlier faults of a unit that lie within the last 24 h of powered time: a fault exactly 24 h old
has left the window. -/
def State.recentFaults (s : State) (u : FaultUnit) : Nat :=
  ((s.faults.filter (fun e => decide (e.1 = u) && s.uptime < e.2 + dayMs)).take 2).length

/-- Keep the stamps of a unit's last two faults. -/
def keepTwo (l : List (FaultUnit × Nat)) (u : FaultUnit) : List (FaultUnit × Nat) :=
  (l.filter (fun e => decide (e.1 = u))).take 2 ++ l.filter (fun e => !decide (e.1 = u))

/-- Record a fault of a unit. The answer is true when the fault is permanent: at least two earlier
faults lie within the last 24 h, or the unit failed a hard test. -/
def State.recordFault (s : State) (u : FaultUnit) (hard : Bool) : Bool × State :=
  (hard || 2 ≤ s.recentFaults u, { s with faults := keepTwo ((u, s.uptime) :: s.faults) u })

/-! ### 64-byte records -/

/-- A record or descriptor built from (byte offset, bytes, value) parts (R10). -/
def slotOf (parts : List (Nat × Nat × Nat)) : Slot :=
  parts.foldl (fun acc p => acc ||| BitVec.ofNat 512 (p.2.2 % 2 ^ (8 * p.2.1) * 2 ^ (8 * p.1))) 0#512

/-- The unsigned value of bytes `[off, off + n)` of a slot. -/
def slotField (d : Slot) (off n : Nat) : Nat := (d.extractLsb' (8 * off) (8 * n)).toNat

/-- The bytes of a value, least significant first (R10). -/
def bytesLE : Nat → Nat → List Byte
  | 0, _ => []
  | n + 1, v => BitVec.ofNat 8 v :: bytesLE n (v / 256)

/-- The value of a byte list, least significant first (R10). -/
def leValue : List Byte → Nat
  | [] => 0
  | b :: t => b.toNat + 256 * leValue t

/-- Bytes `[off, off + n)` of a list; bytes beyond its end read as zero. -/
def sliceLE (l : List Byte) (off n : Nat) : Nat := leValue ((l.drop off).take n)

/-! ### Host memory -/

/-- Write one byte of host memory. -/
def cellSet (m : List Host.Cell) (a : Nat) (b : Byte) : List Host.Cell := tins (tdel m a) a b

def cellsSet (m : List Host.Cell) (a : Nat) : List Byte → List Host.Cell
  | [] => m
  | b :: t => cellsSet (cellSet m a b) (a + 1) t

/-- The byte the part last wrote at a host address, if it wrote one. -/
def cellGet (m : List Host.Cell) (a : Nat) : Option Byte := tget (fun _ => none) (m.map (fun c => (c.1, some c.2))) a

def State.hostWrite (s : State) (a : Nat) (bs : List Byte) : State :=
  { s with hostMem := cellsSet s.hostMem a bs }

/-! ### Alarms (R441, R503, R504) -/

/-- The alarm code bit of an alarm register field: its bit, or 0x20 + bit for SEAM_UPKEEP_ALARM. -/
def alarmBit (f : Fld) : Nat :=
  let b := blockOf f.addr
  if b.1 = 4 ∧ b.2.2 = 0xA1C then 0x20 + f.lo else f.lo

/-- The alarms that write a record at every occurrence (R504). -/
def alarmEvery (block bit : Nat) : Bool :=
  match block with
  | 2 => bit == 1 || bit == 2 || bit == 3
  | 3 => bit == 2 || bit == 3 || bit == 4
  | 4 => bit == 3 || bit == 4 || bit == 5 || bit == 0x22 || bit == 0x23
  | 5 => bit == 2
  | 8 => bit == 1 || bit == 4 || bit == 9
  | _ => false

/-- Alarm records the backlog holds (R504). -/
def alarmRoom : Nat := 1024

/-- Take the next ASEQ and queue an alarm record; `detail` is bytes 16 to 55. An alarm that finds the
backlog full is not queued and is counted (R504). -/
def State.queueAlarm (s : State) (code block inst : Nat) (detail : List (Nat × Nat × Nat)) : State :=
  let rec_ := slotOf ([(0, 1, 4), (2, 2, code), (4, 1, block), (5, 3, inst), (8, 8, s.now)] ++ detail ++ [(56, 8, s.aseq)])
  if s.alarmQ.length < alarmRoom then
    { s with alarmQ := s.alarmQ ++ [rec_], aseq := s.aseq + 1 }
  else
    let s1 := { s with aseq := s.aseq + 1, alarmLost := some (match s.alarmLost with
      | none => (1, s.aseq)
      | some (n, f) => (n + 1, f)) }
    ((s1.bump F.POWER_ALARM_LOST_COUNT 1).setFld F.POWER_ALARM_ALARM_LOST 1).setFld F.POWER_SUMMARY_LOST 1

/-- Raise an alarm bit: the bit and the block's bit of POWER_SUMMARY are set, and a record is queued when
the bit rises, or at every occurrence for the alarms R504 lists. `unit` is the unit of DETAIL (R503). -/
def State.alarm (s : State) (f : Fld) (unit : Nat) : State :=
  let b := blockOf f.addr
  let was := s.bit f
  let s1 := (s.setFld f 1).setRegBit R.POWER_SUMMARY b.1 true
  if was && !alarmEvery b.1 (alarmBit f) then s1
  else s1.queueAlarm (b.1 * 256 + alarmBit f) b.1 b.2.1
    [(16, 4, unit), (20, 4, (s1.reg f.addr).toNat)]

/-- A permanent device fault (R498, Tables POWER-8 and POWER-10): POWER_FAULT, the DEVICE_FAULT bits and one alarm
0x0741 at every occurrence; MATCH_OUT falls. CAUSE 1 to 3 is fatal (R499): its DETAIL names the last tick with records, and every
ready indication except MBX, HOST_LINK and LANTERN falls. -/
def State.deviceFault (s : State) (cause unit : Nat) : State :=
  let fatal := decide (cause ≤ 3)
  let s1 := (((((s.setFld F.POWER_FAULT_KIND (if fatal then 2 else 1)).setFld F.POWER_FAULT_CAUSE cause).setFld F.POWER_FAULT_UNIT unit)
    |>.setFld F.POWER_ALARM_DEVICE_FAULT 1).setFld F.POWER_SUMMARY_FAULT 1).setRegBit R.POWER_SUMMARY 7 true
  let s2 : State := { s1 with tunnel := { s1.tunnel with matchOut := false } }
  s2.queueAlarm 0x0741 7 0 ([(16, 1, if fatal then 2 else 1), (17, 1, cause), (20, 4, unit)] ++
    (if fatal then [(24, 8, s.host.lastRecord)] else []))

/-- A fatal device fault stands: no descriptor is taken and no record is written (R499). -/
def State.fatal (s : State) : Bool := s.fld F.POWER_FAULT_KIND == 2

/-! ### Reach in low power states (Table POWER-1, R481) -/

/-- The power state that holds, as STATE codes it: during a transition the one it leaves (DEDUCED, Table POWER-3). -/
def State.powerLevel (s : State) : Nat :=
  let st := s.fld F.POWER_STATUS_STATE
  if st ≤ 3 then st else s.power.from_

/-- Can a register of a block (order of R23) be reached in the power state? Mailbox registers of the LANTERN block
are the ones Deep sleep leaves. -/
def State.reaches (s : State) (block : Nat) (mailbox : Bool) : Bool :=
  match s.powerLevel with
  | 2 => block == 0 || block == 7
  | 3 => block == 7 || (block == 0 && mailbox)
  | _ => true

/-- Is the part's register interface alive: not Off, TRIPPED, held in reset or stopped by a trip? -/
def State.alive (s : State) : Bool := !(s.power.off || s.power.tripped || s.power.inReset || s.power.tripping)

/-- A register write reaches its block and acts, or is ignored and counted (R481). In Off nothing is reachable. -/
def gate (block : Nat) (s : State) (k : Host.Outcome State Fault Refusal) : Host.Outcome State Fault Refusal :=
  if !s.alive then .next s
  else if s.reaches block false then k
  else .next (s.bump F.POWER_ASLEEP_ACCESS_COUNT 1)

/-! ### Lists -/

/-- Remove the first element equal to `x`. -/
def dropFirst {α : Type} [DecidableEq α] (x : α) : List α → List α
  | [] => []
  | y :: t => if y = x then t else y :: dropFirst x t

/-- The value of key `k` in an association list of numbers, 0 when absent. -/
def aget (m : List (Nat × Nat)) (k : Nat) : Nat := tget (fun _ => 0) m k

def aset (m : List (Nat × Nat)) (k v : Nat) : List (Nat × Nat) := tset (fun _ => 0) m k v

/-- Set bit `i` of a number. -/
def orBit (n i : Nat) : Nat := n ||| 2 ^ i

/-- Is bit `i` of a number set? -/
def hasBit (n i : Nat) : Bool := n.testBit i

end Sys2Proof.Machine
end

