-- ==== Sys2Proof/Machine/Operands.lean ====
section
/-! DEFINITION.  Number formats, the operations on hypervectors and the operand forms shared by the Flint
instructions (02_hypervector_algebra R53 to R83; 05_flint_instructions Table FLINT-2). -/

namespace Sys2Proof.Machine

/-! ### Rounding, clamping and saturation (Table HDV-2, R63) -/

def clampInt (lo hi x : Int) : Int := if x < lo then lo else if hi < x then hi else x

/-- Divide by a positive number and round to nearest, ties away from zero. -/
def roundAway (x : Int) (d : Nat) : Int :=
  if 0 ≤ x then (2 * x + d) / (2 * d) else -((2 * (-x) + d) / (2 * d))

def sat8 (x : Int) : Int := clampInt (-128) 127 x
def sat16 (x : Int) : Int := clampInt (-32768) 32767 x
def satS32 (x : Int) : Int := clampInt (-2147483648) 2147483647 x

/-- A 16-bit two's complement value (FX16, R58). -/
def fx16 (n : Nat) : Int := (BitVec.ofNat 16 n).toInt

/-! ### Flint operand forms (Table FLINT-2) -/

/-- A sign-extended immediate. -/
def immS (i : Imm16) : Word := i.signExtend 32
/-- A zero-extended immediate. -/
def immZ (i : Imm16) : Word := i.zeroExtend 32

/-- FX16 value of a word's low half. -/
def lowFx (w : Word) : Int := (w.setWidth 16).toInt

def boolWord (b : Bool) : Word := if b then 1 else 0

/-- Number of 1 bits. -/
def popc {w : Nat} (x : BitVec w) : Nat := (List.range w).countP (fun i => x.getLsbD i)

/-- Leading zeros of a word, 32 when it is zero. -/
def clz32 (x : Word) : Nat := (List.range 32).find? (fun i => x.getLsbD (31 - i)) |>.getD 32

/-- Trailing zeros of a word, 32 when it is zero. -/
def ctz32 (x : Word) : Nat := (List.range 32).find? (fun i => x.getLsbD i) |>.getD 32

/-! ### Slivers -/

/-- The number whose bit `i` is `f i`, for `i < n`. -/
def bitsNat (n : Nat) (f : Nat → Bool) : Nat :=
  (List.range n).foldr (fun i a => (if f i then 2 ^ i else 0) + a) 0

/-- The sliver whose bit `i` is `f i`. -/
def sliverOf (f : Nat → Bool) : Sliver := BitVec.ofNat 256 (bitsNat 256 f)

/-- Bipolar value of a B1 bit. -/
def b1val (b : Bool) : Int := if b then -1 else 1

/-- Value of a T2 dimension; M = 0 with S = 1 reads as 0 (R60). -/
def t2val (m sgn : Bool) : Int := if m then (if sgn then -1 else 1) else 0

/-- Does a T2 pair hold a dimension with M = 0 and S = 1 (R60)? -/
def t2Bad (m sgn : Sliver) : Bool := (~~~m &&& sgn) != 0

/-- Bind of two T2 pairs: planes (M, S) (R68). -/
def t2Bind (a b : Sliver × Sliver) : Sliver × Sliver :=
  let m := a.1 &&& b.1
  (m, (a.2 ^^^ b.2) &&& m)

/-- Bipolar dot product of two T2 pairs (R74). -/
def t2Dot (a b : Sliver × Sliver) : Int :=
  let both := a.1 &&& b.1
  let opp := (a.2 ^^^ b.2) &&& both
  (popc both : Int) - 2 * popc opp

/-- Rotate: bit `i` of the result is bit `(i − n) mod 256` (VROT). -/
def rotSliver (a : Sliver) (n : Nat) : Sliver := a.rotateLeft (n % 256)

/-- The local half of permute (R70): for 0 ≤ b < 256, output bit i is bit i − b of `a` for i ≥ b and bit
256 − b + i of `b'` below. -/
def permSliver (a b' : Sliver) (b : Nat) : Sliver := (a <<< b) ||| (b' >>> (256 - b))

/-- Byte `k` of a sliver as a signed number. -/
def sliverI8 (a : Sliver) (k : Nat) : Int := (a.extractLsb' (8 * k) 8).toInt

/-- Sum of the 32 products of signed bytes (VDOT8). -/
def dot8 (a b : Sliver) : Int := ((List.range 32).map (fun k => sliverI8 a k * sliverI8 b k)).sum

/-! ### The tally (R68, R69, R72, R73): counters by dimension -/

def tallyGet (t : List (Nat × Int)) (i : Nat) : Int := tget (fun _ => 0) t i

/-- The table with value `f i` at every `i < n`. -/
def tallyOf (n : Nat) (f : Nat → Int) : List (Nat × Int) :=
  ((List.range n).map (fun i => (i, f i))).filter (fun e => e.2 != 0)

/-- Bundle: add `w × val i` to every counter with saturation; true when a counter saturated (R69). -/
def bundleTally (t : List (Nat × Int)) (w : Int) (val : Nat → Int) : List (Nat × Int) × Bool :=
  (tallyOf 256 (fun i => sat8 (tallyGet t i + w * val i)),
   (List.range 256).any (fun i => let x := tallyGet t i + w * val i; decide (x < -128) || decide (127 < x)))

/-- Binarise with tie bits (R72). -/
def binariseTally (t : List (Nat × Int)) (tie : Sliver) : Sliver :=
  sliverOf (fun i => let a := tallyGet t i; if a = 0 then tie.getLsbD i else decide (a < 0))

/-- Thin: planes M and S (R73). -/
def thinTally (t : List (Nat × Int)) (th : Nat) : Sliver × Sliver :=
  (sliverOf (fun i => decide ((th : Int) < (tallyGet t i).natAbs)),
   sliverOf (fun i => decide (tallyGet t i < -(th : Int))))

/-! ### Codebooks (R64 to R66) -/

/-- keyword(seed, c, k, w) of R64. -/
def keyword (seed : Word64) (c k w : Nat) : Word64 :=
  let z0 := seed ^^^ BitVec.ofNat 64 (c * 2 ^ 56) ^^^ BitVec.ofNat 64 (k * 2 ^ 28) ^^^ BitVec.ofNat 64 w
  let z1 := z0 + 0x9E3779B97F4A7C15#64
  let z2 := (z1 ^^^ (z1 >>> 30)) * 0xBF58476D1CE4E5B9#64
  let z3 := (z2 ^^^ (z2 >>> 27)) * 0x94D049BB133111EB#64
  z3 ^^^ (z3 >>> 31)

/-- The codebook seed of the device. -/
def State.seed (s : State) : Word64 := s.reg R.GAL_SEED_HI ++ s.reg R.GAL_SEED_LO

/-- Sliver `j` of key `k` of codebook `c` (R54, R64). -/
def keySliver (seed : Word64) (c k j : Nat) : Sliver :=
  keyword seed c k (4 * j + 3) ++ keyword seed c k (4 * j + 2) ++ keyword seed c k (4 * j + 1) ++ keyword seed c k (4 * j)

/-- The tie key's sliver `j` (R72). -/
def tieSliver (seed : Word64) (j : Nat) : Sliver := keySliver seed 2 0 j

/-- A window's sliver `j` (R76): the counters after bundling the spikes in order, and whether one saturated. -/
def encodeSliver (seed : Word64) (g j : Nat) (spikes : List (Nat × Nat)) : List (Nat × Int) × Bool :=
  spikes.foldl (fun acc e =>
    let b := keySliver seed 0 (e.1 / g) j ^^^ keySliver seed 1 e.2 j
    let r := bundleTally acc.1 1 (fun i => b1val (b.getLsbD i))
    (r.1, acc.2 || r.2)) ([], false)

/-! ### Spike-word items (R81, Table HDV-9) -/

/-- Group spikes (τ, neuron), ascending, into items (τ, group, word). -/
def spikeItems : List (Nat × Nat) → List (Nat × Nat × Nat)
  | [] => []
  | (t, k) :: r =>
    match spikeItems r with
    | (u, g, w) :: r' => if u = t ∧ g = k / 32 then (t, g, w ||| 2 ^ (k % 32)) :: r' else (t, k / 32, 2 ^ (k % 32)) :: (u, g, w) :: r'
    | [] => [(t, k / 32, 2 ^ (k % 32))]

/-- The 64-bit spike-word item of Table HDV-9. -/
def itemWord (i : Nat × Nat × Nat) : Word64 := BitVec.ofNat 64 (i.2.2 * 2 ^ 32 + i.1 % 65536 * 2 ^ 16 + i.2.1 % 32)

/-- The spikes of an item: (τ, neuron), ascending. -/
def itemSpikes (w : Word64) : List (Nat × Nat) :=
  let tau := (w.extractLsb' 16 16).toNat
  let g := (w.extractLsb' 0 5).toNat
  ((List.range 32).filter (fun i => w.getLsbD (32 + i))).map (fun i => (tau, 32 * g + i))

/-- Cut a list into chunks of `n`, oldest first. -/
def chunks {α : Type} (n : Nat) : Nat → List α → List (List α)
  | 0, _ => []
  | _, [] => []
  | fuel + 1, l => l.take n :: chunks n fuel (l.drop n)

/-! ### Run-length coding of T2 segments (R82, R83) -/

/-- A 16-bit code with KIND and RUN. -/
def rleCode (kind run : Nat) : Nat := kind * 16384 + run

/-- Zeros of a long gap, split with zeros-only codes of 16,383. -/
def rleGap : Nat → Nat → List Nat × Nat
  | 0, run => ([], run)
  | fuel + 1, run =>
    if run ≤ 16383 then ([], run)
    else let r := rleGap fuel (run - 16383); (rleCode 0 16383 :: r.1, r.2)

/-- Encode the values of a segment, `run` zeros behind. -/
def rleEncode (run : Nat) : List Int → List Nat
  | [] => let g := rleGap 3 run; g.1 ++ [rleCode 2 g.2]
  | v :: t =>
    if v = 0 then rleEncode (run + 1) t
    else let g := rleGap 3 run; g.1 ++ rleCode (if v < 0 then 3 else 1) g.2 :: rleEncode 0 t

/-- Decode codes into values up to the end code; none when no end code comes. -/
def rleDecode : List Nat → Option (List Int)
  | [] => none
  | c :: t =>
    let zeros := List.replicate (c % 16384) (0 : Int)
    match c / 16384 % 4 with
    | 2 => some zeros
    | 0 => (rleDecode t).map (zeros ++ ·)
    | 1 => (rleDecode t).map (zeros ++ 1 :: ·)
    | _ => (rleDecode t).map (zeros ++ -1 :: ·)

/-- A segment of `n` dimensions as a decoder takes it: discarded when its decoded length is not `n` (R82). -/
def rleTake (n : Nat) (codes : List Nat) : Option (List Int) :=
  (rleDecode codes).filter (fun l => l.length == n)

/-- Is the coded form sent for a segment (R83)? It is when shorter than the dense form of L/4 bytes. -/
def rleShorter (l : List Int) : Bool := 2 * (rleEncode 0 l).length < l.length / 4

end Sys2Proof.Machine
end

