-- ==== Sys2Proof/Machine/AditChain.lean ====
section
/-! DEFINITION.  Adit's sample chain as a pure function: gain, decimator, filterbank, envelope,
encoders, background, history blocks (03_adit_ingest R106 to R120), and the BF8 compression of R63. -/

namespace Sys2Proof.Machine

/-! ### Profiles (R129, Tables ADIT-21 and ADIT-22) -/

/-- Byte `i` of profile `q`. -/
def State.profByte (s : State) (q i : Nat) : Nat :=
  ((s.reg (0x280000 + 0x2000 * q + i / 4 * 4)).extractLsb' (8 * (i % 4)) 8).toNat

def State.profLE (s : State) (q i n : Nat) : Nat :=
  match n with
  | 0 => 0
  | k + 1 => s.profByte q i + 256 * s.profLE q (i + 1) k

/-- The header of a profile. -/
structure Profile where
  settleFb : Nat
  decLog2 : Nat
  bandsUsed : Nat
  bgPct : Nat
  bgStep : Nat
  bgRate : Nat
  kAct : Nat
  ageMax : Nat
  quietClear : Nat
  warmTime : Nat
  warmGain : Nat
  gainHold : Nat
  deriving DecidableEq, Repr

/-- A band record: ten section coefficients in units of 2^-16, and the encoder's settings. -/
structure BandCfg where
  c0 : List Int
  c1 : List Int
  envShift : Nat
  outShift : Nat
  encoder : Nat
  lambda : Int
  hyst : Int
  actMargin : Int
  deriving DecidableEq, Repr

def State.profile (s : State) (q : Nat) : Profile :=
  { settleFb := s.profLE q 0 2, decLog2 := s.profByte q 2, bandsUsed := s.profByte q 3, bgPct := s.profByte q 4,
    bgStep := s.profByte q 5, bgRate := s.profByte q 6, kAct := s.profByte q 7, ageMax := s.profLE q 8 4,
    quietClear := s.profLE q 12 2, warmTime := s.profLE q 14 2, warmGain := s.profByte q 16, gainHold := s.profByte q 17 }

/-- A coefficient stored as hi then lo FX16: hi + lo/256, in units of 2^-16 (R109). -/
def State.coef (s : State) (q i : Nat) : Int := fx16 (s.profLE q i 2) * 256 + fx16 (s.profLE q (i + 2) 2)

def State.bandCfg (s : State) (q b : Nat) : BandCfg :=
  let o := 64 + 64 * b
  { c0 := (List.range 5).map (fun j => s.coef q (o + 4 * j)),
    c1 := (List.range 5).map (fun j => s.coef q (o + 20 + 4 * j)),
    envShift := s.profByte q (o + 40), outShift := s.profByte q (o + 41), encoder := s.profByte q (o + 42),
    lambda := fx16 (s.profLE q (o + 44) 2), hyst := fx16 (s.profLE q (o + 46) 2), actMargin := fx16 (s.profLE q (o + 48) 2) }

/-- Are a band record's fields inside their stated ranges (Table ADIT-22)? -/
def BandCfg.ok (c : BandCfg) : Bool :=
  1 ≤ c.envShift && c.envShift ≤ 15 && c.outShift ≤ 24 && c.encoder ≤ 2 && decide (0 < c.lambda) &&
    decide (0 ≤ c.hyst) && decide (0 ≤ c.actMargin)

/-- Are a profile's fields inside their stated ranges (R129, Table ADIT-21)? -/
def State.profileOk (s : State) (q : Nat) : Bool :=
  let p := s.profile q
  p.settleFb ≤ 16383 && p.decLog2 ≤ 4 && 1 ≤ p.bandsUsed && p.bandsUsed ≤ 64 && 1 ≤ p.bgPct && p.bgPct ≤ 99 &&
    1 ≤ p.bgStep && p.bgStep ≤ 15 && p.bgRate ≤ 7 && 1 ≤ p.kAct && p.kAct ≤ 64 && 1 ≤ p.ageMax && 1 ≤ p.quietClear &&
    1 ≤ p.warmTime && p.warmGain ≤ 7 && (List.range p.bandsUsed).all (fun b => (s.bandCfg q b).ok)

/-- The decimator's settling count (Table ADIT-9). -/
def decSettle (s : Nat) : Nat := (18 * (2 ^ s - 1) + 31 * 2 ^ s + 2 ^ s - 1) / 2 ^ s

/-- Input samples that the decimator's stages span (Table ADIT-9). -/
def decSpan (s : Nat) : Nat := 18 * (2 ^ s - 1) + 31 * 2 ^ s + 1

/-! ### Bands -/

/-- A second-order section: the output in 2^-8 sample LSB and whether it saturated (R109). -/
def section2 (c : List Int) (x x1 x2 y1 y2 : Int) : Int × Bool :=
  let acc := c.getD 0 0 * x + c.getD 1 0 * x1 + c.getD 2 0 * x2 - c.getD 3 0 * y1 - c.getD 4 0 * y2
  let y := roundAway acc 65536
  let z := clampInt (-(2 ^ 31)) (2 ^ 31) y
  (z, y != z)

/-- Run one band on a processing sample: the new band, its envelope e_b in FX16 and whether anything
clipped (R109, R110). -/
def Band.filter (b : Band) (c : BandCfg) (x : Int) : Band × Int × Bool :=
  let xs := x * 256
  let (u, k0) := section2 c.c0 xs b.x1 b.x2 b.u1 b.u2
  let (y, k1) := section2 c.c1 u b.u1 b.u2 b.y1 b.y2
  let env := b.env + ((if y < 0 then -y else y) - b.env) / (2 ^ c.envShift : Nat)
  let e0 := env / (2 ^ c.outShift : Nat)
  let e := if 32767 < e0 then 32767 else e0
  ({ b with x1 := xs, x2 := b.x1, u1 := u, u2 := b.u1, y1 := y, y2 := b.y1, env := env }, e, k0 || k1 || decide (32767 < e0))

/-- Initialise a band's encoder at background-relative value `x` (R111, R112). -/
def Band.encInit (b : Band) (c : BandCfg) (x : Int) : Band :=
  match c.encoder with
  | 1 => { b with level := clampInt (-128) 127 (x / c.lambda) }
  | 2 => { b with ref := x }
  | _ => b

/-- One sample of a band's encoder: the new band and +1 for an up event, -1 for a down event, 0 for
none (R111, R112). -/
def Band.encode (b : Band) (c : BandCfg) (x : Int) : Band × Int :=
  match c.encoder with
  | 1 =>
    if (b.level + 1) * c.lambda ≤ x ∧ b.level < 127 then ({ b with level := b.level + 1 }, 1)
    else if x < b.level * c.lambda - c.hyst ∧ -128 < b.level then ({ b with level := b.level - 1 }, -1)
    else (b, 0)
  | 2 =>
    if c.lambda ≤ x - b.ref then ({ b with ref := b.ref + c.lambda }, 1)
    else if c.lambda ≤ b.ref - x then ({ b with ref := b.ref - c.lambda }, -1)
    else (b, 0)
  | _ => (b, 0)

/-- Move a band's background towards the envelope (R114); `g` is the warm-up gain. -/
def Band.bgUpdate (b : Band) (p : Profile) (g : Nat) (e : Int) : Band :=
  let d : Int := if b.bg ≤ e then (p.bgStep * p.bgPct * g : Nat) else -((p.bgStep * (100 - p.bgPct) * g : Nat) : Int)
  { b with bg := clampInt 0 32767 (b.bg + d) }

/-! ### BF8 (R63) and the block's marks (Table ADIT-12) -/

def bf8Mant (e : Nat) (x : Int) : Int := roundAway x (2 ^ (e - 15))

/-- The smallest exponent in 15 to 31 that keeps every mantissa in [-128, 127], else 31 (R63). -/
def bf8Exp (xs : List Int) : Nat :=
  (((List.range 17).map (fun i => i + 15)).find? (fun e =>
    xs.all (fun x => decide (-128 ≤ bf8Mant e x) && decide (bf8Mant e x ≤ 127)))).getD 31

/-- An 18-byte BF8 block of 16 samples, oldest first, with its sample marks (R61, R63). -/
def bf8Block (xs : List Int) (marks : Nat) : BitVec 144 :=
  let e := bf8Exp xs
  let m := xs.map (fun x => (clampInt (-128) 127 (bf8Mant e x) % 256).toNat)
  BitVec.ofNat 144 (leValue (m.map (BitVec.ofNat 8)) + (marks * 32 + e) * 2 ^ 128)

/-- Sample `i` of a BF8 block; an exponent below 15 decodes as 15 (R61, R62). -/
def bf8Sample (b : BitVec 144) (i : Nat) : Int :=
  let m := (b.extractLsb' (8 * i) 8).toInt
  let e := (b.extractLsb' 128 5).toNat
  m * (2 ^ ((if e < 15 then 15 else e) - 15) : Nat)

/-- The 11 mark bits of a block (Table ADIT-12), as bits [15:5] of the exponent word. -/
def blockMarks (c : Chain) : Nat :=
  (if c.blockFill then 1 else 0) + (if c.blockSettle then 2 else 0) + 4 * (c.blockSpos.getD 0) +
    (if c.blockGpos.isSome then 64 else 0) + 128 * (c.blockGpos.getD 0)

/-! ### One input sample -/

/-- Adit flag bits (Table ADIT-11). -/
def afSETTLE : Nat := 0
def afGAINCHG : Nat := 1
def afFILL : Nat := 2
def afCLIP : Nat := 3
def afBG_WARMUP : Nat := 4
def afNO_QUIET : Nat := 5
def afLATE : Nat := 6
def afSOURCE_LOSS : Nat := 7
def afTIME_SUSPECT : Nat := 8
def afMERGED : Nat := 9
def afCTX_MOVED : Nat := 10

/-- What one input sample did: Adit flag bits, input-neuron events in ascending band order, and the
history block it completed. -/
structure ChainOut where
  flags : Nat := 0
  events : List Nat := []
  block : Option Block := none
  deriving DecidableEq, Repr

/-- The state of a chain after a synchronising reset (R108): decimator and filterbank cleared, settling
begun; `warm` when it also begins a background warm-up (R117). The background and its state are kept. -/
def Chain.syncReset (c : Chain) (p : Profile) (warm : Bool) : Chain :=
  { dec := [], phase := 0, settle := decSettle p.decLog2 + p.settleFb, gainPend := false, gainLeft := 0,
    encInit := true, warmPend := c.warmPend || warm, warmLeft := c.warmLeft, noQuiet := c.noQuiet, quietRun := c.quietRun,
    age := c.age, bands := c.bands.map (fun b => { ({} : Band) with bg := b.bg }), last := c.last }

/-- The background update at the end of a history block (R114 to R117): the bands and the state that
follows. `es` are the bands' envelopes. -/
def Chain.bgStep (c : Chain) (p : Profile) (cfgs : List BandCfg) (es : List Int) : Chain :=
  let upd (g : Nat) : List Band := (c.bands.zip es).map (fun be => be.1.bgUpdate p g be.2)
  let active := ((c.bands.zip cfgs).zip es).countP (fun t => decide (t.1.1.bg + t.1.2.actMargin < t.2))
  let quiet := decide (active < p.kAct)
  if 0 < c.warmLeft then { c with bands := upd (2 ^ p.warmGain), warmLeft := c.warmLeft - 1 }
  else if c.noQuiet then
    let run := if quiet then c.quietRun + 1 else 0
    if p.quietClear ≤ run then { c with bands := upd 1, noQuiet := false, quietRun := 0, age := 0 }
    else { c with bands := upd 1, quietRun := run }
  else if quiet then { c with bands := upd 1, age := 0 }
  else if p.ageMax ≤ c.age + 1 then { c with age := c.age + 1, noQuiet := true, quietRun := 0 }
  else { c with age := c.age + 1 }

/-- Run the filterbank, encoders, history and background on one processing sample. -/
def Chain.process (c : Chain) (p : Profile) (cfgs : List BandCfg) (x : Int) (ts : Nat) : Chain × ChainOut :=
  let settling := 0 < c.settle
  let gainLeft := if c.gainPend then p.gainHold else c.gainLeft
  let gpos := if c.gainPend && 0 < p.gainHold then (match c.blockGpos with | some g => some g | none => some c.block.length) else c.blockGpos
  let held := 0 < gainLeft
  let bands0 := (List.range cfgs.length).map (fun i => c.bands.getD i {})
  let run := (bands0.zip cfgs).map (fun bc => bc.1.filter bc.2 x)
  let clip := run.any (fun r => r.2.2)
  let es := run.map (fun r => r.2.1)
  let begin_ := c.warmPend && !settling
  let bands1 := run.map (fun r => if begin_ then { r.1 with bg := r.2.1 } else r.1)
  let live := !settling && !held
  let enc := ((bands1.zip cfgs).zip es).map (fun t =>
    if !live then (t.1.1, (0 : Int))
    else if c.encInit then (t.1.1.encInit t.1.2 (t.2 - t.1.1.bg), 0)
    else t.1.1.encode t.1.2 (t.2 - t.1.1.bg))
  let evs := ((List.range enc.length).zip enc).filterMap (fun t =>
    if t.2.2 = 1 then some (2 * t.1) else if t.2.2 = -1 then some (2 * t.1 + 1) else none)
  let warmLeft := if begin_ then p.warmTime else c.warmLeft
  let flags := (if settling then 1 else 0) + (if held then 2 else 0) + (if c.fillPend then 4 else 0) + (if clip then 8 else 0) +
    (if 0 < warmLeft then 16 else 0) + (if c.noQuiet then 32 else 0)
  let spos := if !settling && c.blockSettle && c.blockSpos.isNone then some c.block.length else c.blockSpos
  let c1 : Chain := { c with
    bands := enc.map Prod.fst, settle := c.settle - 1, gainPend := false, gainLeft := gainLeft - 1,
    encInit := (!live && (held || c.encInit)), warmPend := c.warmPend && !begin_, warmLeft := warmLeft,
    fillPend := false, block := x :: c.block, blockTs := (if c.block.isEmpty then ts else c.blockTs), blockFill := c.blockFill || c.fillPend,
    blockSettle := c.blockSettle || settling, blockSpos := spos, blockGpos := gpos }
  if c1.block.length < 16 then (c1, { flags := flags, events := evs })
  else
    let blk : Block := ⟨c1.blockTs, bf8Block c1.block.reverse (blockMarks c1)⟩
    let due := (c1.blockNo + 1) % 2 ^ p.bgRate = 0 ∧ live
    let c2 := if due then c1.bgStep p cfgs es else c1
    ({ c2 with block := [], blockFill := false, blockSettle := false, blockSpos := none, blockGpos := none, blockNo := c1.blockNo + 1 },
     { flags := flags, events := evs, block := some blk })

/-- Take one input sample, already shifted and saturated to 24 bits, into the chain: the decimator gives
a processing sample for every 2^DEC_LOG2 inputs (R108). -/
def Chain.input (c : Chain) (p : Profile) (cfgs : List BandCfg) (x : Int) (held : Bool) (ts : Nat) : Chain × ChainOut :=
  let dec := (x :: c.dec).take (decSpan p.decLog2)
  let c1 := { c with dec := dec, fillPend := c.fillPend || held }
  if c.phase + 1 < 2 ^ p.decLog2 then ({ c1 with phase := c.phase + 1 }, { flags := if held then 4 else 0 })
  else ({ c1 with phase := 0 } : Chain).process p cfgs (Config.decimate p.decLog2 dec) ts

end Sys2Proof.Machine
end

