-- ==== Sys2Proof/Machine/Rings.lean ====
section
/-! DEFINITION.  Shared operations of the host rings: status lines, MSI-X, completion of descriptors,
writing of records and their backlogs, export output (13_host_rings R416 to R442). -/

namespace Sys2Proof.Machine

def ringDISABLED : Nat := 0
def ringINIT : Nat := 1
def ringACTIVE : Nat := 2
def ringSTOPPING : Nat := 3
def ringERROR : Nat := 4

def State.ringState (s : State) (r : Nat) : Nat := s.fld (F.HOST_RING_STATUS_STATE r)
def State.ringType (s : State) (r : Nat) : Nat := s.fld (F.HOST_RING_CFG_TYPE r)

/-- Slots of a ring (R418, Table HOST-19). -/
def State.ringSize (s : State) (r : Nat) : Nat := 2 ^ (6 + s.fld (F.HOST_RING_CFG_SIZE r))

/-- Host address of slot `i mod SIZE` (R418). -/
def State.slotAddr (s : State) (r i : Nat) : Nat := s.get64 (R.HOST_RING_BASE_LO r) + 64 * (i % s.ringSize r)

def State.devIndex (s : State) (r : Nat) : Nat := s.fld (F.HOST_RING_DEV_INDEX r)
def State.hostIndex (s : State) (r : Nat) : Nat := s.fld (F.HOST_RING_HOST_INDEX r)

/-- A ring index is a 32-bit count that wraps (R418). -/
def idxAdd (i n : Nat) : Nat := (i + n) % 2 ^ 32
/-- How far index `i` lies beyond `j`, modulo 2^32. -/
def idxSub (i j : Nat) : Nat := (i + 2 ^ 32 - j % 2 ^ 32) % 2 ^ 32

/-- May the part write host memory? Not after PCIE_PERST_N or a link-down (R431). -/
def State.linkUp (s : State) : Bool := s.bit F.HOST_STATUS_LINK_READY

/-- Submission-family ring types (Table HOST-3). -/
def isSubmission (t : Nat) : Bool := t < 4

/-- Write ring `r`'s status line (Table HOST-2). The page address ignores bits [11:0]. -/
def State.statusLine (s : State) (r : Nat) : State :=
  s.hostWrite (s.get64 R.HOST_SP_LO / 4096 * 4096 + 64 * r)
    (bytesLE 4 (s.devIndex r) ++ bytesLE 4 (s.ringState r))

/-- Send an MSI-X message on a vector; a masked vector sets its pending bit and sends nothing
(R416, R427). -/
def State.sendMsi (s : State) (v : Nat) : State :=
  if s.regBit (0x10800C + 16 * v) 0 then s.setRegBit (0x109000 + 4 * (v / 32)) (v % 32) true
  else { s with host := { s.host with msix := v :: s.host.msix } }

/-- `n` more completions or records are covered by DEV_INDEX: a message is sent once COUNT are (R427). -/
def State.covered (s : State) (r n : Nat) : State :=
  let q := s.ring r
  let c := q.irqCount + n
  let cnt := s.fld (F.HOST_RING_IRQ_COUNT r)
  if cnt = 0 then s
  else if cnt ≤ c then (s.setRing r { q with irqCount := 0 }).sendMsi (s.fld (F.HOST_RING_CFG_VECTOR r))
  else s.setRing r { q with irqCount := c, irqAt := if q.irqCount = 0 then s.now else q.irqAt }

/-- Advance DEV_INDEX by `n`: status line, then the message (R426). -/
def State.devAdvance (s : State) (r n : Nat) : State :=
  let s1 := s.setFld (F.HOST_RING_DEV_INDEX r) (idxAdd (s.devIndex r) n)
  (s1.statusLine r).covered r n

/-- How many completed indices follow on from DEV_INDEX (R422). -/
def runFrom (done : List Nat) : Nat → Nat → Nat
  | 0, _ => 0
  | fuel + 1, i => if done.contains i then runFrom done fuel (idxAdd i 1) + 1 else 0

/-- Completion statuses (Table HOST-5). -/
def stOK : Nat := 0x00
def stFLUSHED : Nat := 0x01
def stCANCELLED : Nat := 0x02
def stBAD_DESC : Nat := 0x03
def stDMA_ERR : Nat := 0x04
def stBAD_FORMAT : Nat := 0x05
def stDUPLICATE : Nat := 0x06
def stNO_SPACE : Nat := 0x07
def stREFUSED : Nat := 0x08
def stLIMIT : Nat := 0x09
def stNOT_READY : Nat := 0x0A
def stBUSY : Nat := 0x0B
def stAPPLIED : Nat := 0x0C
def stLEARN_OFF : Nat := 0x0D
def stEPOCH_CLOSED : Nat := 0x0E
def stNOT_HELD : Nat := 0x0F
def stENTRY_GONE : Nat := 0x10
def stPOOL_FULL : Nat := 0x11

/-- CFLAGS bits (Table HOST-4); DONE is always set. -/
def cfUNINIT : Nat := 2
def cfOVERRUN : Nat := 4
def cfINCOMPLETE : Nat := 8
def cfFIRST : Nat := 16
def cfLAST : Nat := 32

/-- Complete a descriptor: bytes 56 to 63 in one write, its index leaves the taken list, and DEV_INDEX
advances over every leading completed index (R422). With the ring DISABLED, or enabled anew since, nothing is
written and the completion is counted as discarded (R431). -/
def State.complete (s : State) (r idx status cflags aux result : Nat) : State :=
  let q := s.ring r
  let taken := q.taken.filter (fun e => e.1 != idx)
  if s.ringState r = ringDISABLED then
    (s.setRing r { q with taken := taken, begun := q.begun.filter (· != idx) }).bump (F.HOST_RING_FLUSHED_COUNT r) 1
  else if q.orphans.contains idx then
    (s.setRing r { q with orphans := dropFirst idx q.orphans }).bump (F.HOST_RING_FLUSHED_COUNT r) 1
  else
    let s1 := s.hostWrite (s.slotAddr r idx + 56)
      (bytesLE 1 status ++ bytesLE 1 (cflags ||| 1) ++ bytesLE 2 aux ++ bytesLE 4 result)
    let done := idx :: q.doneIdx
    let n := runFrom done (done.length) (s.devIndex r)
    let left := done.filter (fun i => !(idxSub i (s.devIndex r) < n))
    let s2 := s1.setRing r { q with taken := taken, begun := q.begun.filter (· != idx), doneIdx := left }
    let s3 := if n = 0 then s2 else s2.devAdvance r n
    let s4 := if status = stFLUSHED then s3.bump (F.HOST_RING_FLUSHED_COUNT r) 1
      else if status = stCANCELLED then s3.bump (F.HOST_RING_CANCELLED_COUNT r) 1 else s3
    if cflags.testBit 1 then s4.bump F.HOST_UNINIT_COUNT 1 else s4

/-- The descriptor taken at an index of a ring of the given type whose work has not begun. -/
def State.takenDesc (s : State) (r idx type : Nat) : Option Slot :=
  if s.ringType r = type && !(s.ring r).begun.contains idx then ((s.ring r).taken.find? (fun e => e.1 == idx)).map Prod.snd
  else none

/-- The work of a taken descriptor begins and completes later. -/
def State.beginDesc (s : State) (r idx : Nat) : State :=
  let q := s.ring r
  if q.begun.contains idx || !q.taken.any (fun e => e.1 == idx) then s else s.setRing r { q with begun := q.begun ++ [idx] }

/-- Count a failed host memory access of a descriptor's buffer (R432). -/
def State.dmaError (s : State) : State :=
  (s.bump F.HOST_DMA_ERR_COUNT 1).alarm F.HOST_ALARM_DMA_ERR 0

/-! ### Records -/

/-- A result record's 64 bytes without its PHASE (Table HOST-11); `ts` is when it is written. -/
def Result.slot (r : Result) (ts : Nat) : Slot :=
  slotOf [(0, 1, 1), (1, 1, r.kind + 4 * r.status + 16 * r.reason), (2, 2, r.stream), (4, 2, r.windows),
    (6, 1, r.candidates), (7, 1, r.responders), (8, 8, r.start), (16, 3, r.bestEntry), (19, 1, r.bestLib),
    (20, 2, r.bestDist), (22, 1, r.bestPrio), (24, 4, r.bestClass), (28, 3, r.secondEntry), (31, 1, r.secondLib),
    (32, 2, r.secondDist), (34, 2, r.errBound), (36, 2, r.dims), (38, 2, r.benchMiss), (40, 2, r.nobench),
    (42, 2, r.aditFlags), (44, 4, r.flags), (48, 3, r.archEntry), (51, 1, r.archLib), (56, 8, ts)]

/-- PHASE of record `i`: 1 on the first pass through the ring, then alternating (R425). -/
def phaseBit (size i : Nat) : Nat := 1 - i / size % 2

/-- Is there a free slot by the HOST_INDEX last read (R425)? -/
def State.ringRoom (s : State) (r : Nat) : Bool := idxSub (s.devIndex r) (s.hostIndex r) < s.ringSize r

/-- Write one record into a record ring's next slot (R425, R426). -/
def State.putRecord (s : State) (r : Nat) (rec_ : Slot) : State :=
  let i := s.devIndex r
  let w := rec_ ||| BitVec.ofNat 512 (128 * phaseBit (s.ringSize r) i)
  let s1 := s.hostWrite (s.slotAddr r i) (bytesLE 64 w.toNat)
  let s2 : State := { s1 with host := { s1.host with lastRecord := s.tick } }
  s2.devAdvance r 1

/-- Write a waiting record, completing the host query it answers with the record's index (R434). -/
def State.putRec (s : State) (r : Nat) : RingRec → State
  | .raw w => s.putRecord r w
  | .result w q =>
    let i := s.devIndex r
    let s1 := s.putRecord r (w.slot s.now)
    match q with
    | none => s1
    | some (qr, qi) => s1.complete qr qi stOK 0 0 i

/-- Records a ring's backlog holds (R438). -/
def backlogCap : Nat := 16384

/-- Can ring `r` take a result record now: an ACTIVE result ring with room and nothing waiting? -/
def State.resultRingOpen (s : State) (r : Nat) : Bool :=
  s.ringState r == ringACTIVE && s.ringType r == 4 && s.ringRoom r && (s.ring r).backlog.isEmpty && !s.fatal

def State.backlogFull (s : State) (r : Nat) : Bool := backlogCap ≤ (s.ring r).backlog.length

/-- HOST_ALARM.BACKLOG_FULL is set the first time any backlog fills (R438). -/
def State.noteBacklog (s : State) (r : Nat) : State :=
  if s.backlogFull r && !s.host.backlogFull then
    let s1 : State := { s with host := { s.host with backlogFull := true } }
    s1.alarm F.HOST_ALARM_BACKLOG_FULL r
  else s

/-- Send a record to ring `r`: written at once, or appended to the ring's backlog (R438). -/
def State.sendRecord (s : State) (r : Nat) (w : RingRec) : State :=
  if s.fatal then s
  else if s.resultRingOpen r then s.putRec r w
  else
    let q := s.ring r
    (s.setRing r { q with backlog := q.backlog ++ [w] }).noteBacklog r

/-- Does a waiting record belong to a window or recall of the stream? -/
def RingRec.ofStream (n : Nat) : RingRec → Bool
  | .raw _ => false
  | .result w _ => w.kind ≤ 1 && w.stream == n

/-- The ring named for a stream in HOST_STREAM_RING (Table HOST-19). -/
def State.mappedRing (s : State) (n : Nat) : Nat :=
  s.fld ⟨R.HOST_STREAM_RING (n / 4), 8 * (n % 4), 6⟩

/-- The result ring of a stream's next record: the old one while a record or run of the stream waits for
it, else the one HOST_STREAM_RING names (R439). -/
def State.streamRing (s : State) (n : Nat) : Nat :=
  let old := aget s.host.oldRing n
  if (s.ring old).backlog.any (RingRec.ofStream n) || s.host.runs.any (fun u => u.stream == n) then old
  else s.mappedRing n

/-- The SKIPPED record of a run (R438): at most 65,535 windows each. -/
def SkipRun.result (u : SkipRun) : Result :=
  { status := 1, reason := 1, stream := u.stream, windows := min u.count 65535, start := u.start, aditFlags := u.aditFlags }

/-- Write a window's record to its stream's ring. When the backlog is full the window becomes, or
extends, a SKIPPED run with reason SUMP_BUSY (R438). -/
def State.putWindow (s : State) (w : Result) : State :=
  if s.fatal then s
  else
    let n := w.stream
    let r := s.streamRing n
    let s0 : State := { s with host := { s.host with oldRing := aset s.host.oldRing n r } }
    match s.host.runs.find? (fun u => u.stream == n) with
    | some u =>
      let u' := { u with count := sat32 (u.count + w.windows), aditFlags := u.aditFlags ||| w.aditFlags }
      let s1 : State := { s0 with host := { s0.host with runs := s0.host.runs.map (fun v => if v.stream == n then u' else v) } }
      (s1.bump F.SUMP_BUSY_SKIPS_COUNT 1).alarm F.SUMP_ALARM_BUSY n
    | none =>
      if s0.resultRingOpen r || !s0.backlogFull r then s0.sendRecord r (.result w none)
      else
        let s1 : State := { s0 with host := { s0.host with runs := s0.host.runs ++ [⟨n, w.start, w.windows, w.aditFlags⟩] } }
        (s1.bump F.SUMP_BUSY_SKIPS_COUNT 1).alarm F.SUMP_ALARM_BUSY n

/-- Start ticks of the stream's windows that are due a record: in assembly, queued or admitted. -/
def State.windowsDue (s : State) (n : Nat) : List Nat :=
  ((s.asm.filter (fun a => a.stream == n && a.closeBy.isSome)).map (fun a => a.start)) ++
    (((s.sump.watchQ ++ s.sump.ordQ ++ s.sump.active).filter (fun r => decide (r.kind = .window) && r.stream == n)).map (fun r => r.start))

/-- Write the records of the stream that waited for the window started at `after`, as far as their turn has come. -/
def State.flushWindows (s : State) (n after : Nat) : Nat → State
  | 0 => s
  | fuel + 1 =>
    match (s.sump.outOfTurn.filter (fun w => w.stream == n)).foldl (fun (m : Option Result) w =>
        match m with | none => some w | some x => if w.start < x.start then some w else some x) none with
    | none => s
    | some w =>
      if (s.windowsDue n).any (fun t => after < t && t < w.start) then s
      else
        let s1 : State := { s with sump := { s.sump with outOfTurn := dropFirst w s.sump.outOfTurn } }
        (s1.putWindow w).flushWindows n (max after w.start) fuel

/-- Write a window's record in window order of its stream (R33): it waits while an earlier window is still due one. -/
def State.windowRecord (s : State) (w : Result) : State :=
  if s.fatal then s
  else if (s.windowsDue w.stream).any (fun t => t < w.start) then
    { s with sump := { s.sump with outOfTurn := s.sump.outOfTurn ++ [w] } }
  else (s.putWindow w).flushWindows w.stream w.start s.sump.outOfTurn.length

/-- Skip reasons (Table SUMP-9). -/
def skSUMP_BUSY : Nat := 1
def skSUMP_FAULT : Nat := 2
def skNO_BENCH : Nat := 3
def skABORTED : Nat := 4
def skFROZEN : Nat := 5
def skCORE_STOPPED : Nat := 6
def skSTREAM_RETIRED : Nat := 7
def skNO_QUERY : Nat := 8
def skSUMP_NOT_READY : Nat := 9

/-- Report one window SKIPPED (R33, R118, R325). -/
def State.skipWindow (s : State) (n reason start aditFlags : Nat) : State :=
  s.windowRecord { status := 1, reason := reason, stream := n, start := start, aditFlags := aditFlags }

/-! ### Export output (R436) -/

/-- The end of a request's output: its completion, or the record that stands for it; the end of an EXPORT closes the export. -/
def State.endExport (s : State) (q : ExportReq) (status result : Nat) : State :=
  let s1 : State := if q.learn then { s.setFld F.CHISEL_STATUS_EXPORT_OPEN 0 with chisel := { s.chisel with exportSt := none } } else s
  match q.record with
  | some (r, w) => s1.sendRecord r (.result w (some (q.ring, q.idx)))
  | none => s1.complete q.ring q.idx status q.cflags q.aux result

/-- Add a request's output to an export ring; a request without output ends at once. -/
def State.exportOut (s : State) (r : Nat) (q : ExportReq) : State :=
  let s1 := s.beginDesc q.ring q.idx
  if q.bytes.isEmpty then s1.endExport q q.status q.result
  else
    let g := s1.ring r
    s1.setRing r { g with exports := g.exports ++ [q] }

/-- Is `r` an ACTIVE export ring (R424)? -/
def State.isExportRing (s : State) (r : Nat) : Bool :=
  r < 64 && s.ringState r == ringACTIVE && s.ringType r == 3

end Sys2Proof.Machine
end

