-- ==== Sys2Proof/Machine/Flags.lean ====
section
/-! DEFINITION.  Flag words: FLINT_FLAGS of a core (Table FLINT-1), the LOSS, SAT and ZERO bits of a sliver (Table
GAL-4). -/

namespace Sys2Proof.Machine

/-- FLINT_FLAGS of a core. -/
def CoreSt.flags (c : CoreSt) : Word :=
  BitVec.ofNat 32 (bitsNat 7 (fun i => match i with
    | 0 => c.t2 | 1 => c.uninit | 2 => c.loss | 3 => c.tlsat | 4 => c.eccRetry | 5 => c.tickev | _ => c.tmrev))

/-- Clear the W1C bits of FLINT_FLAGS that are 1 in `w`; TLSAT is read-only (R167). -/
def CoreSt.clearFlags (c : CoreSt) (w : Word) : CoreSt :=
  { c with
    t2 := c.t2 && !w.getLsbD 0, uninit := c.uninit && !w.getLsbD 1, loss := c.loss && !w.getLsbD 2,
    eccRetry := c.eccRetry && !w.getLsbD 4, tickev := c.tickev && !w.getLsbD 5, tmrev := c.tmrev && !w.getLsbD 6 }

/-- Note that a T2 pair was read (R60). -/
def CoreSt.readT2 (c : CoreSt) (p : Sliver × Sliver) : CoreSt := { c with t2 := c.t2 || t2Bad p.1 p.2 }

/-- What VSIGN writes to its scalar register: POP, TLSAT at bit 9 and ZERO at bit 11 (Table FLINT-5). -/
def signWord (bits : Sliver) (sat zero : Bool) : Word :=
  BitVec.ofNat 32 (popc bits + (if sat then 512 else 0) + (if zero then 2048 else 0))

/-- Are all 256 counters zero? -/
def tallyZero (t : List (Nat × Int)) : Bool := (List.range 256).all (fun i => tallyGet t i == 0)

/-- Word 0 of a SLIVER message (Table GAL-4). -/
def sliverWord (stream j pop : Nat) (sat loss zero : Bool) : Word64 :=
  BitVec.ofNat 64 (stream + j * 2 ^ 16 + pop * 2 ^ 32 + (if sat then 2 ^ 41 else 0) + (if loss then 2 ^ 42 else 0) + (if zero then 2 ^ 43 else 0))

end Sys2Proof.Machine
end

