-- ==== Sys2Proof/Machine/CoreOps.lean ====
section
/-! DEFINITION.  Shared operations of Gallery: the mesh and logical addresses (R130 to R133), core groups, core state,
SRAM, message delivery (R142 to R147), traces, exceptions (R179, R180), memory errors (R182) and the issue of one
Flint instruction (R164 to R170). -/

namespace Sys2Proof.Machine

/-! ### The mesh (R130, R131) -/

def coreX (c : Nat) : Nat := c % 96
def coreY (c : Nat) : Nat := c / 96
/-- The core group of a position. -/
def groupAt (c : Nat) : Nat := coreY c / 11 * 8 + coreX c / 12
/-- The group position of a core, 0 to 131. -/
def groupPos (c : Nat) : Nat := 12 * (coreY c % 11) + coreX c % 12
/-- The core at group position `p` of group `g`. -/
def coreAt (g p : Nat) : Nat := (g / 8 * 11 + p / 12) * 96 + (g % 8 * 12 + p % 12)

/-- The logical address a core serves by default; positions 128 to 131 are spares. -/
def defaultLogical (c : Nat) : Option Nat := if groupPos c < 128 then some (128 * groupAt c + groupPos c) else none

def coreDefault (c : Nat) : CoreSt := { logical := defaultLogical c }
def State.core (s : State) (c : Nat) : CoreSt := tget coreDefault s.cores c
def State.setCore (s : State) (c : Nat) (v : CoreSt) : State := { s with cores := tset coreDefault s.cores c v }

def groupDefault (_ : Nat) : GroupSt := {}
def State.grp (s : State) (g : Nat) : GroupSt := tget groupDefault s.groups g
def State.setGrp (s : State) (g : Nat) (v : GroupSt) : State := { s with groups := tset groupDefault s.groups g v }

def netDefault (_ : Nat) : Net := {}
def State.net (s : State) (n : Nat) : Net := tget netDefault s.nets n
def State.setNet (s : State) (n : Nat) (v : Net) : State := { s with nets := tset netDefault s.nets n v }

/-- The cores of a core group's area, 132 positions. -/
def groupCoresAt (g : Nat) : List Nat := (List.range 132).map (coreAt g)

/-! ### Dimensions and sliver groups (R53, R131) -/

/-- D of the device (R53, Table GAL-14). -/
def State.dim (s : State) : Nat := 4096 * 2 ^ s.fld F.GAL_CFG_DSEL
/-- Cores of a sliver group, D/256. -/
def State.groupCores (s : State) : Nat := s.dim / 256
/-- Tiles of a bench, D/1,024. -/
def State.benchTiles (s : State) : Nat := s.dim / 1024

/-- The sliver group of a stream, its home core's logical address and its core group (R131, R152). -/
def State.sgroup (s : State) (n : Nat) : Nat := s.fld (F.GAL_STREAM_MAP_SGROUP n)
def State.homeLogical (s : State) (n : Nat) : Nat := s.sgroup n * s.groupCores + s.fld (F.GAL_STREAM_MAP_HOME n)
def State.coreGroup (s : State) (n : Nat) : Nat := s.sgroup n * s.groupCores / 128

/-- Position of entry `e` of the substitution table (R132). -/
def State.substCore (s : State) (k : Nat) : Nat := s.fld (F.GAL_SUBST_Y k) * 96 + s.fld (F.GAL_SUBST_X k)

/-- The valid substitution entries, last first. -/
def State.substEntries (s : State) : List Nat :=
  ((List.range 256).filter (fun k => s.bit (F.GAL_SUBST_VALID k))).reverse

/-- The physical core that serves a logical address (R132): the entry's position, else the default position. -/
def State.physOf (s : State) (l : Nat) : Nat :=
  match s.substEntries.find? (fun k => s.fld (F.GAL_SUBST_LOGICAL k) == l) with
  | some k => s.substCore k
  | none => coreAt (l / 128) (l % 128)

def State.homeCore (s : State) (n : Nat) : Nat := s.physOf (s.homeLogical n)

/-! ### Core groups (Table GAL-8) -/

def gsTEST : Nat := 0
def gsFAILED : Nat := 1
def gsIDLE : Nat := 2
def gsLOADING : Nat := 3
def gsRUNNING : Nat := 4
def gsSTOPPING : Nat := 5
def gsFROZEN : Nat := 6

def State.groupState (s : State) (g : Nat) : Nat := s.fld (F.GAL_GROUP_STATUS_STATE g)

/-- Change a group's state; its ready indication is 1 in IDLE, LOADING, RUNNING, STOPPING and FROZEN (R151). -/
def State.setGroupState (s : State) (g st : Nat) : State :=
  (s.setFld (F.GAL_GROUP_STATUS_STATE g) st).setRegBit (if g < 32 then R.GAL_GROUP_READY_LO else R.GAL_GROUP_READY_HI) (g % 32) (2 ≤ st && st ≤ 6)

/-- The core group a core works for: that of its logical address. -/
def State.coreWorksFor (s : State) (c : Nat) : Nat :=
  match (s.core c).logical with
  | some l => l / 128
  | none => groupAt c

/-- Is a core executing its program: started, in service, not finished or stopped, and its group neither frozen nor
halted, for its own sake or for a power state (R146, R151, R479)? -/
def State.coreRuns (s : State) (c : Nat) : Bool :=
  let k := s.core c
  let g := s.coreWorksFor c
  let st := s.groupState g
  k.started && !k.fenced && !k.inReset && !k.finished && !k.faulted && !s.fatal && !s.power.quiet &&
    (st == gsRUNNING || st == gsSTOPPING || (st == gsIDLE && (s.grp g).halting))

/-- Does the router deliver class 0 messages to the core's program rather than sink them (Table GAL-5)? -/
def State.coreTakes (s : State) (c : Nat) : Bool :=
  let st := s.groupState (s.coreWorksFor c)
  s.coreRuns c && (st == gsRUNNING || st == gsSTOPPING)

/-- Is the sliver a logical core carries missing: its core is fenced, finished, stopped or not yet started while its
group runs (R156, R181, R182)? -/
def State.sliverMissing (s : State) (l : Nat) : Bool :=
  let k := s.core (s.physOf l)
  k.fenced || k.finished || k.faulted || k.startPend || k.restartPend || k.logical != some l

/-- The logical cores of sliver group `k` (R131). -/
def State.sgroupLogical (s : State) (k : Nat) : List Nat := (List.range s.groupCores).map (fun j => k * s.groupCores + j)

/-- The sliver indices of a sliver group whose slivers are missing. -/
def State.missingSlivers (s : State) (k : Nat) : List Nat :=
  (List.range s.groupCores).filter (fun j => s.sliverMissing (k * s.groupCores + j))

/-- The streams with VALID set in their map word, as stream numbers. -/
def State.validStreams (s : State) : List Nat :=
  ((s.listed 0x500000 0x540000).filter (fun a => a % 4 == 0 && s.regBit a 31)).map (fun a => (a - 0x500000) / 4)

/-! ### Core time (R164, R170) -/

/-- The device's core clock: 8 cycles of 1.25 ns to a timestamp unit. -/
def State.cycleNow (s : State) : Nat := 8 * s.now

/-- The cycle at which a core issues next: the clock's, or later while its issue stage is held. -/
def State.coreCycle (s : State) (c : Nat) : Nat := max s.cycleNow (s.core c).busy

/-! ### SRAM (R147, R165) -/

def sramSize : Nat := 131072

/-- Bytes `[a, a + n)` of a core's SRAM. -/
def CoreSt.bytes (k : CoreSt) (a n : Nat) : List Byte := (List.range n).map (fun i => tget (fun _ => 0#8) k.sram (a + i))

/-- The 64-bit words that `[a, a + n)` touches. -/
def wordsOf (a n : Nat) : List Nat := if n = 0 then [] else (List.range ((a + n - 1) / 8 + 1 - a / 8)).map (fun i => a / 8 + i)

def CoreSt.isWritten (k : CoreSt) (w : Nat) : Bool := tget (fun _ => false) k.written w

/-- How many unwritten words a read of `[a, a + n)` meets. -/
def CoreSt.unwritten (k : CoreSt) (a n : Nat) : Nat := (wordsOf a n).countP (fun w => !k.isWritten w)

/-- Store bytes: the words they lie in are marked written (R147). -/
def CoreSt.store (k : CoreSt) (a : Nat) (bs : List Byte) : CoreSt :=
  { k with
    sram := (List.range bs.length).foldl (fun m i => tset (fun _ => 0#8) m (a + i) (bs.getD i 0)) k.sram
    written := (wordsOf a bs.length).foldl (fun m w => tset (fun _ => false) m w true) k.written }

/-- The overflow area (R165): its base and its length in bytes. -/
def CoreSt.ovfArea (k : CoreSt) : Nat × Nat := (k.ovfBase / 8 * 8, 72 * k.ovfSize)

/-- May a program touch the byte at `a` (R165)? -/
def CoreSt.byteOk (k : CoreSt) (a : Nat) : Bool :=
  a < sramSize && !(0 < k.ovfSize && k.ovfArea.1 ≤ a && a < k.ovfArea.1 + k.ovfArea.2)

/-- The first byte of `[a, a + n)` that a program may not touch. -/
def CoreSt.badByte (k : CoreSt) (a n : Nat) : Option Nat := ((List.range n).map (a + ·)).find? (fun b => !k.byteOk b)

/-- A read of unwritten words sets UNINIT, is counted and sets GAL_ALARM.UNINIT_READ (R147). -/
def State.noteUninit (s : State) (c count : Nat) : State :=
  if count = 0 then s
  else
    let k := s.core c
    (s.setCore c { k with uninit := true, uninitCount := sat32 (k.uninitCount + count) }).alarm F.GAL_ALARM_UNINIT_READ (k.logical.getD 0x1FFF)

/-- A core reset (R147): SRAM scrubbed and unwritten, and every register of the core at its reset value; its counters,
address and fences stay. -/
def CoreSt.resetCore (k : CoreSt) (cycle : Nat) (inReset : Bool) : CoreSt :=
  { logical := k.logical, fenced := k.fenced, inReset := inReset, cycleBase := cycle, busy := cycle, tickCycle := cycle,
    sent := k.sent, recvd := k.recvd, sunk := k.sunk, drop := k.drop, ejwait := k.ejwait, ovfPeak := k.ovfPeak,
    uninitCount := k.uninitCount, codErr := k.codErr, eccCorr := k.eccCorr, eccUncorr := k.eccUncorr }

/-! ### Messages (R134 to R147) -/

def tagADIT_SPIKES : Nat := 0xF00
def tagADIT_CLOSE : Nat := 0xF01
def tagSLIVER : Nat := 0xF10
def tagEPOCH : Nat := 0xF80
def tagGMBX : Nat := 0xFC0
def tagSYNAPSE : Nat := 0xEF0
def tagHS_DONE : Nat := 0xEF1

/-- The header flit (Table GAL-3), CLASS 0. -/
def msgHeader (m : Msg) : Word64 :=
  m.tick ++ (m.tag ++ (BitVec.ofNat 4 m.payload.length ++ (m.src ++ (m.dest ++ 0#4))))

/-- The flits of a message. -/
def msgFlits (m : Msg) : List Word64 := msgHeader m :: m.payload

def flitBytes (l : List Word64) : List Byte := l.flatMap (fun w => bytesLE 8 w.toNat)

/-- A payload flit, zero beyond the end. -/
def msgWord (m : Msg) (i : Nat) : Word64 := m.payload.getD i 0

/-- Endpoints of Table GAL-2 by DEST. -/
inductive Endpoint where
  | core (l : Nat)
  | sump (x : Nat)
  | adit
  | lantern (x : Nat)
  | chisel (x : Nat)
  | grotto (x : Nat)
  | unassigned
  deriving DecidableEq, Repr

def endpoint (d : Nat) : Endpoint :=
  if d < 0x2000 then .core d
  else if d < 0x2060 then .sump (d - 0x2000)
  else if (0x2400 ≤ d && d < 0x2458) || (0x2480 ≤ d && d < 0x24D8) then .adit
  else if 0x2800 ≤ d && d < 0x2860 then .lantern (d - 0x2800)
  else if 0x2C00 ≤ d && d < 0x2C60 then .chisel (d - 0x2C00)
  else if 0x3000 ≤ d && d < 0x3060 then .grotto (d - 0x3000)
  else .unassigned

/-- Put a class 0 message on the fabric. One to an Adit endpoint or an unassigned endpoint is dropped at the edge and
counted (R133). -/
def State.inject (s : State) (m : Msg) : State :=
  match endpoint m.dest.toNat with
  | .adit => s.bump F.GAL_EDGE_BADDEST_COUNT 1
  | .unassigned => s.bump F.GAL_EDGE_BADDEST_COUNT 1
  | _ => { s with fabric := s.fabric ++ [m] }

/-- Is `m` the oldest message of its sender to its receiver on the fabric (R139)? -/
def State.oldest (s : State) (m : Msg) : Bool :=
  s.fabric.find? (fun x => x.src == m.src && x.dest == m.dest) == some m

def State.unlist (s : State) (m : Msg) : State := { s with fabric := dropFirst m s.fabric }

/-- Messages the inbox holds (R142). -/
def inboxCap : Nat := 16

def CoreSt.inboxUse (k : CoreSt) : Nat := k.held.countP (fun e => !e.1)
def CoreSt.ovfUse (k : CoreSt) : Nat := k.held.countP (fun e => e.1)

/-- Is there a place for another message (R142)? -/
def CoreSt.hasPlace (k : CoreSt) : Bool := k.inboxUse < inboxCap || k.ovfUse < k.ovfSize

/-- Place a message in the inbox, else in the next slot of the overflow area (R142); the router writes the slot's words
with fresh check bits (R183). -/
def CoreSt.place (k : CoreSt) (m : Msg) : CoreSt :=
  if k.inboxUse < inboxCap then { k with held := k.held ++ [(false, m)] }
  else
    let k1 := k.store (k.ovfArea.1 + 72 * k.ovfNext) (flitBytes (msgFlits m))
    { k1 with
      held := k.held ++ [(true, m)], ovfNext := (k.ovfNext + 1) % k.ovfSize,
      ovfPeak := max k.ovfPeak (k.ovfUse + 1) }

/-- Eject waiting messages of the core port while there is a place (R142). -/
def CoreSt.drain (k : CoreSt) : List (Nat × Msg) → CoreSt
  | [] => { k with portQ := [] }
  | (t, m) :: r => if k.hasPlace then (k.place m).drain r else { k with portQ := (t, m) :: r }

/-- A message reaches the core's router: placed, left waiting in the core port (R142), or sunk (R146). -/
def State.arrive (s : State) (c : Nat) (m : Msg) : State :=
  let k := s.core c
  if !s.coreTakes c then
    (s.setCore c { k with sunk := sat32 (k.sunk + 1) }).bump64 R.GAL_TOTAL_SUNK_LO 1
  else if k.portQ.isEmpty && k.hasPlace then s.setCore c (k.place m)
  else s.setCore c { k with portQ := k.portQ ++ [(s.now, m)], ejwait := sat32 (k.ejwait + 1) }

/-! ### Messages from Adit (R133, R138, Table GAL-4) -/

/-- The Adit port that serves a core: west of its row when x < 48, else east. -/
def aditPortOf (c : Nat) : Nat := (if coreX c < 48 then 0x2400 else 0x2480) + coreY c

def State.aditMsg (s : State) (n tick tag : Nat) (payload : List Word64) : Msg :=
  { tick := BitVec.ofNat 16 tick, tag := BitVec.ofNat 12 tag, src := BitVec.ofNat 14 (aditPortOf (s.homeCore n)),
    dest := BitVec.ofNat 14 (s.homeLogical n), payload := payload }

/-- Send the spikes of one tick to the stream's home core, at most 7 items to a message (Table GAL-4). -/
def State.aditSpikesOut (s : State) (n t : Nat) (neurons : List Nat) : State :=
  let items := (spikeItems (neurons.map (fun k => (0, k)))).map itemWord
  (chunks 7 items.length items).foldl (fun a c =>
    a.inject (a.aditMsg n t tagADIT_SPIKES (BitVec.ofNat 64 (n + t % 2 ^ 48 * 65536) :: c))) s

/-- Send the CLOSE of a window to the stream's home core (Table GAL-4). -/
def State.aditCloseOut (s : State) (n start flags : Nat) : State :=
  s.inject (s.aditMsg n s.tick tagADIT_CLOSE [BitVec.ofNat 64 (n + flags % 65536 * 65536), BitVec.ofNat 64 start])

/-! ### Trace words (R177, R501, R502) -/

/-- SRC of Lantern's own words (R440). -/
def traceLantern : Nat := 0x1FFF

/-- Words the log collector holds, and how many of them are kept for Lantern's words (R501). -/
def traceCap : Nat := 8192
def traceReserve : Nat := 512

/-- Add the counts of two merged words, saturating at 65,535 (R502). -/
def mergeTrace (a b : Word) : Word :=
  BitVec.ofNat 32 ((a.toNat % 65536) + min 65535 (a.toNat / 65536 + b.toNat / 65536) * 65536)

/-- A trace word reaches the collector (R501, R502): merged with an earlier word of its code and stream when the
collector is 75 % full, dropped when it finds no room, else kept in order of arrival. -/
def State.traceArrive (s : State) (src tick code : Nat) (value : Word) : State :=
  let same := fun e : Nat × Nat × Nat × Word => e.2.2.1 == code && e.2.2.2.setWidth 16 == value.setWidth 16
  let own := s.traceLog.countP (fun e => e.1 == traceLantern)
  let room := if src = traceLantern then
      decide (s.traceLog.length < traceCap) else decide (s.traceLog.length - own < traceCap - traceReserve && s.traceLog.length < traceCap)
  if traceCap * 3 / 4 ≤ s.traceLog.length && 0xE10 ≤ code && code ≤ 0xE15 && s.traceLog.any same then
    let rec go : List (Nat × Nat × Nat × Word) → List (Nat × Nat × Nat × Word)
      | [] => []
      | e :: r => if same e then (e.1, e.2.1, e.2.2.1, mergeTrace e.2.2.2 value) :: r else e :: go r
    { s with traceLog := go s.traceLog }
  else if !((List.range 64).any (fun r => s.fld (F.HOST_RING_STATUS_STATE r) == 2 && s.fld (F.HOST_RING_CFG_TYPE r) == 5)) then
    -- no ACTIVE log and trace ring: dropped at the collector, without an alarm
    let s1 := s.bump F.POWER_LOG_DROP_COUNT 1
    { s1 with logDropped := min 65535 (s1.logDropped + 1) }
  else if room then { s with traceLog := s.traceLog ++ [(src, tick, code, value)] }
  else
    let s1 := ((s.bump F.POWER_LOG_DROP_COUNT 1).alarm F.POWER_ALARM_LOG_DROP src)
    { s1 with logDropped := min 65535 (s1.logDropped + 1) }

/-- Queue a trace word on a core; a full queue drops it (R177). -/
def CoreSt.trace (k : CoreSt) (code : Nat) (value : Word) : CoreSt :=
  if 4 ≤ k.traceQ.length then { k with traceDrop := sat32 (k.traceDrop + 1) }
  else { k with traceQ := k.traceQ ++ [(k.tick, code, value)] }

/-- A core's queued trace words leave on its column's trace chain (R501). -/
def State.traceLeave (s : State) (c : Nat) : State :=
  let k := s.core c
  k.traceQ.foldl (fun a e => a.traceArrive (k.logical.getD traceLantern) e.1 e.2.1 e.2.2) (s.setCore c { k with traceQ := [] })

/-! ### Streams of a failing core (R157, R181, R182) -/

/-- The mapped streams whose home is a logical core. -/
def State.homeStreams (s : State) (l : Nat) : List Nat := s.validStreams.filter (fun n => s.homeLogical n == l)

/-- The streams of the sliver group of a logical core. -/
def State.sliverStreams (s : State) (l : Nat) : List Nat := s.validStreams.filter (fun n => s.sgroup n == l / s.groupCores)

/-- Every window of the streams of a core's sliver group now in progress carries GAP (R156). -/
def State.gapStreams (s : State) (l : Nat) : State :=
  (s.sliverStreams l).foldl (fun a n => a.setStream n { a.stream n with gapNow := true }) s

/-! ### Exceptions and memory errors (R179 to R183) -/

def excILLEGAL : Nat := 1
def excMISALIGN : Nat := 2
def excADDR : Nat := 3
def excILLSEND : Nat := 4
def excUNINIT_FETCH : Nat := 5
def excBARTIMEOUT : Nat := 6

/-- FLINT_CAUSE of a core. -/
def CoreSt.causeWord (k : CoreSt) : Word := BitVec.ofNat 32 (k.cause + (if k.inHandler then 2 ^ 31 else 0))

/-- The program stops (R180): the core enters the finished state with its memory and registers kept, and Lantern writes
the PROGRAM_STOP alarm record. -/
def State.programStop (s : State) (c : Nat) : State :=
  let k := s.core c
  let l := k.logical.getD 0x1FFF
  let s1 := (s.setCore c { k with finished := true, wait := .none }).gapStreams l
  (s1.setRegBit R.POWER_SUMMARY 3 true).queueAlarm 0x0340 3 0
    [(16, 2, l), (20, 4, k.epc.toNat), (24, 4, k.causeWord.toNat), (28, 4, k.badaddr.toNat)]

/-- Taking an exception (R179, R180): the saved pc, the cause, the address, IN_HANDLER, and on to FLINT_EXC_VEC after 3
cycles. In a handler, or with no handler, the program stops. -/
def State.raise (s : State) (c cause : Nat) (addr : Word) : State :=
  let k := s.core c
  let k1 := { k with
    epc := k.pc, cause := cause, badaddr := addr, inHandler := true, pc := k.excVec &&& 0xFFFFFFFC#32,
    wait := .none, haz := [], hazWait := 0, busy := s.coreCycle c + 3 }
  if k.inHandler || k.excVec == 0 then (s.setCore c { k1 with pc := k.pc }).programStop c
  else s.setCore c k1

/-- Count the unused spares of a group and of the device, and the fenced cores of a group (Tables GAL-14, GAL-16). -/
def State.countSpare (s : State) (g : Nat) : State :=
  (s.setFld (F.GAL_GROUP_STATUS_SPARES g) (s.fld (F.GAL_GROUP_STATUS_SPARES g) - 1)).setFld F.GAL_STATUS_SPARES (s.fld F.GAL_STATUS_SPARES - 1)

/-- Is the core an unused spare: at a spare position, serving no address and not fenced (R130, R154)? -/
def CoreSt.unusedSpare (k : CoreSt) : Bool := k.logical.isNone && !k.fenced

/-- A core is fenced (R154): its router sinks, it never runs again, and its sliver is missing from now (R156). -/
def State.fence (s : State) (c : Nat) : State :=
  let k := s.core c
  if k.fenced then s
  else
    let s1 := if k.unusedSpare then s.countSpare (groupAt c) else s
    let s2 := s1.setCore c { k with fenced := true, wait := .none, startPend := false, restartPend := false }
    let s3 := s2.bump (F.GAL_GROUP_STATUS_FENCED (groupAt c)) 1
    ((match k.logical with | some l => s3.gapStreams l | none => s3)).alarm F.GAL_ALARM_CORE_FENCED (k.logical.getD 0x1FFF)

/-- The core stops at once on an uncorrectable error that no re-read cleared (R182): a fault of the core under R496,
transient or permanent. -/
def State.coreFault (s : State) (c : Nat) : State :=
  let (perm, s1) := s.recordFault (.core c) false
  let k := s1.core c
  let s2 := s1.setCore c { k with faulted := true, wait := .none, eccUncorr := min 65535 (k.eccUncorr + 1) }
  let l := k.logical.getD 0x1FFF
  if perm then s2.fence c else s2.gapStreams l

/-- What a pipeline read of SRAM finds (R148, R182): the core after it and the cycles its re-reads took; none when no
re-read is clean. -/
def CoreSt.eccRead (k : CoreSt) : Ecc → Option (CoreSt × Nat)
  | .ok => some (k, 0)
  | .corrected => some ({ k with eccCorr := min 65535 (k.eccCorr + 1) }, 0)
  | .retried n => some ({ k with eccUncorr := min 65535 (k.eccUncorr + 1), eccRetry := true }, 4 * min n 3)
  | .failed => none

/-! ### Issue (R164 to R170) -/

/-- What an instruction does that completes: the core after it, the SRAM range its data access read, where the pc goes
when not to the next word, the cycles it holds the issue stage, the registers a next instruction must wait for, and
its effect beyond the core. -/
structure Done where
  core : CoreSt
  read : Option (Nat × Nat) := none
  target : Option Word := none
  cycles : Nat := 1
  haz : List Nat := []
  hazWait : Nat := 0
  /-- the instruction leaves the core waiting: the pc stays until the wait ends -/
  hold : Bool := false
  /-- the range is read only to be rewritten: no unwritten word is counted -/
  rewrite : Bool := false
  post : State → State := id

/-- What an instruction does: raise an exception with its cause and address, stall at issue, or complete. -/
inductive Act where
  | exc (cause : Nat) (addr : Word)
  | stall
  | done (d : Done)

/-- Interlock cycles of an instruction that reads registers `reads` (R170). -/
def CoreSt.interlock (k : CoreSt) (reads : List Nat) : Nat := if reads.any k.haz.contains then k.hazWait else 0

/-- Can the core issue an instruction: its program runs and it is in no wait? -/
def State.canIssue (s : State) (c : Nat) : Bool := s.coreRuns c && decide ((s.core c).wait = .none)

/-- Commit a completed instruction at cycle `t` (its issue, with interlock and re-reads). -/
def State.commit (s : State) (c t : Nat) (d : Done) : State :=
  let k := d.core
  d.post (s.setCore c { k with
    pc := if d.hold then k.pc else d.target.getD (k.pc + 4), busy := t + d.cycles, haz := d.haz, hazWait := d.hazWait })

/-- Issue one instruction on a core: fetch checks (R165, R166), memory errors first (R183), then the instruction's own
exception or effect. -/
def State.issue (s : State) (i : Issue) (reads : List Nat) (act : CoreSt → Act) : State :=
  let c := i.core.val
  let k := s.core c
  if !s.canIssue c then s
  else if !(k.byteOk k.pc.toNat && k.byteOk (k.pc.toNat + 3)) then s.raise c excADDR k.pc
  else match k.eccRead i.fetch with
  | none => s.coreFault c
  | some (k1, w1) =>
    let s1 := s.setCore c k1
    if k.unwritten k.pc.toNat 4 ≠ 0 then (s1.noteUninit c 1).raise c excUNINIT_FETCH k.pc
    else
      let t := s.coreCycle c + k.interlock reads + w1
      match act k1 with
      | .exc cause addr => s1.raise c cause addr
      | .stall => s
      | .done d =>
        match d.read with
        | none => s1.commit c t d
        | some (a, n) =>
          match d.core.eccRead i.data with
          | none => s1.coreFault c
          | some (k2, w2) => (s1.commit c (t + w2) { d with core := k2 }).noteUninit c (if d.rewrite then 0 else k1.unwritten a n)

/-- Scalar and sliver registers (R164): s0 reads zero and ignores writes. -/
def CoreSt.s (k : CoreSt) (r : SReg) : Word := if r = 0 then 0 else tget (fun _ => 0#32) k.sregs r.toNat
def CoreSt.setS (k : CoreSt) (r : SReg) (v : Word) : CoreSt :=
  if r = 0 then k else { k with sregs := tset (fun _ => 0#32) k.sregs r.toNat v }
def CoreSt.v (k : CoreSt) (r : VReg) : Sliver := tget (fun _ => 0#256) k.vregs r.toNat
def CoreSt.setV (k : CoreSt) (r : VReg) (x : Sliver) : CoreSt := { k with vregs := tset (fun _ => 0#256) k.vregs r.toNat x }

/-- A T2 pair named by its even register: planes M and S (R164). -/
def CoreSt.pair (k : CoreSt) (r : VReg) : Sliver × Sliver := (k.v r, k.v (r + 1))
def CoreSt.setPair (k : CoreSt) (r : VReg) (p : Sliver × Sliver) : CoreSt := (k.setV r p.1).setV (r + 1) p.2

/-- Hazard names of registers; s0 holds no result. -/
def hazS (r : SReg) : List Nat := if r = 0 then [] else [r.toNat]
def hazV (r : VReg) : List Nat := [32 + r.toNat]

end Sys2Proof.Machine
end

