-- ==== Sys2Proof/Machine/SnnOps.lean ====
section
/-! DEFINITION.  The spiking networks (06_spiking_execution R189 to R216, R548) and their learning state (12_chisel_learning
R394, R395): one tick of a stream, the spike record, and what a home core does with the messages it takes. -/

namespace Sys2Proof.Machine

/-! ### Neurons -/

/-- leak(x, λ) of R194. -/
def leak (x : Int) (l : Nat) : Int := x - x.sign * (min x.natAbs (x.natAbs / 2 ^ l + 1) : Nat)

/-- A parameter set that no image defines. -/
def psetNone : PSet := ⟨false, 0, 0, 0, 1, 0, 0, 0, 0, 0⟩

def netPset (d : NetDef) (i : Nat) : PSet := d.psets.getD i psetNone

/-- One tick of a population neuron with input `inp` (R193): the neuron after it, and whether it spikes. -/
def Neuron.step (k : Neuron) (p : PSet) (inp : Int) : Neuron × Bool :=
  let x := sat16 inp
  let a := if p.alif then leak k.a p.leakA.toNat else 0
  let tr := leak k.tr p.leakT.toNat
  if 0 < k.ref then ({ k with a := a, tr := tr, ref := k.ref - 1 }, false)
  else
    let v := max (sat16 (leak k.v p.leakV.toNat + x)) p.vMin.toInt
    if sat16 (p.theta.toInt + a) ≤ v then
      ({ k with v := p.vReset.toInt, ref := p.tRef.toNat,
                a := (if p.alif then sat16 (a + p.aInc.toInt) else 0), tr := sat16 (tr + p.tInc.toInt) }, true)
    else ({ k with a := a, tr := tr, v := v }, false)

/-- One tick of an input neuron's trace (R193). -/
def traceStep (p : PSet) (tr : Int) (spiked : Bool) : Int :=
  let t := leak tr p.leakT.toNat
  if spiked then sat16 (t + p.tInc.toInt) else t

/-! ### Learning of one row (R394) -/

/-- LTP and LTD of R394. -/
def ltp (e : EpochCfg) (dt : Nat) : Int := (e.aPlus / 2 ^ (dt / 2 ^ e.tp) : Nat)
def ltd (e : EpochCfg) (dn : Nat) : Int := (e.aMinus / 2 ^ ((dn - 1) / 2 ^ e.tm) : Nat)

/-- The pairings of one plastic synapse when its row spikes at τ (R394). -/
def SynSt.pair (y : SynSt) (e : EpochCfg) (delayEn : Bool) (lp lq : Option Nat) (tau dArr : Nat) : SynSt :=
  let y1 := match lp, lq with
    | some l, some q =>
      let dt : Int := (q : Int) - (l + dArr)
      if 0 ≤ dt ∧ dt ≤ 31 then
        { y with e := sat8 (y.e + ltp e dt.toNat), v := if delayEn then sat8 (y.v + (dt - e.dTgt).sign) else y.v }
      else y
    | _, _ => y
  match lq with
  | some q =>
    let dn : Int := (tau + dArr : Nat) - (q : Int)
    if 1 ≤ dn ∧ dn ≤ 31 then { y1 with e := sat8 (y1.e - ltd e dn.toNat) } else y1
  | none => y1

/-- Apply the rule to every plastic synapse of a row; `pop` tells a population row, whose arrival is one tick later. -/
def learnRow (row : List SynSt) (e : EpochCfg) (delayEn pop : Bool) (lp : Option Nat) (lq : List (Nat × Option Nat)) (tau : Nat) : List SynSt :=
  row.map (fun y => if y.plastic then
    y.pair e delayEn lp (tget (fun _ => none) lq y.post) tau (y.delay + (if pop then 1 else 0)) else y)

/-- One plastic synapse at the epoch handshake (R395). -/
def SynSt.handshake (y : SynSt) (e : EpochCfg) (delayEn : Bool) : SynSt :=
  if !y.plastic then y
  else
    { y with
      weight := sat8 (y.weight + y.e.sign * (y.e.natAbs / 2 ^ e.eta : Nat)),
      delay := (if !delayEn then y.delay else if (e.dv : Int) ≤ y.v then min (y.delay + 1) 63
        else if y.v ≤ -(e.dv : Int) then y.delay - 1 else y.delay),
      e := 0, v := 0 }

/-! ### Rows, wheel and causes -/

def synOf (y : Synapse) : SynSt := ⟨y.weight.toInt, y.delay.toNat, y.plastic, y.post.toNat, 0, 0⟩

/-- A network instance from rest, as the image gives it (R214). -/
def netFresh (d : NetDef) (first : Option Nat) : Net :=
  { net := some d, neurons := d.neurons.map (fun p => { pset := p.toNat }), traces := List.replicate d.inputs.toNat 0,
    rows := d.rows.map (fun r => r.map synOf), first := first, next := first }

/-- Note a loss cause (Table SNN-6); all but 0xE15 set the network loss flag (R203). -/
def Net.cause (k : Net) (code n : Nat) : Net :=
  if n = 0 then k
  else { k with causes := aset k.causes code (sat32 (aget k.causes code + n)), winCauses := aset k.winCauses code (aget k.winCauses code + n),
                lossFlag := k.lossFlag || code != 0xE15 }

/-- Add to a neuron's input. -/
def addI (acc : List (Nat × Int)) (j : Nat) (c : Int) : List (Nat × Int) := tset (fun _ => 0) acc j (tget (fun _ => 0) acc j + c)
def getI (acc : List (Nat × Int)) (j : Nat) : Int := tget (fun _ => 0) acc j

def wheelSlot (w : List (Nat × List (Nat × Int))) (i : Nat) : List (Nat × Int) := tget (fun _ => []) w i

/-- Put a contribution in the wheel (R205); a full slot drops it (R206). -/
def Net.toWheel (k : Net) (cap t post : Nat) (c : Int) : Net :=
  let l := wheelSlot k.wheel (t % 64)
  if cap ≤ l.length then k.cause 0xE11 1 else { k with wheel := tset (fun _ => []) k.wheel (t % 64) (l ++ [(post, c)]) }

/-- Apply the synapses of a row in tick `t` (R205). -/
def Net.applyRow (d : NetDef) (t : Nat) (pop : Bool) : List SynSt → Net × List (Nat × Int) → Net × List (Nat × Int)
  | [], a => a
  | y :: r, (k, acc) =>
    let c := y.weight * (2 ^ d.wshift.toNat : Nat)
    let at_ := t + y.delay + (if pop then 1 else 0)
    Net.applyRow d t pop r (if at_ = t then (k, addI acc y.post c) else (k.toWheel d.wheelCap.toNat at_ y.post c, acc))

/-- A spiking row: its learning pairings first (R394), then its synapses. -/
def Net.spikeRow (d : NetDef) (e : EpochCfg) (t row : Nat) (pop : Bool) (a : Net × List (Nat × Int)) : Net × List (Nat × Int) :=
  let k := a.1
  let tau := t - e.number * e.len
  let k1 := if k.stdp then
      { k with
        rows := k.rows.set row (learnRow (k.rows.getD row []) e k.delayEn pop (tget (fun _ => none) k.lp row) k.lq tau),
        lp := tset (fun _ => none) k.lp row (some tau) }
    else k
  Net.applyRow d t pop (k1.rows.getD row []) (k1, a.2)

/-- Matrix contributions due at tick `t` (R212), for the matrix of index `i`, given its block. -/
def Net.matrixIn (t i : Nat) (m : MatrixUse) (b : Option SynBlock) (a : Net × List (Nat × Int)) : Net × List (Nat × Int) :=
  let k := a.1
  if t < m.md.toNat || !k.reqs.contains (i, t - m.md.toNat) then a
  else
    let k1 := { k with reqs := k.reqs.filter (fun r => r != (i, t - m.md.toNat)) }
    match b with
    | some x =>
      if x.tick ≠ t - m.md.toNat then (k1.cause 0xE13 1, a.2)
      else if x.status ≠ 0 then (k1.cause 0xE14 1, a.2)
      else (k1, (List.range m.cols.toNat).foldl (fun acc c => addI acc (m.postBase.toNat + c) (x.sums.getD c 0 * (2 ^ m.mshift.toNat : Nat))) a.2)
    | none => (k1.cause 0xE13 1, a.2)

/-- Update the population neurons in ascending index (R193): the neurons and those that spiked. -/
def stepNeurons (d : NetDef) (acc : List (Nat × Int)) : Nat → List Neuron → List Neuron × List Nat
  | _, [] => ([], [])
  | j, k :: r =>
    let (k', sp) := k.step (netPset d k.pset) (getI acc j)
    let (r', js) := stepNeurons d acc (j + 1) r
    (k' :: r', if sp then j :: js else js)

/-- Append output spikes of tick `t` to the record, while it has room for their items (R202). -/
def Net.recordSpikes (k : Net) (d : NetDef) (t : Nat) : List Nat → Net
  | [] => k
  | j :: r =>
    if d.outputs.toNat ≤ j then k.recordSpikes d t r
    else
      let rec' := k.record ++ [(t, j)]
      if d.recItems.toNat < (spikeItems rec').length then (k.cause 0xE12 1).recordSpikes d t r
      else { k with record := rec' }.recordSpikes d t r

/-- One tick of a network (R198): `block i` is the result block of matrix `i` for this stream. The answer holds the rows
that spiked. -/
def Net.tick (k : Net) (d : NetDef) (e : EpochCfg) (t : Nat) (block : Nat → Option SynBlock) : Net × List Nat :=
  let ins := (k.inputs.filter (fun x => x.1 == t)).flatMap (fun x => x.2)
  let spk := (List.range d.inputs.toNat).filter (fun i => ins.contains i)
  let a0 : Net × List (Nat × Int) := ({ k with inputs := k.inputs.filter (fun x => x.1 != t) }, [])
  let a1 := spk.foldl (fun a i => Net.spikeRow d e t i false a) a0
  let w := wheelSlot a1.1.wheel (t % 64)
  let a2 := ({ a1.1 with wheel := tset (fun _ => []) a1.1.wheel (t % 64) [] }, w.foldl (fun acc x => addI acc x.1 x.2) a1.2)
  let a3 := (d.matrices.zipIdx).foldl (fun a m => Net.matrixIn t m.2 m.1 (block m.2) a) a2
  let (ns, pops) := stepNeurons d a3.2 0 a3.1.neurons
  let tau := t - e.number * e.len
  let k4 := { a3.1 with
    neurons := ns,
    traces := a3.1.traces.zipIdx.map (fun x => traceStep (netPset d d.inPset.toNat) x.1 (spk.contains x.2)),
    lq := if a3.1.stdp then pops.foldl (fun l j => tset (fun _ => none) l j (some tau)) a3.1.lq else a3.1.lq }
  let k5 := (pops.foldl (fun a j => Net.spikeRow d e t (d.inputs.toNat + j) true a) (k4, ([] : List (Nat × Int)))).1
  ({ k5.recordSpikes d t pops with next := some (t + 1) }, spk ++ pops.map (d.inputs.toNat + ·))

/-! ### The home core -/

/-- The network that the image of a stream's core group defines for it. -/
def State.netDef (s : State) (n : Nat) : Option NetDef := (s.grp (s.coreGroup n)).nets.find? (fun d => d.stream.toNat == n)

/-- Put learned words into the plastic synapses of one row, in order; E and V start at zero. -/
def putPlastic : List SynSt → List SynWord → List SynSt
  | [], _ => []
  | y :: t, ws =>
    if y.plastic then
      match ws with
      | w :: r => { y with weight := w.weight, delay := w.delay, e := 0, v := 0 } :: putPlastic t r
      | [] => y :: putPlastic t []
    else y :: putPlastic t ws

def synShadowDefault (_ : Nat) : Option SynShadow := none
def State.synShadowOf (s : State) (n : Nat) : Option SynShadow := tget synShadowDefault s.chisel.synShadow n

/-- Restore a stream's plastic synapse words from its synapse shadow (R397); with a different number of plastic synapses in some
row the shadow is discarded and counted. -/
def State.restoreSyn (s : State) (n : Nat) : State :=
  match s.synShadowOf n with
  | none => s
  | some h =>
    let q := s.net n
    let row := fun i => h.words.filter (fun w => w.row == i)
    if q.rows.zipIdx.all (fun r => r.1.countP (fun y => y.plastic) == (row r.2).length) then
      s.setNet n { q with rows := q.rows.zipIdx.map (fun r => putPlastic r.1 (row r.2)) }
    else
      let s1 : State := { s with chisel := { s.chisel with synShadow := tset synShadowDefault s.chisel.synShadow n none } }
      s1.bump F.CHISEL_SHADOW_DISCARDS_COUNT 1

/-- Start a stream's network from rest (Table SNN-9), with its learned synapses. -/
def State.startNet (s : State) (n : Nat) (first : Option Nat) : State :=
  match s.netDef n with
  | some d => (s.setNet n (netFresh d first)).restoreSyn n
  | none => s.setNet n {}

/-- The number of WARMUP windows of a stream (R215). -/
def State.warmCount (s : State) (n : Nat) : Nat := match s.netDef n with | some d => d.warmWin.toNat | none => 0

/-- The input neuron count of the network that receives a stream's events; 1,024 while its group holds none (R101, R189). -/
def State.inputCount (s : State) (n : Nat) : Nat := match s.netDef n with | some d => d.inputs.toNat | none => 1024

/-- Key of a synapse result block (R211). -/
def synKey (matrix stream t : Nat) : Nat := (matrix * 65536 + stream) * 16 + t % 16

def State.synBlock (s : State) (matrix stream t : Nat) : Option SynBlock := tget (fun _ => none) s.synBlocks (synKey matrix stream t)

/-- Send a message from a core's program. -/
def State.sendFrom (s : State) (c dest tag : Nat) (payload : List Word64) : State :=
  let k := s.core c
  (s.setCore c { k with sent := sat32 (k.sent + 1) }).inject
    { tick := BitVec.ofNat 16 k.tick, tag := BitVec.ofNat 12 tag, src := BitVec.ofNat 14 (k.logical.getD 0), dest := BitVec.ofNat 14 dest, payload := payload }

/-- Send the request of matrix `m` for tick `t` and its spiking rows (R209): at most six items to a message. -/
def State.sendRequest (s : State) (n t : Nat) (m : MatrixUse) (rows : List Nat) : State :=
  let c := s.homeCore n
  let items := (spikeItems (rows.map (fun r => (0, r - m.preBase.toNat)))).map itemWord
  let parts := chunks 6 items.length items
  parts.zipIdx.foldl (fun a p =>
    a.sendFrom c (0x2000 + coreX c) tagSYNAPSE
      (BitVec.ofNat 64 (n + m.matrix.toNat * 65536 + (if p.2 + 1 = parts.length then 2 ^ 24 else 0)) :: BitVec.ofNat 64 t :: p.1)) s

/-- The epoch handshake of a core (R395): the pending notice is applied once per epoch number, and HS_DONE reported
(R412). -/
def State.handshake (s : State) (c : Nat) : State :=
  let k := s.core c
  match k.notice with
  | none => s
  | some e =>
    if e.number = k.epoch.number then s.setCore c { k with notice := none }
    else
      let homes := (match k.logical with | some l => s.homeStreams l | none => [])
      let s1 := s.setCore c { k with notice := none, epoch := e }
      let s2 := homes.zipIdx.foldl (fun a x =>
        let q := a.net x.1
        let stdp := x.2 < 32 && e.enables.testBit (2 * x.2)
        let dly := x.2 < 32 && e.enables.testBit (2 * x.2 + 1)
        a.setNet x.1 { q with
          rows := (if stdp then q.rows.map (fun r => r.map (fun y => y.handshake e dly)) else q.rows),
          lp := [], lq := [], stdp := stdp, delayEn := dly }) s1
      s2.sendFrom c (0x2C00 + coreX c) tagHS_DONE [BitVec.ofNat 64 e.number]

/-- Process one tick of a stream on its home core (R198), after a handshake due before it (R383). -/
def State.processTick (s : State) (n t : Nat) : State :=
  let c := s.homeCore n
  let s0 := match (s.core c).notice with
    | some e => if e.number * e.len ≤ t then s.handshake c else s
    | none => s
  let q := s0.net n
  match q.net with
  | none => s0
  | some d =>
    let blk := fun i => match d.matrices[i]? with
      | some m => s0.synBlock m.matrix.toNat n (t - m.md.toNat)
      | none => none
    let (q1, rows) := q.tick d (s0.core c).epoch t blk
    d.matrices.zipIdx.foldl (fun a m =>
      let mine := rows.filter (fun r => m.1.preBase.toNat ≤ r && r < m.1.preBase.toNat + m.1.rows.toNat)
      if mine.isEmpty then a
      else
        let q2 := a.net n
        (a.setNet n { q2 with reqs := q2.reqs ++ [(m.2, t)] }).sendRequest n t m.1 mine) (s0.setNet n q1)

/-- Process every tick from the next one up to `last` (R197). -/
def State.processUpTo (s : State) (n last : Nat) : State :=
  match (s.net n).next with
  | none => s
  | some t => (List.range (last + 1 - t)).foldl (fun a i => a.processTick n (t + i)) s

/-- The trace words of a window's loss causes (R203). -/
def Net.causeWords (k : Net) (n : Nat) : List (Nat × Word) :=
  k.winCauses.map (fun e => (e.1, BitVec.ofNat 32 (n + min 65535 e.2 * 65536)))

/-- The home core closes a window (R197, R202, R203): the ticks up to its last are processed, the record is broadcast and
starts empty, the network loss flag is copied and cleared, and the causes are traced. -/
def State.homeClose (s : State) (n start : Nat) : State :=
  let w := s.fld (F.ADIT_STREAM_WIN_W n)
  let last := start + w - 1
  let q := s.net n
  match q.net with
  | none => s
  | some _ =>
    let q0 := { q with first := some (q.first.getD start), next := some (q.next.getD start) }
    let q1 := q0.cause 0xE15 (last - q0.next.getD start)
    let s1 := (s.setNet n q1).processUpTo n last
    let q2 := s1.net n
    let b : Broadcast := ⟨start, (q2.record.filter (fun e => start ≤ e.1)).map (fun e => (e.1 - start, e.2)), q2.lossFlag⟩
    let c := s.homeCore n
    let s2 := s1.setNet n { q2 with record := [], lossFlag := false, winCauses := [], outbox := q2.outbox ++ [b] }
    s2.setCore c ((q2.causeWords n).foldl (fun k e => k.trace e.1 e.2) (s2.core c))

/-- Input spikes of tick `t` taken by the home core (R201, R214). -/
def State.takeSpikes (s : State) (n t : Nat) (neurons : List Nat) : State :=
  let q := s.net n
  match q.net with
  | none => s
  | some _ =>
    match q.first, q.next with
    | some f, some x =>
      if t < f then s
      else if t < x then s.setNet n (q.cause 0xE10 1)
      else s.setNet n { q with inputs := q.inputs ++ [(t, neurons)] }
    | _, _ => s.setNet n { q with inputs := q.inputs ++ [(t, neurons)] }

/-- An EPOCH notice's fields (Table CHISEL-4). -/
def epochOf (m : Msg) : EpochCfg :=
  let w := msgWord m 1
  { number := (msgWord m 0).toNat, len := (w.extractLsb' 48 16).toNat, aPlus := (w.extractLsb' 40 8).toNat, aMinus := (w.extractLsb' 32 8).toNat,
    tp := (w.extractLsb' 29 3).toNat, tm := (w.extractLsb' 26 3).toNat, eta := (w.extractLsb' 23 3).toNat,
    dTgt := (w.extractLsb' 17 6).toNat, dv := (w.extractLsb' 10 7).toNat, enables := (msgWord m 2).toNat }

/-- What a core's program does with a message it has taken, where its tag is one of hardware's (R135, R197, R383). -/
def State.took (s : State) (c : Nat) (m : Msg) : State :=
  let n := ((msgWord m 0).extractLsb' 0 16).toNat
  let tag := m.tag.toNat
  if tag = tagADIT_SPIKES then
    if s.homeCore n ≠ c then s
    else s.takeSpikes n ((msgWord m 0).extractLsb' 16 48).toNat ((m.payload.drop 1).flatMap (fun w => (itemSpikes w).map Prod.snd))
  else if tag = tagADIT_CLOSE then
    if s.homeCore n ≠ c then s else s.homeClose n (msgWord m 1).toNat
  else if tag = tagEPOCH then s.setCore c { s.core c with notice := some (epochOf m) }
  else s

/-- The streams of a core group whose network instances are on its cores. -/
def State.groupStreams (s : State) (g : Nat) : List Nat := s.validStreams.filter (fun n => s.coreGroup n == g)

/-- Resume a network after a halt of its home core (R548): wheel slots and inputs of the ticks of the halted span are
emptied without a loss, and the next tick to process is `t`. -/
def Net.resumeAt (k : Net) (t : Nat) : Net :=
  match k.next with
  | none => { k with first := some t, next := some t }
  | some x =>
    if t ≤ x then k
    else { k with
      wheel := if 64 ≤ t - x then [] else (List.range (t - x)).foldl (fun w i => tset (fun _ => []) w ((x + i) % 64) []) k.wheel,
      inputs := k.inputs.filter (fun e => t ≤ e.1), next := some t }

/-! ### Epoch notices (R383, R412) -/

/-- STDP_EN and DELAY_EN of a core's home streams (Table CHISEL-4): every one 0 while learning is off. -/
def State.noticeEnables (s : State) (l : Nat) : Nat :=
  if !s.chisel.en then 0
  else (((s.homeStreams l).take 32).zipIdx.map (fun x =>
    let stdp := s.bit (F.CHISEL_STREAM_STDP x.1)
    (if stdp then 4 ^ x.2 else 0) + (if stdp && s.bit (F.CHISEL_STREAM_DELAY x.1) then 2 * 4 ^ x.2 else 0))).sum

/-- The EPOCH notice of the current epoch for the core at a logical address (Table CHISEL-4), sent from the Chisel port of its column. -/
def State.noticeMsg (s : State) (l : Nat) : Msg :=
  let e := min 655 (max 1 (s.fld F.CHISEL_CFG_E))
  let w1 := 100 * e * 2 ^ 48 + s.fld F.CHISEL_STDP_A_PLUS % 128 * 2 ^ 40 + s.fld F.CHISEL_STDP_A_MINUS % 128 * 2 ^ 32 +
    s.fld F.CHISEL_STDP_TP * 2 ^ 29 + s.fld F.CHISEL_STDP_TM * 2 ^ 26 + s.fld F.CHISEL_STDP_ETA * 2 ^ 23 +
    min 31 (s.fld F.CHISEL_DELAY_D_TGT) * 2 ^ 17 + max 1 (s.fld F.CHISEL_DELAY_DV) * 2 ^ 10
  { tick := BitVec.ofNat 16 s.tick, tag := BitVec.ofNat 12 tagEPOCH, src := BitVec.ofNat 14 (0x2C00 + coreX (s.physOf l)), dest := BitVec.ofNat 14 l,
    payload := [BitVec.ofNat 64 (s.get64 R.CHISEL_EPOCH_LO), BitVec.ofNat 64 w1, BitVec.ofNat 64 (s.noticeEnables l)] }

def State.sendNotice (s : State) (l : Nat) : State := s.inject (s.noticeMsg l)

end Sys2Proof.Machine
end

