-- ==== Sys2Proof/Machine/AditOps.lean ====
section
/-! DEFINITION.  Adit's shared operations: windows and their flags, events, release to the home core,
CLOSE, synchronising resets, suspension (03_adit_ingest R84 to R126; 01_window_to_result R31 to R34). -/

namespace Sys2Proof.Machine

/-! ### Settings of a stream -/

def State.source (s : State) (n : Nat) : Nat := s.fld (F.ADIT_STREAM_CFG_SOURCE n)
def State.winLen (s : State) (n : Nat) : Nat := s.fld (F.ADIT_STREAM_WIN_W n)
def State.phase (s : State) (n : Nat) : Nat := s.fld (F.ADIT_STREAM_WIN_PHASE n)
def State.delay (s : State) (n : Nat) : Nat := s.fld (F.ADIT_STREAM_TIME_DELAY n)
def State.enabled (s : State) (n : Nat) : Bool := s.bit (F.ADIT_STREAM_CFG_EN n)
def State.streamProfile (s : State) (n : Nat) : Nat := s.fld (F.ADIT_STREAM_CFG_PROFILE n)

/-- Is a stream's source one of the Adit ports? -/
def isPortSource (src : Nat) : Bool := src < 4

/-- A stream is mapped when VALID is 1, its core group is RUNNING, or STOPPING with the stream not yet
parked, and the stream is not parked (R152, Table GAL-8). -/
def State.mapped (s : State) (n : Nat) : Bool :=
  let st := s.fld (F.GAL_GROUP_STATUS_STATE (s.coreGroup n))
  s.bit (F.GAL_STREAM_MAP_VALID n) && !s.bit (F.GAL_STREAM_MAP_PARKED n) && (st == 4 || st == 5)

/-! ### Windows (R34): window number w covers ticks [φ + (w − 1)W, φ + wW) -/

def State.winOf (s : State) (n t : Nat) : Nat := (t + s.winLen n - s.phase n) / s.winLen n
def State.winStart (s : State) (n w : Nat) : Nat := s.phase n + w * s.winLen n - s.winLen n
/-- The first tick after window `w`. -/
def State.winEnd (s : State) (n w : Nat) : Nat := s.phase n + w * s.winLen n
/-- The first window whose start tick is at or after tick `t` (R86). -/
def State.winAtOrAfter (s : State) (n t : Nat) : Nat := (t + s.winLen n - s.phase n + s.winLen n - 1) / s.winLen n

/-- Set Adit flag bits of window `w`; of the next window to close when `w` has closed (R102, R104). -/
def StreamSt.flagWin (st : StreamSt) (w bits : Nat) : StreamSt :=
  match st.nextWin with
  | none => { st with owed := st.owed ||| bits }
  | some nw => if w < nw then { st with owed := st.owed ||| bits }
      else { st with wflags := aset st.wflags w (aget st.wflags w ||| bits) }

/-- Set chain flag bits of the window that holds a tick; samples before the stream's first window and of
closed windows belong to no window (R86). -/
def StreamSt.flagOpen (st : StreamSt) (w bits : Nat) : StreamSt :=
  match st.nextWin with
  | none => st
  | some nw => if w < nw || bits == 0 then st else { st with wflags := aset st.wflags w (aget st.wflags w ||| bits) }

/-- Set a flag in every window from `w` on, `k` of them. -/
def StreamSt.flagSpan (st : StreamSt) (w bits : Nat) : Nat → StreamSt
  | 0 => st
  | k + 1 => (st.flagWin w bits).flagSpan (w + 1) bits k

/-! ### Events -/

/-- Insert an event in ascending (tick, neuron) order; false when it is there already (R79). -/
def insEvent (e : Nat × Nat) : List (Nat × Nat) → List (Nat × Nat) × Bool
  | [] => ([e], true)
  | x :: t =>
    if x = e then (x :: t, false)
    else if e.1 < x.1 ∨ (e.1 = x.1 ∧ e.2 < x.2) then (e :: x :: t, true)
    else let r := insEvent e t; (x :: r.1, r.2)

/-- Add one input event of tick `t`: a second event of one neuron in one tick is merged and counted,
and sets MERGED (R79, R113). An event before the first window is discarded and counted nowhere (R86). -/
def StreamSt.addEvent (st : StreamSt) (w t neuron : Nat) : StreamSt :=
  match st.nextWin with
  | none => st
  | some nw =>
    if w < nw then st
    else
      let r := insEvent (t, neuron) st.events
      if r.2 then { st with events := r.1 }
      else { st with merge := sat32 (st.merge + 1) }.flagWin w (2 ^ afMERGED)

/-- An event that comes too late for its tick is discarded, counted and flagged (R102, R94). -/
def StreamSt.lateEvent (st : StreamSt) (w : Nat) : StreamSt :=
  { st with late := sat32 (st.late + 1) }.flagWin w (2 ^ afLATE)

/-- Group events by tick: each tick with its neurons, in order. -/
def groupTicks : List (Nat × Nat) → List (Nat × List Nat)
  | [] => []
  | (t, k) :: r =>
    match groupTicks r with
    | (u, ks) :: r' => if u = t then (t, k :: ks) :: r' else (t, [k]) :: (u, ks) :: r'
    | [] => [(t, [k])]

/-- Send a stream's events of ticks below `bound` to its home core. While the stream is unmapped they are
discarded and counted (R32). -/
def State.sendEvents (s : State) (n bound : Nat) : State :=
  let st := s.stream n
  let go := st.events.filter (fun e => e.1 < bound)
  let keep := st.events.filter (fun e => !(e.1 < bound))
  if go.isEmpty then s
  else if s.mapped n then (groupTicks go).foldl (fun a g => a.aditSpikesOut n g.1 g.2) (s.setStream n { st with events := keep })
  else s.setStream n { st with events := keep, unmapped := sat32 (st.unmapped + go.length) }

/-! ### Samples -/

/-- The profile and band settings a stream runs with. -/
def State.chainCfg (s : State) (n : Nat) : Profile × List BandCfg :=
  let q := s.streamProfile n
  let p := s.profile q
  (p, (List.range p.bandsUsed).map (s.bandCfg q))

/-- Is tick `t` closed to new events of the stream: complete at its port (R94), or with its release tick
begun (R102)? -/
def State.tickClosed (s : State) (n t : Nat) : Bool :=
  if isPortSource (s.source n) then t < (s.port (s.source n)).complete else t + s.delay n ≤ s.tick

/-- Does the stream take input: enabled, not suspended or retired, and not past a pending stop (R123,
R124, R126)? -/
def State.takes (s : State) (n t : Nat) : Bool :=
  let st := s.stream n
  s.enabled n && !st.suspended && !st.retired &&
    (match st.stopWin with | none => true | some w => s.winOf n t ≤ w)

/-- Take one input sample of a stream (R106): gain shift with saturation to 24 bits, then the chain; its
flags, events and history block. `full` tells an input sample at full scale, `held` a held sample. -/
def State.feed (s : State) (n : Nat) (raw : Int) (shift : Nat) (full held : Bool) (ts : Nat) : State :=
  let started := s.ticking && s.t0 ≤ ts
  let t := s.tickOf ts
  if started && !s.takes n t then s
  else
    let st := s.stream n
    let wide := raw * (2 ^ shift : Nat)
    let x := clampInt (-8388608) 8388607 wide
    let clip := decide (x ≠ wide) || full
    let (p, cfgs) := s.chainCfg n
    let (c, o) := st.chain.input p cfgs x held ts
    let w := s.winOf n t
    let st1 := { st with
      chain := { c with last := raw },
      fill := if held then sat32 (st.fill + 1) else st.fill,
      nextWin := if started && st.nextWin.isNone then some (s.winAtOrAfter n t) else st.nextWin }
    let st2 := if started then st1.flagOpen w (o.flags ||| (if clip then 2 ^ afCLIP else 0) ||| (if held then 2 ^ afFILL else 0)) else st1
    let st3 := if !started then st2
      else if s.tickClosed n t then o.events.foldl (fun a _ => a.lateEvent w) st2
      else o.events.foldl (fun a e => a.addEvent w t e) st2
    let st4 := match o.block with
      | some b => if 0 < st3.cap && s.source n ≤ 4 then { st3 with blocks := (b :: st3.blocks).take st3.cap } else st3
      | none => st3
    s.setStream n st4

/-- Feed held samples at timestamps `ts`, `ts + period`, … (R91). -/
def State.feedHeld (s : State) (n shift period ts : Nat) : Nat → State
  | 0 => s
  | k + 1 => (s.feed n (s.stream n).chain.last shift false true ts).feedHeld n shift period (ts + period) k

/-- Stand in for `k` missing input samples, the first stamped `ts` (R91): held samples when 16 or fewer, else a
synchronising reset; FILL in the windows concerned either way. -/
def State.fillGap (s : State) (n shift period ts k : Nat) : State :=
  if k = 0 then s
  else if k ≤ 16 then s.feedHeld n shift period ts k
  else
    let st := s.stream n
    let w0 := s.winOf n (s.tickOf ts)
    let w1 := s.winOf n (s.tickOf (ts + k * period))
    let st1 := { st with chain := st.chain.syncReset (s.chainCfg n).1 false }
    s.setStream n (if s.ticking && s.t0 ≤ ts && st.nextWin.isSome then st1.flagSpan (max w0 (st.nextWin.getD 0)) (2 ^ afFILL) (w1 + 1 - w0) else st1)

/-- A synchronising reset of a stream (R108); `warm` when it begins a background warm-up (R117). -/
def State.syncReset (s : State) (n : Nat) (warm : Bool) : State :=
  let st := s.stream n
  s.setStream n { st with chain := st.chain.syncReset (s.chainCfg n).1 warm }

/-- Streams that take their input from port `p`. -/
def State.portStreams (s : State) (p : Nat) : List Nat := s.enabledStreams.filter (fun n => s.source n == p)

/-- Every stream of a port takes a synchronising reset (R92, R96). -/
def State.syncResetPort (s : State) (p : Nat) : State :=
  (s.portStreams p).foldl (fun a n => a.syncReset n false) s

/-! ### Ports -/

/-- Lanes in use (Table ADIT-19, LANES): 0 to 7, 0 to 3 or 4 to 7; LANES = 3 is reserved and names none. -/
def laneMask (lanes : Nat) : Nat := match lanes with | 0 => 0xFF | 1 => 0x0F | 2 => 0xF0 | _ => 0

/-- READY of a port follows its conditions (R98), and ADIT_STATUS follows it. -/
def State.portReady (s : State) (p : Nat) : State :=
  let m := laneMask (s.fld (F.ADIT_PORT_CTRL_LANES p))
  let up := m != 0 && (s.fld (F.ADIT_PORT_STATUS_LANE_UP p)) &&& m == m
  let r := up && s.bit (F.ADIT_PORT_STATUS_SYSREF_CAPTURED p) && s.bit (F.ADIT_PORT_STATUS_ALIGNED p) && (s.port p).roundSeen
  (s.setBit (F.ADIT_PORT_STATUS_READY p) r).setRegBit R.ADIT_STATUS p r

/-- The port loses alignment and waits for a SYSREF edge to realign on (R92, R96, R97). -/
def State.unalign (s : State) (p : Nat) : State :=
  (((s.setBit (F.ADIT_PORT_STATUS_ALIGNED p) false).setPort p { s.port p with waitSysref := true, roundSeen := false })).portReady p

/-- Realign the port: round reference, T_sync and framing start afresh (R93, R96). -/
def State.align (s : State) (p : Nat) : State :=
  let s1 := s.setPort p { s.port p with waitSysref := false, prevRound := none, roundIdx := 0, errs := [], roundSeen := false }
  (((s1.setBit (F.ADIT_PORT_STATUS_ALIGNED p) true).setBit (F.ADIT_PORT_STATUS_SYSREF_CAPTURED p) true)).portReady p

/-- Note a framing error or discarded round; after 16 within 1 ms the port realigns on its next SYSREF
edge (R92). -/
def State.noteErr (s : State) (p : Nat) : State :=
  let q := s.port p
  let l := s.now :: q.errs.filter (fun t => s.now < t + 100000)
  if 16 ≤ l.length then (s.setPort p { q with errs := [] }).unalign p else s.setPort p { q with errs := l }

/-- Ticks below `t` become complete at port `p`: the events of those ticks go to the home cores (R94). -/
def State.completeTicks (s : State) (p t : Nat) : State :=
  let q := s.port p
  if t ≤ q.complete then s
  else (s.portStreams p).foldl (fun a n => a.sendEvents n t) (s.setPort p { q with complete := t })

/-- Suspend the streams of a port (R123): a window in progress is completed with held samples up to its end
and carries FILL, and the stream is suspended when that window closes; a stream with no window in
progress is suspended at once. -/
def State.suspendStream (s : State) (n period ts : Nat) : State :=
  let st := s.stream n
  if st.suspended || st.retired then s
  else match st.nextWin with
  | none => s.setStream n { st with suspended := true }
  | some w =>
    if s.tickOf ts < s.winStart n w then s.setStream n { st with suspended := true, nextWin := none }
    else
      let stop := s.tickStart (s.winEnd n w)
      let k := if period = 0 then 0 else (stop - ts + period - 1) / period
      let s1 := s.feedHeld n 0 period ts k
      s1.setStream n { (s1.stream n).flagWin w (2 ^ afFILL) with suspending := true }

def State.suspendPort (s : State) (p : Nat) : State :=
  let per := s.fld (F.ADIT_PORT_PERIOD_PERIOD p)
  (s.portStreams p).foldl (fun a n => a.suspendStream n per s.now) s

/-! ### Closing a window -/

/-- The default close wait of assembly, 0.70 ms, in 10 ns units (R305). -/
def closeBase : Nat := 70000

/-- Sump learns of a window that is due a record (R305). -/
def State.sumpClose (s : State) (n start aditFlags flags : Nat) : State :=
  let dl := s.now + closeBase + s.fld F.SUMP_SLIVER_WAIT_WAIT
  if s.asm.any (fun a => a.stream == n && a.start == start) then
    { s with asm := s.asm.map (fun a => if a.stream == n && a.start == start then
        { a with aditFlags := aditFlags, flags := flags, closeBy := some dl } else a) }
  else { s with asm := s.asm ++ [{ stream := n, start := start, aditFlags := aditFlags, flags := flags, closeBy := some dl }] }

/-- Record flag bits WARMUP and GAP (Table SUMP-10). -/
def rfPARTIAL : Nat := 0
def rfGAP : Nat := 1
def rfWARMUP : Nat := 2

/-- The window's WARMUP and GAP bits (R326). -/
def StreamSt.ownFlags (st : StreamSt) : Nat :=
  (if 0 < st.warmWins then 2 ^ rfWARMUP else 0) + (if st.gapNow then 2 ^ rfGAP else 0)

/-- The Adit flag word gathered for a window up to now (R118). -/
def StreamSt.flagWord (st : StreamSt) (w : Nat) : Nat := aget st.wflags w ||| st.owed

/-- End the bookkeeping of window `w`: its flags are spent and the next window opens. -/
def StreamSt.endWindow (st : StreamSt) (w : Nat) : StreamSt :=
  { st with nextWin := some (w + 1), wflags := st.wflags.filter (fun e => w < e.1), owed := 0 }

/-- End the window in progress of a mapped stream without a CLOSE, reporting it SKIPPED (R33, R118). -/
def State.skipOpen (s : State) (n reason : Nat) : State :=
  let st := s.stream n
  match st.nextWin with
  | none => s
  | some w =>
    if s.tick < s.winStart n w || !s.mapped n then s
    else (s.setStream n { st.endWindow w with warmWins := st.warmWins - 1, gapNow := false }).windowRecord
      { status := 1, reason := reason, stream := n, start := s.winStart n w, aditFlags := st.flagWord w, flags := st.ownFlags }

end Sys2Proof.Machine
end

