-- ==== Sys2Proof/Machine/Image.lean ====
section
/-! DEFINITION.  Assay program images (05_flint_instructions R186 to R188): header, segments, the loader's checks, and
the state in which a core starts. -/

namespace Sys2Proof.Machine

/-- CRC-32 with the IEEE 802.3 polynomial, reflected: one byte. -/
def crcByte (c : BitVec 32) (b : Byte) : BitVec 32 :=
  (List.range 8).foldl (fun a _ => if a.getLsbD 0 then (a >>> 1) ^^^ 0xEDB88320#32 else a >>> 1) (c ^^^ b.setWidth 32)

def crc32 (l : List Byte) : Nat := (~~~(l.foldl crcByte 0xFFFFFFFF#32)).toNat

/-! ### Header and segments (Tables FLINT-11 and FLINT-12) -/

def imgEntry (l : List Byte) : Nat := sliceLE l 12 4
def imgOvfBase (l : List Byte) : Nat := sliceLE l 16 4
def imgOvfSize (l : List Byte) : Nat := sliceLE l 20 2
def imgSegCount (l : List Byte) : Nat := sliceLE l 22 2
def imgSnapBase (l : List Byte) (i : Nat) : Nat := sliceLE l (24 + 8 * i) 4
def imgSnapLen (l : List Byte) (i : Nat) : Nat := sliceLE l (28 + 8 * i) 4
def imgExcVec (l : List Byte) : Nat := sliceLE l 72 4

/-- A segment descriptor. -/
structure Seg where
  addr : Nat
  len : Nat
  offset : Nat
  kind : Nat
  deriving DecidableEq, Repr

def imgSeg (l : List Byte) (i : Nat) : Seg :=
  let o := 80 + 16 * i
  ⟨sliceLE l o 4, sliceLE l (o + 4) 4, sliceLE l (o + 8) 4, sliceLE l (o + 12) 1⟩

def imgSegs (l : List Byte) : List Seg := (List.range (imgSegCount l)).map (imgSeg l)

/-- Do two byte ranges overlap? -/
def overlap (a n b m : Nat) : Bool := 0 < n && 0 < m && a < b + m && b < a + n

/-- The detail code of the first check that fails, in ascending order of the codes (R187); none when the image passes.
`len` is the length the load reads. -/
def State.imageFault (s : State) (l : List Byte) (len : Nat) : Option Nat :=
  let segs := imgSegs l
  let reserved := sliceLE l 7 1 != 0 || sliceLE l 76 4 != 0 ||
    (List.range (imgSegCount l)).any (fun i => sliceLE l (80 + 16 * i + 13) 3 != 0)
  let snapBad := (List.range 4).any (fun i => imgSnapBase l i % 8 != 0 || imgSnapLen l i % 8 != 0 || 131072 ≤ imgSnapBase l i || 262144 ≤ imgSnapLen l i)
  let headBad := sliceLE l 0 4 != 0xF11E0001 || sliceLE l 4 2 != 1 || sliceLE l 64 4 != len || imgSegCount l == 0 || 64 < imgSegCount l ||
    1023 < imgOvfSize l || imgOvfBase l % 8 != 0 || 131072 ≤ imgOvfBase l || snapBad || reserved
  let segBad := segs.any (fun g => 1 < g.kind || g.addr % 8 != 0 || g.len % 8 != 0 ||
      len < g.offset + g.len * (if g.kind = 1 then s.groupCores else 1) || sramSize < g.addr + g.len ||
      overlap g.addr g.len (imgOvfBase l) (72 * imgOvfSize l)) ||
    segs.zipIdx.any (fun a => segs.zipIdx.any (fun b => a.2 < b.2 && overlap a.1.addr a.1.len b.1.addr b.1.len))
  if headBad then some 1
  else if sliceLE l 6 1 != s.fld F.GAL_CFG_DSEL then some 2
  else if sliceLE l 8 4 != (keyword s.seed 0 0 0).toNat % 2 ^ 32 then some 3
  else if crc32 (l.take 68 ++ [0, 0, 0, 0] ++ l.drop 72) != sliceLE l 68 4 then some 4
  else if segBad then some 5
  else if imgEntry l % 4 != 0 || imgExcVec l % 4 != 0 || !segs.any (fun g => g.addr ≤ imgEntry l && imgEntry l < g.addr + g.len) then some 6
  else if sliceLE l 60 4 ≤ sliceLE l 56 4 then some 7
  else none

/-- A core's SRAM with the image's segments for sliver `j` (R186). -/
def CoreSt.loadSegs (k : CoreSt) (l : List Byte) (j : Nat) : CoreSt :=
  (imgSegs l).foldl (fun a g => a.store g.addr ((l.drop (g.offset + (if g.kind = 1 then j * g.len else 0))).take g.len)) k

/-- The state in which a core starts (R188): everything as after a core reset, the CSRs and the segments of the image. -/
def CoreSt.begin_ (k : CoreSt) (l : List Byte) (j : Nat) : CoreSt :=
  let k0 := (k.resetCore k.cycleBase false).loadSegs l j
  { k0 with
    pc := BitVec.ofNat 32 (imgEntry l), busy := k.busy, tick := k.tick, tickCycle := k.tickCycle,
    ovfBase := imgOvfBase l % 131072, ovfSize := imgOvfSize l % 1024,
    fwinLo := BitVec.ofNat 32 (sliceLE l 56 4), fwinHi := BitVec.ofNat 32 (sliceLE l 60 4),
    snapBase := (List.range 4).foldl (fun m i => tset (fun _ => 0#32) m i (BitVec.ofNat 32 (imgSnapBase l i))) [],
    snapLen := (List.range 4).foldl (fun m i => tset (fun _ => 0#32) m i (BitVec.ofNat 32 (imgSnapLen l i))) [],
    excVec := BitVec.ofNat 32 (imgExcVec l) }

/-- Load a core with its group's image, at the sliver index of the logical address it serves. -/
def State.loadCore (s : State) (c : Nat) : State :=
  let k := s.core c
  match k.logical with
  | none => s
  | some l => s.setCore c (k.begin_ (s.grp (l / 128)).image (l % s.groupCores))

/-- Start a core's program (R188): a fenced core never runs. -/
def State.startCore (s : State) (c : Nat) : State :=
  let k := s.core c
  if k.fenced || k.logical.isNone then s
  else
    let s1 := s.loadCore c
    s1.setCore c { s1.core c with started := true }

end Sys2Proof.Machine
end

