-- ==== Sys2Proof/Machine/Adit.lean ====
section
/-! DEFINITION.  The meanings of Adit's commands (03_adit_ingest). -/

namespace Sys2Proof.Machine

/-- What every meaning answers. -/
abbrev Out := Host.Outcome State Fault Refusal

/-! ### Rounds -/

/-- Header fields of a round (Table ADIT-4). -/
def hdrMark (h : Word64) : Nat := (h.extractLsb' 48 16).toNat
def hdrRound (h : Word64) : Nat := (h.extractLsb' 0 24).toNat

/-- Timestamp of round `r` after alignment: T_sync + r × PERIOD − LAT (R93). -/
def State.roundTs (s : State) (p r : Nat) : Nat :=
  (s.port p).tsync + r * s.fld (F.ADIT_PORT_PERIOD_PERIOD p) - s.fld (F.ADIT_PORT_LAT_LAT p)

/-- SHIFT of a gain range; values above 8 act as 8 (Table ADIT-19). -/
def State.gainShift (s : State) (p g : Nat) : Nat := min 8 (s.fld ⟨R.ADIT_PORT_GAIN p, 4 * g, 4⟩)

/-- A sample's value and whether it lies at full scale, for the port's sample width. -/
def sampleValue (wide : Bool) (b : BitVec 24) : Int × Bool :=
  let x : Int := if wide then b.toInt else (b.setWidth 16).toInt
  if wide then (x, x == 8388607 || x == -8388608) else (x, x == 32767 || x == -32768)

/-- A gain change of a slot's stream holds its encoders from the next processing sample (R107). -/
def State.gainChange (s : State) (n : Nat) : State :=
  let st := s.stream n
  s.setStream n { st with chain := { st.chain with gainPend := true } }

/-- One round's sample for one stream of the port: the samples of missing rounds first, then its own, held
when its multiblock failed its CRC or the round is late (R91, R94, R95). -/
def State.roundSample (s : State) (p r missing : Nat) (samples : List (BitVec 24)) (bad : List Nat) (late : Bool) (n : Nat) : State :=
  let per := s.fld (F.ADIT_PORT_PERIOD_PERIOD p)
  let slot := s.fld (F.ADIT_STREAM_CFG_SLOT n)
  let shift := s.gainShift p (aget (s.port p).gains slot)
  if samples.length ≤ slot || s.fld (F.ADIT_PORT_SLOTS_SLOTS p) ≤ slot then s
  else
    let s1 := s.fillGap n shift per (s.roundTs p (r - missing)) missing
    let ts := s1.roundTs p r
    if late || bad.contains slot then s1.feed n (s1.stream n).chain.last shift false true ts
    else
      let (x, full) := sampleValue (s.bit (F.ADIT_PORT_CTRL_WIDTH p)) (samples.getD slot 0#24)
      s1.feed n x shift full false ts

/-- Take a good round (R91 to R95). -/
def State.takeRound (s : State) (p : Nat) (h : Word64) (samples : List (BitVec 24)) (bad : List Nat) : State :=
  let q := s.port p
  let first := q.prevRound.isNone
  let k := match q.prevRound with | none => 1 | some r0 => (hdrRound h + 2 ^ 24 - r0) % 2 ^ 24
  if !first && (k == 0 || 2 ^ 23 ≤ k) then (s.bump (F.ADIT_PORT_LATE_COUNT p) 1).noteErr p
  else
    let r := if first then 0 else q.roundIdx + k
    let gslot := (h.extractLsb' 32 14).toNat
    let change := h.getLsbD 31
    let gains := if change then aset q.gains gslot (h.extractLsb' 46 2).toNat else q.gains
    let s1 := (s.setPort p { q with
      prevRound := some (hdrRound h), tsync := (if first then s.now else q.tsync), roundIdx := r, gains := gains, roundSeen := true }).portReady p
    let s2 := if first then s1 else s1.bump (F.ADIT_PORT_GAPS_COUNT p) (k - 1)
    let s3 := if change then ((s2.portStreams p).filter (fun n => s2.fld (F.ADIT_STREAM_CFG_SLOT n) == gslot)).foldl (fun a n => a.gainChange n) s2 else s2
    let ts := s3.roundTs p r
    let started := s3.ticking && s3.t0 ≤ ts
    let late := started && s3.tickOf ts < (s3.port p).complete
    let s4 := if late then s3.bump (F.ADIT_PORT_LATE_COUNT p) 1 else s3
    let s5 := if started then s4.completeTicks p (s4.tickOf ts) else s4
    (s5.portStreams p).foldl (fun a n => a.roundSample p r (if first then 0 else k - 1) samples bad late n) s5

/-- Does the port take intake now: enabled, and aligned (R92, R96, R123)? -/
def State.portOpen (s : State) (p : Nat) : Bool :=
  !s.fatal && s.bit (F.ADIT_PORT_STATUS_ALIGNED p) && (s.bit (F.ADIT_PORT_CTRL_EN p) || (s.port p).stopping)

/-- ADIT_ROUND (R91): a round, its header, its samples by slot, the slots whose multiblock failed its CRC-12 and
how many multiblocks failed. A MARK that is neither a round's nor an idle unit's is a framing error (R92);
one of an idle unit names no round. -/
def execAditRound (port : Port) (header : Word64) (samples : List (BitVec 24)) (crcBad : List Nat) (badMultiblocks : Nat) (s : State) : Out :=
  let p := port.toNat
  if !s.portOpen p then .next s
  else
    let s1 := s.bump (F.ADIT_PORT_CRC_COUNT p) badMultiblocks
    if hdrMark header = 0xAD17 then .next (s1.takeRound p header samples crcBad)
    else if hdrMark header = 0xAD00 then .next s1
    else .next (((s1.bump (F.ADIT_PORT_FRAME_COUNT p) 1).alarm F.ADIT_ALARM_FRAME_ERR p).noteErr p)

/-- ADIT_IDLE_UNIT (R90, R92): an idle unit is discarded; a bad MARK at its place is a framing error. -/
def execAditIdleUnit (port : Port) (header : Word64) (s : State) : Out :=
  let p := port.toNat
  if !s.portOpen p || hdrMark header == 0xAD00 || hdrMark header == 0xAD17 then .next s
  else .next (((s.bump (F.ADIT_PORT_FRAME_COUNT p) 1).alarm F.ADIT_ALARM_FRAME_ERR p).noteErr p)

/-- SYSREF_EDGE (R96, R98): the first edge, or the one a realignment waits for, aligns the port on the lanes in
use that are not retired; a later edge off its extended-multiblock boundary is a slip, and the port realigns
on it with a synchronising reset of every stream of the port. -/
def execSysrefEdge (port : Port) (onBoundary : Bool) (s : State) : Out :=
  let p := port.toNat
  let m := laneMask (s.fld (F.ADIT_PORT_CTRL_LANES p))
  let ret := s.fld (F.ADIT_PORT_STATUS_LANE_RETIRED p)
  if !s.alive || 2 ≤ s.powerLevel || !s.bit (F.ADIT_PORT_CTRL_EN p) || m == 0 || m &&& ret != 0 then .next s
  else
    let s1 := s.setFld (F.ADIT_PORT_STATUS_LANE_UP p) m
    if !s.bit (F.ADIT_PORT_STATUS_ALIGNED p) then
      .next (if (s.port p).waitSysref then (s1.align p).syncResetPort p else s1.align p)
    else if (s.port p).waitSysref then .next ((s1.align p).syncResetPort p)
    else if onBoundary then .next s1
    else .next (((((s1.bump (F.ADIT_PORT_SLIP_COUNT p) 1).alarm F.ADIT_ALARM_SYSREF_SLIP p).unalign p).align p).syncResetPort p)

/-- ADIT_LANE_FAULT (R97): transient the first and second time in 24 h, when the port retrains; otherwise the lane is
retired, the port goes down and its streams are suspended. -/
def execAditLaneFault (port : Port) (lane : BitVec 3) (s : State) : Out :=
  let p := port.toNat
  let l := lane.toNat
  let (perm, s1) := s.recordFault (.aditLane p l) false
  if !perm then .next (s1.unalign p)
  else
    let s2 := (s1.setRegBit (R.ADIT_PORT_STATUS p) (8 + l) true).setRegBit (R.ADIT_PORT_STATUS p) (16 + l) false
    let s3 := (s2.alarm F.ADIT_ALARM_LANE_RETIRED (p * 8 + l)).unalign p
    let ret := s3.fld (F.ADIT_PORT_STATUS_LANE_RETIRED p)
    let s4 := if ret &&& 0x0F != 0 && ret &&& 0xF0 != 0 then s3.alarm F.ADIT_ALARM_LANE_RETIRED (p * 8 + l) else s3
    .next (s4.suspendPort p)

/-- The tick completion timeout; values below 500 act as 500 (Table ADIT-14). -/
def State.aditTimeout (s : State) : Nat := max 500 (s.fld F.ADIT_TIMEOUT_TIMEOUT)

/-- ADIT_TICK_TIMEOUT (R94): every tick whose end lies ADIT_TIMEOUT or more in the past counts as complete for
the port. -/
def execAditTickTimeout (port : Port) (s : State) : Out :=
  let p := port.toNat
  if !s.ticking || s.now < s.t0 + s.aditTimeout then .next s
  else .next (s.completeTicks p ((s.now - s.aditTimeout - s.t0) / s.tickPeriod))

/-! ### Windows -/

/-- Has the last tick of window `w` ended for sending its CLOSE: complete at the port (R94), or its release delay
over (R102)? -/
def State.closeDue (s : State) (n w : Nat) : Bool :=
  if isPortSource (s.source n) then s.winEnd n w ≤ (s.port (s.source n)).complete
  else s.winEnd n w + s.delay n ≤ s.tick

/-- Unpark at the window boundary at tick `t` after START or THAW (Table GAL-8): the windows after START carry WARMUP and
the network starts from rest (R214, R215); the first window after THAW carries GAP and the network goes on (R548). -/
def State.boundary (s : State) (n t : Nat) : State :=
  let st := s.stream n
  match st.unpark with
  | none => s
  | some afterStart =>
    let s1 := (s.setStream n { st with
      unpark := none, warmWins := if afterStart then s.warmCount n else st.warmWins, gapNow := !afterStart }).setBit (F.GAL_STREAM_MAP_PARKED n) false
    if afterStart then s1.startNet n (some t) else s1.setNet n ((s1.net n).resumeAt t)

/-- The WARMUP and GAP bits of the window in progress (R156, R181, R326): GAP also while a sliver of the group is
missing. -/
def State.windowFlags (s : State) (n : Nat) : Nat :=
  (s.stream n).ownFlags ||| (if (s.missingSlivers (s.sgroup n)).isEmpty then 0 else 2 ^ rfGAP)

/-- Why a window that closes is not searched, if it is not: Sump is not ready (R301, R497), or the window's home core does
not run or lost the window's spike record (R157, R181). -/
def State.closeSkip (s : State) (n : Nat) : Option Nat :=
  if !s.bit F.SUMP_STATUS_READY then some (if s.bit F.SUMP_STATUS_FAULT then skSUMP_FAULT else skSUMP_NOT_READY)
  else if (s.stream n).coreLost || !s.coreTakes (s.homeCore n) then some skCORE_STOPPED
  else none

/-- A window whose spike record was lost is over: the network starts from rest and the following windows carry WARMUP
(R157). -/
def State.afterLoss (s : State) (n t : Nat) : State :=
  let st := s.stream n
  if !st.coreLost then s
  else (s.setStream n { st with coreLost := false, warmWins := s.warmCount n }).startNet n (some t)

/-- Close the stream's next window: every event first, then the CLOSE to the home core and to Sump. A window of an
unmapped stream closes with no CLOSE and no record (R32). -/
def State.closeWindow (s : State) (n w : Nat) : State :=
  let s0 := s.sendEvents n (s.winEnd n w)
  let st := s0.stream n
  let start := s.winStart n w
  let word := st.flagWord w
  let on := s0.mapped n
  let flags := s0.windowFlags n
  let skip := s0.closeSkip n
  let st1 := st.endWindow w
  let st2 := if on then { st1 with warmWins := st1.warmWins - 1, gapNow := false } else st1
  let st3 := if st.suspending then { st2 with suspending := false, suspended := true, nextWin := none } else st2
  let s1 := s0.setStream n st3
  let s2 := if !on then s1
    else match skip with
      | some r => (s1.aditCloseOut n start word).windowRecord
          { status := 1, reason := r, stream := n, start := start, aditFlags := word, flags := flags }
      | none => (s1.aditCloseOut n start word).sumpClose n start word flags
  let s3 := if on && s2.groupState (s2.coreGroup n) == gsSTOPPING then s2.setBit (F.GAL_STREAM_MAP_PARKED n) true else s2
  (s3.afterLoss n (s.winEnd n w)).boundary n (s.winEnd n w)

/-- ADIT_CLOSE_SEND (R118): once the window's last tick is complete or its release delay has ended. -/
def execAditCloseSend (stream : Stream) (s : State) : Out :=
  let n := stream.toNat
  let st := s.stream n
  match st.nextWin with
  | none => .next s
  | some w =>
    if !s.enabled n || st.suspended || st.retired || !s.ticking || s.fatal || !s.closeDue n w then .next s
    else .next (s.closeWindow n w)

/-- A replay stream's samples of the source's history up to timestamp `upto`, fed through its own chain with the
history's marks applied again (R122). -/
def State.replayBlock (s : State) (n : Nat) (b : Block) (period : Nat) : State :=
  let marks := (b.bytes.extractLsb' 133 11).toNat
  let settle := marks.testBit 1
  let spos := marks / 4 % 16
  let gain := marks.testBit 6
  let gpos := marks / 128
  (List.range 16).foldl (fun a i =>
    let a1 := if gain && i == gpos then a.gainChange n else a
    let a2 := if settle && (spos == 0 || i < spos) then
        a1.setStream n { a1.stream n with chain := { (a1.stream n).chain with settle := max 1 (a1.stream n).chain.settle } } else a1
    a2.feed n (bf8Sample b.bytes i) 0 false (marks.testBit 0) (b.ts + i * period)) s

/-- The processing sample period of a stream in timestamp units: PERIOD × M. -/
def State.procPeriod (s : State) (n : Nat) : Nat :=
  let per := if isPortSource (s.source n) then s.fld (F.ADIT_PORT_PERIOD_PERIOD (s.source n))
    else match (s.stream n).frame with | some (p, _, _) => p | none => 0
  per * 2 ^ (s.profile (s.streamProfile n)).decLog2

/-- Read the source's history forward up to the present less the delay (R122). -/
def State.replayAdvance (s : State) (n : Nat) : State :=
  if s.source n ≠ 6 then s
  else
    let src := s.fld (F.ADIT_STREAM_NET_REPLAY_SRC n)
    let st := s.stream n
    let upto := s.now - s.delay n * s.tickPeriod
    let due := ((s.stream src).blocks.filter (fun b => st.replayPos ≤ b.ts && b.ts < upto)).reverse
    let s1 := due.foldl (fun a b => a.replayBlock n b (s.procPeriod src)) s
    s1.setStream n { s1.stream n with replayPos := max st.replayPos upto }

/-- Discard at release the events whose NEURON is not below the network's input count (R101). -/
def State.dropBadNeurons (s : State) (n bound : Nat) : State :=
  let st := s.stream n
  let bad := st.events.filter (fun e => e.1 < bound && s.inputCount n ≤ e.2)
  if s.source n ≠ 5 || bad.isEmpty then s
  else s.setStream n { st with
    events := st.events.filter (fun e => !(e.1 < bound && s.inputCount n ≤ e.2)), badev := sat32 (st.badev + bad.length) }

/-- ADIT_RELEASE (R102): at tick t + Δ the events of tick t go to the home core, for a stream with a release delay; a
replay stream first reads its source's history up to that point (R122). -/
def execAditRelease (stream : Stream) (s : State) : Out :=
  let n := stream.toNat
  if !s.enabled n || isPortSource (s.source n) || !s.ticking then .next s
  else
    let s1 := s.replayAdvance n
    let bound := s1.tick + 1 - s1.delay n
    .next ((s1.dropBadNeurons n bound).sendEvents n bound)

/-! ### Host-fed ingest -/

/-- Is every byte of a slot in `[lo, hi)` zero (R424)? -/
def slotZero (d : Slot) (lo hi : Nat) : Bool := slotField d lo (hi - lo) == 0

/-- Common checks of an ingest descriptor (R424, Table HOST-6). -/
def ingestBad (d : Slot) (op lo hi : Nat) : Bool :=
  slotField d 0 1 != op || !slotZero d 1 4 || slotField d 8 8 % 8 != 0 || slotField d 16 4 < lo || hi < slotField d 16 4 ||
    !slotZero d 22 56

/-- Space for events in the reorder buffer (R103). -/
def reorderCap : Nat := 33554432

/-- Events held in the reorder buffer: accepted bundle events not yet released (R103). -/
def State.reorderFill (s : State) : Nat :=
  (s.streams.map (fun e => if s.source e.1 = 5 then e.2.events.length else 0)).sum

/-- What becomes of one bundle event (R101, R102). -/
inductive EventFate where
  | badBase
  | bad (n : Nat)
  | late (n tick : Nat)
  | accept (n tick neuron : Nat)
  deriving DecidableEq, Repr

/-- Judge event bytes of a bundle on channel-0 stream `n0`. -/
def State.judgeEvent (s : State) (n0 channels base : Nat) (ev : List Byte) : EventFate :=
  let ch := sliceLE ev 6 1
  let neuron := sliceLE ev 4 2 % 1024
  let ts := base + sliceLE ev 0 4
  let n := n0 + ch
  if channels ≤ ch then .badBase
  else if !(s.enabled n && s.source n == 5) then .bad n
  else if s.inputCount n ≤ neuron || !s.ticking || ts < s.t0 then .bad n
  else
    let t := s.tickOf ts
    if s.tick + 65536 < t then .bad n
    else if t + s.delay n ≤ s.tick then .late n t
    else .accept n t neuron

/-- Apply one event's fate. -/
def State.applyEvent (s : State) (n0 : Nat) : EventFate → State
  | .badBase => let st := s.stream n0; s.setStream n0 { st with badev := sat32 (st.badev + 1) }
  | .bad n => let st := s.stream n; s.setStream n { st with badev := sat32 (st.badev + 1) }
  | .late n t => s.setStream n ((s.stream n).lateEvent (s.winOf n t))
  | .accept n t k =>
    let st := s.stream n
    let st1 := if st.nextWin.isNone then { st with nextWin := some (s.winAtOrAfter n t) } else st
    if s.takes n t then s.setStream n (st1.addEvent (s.winOf n t) t k)
    else s.setStream n { st with badev := sat32 (st.badev + 1) }

/-- Split the events of a bundle. -/
def bundleEvents (payload : List Byte) (count : Nat) : List (List Byte) :=
  (List.range count).map (fun i => (payload.drop (32 + 8 * i)).take 8)

/-- Set SOURCE_LOSS and TIME_SUSPECT in every window of the bundle's streams that overlaps its span (R104). -/
def State.bundleFlags (s : State) (n0 channels bits ts0 ts1 : Nat) : State :=
  if bits = 0 || !s.ticking || ts1 < s.t0 then s
  else (List.range channels).foldl (fun a c =>
    let n := n0 + c
    if !(a.enabled n && a.source n == 5) then a
    else
      let w0 := a.winOf n (a.tickOf (max ts0 a.t0))
      let w1 := a.winOf n (a.tickOf ts1)
      a.setStream n ((a.stream n).flagSpan w0 bits (w1 + 1 - w0))) s

/-- Check and take a bundle whose descriptor is good: the completion status, RESULT and the state (R99 to R104). -/
def State.takeBundle (s : State) (n0 len : Nat) (payload : List Byte) : Nat × Nat × State :=
  let count := sliceLE payload 16 2
  let ver := sliceLE payload 2 1
  let channels := sliceLE payload 3 1
  let seq := sliceLE payload 24 4
  let base := sliceLE payload 8 8
  let evs := bundleEvents payload count
  let crcBad := ver == 3 && crc32 (payload.take 28 ++ [0, 0, 0, 0] ++ payload.drop 32) != sliceLE payload 28 4
  if sliceLE payload 0 2 != 0x7D01 || !(ver == 2 || ver == 3) || channels == 0 || 4 < channels || len != 32 + 8 * count ||
      8191 < count || 65535 < n0 + channels - 1 || crcBad then (stBAD_FORMAT, 0, s)
  else if (s.stream n0).seq = some seq then (stDUPLICATE, 0, s)
  else
    let fates := evs.map (s.judgeEvent n0 channels base)
    let acc := fates.filter (fun f => match f with | .accept _ _ _ => true | _ => false)
    if reorderCap < s.reorderFill + acc.length then (stNO_SPACE, 0, s.alarm F.ADIT_ALARM_REORDER_FULL n0)
    else
      let k := match (s.stream n0).seq with | none => 1 | some q => (seq + 2 ^ 32 - q) % 2 ^ 32
      let st := s.stream n0
      let s1 := s.setStream n0 { st with seq := some seq, badev := if 2 ≤ k && k < 2 ^ 31 then sat32 (st.badev + 1) else st.badev }
      let s2 := fates.foldl (fun a f => a.applyEvent n0 f) s1
      let fl := sliceLE payload 18 2
      let bits := (if fl.testBit 1 then 2 ^ afSOURCE_LOSS else 0) + (if fl.testBit 0 then 2 ^ afTIME_SUSPECT else 0)
      let ts1 := (evs.map (fun e => base + sliceLE e 0 4)).foldl max base
      let s3 := s2.bundleFlags n0 channels bits base ts1
      let s4 := (List.range channels).foldl (fun a c => a.setStream (n0 + c) { a.stream (n0 + c) with lastWake := sliceLE payload 20 4 }) s3
      (stOK, acc.length, s4)

/-- BUNDLE (R100): the taken ingest descriptor's payload, or a failed read of it. -/
def execBundle (ring : Ring) (idx : Word) (payload : List Byte) (dmaOk : Bool) (s : State) : Out :=
  let r := ring.toNat
  let i := idx.toNat
  match s.takenDesc r i 0 with
  | none => .next s
  | some d =>
    if ingestBad d 1 32 65560 then .next (s.complete r i stBAD_DESC 0 0 0)
    else if !s.bit F.ADIT_STATUS_HOST_INGEST_READY then .next (s.complete r i stNOT_READY 0 0 0)
    else if !dmaOk then .next (s.dmaError.complete r i stDMA_ERR 0 0 0)
    else
      let (st, res, s1) := s.takeBundle (slotField d 20 2) (slotField d 16 4) payload
      .next (s1.complete r i st 0 0 res)

/-- Samples of a frame, oldest first (Table ADIT-8). -/
def frameSamples (wide : Bool) (payload : List Byte) (count : Nat) : List (BitVec 24) :=
  (List.range count).map (fun i =>
    if wide then BitVec.ofNat 24 (sliceLE payload (32 + 3 * i) 3) else BitVec.ofNat 24 (sliceLE payload (32 + 2 * i) 2))

/-- Feed a frame's samples, those stamped before `x` being discarded and counted (R105). -/
def State.feedFrame (s : State) (n shift period ts x : Nat) (wide : Bool) : List (BitVec 24) → State
  | [] => s
  | b :: t =>
    let s1 := if ts < x then s.setStream n { s.stream n with late := sat32 ((s.stream n).late + 1) }
      else let (v, full) := sampleValue wide b; s.feed n v shift full false ts
    s1.feedFrame n shift period (ts + period) x wide t

/-- Check and take a frame (R105): status, RESULT and the state. -/
def State.takeFrame (s : State) (len : Nat) (payload : List Byte) : Nat × Nat × State :=
  let fmt := sliceLE payload 2 1
  let g := sliceLE payload 3 1
  let n := sliceLE payload 4 2
  let count := sliceLE payload 6 2
  let ts := sliceLE payload 8 8
  let per := sliceLE payload 16 4
  let st := s.stream n
  let wrongPer := match st.frame with | none => false | some (p, _, _) => p != per
  let bytes := if fmt = 1 then 3 * count else 2 * count
  if !(s.enabled n && s.source n == 4) || sliceLE payload 0 2 != 0xF5A1 || 1 < fmt || 8 < g || count == 0 || 4096 < count ||
      sliceLE payload 20 12 != 0 || len != 32 + bytes then
    (stBAD_FORMAT, 0, s.setStream n { st with badev := sat32 (st.badev + count) })
  else if wrongPer then (stBAD_FORMAT, 0, s)
  else
    let (x, g0) := match st.frame with | none => (ts, g) | some (_, e, q) => (e, q)
    let s1 := if g ≠ g0 then s.gainChange n else s
    let near := 2 * ts ≤ 2 * x + per ∧ 2 * x ≤ 2 * ts + per
    let s2 := if near ∨ ts < x then s1 else s1.fillGap n g per x ((2 * (ts - x) + per) / (2 * per))
    let s3 := s2.feedFrame n g per ts (if near then 0 else x) (fmt == 1) (frameSamples (fmt == 1) payload count)
    (stOK, count, s3.setStream n { s3.stream n with frame := some (per, ts + count * per, g) })

/-- FRAME (R105): the taken ingest descriptor's payload, or a failed read of it. -/
def execFrame (ring : Ring) (idx : Word) (payload : List Byte) (dmaOk : Bool) (s : State) : Out :=
  let r := ring.toNat
  let i := idx.toNat
  match s.takenDesc r i 0 with
  | none => .next s
  | some d =>
    if ingestBad d 2 32 12320 || !slotZero d 20 22 then .next (s.complete r i stBAD_DESC 0 0 0)
    else if !s.bit F.ADIT_STATUS_HOST_INGEST_READY then .next (s.complete r i stNOT_READY 0 0 0)
    else if !dmaOk then .next (s.dmaError.complete r i stDMA_ERR 0 0 0)
    else
      let (st, res, s1) := s.takeFrame (slotField d 16 4) payload
      .next (s1.complete r i st 0 0 res)

/-! ### Replay -/

/-- One replayed block on the export ring: timestamp, the block, six zero bytes (Table HOST-14). -/
def blockExport (b : Block) : List Byte := bytesLE 8 b.ts ++ bytesLE 18 b.bytes.toNat ++ [0, 0, 0, 0, 0, 0]

/-- REPLAY_READ (R121): the retained whole blocks of one stream that hold a sample of [ts_a, ts_b), oldest first. The
first `overrun` of them were overwritten while they were read and are omitted. While a plan is in progress the
read completes with OVERRUN (Table ADIT-16). -/
def execReplayRead (ring : Ring) (idx : Word) (overrun : Nat) (s : State) : Out :=
  let r := ring.toNat
  let i := idx.toNat
  match s.takenDesc r i 0 with
  | none => .next s
  | some d =>
    let n := slotField d 20 2
    let e := slotField d 22 1
    let a := slotField d 24 8
    let b := slotField d 32 8
    if slotField d 0 1 != 3 || !slotZero d 1 4 || !slotZero d 8 20 || !slotZero d 23 24 || !slotZero d 40 56 || !s.isExportRing e then
      .next (s.complete r i stBAD_DESC 0 0 0)
    else if s.bit F.ADIT_REPLAY_CTRL_PLANNING then .next (s.complete r i stOK cfOVERRUN 0 0)
    else
      let per := s.procPeriod n
      let all := (s.stream n).blocks.reverse
      let hit := all.filter (fun k => decide (k.ts < b) && decide (a < k.ts + 16 * per))
      let lost := min overrun hit.length
      let sent := hit.drop lost
      let newest := match (s.stream n).blocks with | [] => 0 | k :: _ => k.ts + 16 * per
      let cf := (if 0 < lost then cfOVERRUN else 0) + (if newest < b then cfINCOMPLETE else 0)
      let out := (sent.map blockExport).flatten
      .next (if sent.isEmpty then s.complete r i stOK cf (min lost 65535) 0
        else s.exportOut e { ring := r, idx := i, tag := slotField d 4 4, bytes := out, cflags := cf, aux := min lost 65535, result := sent.length })

/-- Blocks of the replay buffer (R119). -/
def replayBlocks : Nat := 954437176

/-- PLAN (R119): all history is discarded and the division among the sampled streams enabled now begins. -/
def execPlan (s : State) : Out := gate 2 s (
  let set := s.enabledStreams.filter (fun n => s.source n ≤ 4)
  let s1 := (s.streams.map Prod.fst).foldl (fun a n => a.setStream n { a.stream n with cap := 0, blocks := [] }) s
  let s2 : State := { s1 with planSet := set }
  .next (((s2.setBit F.ADIT_REPLAY_CTRL_PLANNING true).setBit F.ADIT_REPLAY_CTRL_PLANNED false).setBit F.ADIT_STATUS_REPLAY_READY false))

/-- fs_out of a stream in samples per second, as a fraction 10^8 / (PERIOD × M); 0 while the period is unknown. -/
def State.fsOut (s : State) (n : Nat) : Rat :=
  let p := if s.source n = 6 then s.procPeriod (s.fld (F.ADIT_STREAM_NET_REPLAY_SRC n)) else s.procPeriod n
  if p = 0 then 0 else (100000000 : Rat) / p

/-- PLAN_DONE (R119): each stream of the plan holds floor(blocks × fs_out / Σ fs_out) blocks. -/
def execPlanDone (s : State) : Out :=
  if !s.bit F.ADIT_REPLAY_CTRL_PLANNING then .next s
  else
    let total := (s.planSet.map s.fsOut).sum
    let s1 := s.planSet.foldl (fun a n => a.setStream n { a.stream n with
      cap := if total = 0 then 0 else ((replayBlocks : Rat) * s.fsOut n / total).floor.toNat }) s
    let s2 : State := { s1 with planSet := [] }
    .next (((s2.setBit F.ADIT_REPLAY_CTRL_PLANNING false).setBit F.ADIT_REPLAY_CTRL_PLANNED true).setBit F.ADIT_STATUS_REPLAY_READY
      s2.power.hbm)

/-! ### Enabling, stopping, changing -/

/-- Σ of a rate over streams. -/
def rateSum (f : Nat → Rat) (l : List Nat) : Rat := (l.map f).sum

/-- fs_in of a port stream. -/
def State.fsIn (s : State) (n : Nat) : Rat :=
  let p := s.fld (F.ADIT_PORT_PERIOD_PERIOD (s.source n))
  if p = 0 then 0 else (100000000 : Rat) / p

/-- Does enabling stream `n`, with its CFG word already stored, break a limit of R87, R75, R34, R102 or R122? -/
def State.enableBroken (s : State) (n : Nat) : Bool :=
  let src := s.source n
  let w := s.winLen n
  let g := s.fld (F.ADIT_STREAM_TIME_G n)
  let watch := s.bit (F.ADIT_STREAM_CFG_WATCH n)
  let wp := w * s.tickPeriod
  let others := s.enabledStreams.filter (· != n)
  let all := n :: others
  let sampled := src ≤ 4 || src == 6
  let port := all.filter (fun m => s.source m == src)
  let nn := s.fld (F.ADIT_STREAM_NET_N n)
  let settings := w == 0 || g == 0 || w % g != 0 || decide (256 < w / g) || decide (100000000 < wp) ||
    decide (wp < if watch then 100000 else 10000000) || decide (w ≤ s.phase n) || nn == 0 || decide (1024 < nn) ||
    (isPortSource src && s.delay n != 0) || src == 7
  let watches := watch && decide (256 ≤ (others.filter (fun m => s.bit (F.ADIT_STREAM_CFG_WATCH m))).length)
  let known := s.fsOut n ≠ 0
  let rates := sampled && (!s.profileOk (s.streamProfile n) ||
    (isPortSource src && s.fld (F.ADIT_PORT_PERIOD_PERIOD src) == 0) ||
    (decide known && (decide (s.fsOut n < 1000) || decide (40000 < s.fsOut n))) ||
    (isPortSource src && (decide (163840000 < rateSum s.fsOut port) || decide (2621440000 < rateSum s.fsIn port))) ||
    decide (655360000 < rateSum s.fsOut (all.filter (fun m => s.source m ≤ 4 || s.source m == 6))))
  let rep := src == 6 &&
    (let b := (s.stream (s.fld (F.ADIT_STREAM_NET_REPLAY_SRC n))).cap
     decide (b * 16 * s.procPeriod (s.fld (F.ADIT_STREAM_NET_REPLAY_SRC n)) ≤ s.delay n * s.tickPeriod))
  settings || watches || rates || rep

/-- STREAM_ENABLE (R87, R124): a write of EN = 1. On a stream with a stop pending it cancels the stop; on a stopped stream
the word's fields are stored, the limits are checked, and the stream starts, suspended below Run, with a synchronising reset and a
background warm-up, or the EN bit is refused. -/
def execStreamEnable (stream : Stream) (cfg : Word) (s : State) : Out := gate 2 s (
  let n := stream.toNat
  let st := s.stream n
  if s.enabled n then .next (s.setStream n { st with stopWin := none })
  else
    let s1 := s.setReg (R.ADIT_STREAM_CFG n) (cfg &&& 0x5FF03FFF#32)
    if st.retired || s1.enableBroken n then .next (s1.alarm F.ADIT_ALARM_RATE_REFUSED n)
    else
      let s2 := s1.setBit (F.ADIT_STREAM_CFG_EN n) true
      let c := st.chain.syncReset (s2.chainCfg n).1 true
      .next (s2.setStream n { st with
        stopWin := none, suspending := false, suspended := decide (s.fld F.POWER_STATUS_STATE ≠ 0), nextWin := none, wflags := [], owed := 0, chain := c, seq := none,
        frame := none, profPend := none, replayPos := s.now - s.delay n * s.tickPeriod }))

/-- STREAM_STOP (R124): a write of EN = 0 makes the stop pending until the end of the window in which it comes. -/
def execStreamStop (stream : Stream) (s : State) : Out := gate 2 s (
  let n := stream.toNat
  let st := s.stream n
  if !s.enabled n || st.stopWin.isSome then .next s
  else .next (s.setStream n { st with stopWin := some (s.winOf n s.tick) }))

/-- Discard a stream's undelivered events, counting bundle events in BADEV (R101, R124). -/
def StreamSt.discard (st : StreamSt) (bundled : Bool) : StreamSt :=
  { st with events := [], badev := if bundled then sat32 (st.badev + st.events.length) else st.badev }

/-- STREAM_STOP_EFFECT (R124): once the stop's window has closed, EN becomes 0 and what came after it is discarded. -/
def execStreamStopEffect (stream : Stream) (s : State) : Out :=
  let n := stream.toNat
  let st := s.stream n
  match st.stopWin with
  | none => .next s
  | some w =>
    let ended := match st.nextWin with
      | none => decide (s.winEnd n w ≤ s.tick)
      | some nw => decide (w < nw) && decide (s.winEnd n w ≤ s.tick)
    if !ended then .next s
    else .next ((s.setStream n { st.discard (s.source n == 5) with stopWin := none, nextWin := none, wflags := [], owed := 0 }).setBit
      (F.ADIT_STREAM_CFG_EN n) false)

/-- ABORT (R124): at once, whether or not a stop is pending: the window in progress is reported SKIPPED, reason ABORTED. -/
def execAbort (stream : Stream) (s : State) : Out := gate 2 s (
  let n := stream.toNat
  if !s.enabled n then .next s
  else
    let s1 := s.skipOpen n skABORTED
    let st := s1.stream n
    .next ((s1.setStream n { st with
      events := [], badev := sat32 (st.badev + st.events.length), stopWin := none, nextWin := none, wflags := [], owed := 0 }).setBit
      (F.ADIT_STREAM_CFG_EN n) false))

/-- PROFILE_CHANGE (R125): held until the stream's next window boundary while it is enabled, at once otherwise. -/
def execProfileChange (stream : Stream) (profile : BitVec 6) (s : State) : Out := gate 2 s (
  let n := stream.toNat
  if s.enabled n then .next (s.setStream n { s.stream n with profPend := some (profile.toNat, s.winOf n s.tick) })
  else .next (s.setFld (F.ADIT_STREAM_CFG_PROFILE n) profile.toNat))

/-- PROFILE_CHANGE_EFFECT (R125): at the boundary, with a synchronising reset and a background warm-up. -/
def execProfileChangeEffect (stream : Stream) (s : State) : Out :=
  let n := stream.toNat
  match (s.stream n).profPend with
  | none => .next s
  | some (q, w) =>
    if s.winOf n s.tick ≤ w then .next s
    else
      let s1 := s.setFld (F.ADIT_STREAM_CFG_PROFILE n) q
      .next ((s1.setStream n { s1.stream n with profPend := none }).syncReset n true)

/-- PROFILE_WRITE (R125, R129): a word of profile memory, ignored with PROFILE_BUSY while an enabled stream uses the profile. -/
def execProfileWrite (offset : BitVec 17) (value : Word) (s : State) : Out := gate 2 s (
  let q := offset.toNat / 2048
  if s.enabledStreams.any (fun n => s.streamProfile n == q && s.source n != 5) then .next (s.alarm F.ADIT_ALARM_PROFILE_BUSY q)
  else if 1040 ≤ offset.toNat % 2048 then .next s
  else .next (s.setReg (0x280000 + 4 * offset.toNat) value))

/-- Do both lane halves of a port hold a retired lane (R97)? -/
def State.lanesSpent (s : State) (p : Nat) : Bool :=
  let r := s.fld (F.ADIT_PORT_STATUS_LANE_RETIRED p)
  r &&& 0x0F != 0 && r &&& 0xF0 != 0

/-- PORT_ENABLE (R123, R97); the port's PRBS MODE returns to 0 (R538). -/
def execPortEnable (port : Port) (s : State) : Out := gate 2 s (
  let p := port.toNat
  if s.lanesSpent p then .next (s.alarm F.ADIT_ALARM_RATE_REFUSED p)
  else .next (((s.setBit (F.ADIT_PORT_CTRL_EN p) true).setPort p { s.port p with stopping := false }).prbsOff p))

/-- PORT_DISABLE (R123): intake stops at the next round boundary. -/
def execPortDisable (port : Port) (s : State) : Out := gate 2 s (
  let p := port.toNat
  if !s.bit (F.ADIT_PORT_CTRL_EN p) then .next s
  else .next ((s.setBit (F.ADIT_PORT_CTRL_EN p) false).setPort p { s.port p with stopping := true }))

/-- PORT_INTAKE_STOP (R123): at the round boundary. -/
def execPortIntakeStop (port : Port) (s : State) : Out :=
  let p := port.toNat
  if !(s.port p).stopping then .next s
  else .next ((s.setPort p { s.port p with stopping := false }).suspendPort p)

/-- A suspended stream resumes with a synchronising reset, once its port is enabled and READY; a replay stream resumes as if EN
had been set now (R86, R123, Table MODES-2). -/
def State.resumeStream (s : State) (n : Nat) : State :=
  let st := s.stream n
  let src := s.source n
  if !st.suspended || (isPortSource src && !(s.bit (F.ADIT_PORT_CTRL_EN src) && s.bit (F.ADIT_PORT_STATUS_READY src))) then s
  else
    let pos := if src = 6 then s.now - s.delay n * s.tickPeriod else st.replayPos
    (s.setStream n { st with suspended := false, nextWin := none, wflags := [], owed := 0, events := [], replayPos := pos }).syncReset n false

/-- STREAM_RESUME (R86, R123): in Run, when its port is enabled again and READY. -/
def execStreamResume (stream : Stream) (s : State) : Out :=
  if s.fld F.POWER_STATUS_STATE ≠ 0 then .next s else .next (s.resumeStream stream.toNat)

/-- RESYNC (R92, Table ADIT-19): the port realigns on the next SYSREF edge. -/
def execResync (port : Port) (s : State) : Out := gate 2 s (
  .next (s.unalign port.toNat))

/-- LANES_WRITE (R97, R123): refused when a lane it names is retired; otherwise it takes effect when EN was 0. -/
def execLanesWrite (port : Port) (lanes : BitVec 2) (s : State) : Out := gate 2 s (
  let p := port.toNat
  if laneMask lanes.toNat &&& s.fld (F.ADIT_PORT_STATUS_LANE_RETIRED p) != 0 then .next (s.alarm F.ADIT_ALARM_RATE_REFUSED p)
  else if s.bit (F.ADIT_PORT_CTRL_EN p) then .next s
  else .next ((s.setFld (F.ADIT_PORT_CTRL_LANES p) lanes.toNat).portReady p))

/-- Give every band a free background value: it was not read intact (R126). -/
def freeBackground (bands : List Band) (k : Nat) : List Band :=
  match bands with
  | [] => []
  | b :: t => { b with bg := ((Config.freeNat k % 32768 : Nat) : Int) } :: freeBackground t (k + 1)

/-- CTX_FAULT (R126): a transient fault resets the stream in its context; a permanent one retires the context, the stream
moving to a spare at its next window boundary, or retires the stream when no spare remains. -/
def execCtxFault (stream : Stream) (hard intact : Bool) (s : State) : Out :=
  let n := stream.toNat
  let st := s.stream n
  let ctx := st.ctx.getD n
  let (perm, s1) := s.recordFault (.context ctx) hard
  if !perm then
    let s2 := s1.syncReset n false
    if intact then .next s2
    else
      let c := (s2.stream n).chain
      .next { (s2.setStream n { s2.stream n with chain := { c with bands := freeBackground c.bands s2.free } }) with
        free := s2.free + c.bands.length }
  else
    let w := match st.nextWin with | some w => w | none => s.winOf n s.tick
    let sp := s1.fld F.ADIT_SPARE_CTX_SPARES
    if 0 < sp then
      let s2 := s1.setFld F.ADIT_SPARE_CTX_SPARES (sp - 1)
      let st1 := st.flagOpen w (2 ^ afCTX_MOVED)
      .next ((s2.setStream n { st1 with movePend := some (66560 - sp, s.winOf n s.tick) }).alarm F.ADIT_ALARM_CTX_RETIRED n)
    else
      let s2 := s1.skipOpen n skSTREAM_RETIRED
      .next ((s2.setStream n { s2.stream n with retired := true, nextWin := none, events := [] }).alarm F.ADIT_ALARM_STREAM_RETIRED n)

/-- CTX_MOVE (R126): at the window boundary the stream runs on in the spare context; its first window there carries
CTX_MOVED. -/
def execCtxMove (stream : Stream) (s : State) : Out :=
  let n := stream.toNat
  let st := s.stream n
  match st.movePend with
  | none => .next s
  | some (c, w) =>
    if s.winOf n s.tick ≤ w then .next s
    else
      let s1 := s.setStream n (({ st with ctx := some c, movePend := none } : StreamSt).flagOpen (s.winOf n s.tick) (2 ^ afCTX_MOVED))
      .next (s1.syncReset n true)

end Sys2Proof.Machine
end

