-- ==== Sys2Proof/Machine/LanternOps.lean ====
section
/-! DEFINITION.  Shared operations of Lantern: when its firmware runs, mailbox channels, replies and notices (R450 to R464), and
the passing of time. -/

namespace Sys2Proof.Machine

/-! ### When Lantern runs -/

/-- Does Lantern's firmware run: READY, not in a bank switch, and not in Deep sleep (Table POWER-1)? -/
def State.lanternRuns (s : State) : Bool :=
  s.alive && s.bit F.LANTERN_STATUS_READY && !s.bit F.LANTERN_STATUS_SWITCHING && s.powerLevel != 3

/-- Recovery mode, in which the boot ROM serves the mailboxes (R449). -/
def State.recovery (s : State) : Bool := s.alive && s.bit F.LANTERN_STATUS_RECOVERY && !s.bit F.LANTERN_STATUS_SWITCHING && s.powerLevel != 3

/-- Are mailbox words read and answered? -/
def State.served (s : State) : Bool := s.lanternRuns || s.recovery

/-- Does upkeep start: Lantern schedules it, and the dies run (Table POWER-1)? -/
def State.upkeepRuns (s : State) : Bool := s.lanternRuns && decide (s.powerLevel ≤ 1)

/-- New batches, upkeep writes and staging fills are held while a journal flush runs or PFW_N stays low (R490, R491). -/
def State.writesHeld (s : State) : Bool :=
  s.bit F.POWER_STATUS_PFW || s.bit F.POWER_STATUS_FLUSHING || s.bit F.POWER_STATUS_HELD

/-! ### Channels -/

def chanDefault (_ : Nat) : ChanSt := {}
def State.chan (s : State) (n : Nat) : ChanSt := tget chanDefault s.lantern.chans n
def State.setChan (s : State) (n : Nat) (c : ChanSt) : State :=
  { s with lantern := { s.lantern with chans := tset chanDefault s.lantern.chans n c } }

/-- Hold words for a channel's outbound mailbox (R457). -/
def State.holdWords (s : State) (n : Nat) (ws : List Word) : State :=
  s.setChan n { s.chan n with replies := (s.chan n).replies ++ ws }

/-- Reply statuses (Table LANTERN-5). -/
def rsOK : Nat := 0x00
def rsBAD_CMD : Nat := 0x01
def rsBAD_ARG : Nat := 0x02
def rsBUSY : Nat := 0x03
def rsREFUSED : Nat := 0x04
def rsNOT_READY : Nat := 0x05
def rsDMA_ERR : Nat := 0x06
def rsSIG_FAIL : Nat := 0x07
def rsSVN_LOW : Nat := 0x08
def rsECC : Nat := 0x09
def rsFENCED : Nat := 0x0A
def rsSTATE : Nat := 0x0B
def rsNO_SPACE : Nat := 0x0C
def rsCOLLISION : Nat := 0x0D

/-- A reply's words (Table LANTERN-3). -/
def replyWords (status tag : Nat) (uninit : Bool) (res : List Nat) : List Word :=
  BitVec.ofNat 32 (status * 2 ^ 24 + res.length * 2 ^ 20 + (if uninit then 2 ^ 19 else 0) + tag % 65536) :: res.map (BitVec.ofNat 32)

/-- Answer a command. -/
def State.reply (s : State) (n status tag : Nat) (res : List Nat) : State := s.holdWords n (replyWords status tag false res)

/-- Answer a command that was answered later: the channel is free again. A discarded one is answered nowhere (R450). -/
def State.answer (s : State) (w : Waiting) (status : Nat) (res : List Nat) : State :=
  match w.chan with
  | none => s
  | some n => (s.setChan n { s.chan n with busy := false }).reply n status w.tag res

/-- Notices (Table LANTERN-6), held for channel 31. -/
def ncSTARTED : Nat := 0x80
def ncRESTARTED : Nat := 0x81
def ncROLLED_BACK : Nat := 0x82
def ncUPDATE_LOST : Nat := 0x83

def State.notice (s : State) (code : Nat) (ws : List Nat) : State := s.holdWords 31 (replyWords code 0 false ws)

/-- The word that names an update in a notice: 0 the firmware, 1 + l library l. -/
def updateWord (u : Nat) : Nat := if u = 0 then 0 else 2 ^ 31 + (u - 1)

/-- A channel enters resync (R459): its queued words and partial command are discarded. -/
def State.enterResync (s : State) (n : Nat) : State :=
  ((s.setChan n { s.chan n with queue := [], resync := true }).bump F.LANTERN_MBX_DROP_COUNT 1).alarm F.LANTERN_ALARM_MBX_DROP n

/-! ### Time -/

/-- Milliseconds, and other spans of `unit`, that pass while a clock goes from `a` to `b`. -/
def spans (unit a b : Nat) : Nat := b / unit - a / unit

/-- Timestamp units gained by the slew in progress over `n` units: 1 in 10,000 (R524). -/
def slewGain (slew : Int) (sub n : Nat) : Int :=
  let k : Int := ((sub + n) / 10000 : Nat)
  if 0 ≤ slew then min slew k else max slew (-k)

/-- `n` units of 10 ns pass. The timestamp counter runs while the part is powered, corrected by the slew in progress; powered time,
the heartbeat of running firmware and the wake timer count with the part's own clock. -/
def State.elapse (s : State) (n : Nat) : State :=
  let c0 := s.power.clock
  let c1 := c0 + n
  let t := s.power.timerLeft
  let s1 : State := { s with power := { s.power with clock := c1, timerLeft := t - n, timerDue := s.power.timerDue || (0 < t && t ≤ n) } }
  let s2 := if t = 0 then s1 else s1.setFld F.POWER_WAKE_TIMER_SECONDS ((t - n + 99999999) / 100000000)
  let s5 := fun (a : State) => if s.power.off || s.power.tripped then a else a.bump64 R.POWER_UPTIME_LO (spans 100000 c0 c1)
  if !s.alive then s5 s2
  else
    let ms := spans 100000 c0 c1
    let g := slewGain s.test.slew s.test.slewSub n
    let s3 := s2.set64 R.TEST_TIME_NOW_LO (s.now + ((n : Int) + g).toNat)
    let s4 : State := { s3 with test := { s3.test with slew := s3.test.slew - g, slewSub := (s3.test.slewSub + n) % 10000 } }
    let s6 := s5 s4
    if s.lanternRuns then s6.setFld F.LANTERN_STATUS_HEARTBEAT (s.fld F.LANTERN_STATUS_HEARTBEAT + ms) else s6

end Sys2Proof.Machine
end

