-- ==== Sys2Proof/Machine/Gallery.lean ====
section
/-! DEFINITION.  The meanings of Gallery's commands: messages at a core's router, core groups, the stream map, fencing
and spares, snapshots (04_gallery_fabric R130 to R163). -/

namespace Sys2Proof.Machine

/-! ### Messages at a core's router -/

/-- MSG_EJECT (R142, R146): the oldest message of its sender to a core reaches that core's router. -/
def execMsgEject (msg : Msg) (s : State) : Out :=
  if !s.oldest msg then .next s
  else match endpoint msg.dest.toNat with
    | .core l => .next ((s.unlist msg).arrive (s.physOf l) msg)
    | _ => .next s

/-- The ejection wait in 10 ns units; values below 100 act as 100 (Table GAL-14). -/
def State.ejectWait (s : State) : Nat := max 100 (s.fld F.GAL_EJECT_WAIT_WAIT)

/-- EJECT_WAIT_EXPIRY (R142, R143): the message at the head of the core port is dropped and counted, LOSS is set, and the
message behind it may eject. -/
def execEjectWaitExpiry (core : CoreId) (s : State) : Out :=
  let c := core.val
  let k := s.core c
  match k.portQ with
  | [] => .next s
  | (t, _) :: r =>
    if s.now < t + s.ejectWait then .next s
    else
      let k1 := { k with portQ := [], drop := sat32 (k.drop + 1), loss := true }.drain r
      .next (((s.setCore c k1).bump64 R.GAL_TOTAL_DROP_LO 1).alarm F.GAL_ALARM_EVENT_DROP (k.logical.getD 0x1FFF))

/-! ### HBM (R442, R443) -/

/-- Bytes `[a, a + n)` of HBM; an unwritten page reads as zero. -/
def State.hbmBytes (s : State) (a n : Nat) : List Byte :=
  (List.range n).map (fun i => if tget (fun _ => false) s.hbmPages ((a + i) / 4096) then tget (fun _ => 0#8) s.hbm (a + i) else 0)

/-- The 4,096-byte pages of a range. -/
def pagesOf (a n : Nat) : List Nat := if n = 0 then [] else (List.range ((a + n - 1) / 4096 + 1 - a / 4096)).map (fun i => a / 4096 + i)

/-- Does a range of HBM touch an unwritten page? -/
def State.hbmUninit (s : State) (a n : Nat) : Bool := (pagesOf a n).any (fun p => !tget (fun _ => false) s.hbmPages p)

/-- Count a read of unwritten pages; a host-bound reader also sets HOST_ALARM.HBM_UNINIT (R443). -/
def State.noteHbmRead (s : State) (a n : Nat) (host : Bool) : State :=
  let k := (pagesOf a n).countP (fun p => !tget (fun _ => false) s.hbmPages p)
  if k = 0 then s
  else
    let s1 := s.bump F.HOST_HBM_UNINIT_COUNT k
    if host then s1.alarm F.HOST_ALARM_HBM_UNINIT 0 else s1

/-- Write bytes of HBM: the pages are marked written, and the rest of a new page is zero (R443). -/
def State.hbmWrite (s : State) (a : Nat) (bs : List Byte) : State :=
  let fresh := (pagesOf a bs.length).filter (fun p => !tget (fun _ => false) s.hbmPages p)
  let base := tfilter (fun x => !fresh.contains (x / 4096)) s.hbm
  { s with
    hbm := (List.range bs.length).foldl (fun m i => tset (fun _ => 0#8) m (a + i) (bs.getD i 0)) base
    hbmPages := fresh.foldl (fun m p => tset (fun _ => false) m p true) s.hbmPages }

/-- FETCH_REPLY (R149): the reply of an outstanding fetch is written into SRAM, marks the words written and sets DONE. A
fenced core's router sinks it (Table GAL-5). -/
def execFetchReply (core : CoreId) (slot : BitVec 2) (s : State) : Out :=
  let c := core.val
  let k := s.core c
  match k.fetches.find? (fun f => f.1 == slot.toNat) with
  | none => .next s
  | some (_, f) =>
    let rest := k.fetches.filter (fun g => g.1 != slot.toNat)
    if k.fenced then .next ((s.setCore c { k with fetches := rest, sunk := sat32 (k.sunk + 1) }).bump64 R.GAL_TOTAL_SUNK_LO 1)
    else
      let k1 := { k with fetches := rest, fetchDone := orBit k.fetchDone slot.toNat }.store f.land (s.hbmBytes f.hbm f.len)
      .next ((s.setCore c k1).noteHbmRead f.hbm f.len false)

/-! ### Core groups (R151, Table GAL-8) -/

/-- Refuse a group command or stream map write. -/
def State.galRefuse (s : State) (unit : Nat) : State := s.alarm F.GAL_ALARM_CMD_REFUSED unit

/-- Does a stream have windows to close or to wait for: enabled, with a next window? -/
def State.hasWindow (s : State) (n : Nat) : Bool := s.enabled n && (s.stream n).nextWin.isSome

def State.park (s : State) (n : Nat) : State := s.setBit (F.GAL_STREAM_MAP_PARKED n) true

/-- A group command: the block must be reached, and below Run every group command is refused (R479). -/
def groupGate (group : Group) (s : State) (k : Out) : Out :=
  gate 3 s (if s.power.quiet then .next (s.galRefuse group.toNat) else k)

/-- STOP (R151): STATE changes at once; a stream with no window to close is parked at once. -/
def execStop (group : Group) (s : State) : Out := groupGate group s (
  let g := group.toNat
  if s.groupState g ≠ gsRUNNING ∨ (s.grp g).pend.isSome then .next (s.galRefuse g)
  else
    let idle := (s.groupStreams g).filter (fun n => !s.hasWindow n)
    .next (idle.foldl (fun a n => a.park n) (s.setGroupState g gsSTOPPING)))

/-- STOPPING_DONE (R151): every stream of the group is parked; the group is IDLE and its cores halt at the next tick
boundary. -/
def execStoppingDone (group : Group) (s : State) : Out :=
  let g := group.toNat
  if s.groupState g ≠ gsSTOPPING ∨ (s.groupStreams g).any (fun n => !s.bit (F.GAL_STREAM_MAP_PARKED n)) then .next s
  else .next ((s.setGroupState g gsIDLE).setGrp g { s.grp g with halting := true })

/-- A command that waits for the next tick boundary: held pending in the state it is legal in, else refused. -/
def State.holdCmd (s : State) (g cmd st : Nat) : State :=
  if s.groupState g ≠ st ∨ (s.grp g).pend.isSome then s.galRefuse g
  else s.setGrp g { s.grp g with pend := some cmd }

/-- START (R151): refused while LOADED is 0. -/
def execStart (group : Group) (s : State) : Out := groupGate group s (
  let g := group.toNat
  if !s.bit (F.GAL_GROUP_STATUS_LOADED g) then .next (s.galRefuse g) else .next (s.holdCmd g 2 gsIDLE))

/-- Send a group to TEST (R151): every core is reset, and LOADED falls (Table GAL-16). -/
def State.toTest (s : State) (g : Nat) : State :=
  let s1 := (s.setGroupState g gsTEST).setBit (F.GAL_GROUP_STATUS_LOADED g) false
  (groupCoresAt g).foldl (fun a c => a.setCore c ((a.core c).resetCore s.cycleNow true))
    (s1.setGrp g { s1.grp g with halting := false, image := [], nets := [] })

/-- RESET (R151): of an IDLE or FROZEN group with no command pending. -/
def execReset (group : Group) (s : State) : Out := groupGate group s (
  let g := group.toNat
  if (s.groupState g = gsIDLE ∨ s.groupState g = gsFROZEN) ∧ (s.grp g).pend.isNone then .next (s.toTest g) else .next (s.galRefuse g))

/-- SELFTEST (R151): of an IDLE group with no command pending. -/
def execSelftest (group : Group) (s : State) : Out := groupGate group s (
  let g := group.toNat
  if s.groupState g = gsIDLE ∧ (s.grp g).pend.isNone then .next (s.toTest g) else .next (s.galRefuse g))

/-- FREEZE (R151). -/
def execFreeze (group : Group) (s : State) : Out := groupGate group s (.next (s.holdCmd group.toNat 5 gsRUNNING))

/-- THAW (R151). -/
def execThaw (group : Group) (s : State) : Out := groupGate group s (.next (s.holdCmd group.toNat 6 gsFROZEN))

/-- A stream of a starting or thawing group: it unparks at its next window boundary, or at once when it has no window
(Table GAL-8). -/
def State.unparkLater (s : State) (n : Nat) (afterStart : Bool) : State :=
  let s1 := (s.park n).setStream n { s.stream n with unpark := some afterStart }
  if s.hasWindow n then s1 else s1.boundary n s.tick

/-- START takes effect (R188): the cores of the group's 128 logical addresses start. -/
def State.startGroup (s : State) (g : Nat) : State :=
  let s1 := (s.setGroupState g gsRUNNING).setGrp g { s.grp g with pend := none, halting := false }
  let s2 := (List.range 128).foldl (fun a i => a.startCore (a.physOf (128 * g + i))) s1
  (s2.groupStreams g).foldl (fun a n => a.unparkLater n true) s2

/-- FREEZE takes effect: each stream's open window is reported SKIPPED, reason FROZEN, and the stream is parked. -/
def State.freezeGroup (s : State) (g : Nat) : State :=
  let s1 := (s.groupStreams g).foldl (fun a n => (a.skipOpen n skFROZEN).park n) s
  (s1.setGroupState g gsFROZEN).setGrp g { s1.grp g with pend := none }

/-- THAW takes effect: the cores resume, and Chisel resends the current notice (Table CHISEL-8). -/
def State.thawGroup (s : State) (g : Nat) : State :=
  let s0 := (s.setGroupState g gsRUNNING).setGrp g { s.grp g with pend := none }
  let s1 := if s0.bit F.CHISEL_STATUS_READY && 0 < s0.get64 R.CHISEL_EPOCH_LO then
      (List.range 128).foldl (fun (a : State) i => a.sendNotice (128 * g + i)) s0
    else s0
  (s1.groupStreams g).foldl (fun a n => a.unparkLater n false) s1

/-- GROUP_CMD_EFFECT (R151): at the tick boundary the pending command takes effect. -/
def execGroupCmdEffect (group : Group) (s : State) : Out :=
  let g := group.toNat
  match (s.grp g).pend with
  | some 2 => .next (s.startGroup g)
  | some 5 => .next (s.freezeGroup g)
  | some 6 => .next (s.thawGroup g)
  | _ => .next s

/-- SELFTEST_DONE (R151): a group in TEST goes to IDLE with the cores at the failed positions fenced, or to FAILED when its
router paths fail, which is a device fault (R498). -/
def execSelftestDone (group : Group) (failed : List (BitVec 8)) (routerFault : Bool) (s : State) : Out :=
  let g := group.toNat
  if s.groupState g ≠ gsTEST then .next s
  else if routerFault then .next ((s.setGroupState g gsFAILED).deviceFault 5 g)
  else
    let s1 := (groupCoresAt g).foldl (fun a c => a.setCore c { a.core c with inReset := false }) (s.setGroupState g gsIDLE)
    .next ((failed.filter (fun p => p.toNat < 132)).foldl (fun a p =>
      ((a.recordFault (.core (coreAt g p.toNat)) true).2).fence (coreAt g p.toNat)) s1)

/-- LOAD_COMPLETE (R151, R186): the load in progress ends; every core of the group holds its segments. -/
def execLoadComplete (group : Group) (s : State) : Out :=
  let g := group.toNat
  match (s.grp g).loading with
  | none => .next s
  | some (img, nets) =>
    if s.groupState g ≠ gsLOADING then .next s
    else
      let s1 := (s.setGroupState g gsIDLE).setBit (F.GAL_GROUP_STATUS_LOADED g) true
      let s2 := s1.setGrp g { s1.grp g with loading := none, image := img, nets := nets, halting := false }
      let s3 := (List.range 128).foldl (fun a i => a.loadCore (a.physOf (128 * g + i))) s2
      .next (match s3.lantern.load with
        | some j => if j.group = g then ({ s3 with lantern := { s3.lantern with load := none } } : State).answer j.who rsOK [j.bytes] else s3
        | none => s3)

/-! ### The stream map (R152) -/

def mapSgroup (v : Word) : Nat := (v.extractLsb' 16 9).toNat
def mapHome (v : Word) : Nat := (v.extractLsb' 0 7).toNat

/-- Does a map word name a sliver group and a home core that exist at this D? -/
def State.mapFits (s : State) (v : Word) : Bool := mapSgroup v < 2097152 / s.dim && mapHome v < s.groupCores

/-- A map word takes effect, with `first` the first tick of the stream's next window: a new mapping starts from rest with
WARMUP when its group runs, else the stream is parked. -/
def State.applyMap (s : State) (n : Nat) (v : Word) (first : Option Nat) : State :=
  let old := s.reg (R.GAL_STREAM_MAP n) &&& 0x81FF007F#32
  let s1 := s.setReg (R.GAL_STREAM_MAP n) (v &&& 0x81FF007F#32)
  let s2 := s1.setStream n { s1.stream n with mapPend := none }
  if !v.getLsbD 31 then s2
  else if s2.groupState (s2.coreGroup n) ≠ gsRUNNING then s2.park n
  else if old = v &&& 0x81FF007F#32 then s2
  else (s2.setStream n { s2.stream n with warmWins := s2.warmCount n, unpark := none }).startNet n first

/-- STREAM_MAP_WRITE (R152): refused when the word names what does not exist; at once for a stream with EN 0; else pending
until the stream's next window boundary. -/
def execStreamMapWrite (stream : Stream) (value : Word) (s : State) : Out := gate 3 s (
  let n := stream.toNat
  if !s.mapFits value then .next (s.galRefuse n)
  else if !s.enabled n then .next (s.applyMap n value none)
  else .next ((s.setBit (F.GAL_STREAM_MAP_PENDING n) true).setStream n { s.stream n with mapPend := some (value, s.winOf n s.tick) }))

/-- STREAM_MAP_EFFECT (R152): the window in which the word was written has closed, and the next one has begun. -/
def execStreamMapEffect (stream : Stream) (s : State) : Out :=
  let n := stream.toNat
  let st := s.stream n
  match st.mapPend, st.nextWin with
  | some (v, w0), some nw =>
    if nw ≤ w0 ∨ s.tick < s.winStart n nw then .next s
    else .next (s.applyMap n v (some (s.winStart n nw)))
  | _, _ => .next s

/-! ### Device configuration (R153) -/

/-- Is every library empty? -/
def State.librariesEmpty (s : State) : Bool := (List.range 16).all (fun l => s.fld (F.SUMP_LIB_SIZE_VALID l) == 0)

/-- Discard the program of every core group. -/
def State.discardPrograms (s : State) : State :=
  (List.range 64).foldl (fun a g =>
    (a.setBit (F.GAL_GROUP_STATUS_LOADED g) false).setGrp g { a.grp g with image := [], nets := [] }) s

/-- Every map word beyond the sliver groups of the new D takes VALID = 0 (R152). -/
def State.trimMaps (s : State) : State :=
  (s.validStreams.filter (fun n => !s.mapFits (s.reg (R.GAL_STREAM_MAP n)))).foldl (fun a n => a.setBit (F.GAL_STREAM_MAP_VALID n) false) s

/-- GAL_CFG_WRITE (R153). -/
def execGalCfgWrite (what : GalCfg) (s : State) : Out := gate 3 s (
  let busy := (List.range 64).any (fun g => gsLOADING ≤ s.groupState g)
  if busy || !s.librariesEmpty then .next (s.alarm F.GAL_ALARM_CFG_BUSY 0)
  else match what with
    | .dsel v => if s.fld F.GAL_CFG_DSEL = v.toNat then .next s
        else .next ((s.setFld F.GAL_CFG_DSEL v.toNat).trimMaps.discardPrograms)
    | .seed v => if s.seed = v then .next s
        else .next ((s.set64 R.GAL_SEED_LO v.toNat).discardPrograms))

/-! ### Spares (R155 to R158) -/

/-- The lowest unused spare position of a group, as a core. -/
def State.spareOf (s : State) (g : Nat) : Option Nat :=
  ((List.range 4).map (fun i => coreAt g (128 + i))).find? (fun c => (s.core c).unusedSpare)

/-- The neighbouring groups in the order north, east, south, west, where one exists (R155). -/
def neighbours (g : Nat) : List Nat :=
  (if 8 ≤ g then [g - 8] else []) ++ (if g % 8 < 7 then [g + 1] else []) ++ (if g < 56 then [g + 8] else []) ++ (if 0 < g % 8 then [g - 1] else [])

/-- The first free entry of the substitution table. -/
def State.freeSubst (s : State) : Option Nat := (List.range 256).find? (fun k => !s.bit (F.GAL_SUBST_VALID k))

/-- The home streams of a logical core lose their state (R157): the window in progress is reported SKIPPED when it closes,
and the state starts afresh. -/
def State.loseStreams (s : State) (l : Nat) : State :=
  (s.homeStreams l).foldl (fun a n =>
    let st := a.stream n
    let open_ := a.enabled n && (match st.nextWin with | some w => decide (a.winStart n w ≤ a.tick) | none => false)
    if open_ then (a.setStream n { st with coreLost := true }).setNet n {}
    else (a.setStream n { st with warmWins := a.warmCount n }).startNet n (st.nextWin.map (a.winStart n))) s

/-- Give logical address `l` to spare `p`: reset, loaded, entered in the table; it starts at the next tick boundary. -/
def State.substitute (s : State) (failed p l : Nat) (readable : Bool) : State :=
  let kf := s.core failed
  let s1 := s.countSpare (groupAt p)
  let s2 := s1.setCore failed { kf with logical := none }
  let kp := (s2.core p).resetCore s.cycleNow false
  let s3 := s2.setCore p { kp with logical := some l }
  let s4 := match s3.freeSubst with
    | some k => s3.setReg (R.GAL_SUBST k) (BitVec.ofNat 32 (2 ^ 31 + l * 2 ^ 14 + coreY p * 128 + coreX p))
    | none => s3
  let s5 := s4.loadCore p
  let k5 := s5.core p
  let k6 := if readable then { k5 with sram := kf.sram, written := kf.written, epoch := kf.epoch, notice := kf.notice } else k5
  let on := decide (gsRUNNING ≤ s5.groupState (l / 128))
  let s6 := s5.setCore p { k6 with startPend := on }
  if readable then s6 else s6.loseStreams l

/-- SPARE_SUBSTITUTE (R155 to R158): a fenced core that still holds its logical address. `readable`: its SRAM can be read
without an uncorrectable error (R157). -/
def execSpareSubstitute (core : CoreId) (readable : Bool) (s : State) : Out :=
  let c := core.val
  let k := s.core c
  match k.fenced, k.logical with
  | true, some l =>
    match s.spareOf (l / 128) with
    | some p => .next (s.substitute c p l readable)
    | none =>
      match (neighbours (l / 128)).findSome? s.spareOf with
      | some p => .next ((s.alarm F.GAL_ALARM_SPARE_BORROWED l).substitute c p l readable)
      | none =>
        let s1 := (s.alarm F.GAL_ALARM_NO_SPARE l)
        .next (if readable then s1 else s1.loseStreams l)
  | _, _ => .next s

/-- SPARE_START (R155, R156): the loaded spare starts; the windows in progress carry GAP. -/
def execSpareStart (core : CoreId) (s : State) : Out :=
  let c := core.val
  let k := s.core c
  if !k.startPend || k.fenced then .next s
  else .next ((s.setCore c { k with startPend := false, started := true }).gapStreams (k.logical.getD 0))

/-! ### Snapshots (R160) -/

/-- The snapshot ranges of a core: base with bits [2:0] ignored, and length, within SRAM. -/
def CoreSt.snapRanges (k : CoreSt) : List (Nat × Nat) :=
  (List.range 4).map (fun i =>
    let b := (tget (fun _ => 0#32) k.snapBase i).toNat / 8 * 8
    (b, min (tget (fun _ => 0#32) k.snapLen i).toNat (sramSize - b)))

/-- Read out the snapshot ranges of one core. -/
def State.snapCore (s : State) (c : Nat) : State :=
  let k := s.core c
  let rs := k.snapRanges
  (s.setCore c { k with snapBuf := rs.flatMap (fun r => k.bytes r.1 r.2), snapTick := some s.tick }).noteUninit c
    ((rs.map (fun r => k.unwritten r.1 r.2)).sum)

/-- SNAPSHOT (R160): each running core of the region halts at the barrier, its ranges are read into HBM as they stand at this
tick boundary, and it resumes. -/
def execSnapshot (cores : List CoreId) (s : State) : Out :=
  .next ((cores.filter (fun c => s.coreRuns c.val)).foldl (fun a c => a.snapCore c.val) s)

end Sys2Proof.Machine
end

