-- ==== Sys2Proof/Machine/SeamOps.lean ====
section
/-! DEFINITION.  Shared operations of the Seam dies: tiles and their map, the forming and correction of counts (R224 to
R249), slots (R38 to R41), recalibration (R262 to R264), margin reading (R258, R259) and the end of a batch (R243 to R252). -/

namespace Sys2Proof.Machine

/-! ### Tiles, cells and benches -/

def physTiles : Nat := 34816
def logicalTiles : Nat := 32768
def usableTiles : Nat := 30720

def tileDefault (_ : Nat) : TileSt := {}
def State.tileSt (s : State) (k p : Nat) : TileSt := tget tileDefault s.seam.tiles (k * physTiles + p)
def State.setTile (s : State) (k p : Nat) (v : TileSt) : State :=
  { s with seam := { s.seam with tiles := tset tileDefault s.seam.tiles (k * physTiles + p) v } }

/-- Factory tile map: 2,048 tiles in service to a pump's 2,176 (R282; assumption 31). -/
def mapDefault (key : Nat) : Nat := key % logicalTiles / 2048 * 2176 + key % 2048

def State.physTile (s : State) (k l : Nat) : Nat := tget mapDefault s.seam.tmap (k * logicalTiles + l)
def State.setMap (s : State) (k l p : Nat) : State :=
  { s with seam := { s.seam with tmap := tset mapDefault s.seam.tmap (k * logicalTiles + l) p } }

/-- The logical tile that a physical tile serves (R219). -/
def State.logicalTile (s : State) (k p : Nat) : Option Nat :=
  match s.seam.tmap.find? (fun e => e.1 / logicalTiles == k && e.2 == p) with
  | some e => some (e.1 % logicalTiles)
  | none =>
    let l := p / 2176 * 2048 + p % 2176
    if p % 2176 < 2048 ∧ s.physTile k l = p then some l else none

/-- ROLE of a physical tile (Table SEAM-15). -/
def State.tileRole (s : State) (k p : Nat) : Nat :=
  if (s.tileSt k p).retired then 3
  else match s.logicalTile k p with
    | some l => if l < usableTiles then 0 else 1
    | none => 2

def pumpOf (p : Nat) : Nat := p / 2176

def cellDefault (_ : Nat) : BitVec 2048 := 0
def State.cellCol (s : State) (k p c : Nat) : BitVec 2048 := tget cellDefault s.seam.cells ((k * physTiles + p) * 1064 + c)
def State.setCellCol (s : State) (k p c : Nat) (v : BitVec 2048) : State :=
  { s with seam := { s.seam with cells := tset cellDefault s.seam.cells ((k * physTiles + p) * 1064 + c) v } }

/-- The level of a row, two bits to a row. -/
def lev (v : BitVec 2048) (r : Nat) : Nat := (v.extractLsb' (2 * r) 2).toNat

/-- A column whose row r has level `f r`. -/
def levelsOf (f : Nat → Nat) : BitVec 2048 :=
  BitVec.ofNat 2048 ((List.range 1024).foldr (fun r a => f r % 4 * 4 ^ r + a) 0)

def State.perDie (s : State) : Nat := usableTiles / (s.dim / 1024)

def benchDefault (_ : Nat) : BenchSt := {}
def State.benchSt (s : State) (k j : Nat) : BenchSt := tget benchDefault s.seam.benches (k * 8192 + j)
def State.putBench (s : State) (k j : Nat) (v : BenchSt) : State :=
  { s with seam := { s.seam with benches := tset benchDefault s.seam.benches (k * 8192 + j) v } }

/-- Change a bench's record; its ready bit shows READY (R239). -/
def State.setBench (s : State) (k j : Nat) (v : BenchSt) : State :=
  (s.putBench k j v).setRegBit (R.SEAM_BENCH_READY k (j / 32)) (j % 32) (v.state == .ready)

def dieDefault (_ : Nat) : DieSt := {}
def State.die (s : State) (k : Nat) : DieSt := tget dieDefault s.seam.dies k
def State.setDie (s : State) (k : Nat) (v : DieSt) : State :=
  { s with seam := { s.seam with dies := tset dieDefault s.seam.dies k v } }

/-- Set a die's record, with SEAM_UPKEEP_STATUS.QUEUED (Table UPKEEP-11). -/
def State.setQueue (s : State) (k : Nat) (q : List RefreshJob) : State :=
  (s.setDie k { s.die k with refreshQ := q }).setFld (F.SEAM_UPKEEP_STATUS_QUEUED k) (min q.length 65535)

def State.dieReady (s : State) (k : Nat) : Bool := s.bit (F.SEAM_STATUS_DIE_READY k) && decide (s.powerLevel ≤ 1)

/-- Device bench numbers (R235). -/
def State.benchDie (s : State) (b : Nat) : Nat := b / s.perDie
def State.benchLocal (s : State) (b : Nat) : Nat := b % s.perDie
def State.devBench (s : State) (k j : Nat) : Nat := k * s.perDie + j
def State.benchOf (s : State) (b : Nat) : BenchSt := s.benchSt (s.benchDie b) (s.benchLocal b)

/-- Is a device bench searchable: READY on a ready die (R239, R255)? -/
def State.benchReady (s : State) (b : Nat) : Bool :=
  decide ((s.benchOf b).state = .ready) && s.dieReady (s.benchDie b)

/-- The die-local bench and its tile index that a logical tile belongs to. -/
def State.benchOfTile (s : State) (l : Nat) : Option (Nat × Nat) :=
  let t := s.dim / 1024
  if l < s.perDie * t then some (l / t, l % t) else none

/-- Physical tiles of a bench. -/
def State.benchPhys (s : State) (k j : Nat) : List Nat :=
  let t := s.dim / 1024
  (List.range t).map (fun r => s.physTile k (j * t + r))

/-- Default physical place of a logical column, or of a fixed column c given as 1,024 + c (Table SEAM-2). -/
def defaultCol (e : Nat) : Nat := if e < 512 then 4 + e else if e < 1024 then 36 + e else e - 1024

/-- Physical column of a logical column under the column map (R221). -/
def TileSt.colOf (t : TileSt) (e : Nat) : Nat :=
  match t.colmap.find? (fun m => m.2 == e) with
  | some m => 516 + m.1
  | none => defaultCol e

def TileSt.ceilOf (t : TileSt) (c : Nat) : Nat := tget (fun _ => 3) t.ceil c
def TileSt.gainOf (t : TileSt) (c : Nat) : Nat := tget (fun _ => 16384) t.gain c
def TileSt.offsetOf (t : TileSt) (c : Nat) : Int := tget (fun _ => 0) t.offset c
def TileSt.gainRelOf (t : TileSt) (c : Nat) : Nat := tget (fun _ => 16384) t.gainRel c
def TileSt.offsetRelOf (t : TileSt) (c : Nat) : Int := tget (fun _ => 0) t.offsetRel c
def TileSt.wearOf (t : TileSt) (c : Nat) : Nat := aget t.wear c

/-- L of a tile's format (R222). -/
def TileSt.levels (t : TileSt) : Nat := if t.fourLevel then 4 else 2

/-! ### Fixed columns (R242, R246) -/

/-- Digest digit K_j(r) of logical tile `l` (R246). -/
def digest (z : Word64) (l j r four : Nat) : Nat :=
  let h := keyword z 0 l (r / 16)
  (h >>> (4 * (r % 16) + 2 * j)).toNat % (if four = 1 then 4 else 2)

/-- Level of row r in a fixed physical column of a tile serving logical tile `l`; none for a data or spare column. -/
def fixedLevel (z : Word64) (four : Bool) (l c r : Nat) : Option Nat :=
  let dig := fun j => if four then digest z l j r 1 else 3 * digest z l j r 0
  match c with
  | 0 => some 0
  | 1 => some 0
  | 2 => some 3
  | 3 => some (dig 0)
  | 1060 => some (dig 1)
  | 1061 => some (if r % 2 = 0 then 3 else 0)
  | 1062 => some (if r % 2 = 0 then 0 else 3)
  | 1063 => some 0
  | _ => none

/-- Level that a cell holds: the fixed pattern, or what the last write left. -/
def State.heldLevel (s : State) (k p c r : Nat) : Nat :=
  match fixedLevel (Config.digestSeed k) (s.tileSt k p).fourLevel ((s.logicalTile k p).getD 0) c r with
  | some v => v
  | none => lev (s.cellCol k p c) r

/-! ### Passes (R224 to R229) -/

/-- Counts that a cell at a level adds for one input step (Table SEAM-3). -/
def cellCounts (four : Bool) (v : Nat) : Nat := if four then v else v / 3

def rowsDriven (x : List Nat) : Nat := x.countP (fun v => v != 0)

/-- S, b and t of a pass (R225). -/
def fullRange (levels x : Nat) : Nat := (levels - 1) * x
def bitsFull (sRange : Nat) : Nat := Nat.clog 2 (sRange + 1)
def passBits (sRange : Nat) : Nat := min (bitsFull sRange) 12
def passTrunc (sRange : Nat) : Nat := bitsFull sRange - passBits sRange

/-- The readout error bound E_col(S) (R249). -/
def eCol (sRange : Nat) : Nat := 1 + sRange / 512

/-- The 1,024 row inputs of one pass (R230, R232). -/
def passInput (e : EvalInput) (kind : Nat) (j : PassJob) : List Nat :=
  match e with
  | .query q => (List.range 1024).map (fun r => if q.getLsbD (1024 * j.tile + r) then 1 else 0)
  | .rows x => (List.range 1024).map (fun r => match x[r]? with
      | none => 0
      | some v =>
        if kind = 3 then
          let u := (v + 128).toNat
          if j.half = 1 then u / 16 % 16 else u % 16
        else v.toNat)

/-- A column's exact sum of counts for the inputs of a pass. -/
def State.exactCount (s : State) (k p c : Nat) (four : Bool) (x : List Nat) : Nat :=
  (x.zipIdx.map (fun e => if e.1 = 0 then 0 else e.1 * cellCounts four (s.heldLevel k p c e.2))).sum

/-- What the converter latches for a column whose charge stands at `q` counts (R227, R229). -/
def converted (q : Int) (b t : Nat) : Nat := min ((q.toNat) / 2 ^ t) (2 ^ b - 1)

/-- The calibrated count of R240 step 2. -/
def calibrated (g : Nat) (o : Int) (t raw sRange : Nat) : Int :=
  clampInt 0 sRange (roundAway ((g : Int) * (16 * 2 ^ t * raw - o)) 262144)

/-- The outlier corrections of R240 step 3 for a physical column. -/
def outlierSum (t : TileSt) (x : List Nat) (c : Nat) : Int :=
  ((t.outliers.filter (fun o => o.col == c)).map (fun o => o.delta * (x.getD o.row 0 : Int))).sum

/-- One column's corrected count. -/
def State.columnCount (s : State) (k : Nat) (l : Latch) (noise : List (BitVec 11 × Int)) (c : Nat) : Int :=
  let sr := fullRange l.tile.levels l.input.sum
  let t := passTrunc sr
  let q := (s.exactCount k l.phys c l.tile.fourLevel l.input : Int) +
    ((noise.filter (fun e => e.1.toNat == c)).map Prod.snd).sum
  calibrated (l.tile.gainOf c) (l.tile.offsetOf c) t (converted q (passBits sr) t) sr + outlierSum l.tile l.input c

/-- A column's readout 2^t × c_raw. -/
def State.columnRaw (s : State) (k : Nat) (l : Latch) (noise : List (BitVec 11 × Int)) (c : Nat) : Nat :=
  let sr := fullRange l.tile.levels l.input.sum
  let t := passTrunc sr
  2 ^ t * converted ((s.exactCount k l.phys c l.tile.fourLevel l.input : Int) +
    ((noise.filter (fun e => e.1.toNat == c)).map Prod.snd).sum) (passBits sr) t

/-- Does the checksum check of R247 pass? -/
def State.checkPasses (s : State) (k : Nat) (l : Latch) (noise : List (BitVec 11 × Int)) : Bool :=
  let sr := fullRange l.tile.levels l.input.sum
  let t := passTrunc sr
  [(0, 3), (1, 1060)].all (fun e =>
    let p := (l.input.zipIdx.map (fun v => v.1 * digest (Config.digestSeed k) ((s.logicalTile k l.phys).getD 0) e.1 v.2
      (if l.tile.fourLevel then 1 else 0))).sum
    decide ((s.columnCount k l noise e.2 - (2 ^ t * (p / 2 ^ t) : Nat)).natAbs ≤ eCol sr + 2 ^ t - 1))

/-- Physical columns of REF0 to REF3 (Table SEAM-2). -/
def refCols : List Nat := [1, 2, 1061, 1062]

/-- The exact readouts of REF0 to REF3 (R242). -/
def refExact (levels : Nat) (x : List Nat) : List Nat :=
  let even := ((x.zipIdx.filter (fun e => e.2 % 2 == 0)).map Prod.fst).sum
  [0, (levels - 1) * x.sum, (levels - 1) * even, (levels - 1) * (x.sum - even)]

def RefAcc.add (a : RefAcc) (x e : Int) : RefAcc :=
  { n := a.n + 1, x := a.x + x, xx := a.xx + x * x, e := a.e + e, ex := a.ex + e * x, ee := a.ee + e * e }

/-- Add a pass's four readouts to the tile's accumulators (R242). -/
def TileSt.accumulate (t : TileSt) (raw exact : List Int) : TileSt :=
  { t with acc := (List.range 4).map (fun i => (t.acc.getD i {}).add (raw.getD i 0) (exact.getD i 0)) }

/-! ### Periodic recalibration (R262 to R264) -/

def ratRound (q : Rat) : Int := roundAway q.num q.den

/-- Gain and offset at the west edge: o_W from REF0, g_W from REF1. -/
def TileSt.westFit (t : TileSt) : Rat × Rat :=
  let a0 := t.acc.getD 0 {}
  let a1 := t.acc.getD 1 {}
  let o : Rat := if a0.n = 0 then 0 else mkRat a0.x a0.n - mkRat (t.offsetRelOf 1) 16
  let gr : Rat := mkRat (t.gainRelOf 2) 16384
  let z : Rat := mkRat (t.offsetRelOf 2) 16 + o
  let eu : Rat := gr * ((a1.ex : Rat) - z * a1.e)
  let uu : Rat := gr * gr * ((a1.xx : Rat) - 2 * z * a1.x + a1.n * (z * z))
  (if uu = 0 then 1 else eu / uu, o)

/-- Gain and offset at the east edge, from REF2 and REF3 together. -/
def TileSt.eastFit (t : TileSt) : Rat × Rat :=
  let part := fun i c =>
    let a := t.acc.getD i {}
    let gr : Rat := mkRat (t.gainRelOf c) 16384
    let z : Rat := mkRat (t.offsetRelOf c) 16
    let v : Rat := a.x - a.n * z
    let vv : Rat := a.xx - 2 * z * a.x + a.n * (z * z)
    let y : Rat := if gr = 0 then 0 else a.e / gr
    let vy : Rat := if gr = 0 then 0 else (a.ex - z * a.e) / gr
    ((a.n : Rat), v, vv, y, vy)
  let p := part 2 1061
  let q := part 3 1062
  let n := p.1 + q.1
  let v := p.2.1 + q.2.1
  let vv := p.2.2.1 + q.2.2.1
  let y := p.2.2.2.1 + q.2.2.2.1
  let vy := p.2.2.2.2 + q.2.2.2.2
  let d := n * vv - v * v
  if d = 0 then (1, 0)
  else
    let a := (n * vy - v * y) / d
    let b := (y - a * v) / n
    (a, if a = 0 then 0 else -b / a)

/-- The tables of a recalibration: G = G_rel × g(n), O = O_rel + o(n), interpolated between n = 1.5 and n = 1,061.5. -/
def TileSt.recalTables (t : TileSt) : TileSt :=
  let w := t.westFit
  let e := t.eastFit
  let at_ := fun (a b : Rat) (n : Nat) => a + (b - a) * mkRat (2 * n - 3) 2120
  { t with
    gain := ((List.range 1064).map (fun n =>
      (n, (clampInt 0 65535 (ratRound ((t.gainRelOf n : Rat) * at_ w.1 e.1 n))).toNat))).filter (fun x => x.2 != 16384)
    offset := ((List.range 1064).map (fun n =>
      (n, clampInt (-32768) 32767 (ratRound ((t.offsetRelOf n : Rat) + 16 * at_ w.2 e.2 n))))).filter (fun x => x.2 != 0)
    acc := [{}, {}, {}, {}] }

/-- Passes that R263 asks for before a recalibration. -/
def recalPasses : Nat := 64

/-- Recalibrate a physical tile, adding pattern passes of 1,024 rows up to 64. -/
def State.recalibrate (s : State) (k p : Nat) (pattern : List RefRead) : State :=
  let t := s.tileSt k p
  let missing := recalPasses - (t.acc.getD 0 {}).n
  let ex : List Int := (refExact t.levels (List.replicate 1024 1)).map Int.ofNat
  let t1 := (List.range missing).foldl (fun a i =>
    let d := pattern.getD i ⟨0, 0, 0, 0⟩
    a.accumulate [ex.getD 0 0 + d.r0, ex.getD 1 0 + d.r1, ex.getD 2 0 + d.r2, ex.getD 3 0 + d.r3] ex) t
  let t2 := { t1.recalTables with calAt := some (s.uptime, (s.die k).temp) }
  ((s.setTile k p t2).bump (F.SEAM_RECALS_COUNT k) 1).bump64 (R.SEAM_EVALS_LO k) missing

/-- Is a tile's calibration current (R264)? -/
def State.calCurrent (s : State) (k p : Nat) : Bool :=
  match (s.tileSt k p).calAt with
  | none => false
  | some (at_, temp) =>
    s.uptime ≤ at_ + s.fld (F.SEAM_PLAN_TIME_RECAL_MS k) && (s.die k).recalFrom ≤ at_ && (temp - (s.die k).temp).natAbs ≤ 16

/-! ### Slots (R38 to R41) -/

/-- A die's slot limit; with POWER_PFW_CFG.SHED it falls to 16 while PFW_N is low (R490). -/
def State.slotLimit (s : State) (k : Nat) : Nat :=
  let n := s.fld (F.SEAM_SLOTS_LIMIT k)
  if s.bit F.POWER_PFW_CFG_SHED && s.bit F.POWER_STATUS_PFW then min 16 n else n
def State.slotsActive (s : State) (k : Nat) : Nat := s.fld (F.SEAM_SLOTS_ACTIVE k)
def State.slotsUpkeep (s : State) (k : Nat) : Nat := s.fld (F.SEAM_SLOTS_UPKEEP k)

def State.takeSlots (s : State) (k n : Nat) (upkeep : Bool) : State :=
  let s1 := s.setFld (F.SEAM_SLOTS_ACTIVE k) (s.slotsActive k + n)
  if upkeep then s1.setFld (F.SEAM_SLOTS_UPKEEP k) (s.slotsUpkeep k + n) else s1

def State.giveSlots (s : State) (k n : Nat) (upkeep : Bool) : State :=
  let s1 := s.setFld (F.SEAM_SLOTS_ACTIVE k) (s.slotsActive k - n)
  if upkeep then s1.setFld (F.SEAM_SLOTS_UPKEEP k) (s.slotsUpkeep k - n) else s1

/-- The upkeep floor, raised for the batch due with the most tiles (R40, Table UPKEEP-9). -/
def State.upkeepFloor (s : State) (k : Nat) : Nat :=
  let base := if s.slotLimit k < 32 then s.slotLimit k / 2 else 16
  min (s.slotLimit k) ((s.die k).batches.foldl (fun a b => max a b.phys.length) base)

/-- Has upkeep work pending on the die? -/
def State.upkeepPending (s : State) (k : Nat) : Bool :=
  (s.die k).batches.any (fun b => !b.started) || !(s.die k).refreshQ.isEmpty || !(s.die k).fills.isEmpty

/-- Slots that search leaves to upkeep while it has work pending (R40). -/
def State.upkeepReserve (s : State) (k : Nat) : Nat :=
  if s.upkeepPending k then s.upkeepFloor k - s.slotsUpkeep k else 0

def Eval.running (e : Eval) : Nat := e.passes.countP (fun j => match j.st with | .running _ => true | _ => false)
def Eval.waitingPasses (e : Eval) : Bool := e.passes.any (fun j => decide (j.st = .waiting))

/-- Is the pass running? -/
def PassJob.runs (q : PassJob) : Bool := match q.st with | .running _ => true | _ => false

/-- A waiting, or running, pass of an evaluation on a tile of its bench. -/
def Eval.waitingJob (e : Eval) (tile : Nat) : Option PassJob := e.passes.find? (fun q => q.tile == tile && decide (q.st = .waiting))
def Eval.runningJob (e : Eval) (tile : Nat) : Option PassJob := e.passes.find? (fun q => q.tile == tile && q.runs)

/-- The evaluation of a bench and tag with a pass waiting, or running, on a tile. -/
def State.waitingEval (s : State) (k j tag tile : Nat) : Option Eval :=
  (s.die k).evals.find? (fun e => e.bench == j && e.tag == tag && !e.notReady && (e.waitingJob tile).isSome)
def State.runningEval (s : State) (k j tag tile : Nat) : Option Eval :=
  (s.die k).evals.find? (fun e => e.bench == j && e.tag == tag && (e.runningJob tile).isSome)

/-- Does a pass run on a tile of a bench? -/
def State.passRunning (s : State) (k j tile : Nat) : Bool := (s.die k).evals.any (fun f => f.bench == j && (f.runningJob tile).isSome)

/-- May a pass of precedence `cls` take a slot (R38, R40, R41)? Recall passes hold at least 4 slots while any waits. -/
def State.slotFree (s : State) (k cls : Nat) : Bool :=
  let evs := (s.die k).evals
  let recallHeld := ((evs.filter (fun e => e.cls == 2)).map Eval.running).sum
  let recallWaits := evs.any (fun e => e.cls == 2 && e.waitingPasses)
  let room := s.slotLimit k - s.slotsActive k - s.upkeepReserve k
  if cls = 2 then
    0 < room && (recallHeld < 4 || !(evs.any (fun e => decide (e.cls < 2) && e.waitingPasses)))
  else
    (if recallWaits then 4 - recallHeld else 0) < room && !(evs.any (fun e => decide (e.cls < cls) && e.waitingPasses))

/-! ### Evaluations -/

/-- Replace one evaluation of a die. -/
def State.setEval (s : State) (k : Nat) (old new : Eval) : State :=
  s.setDie k { s.die k with evals := (s.die k).evals.map (fun e => if e = old then new else e) }

/-- Has the evaluation nothing left to run? -/
def Eval.finished (e : Eval) : Bool :=
  e.notReady || e.passes.all (fun j => match j.st with | .done .. => true | .withheld => true | _ => false)

/-- Which columns' comparators are enabled for the digits of a pass (R341)? -/
def digitOn (digits e : Nat) : Bool := digits == 0 || (digits == 1 && 2 ≤ e % 4) || (digits == 2 && e % 4 < 2)

/-- The counts of the 1,024 logical columns of a pass. -/
def State.passCounts (s : State) (k : Nat) (l : Latch) (digits : Nat) (noise : List (BitVec 11 × Int)) : List Int :=
  (List.range 1024).map (fun e => if digitOn digits e then s.columnCount k l noise (l.tile.colOf e) else 0)

/-- Outlier corrections applied in a pass (Table SEAM-7, CORR). -/
def corrections (l : Latch) : Nat :=
  l.tile.outliers.countP (fun o => l.input.getD o.row 0 != 0 && !([0, 1, 2, 3, 1060, 1061, 1062, 1063].contains o.col))

/-- A tile is due for replacement (R274): a logical tile of the die. -/
def State.replaceTile (s : State) (k l : Nat) : State :=
  let d := s.die k
  if d.replaceDue.contains l then s else s.setDie k { d with replaceDue := d.replaceDue ++ [l] }

/-- A fault of a tile (R248, R496): its third within 24 h makes it due for replacement. -/
def State.tileFault (s : State) (k p : Nat) (hard : Bool) : State :=
  let r := s.recordFault (.tile k p) hard
  match s.logicalTile k p with
  | some l => if r.1 then r.2.replaceTile k l else r.2
  | none => r.2

/-! ### Margin readings (R258, R259) -/

/-- The reading of a cell: the one given, else that of the level it holds. -/
def State.cellMu (s : State) (k p : Nat) (cells : List CellRead) (c r : Nat) : Int :=
  match cells.find? (fun x => x.col.toNat == c && x.row.toNat == r) with
  | some x => x.mu
  | none => 1024 * (s.heldLevel k p c r : Int)

/-- Deviation of a given reading from the cell's held level h = ℓ − δ. -/
def State.cellDev (s : State) (k p : Nat) (x : CellRead) : Nat :=
  (x.mu - 1024 * (s.heldLevel k p x.col.toNat x.row.toNat : Int)).natAbs

/-- Cell classes beyond sound: watched, drifted, flipped (Table UPKEEP-2). -/
def State.watched (s : State) (k dev : Nat) : Bool := s.fld (F.SEAM_PLAN_MARGIN_A k) < dev
def State.drifted (s : State) (k dev : Nat) : Bool := s.fld (F.SEAM_PLAN_MARGIN_F k) < dev
def flipped (dev : Nat) : Bool := 512 ≤ dev

/-- Logical name of a physical column of a tile: a logical column, 1,024 + c for a fixed column, none for a spare column not
in use. -/
def TileSt.nameOf (t : TileSt) (c : Nat) : Option Nat :=
  if 516 ≤ c ∧ c < 548 then (t.colmap.find? (fun m => m.1 == c - 516)).map Prod.snd
  else if 4 ≤ c ∧ c < 516 then some (c - 4)
  else if 548 ≤ c ∧ c < 1060 then some (c - 36)
  else some (1024 + c)

/-- Is a physical column in use under the column map? -/
def TileSt.inUse (t : TileSt) (c : Nat) : Bool :=
  match t.nameOf c with
  | none => false
  | some e => t.colOf e == c

/-- The columns of a scan with a cell out of margin: name, and whether one is drifted or flipped; guard columns are never
read. -/
def State.outOfMargin (s : State) (k p : Nat) (cells : List CellRead) : List (Nat × Bool) :=
  let t := s.tileSt k p
  let bad := cells.filter (fun x => t.inUse x.col.toNat && x.col.toNat != 0 && x.col.toNat != 1063 && s.watched k (s.cellDev k p x))
  let names := (bad.map (fun x => (t.nameOf x.col.toNat).getD 0)).eraseDups
  names.map (fun e => (e, bad.any (fun x => t.nameOf x.col.toNat == some e && s.drifted k (s.cellDev k p x))))

/-- Does a column's fit fail the hard test of R261? -/
def fitFails (f : ColFit) : Bool :=
  f.gain.toNat < 13108 || 20480 < f.gain.toNat || decide (128 < f.offset.toInt.natAbs) || f.noisy

/-- The full calibration's effect on the tile's tables (R260): G_rel and O_rel of every column, in force at the next latch
point; the margin scan's worst deviation is kept. -/
def State.calibrate (s : State) (k p : Nat) (cells : List CellRead) (fits : List ColFit) : State :=
  let t := s.tileSt k p
  let gr := fits.foldl (fun m f => tset (fun _ => 16384) m f.col.toNat f.gain.toNat) t.gainRel
  let orl := fits.foldl (fun m f => tset (fun _ => (0 : Int)) m f.col.toNat f.offset.toInt) t.offsetRel
  let worst := cells.foldl (fun a x => max a (s.cellDev k p x)) 0
  let dead := (fits.filter (fun f => fitFails f && 516 ≤ f.col.toNat && f.col.toNat < 548)).map (fun f => f.col.toNat - 516)
  (s.setTile k p { t with
    gainRel := gr, offsetRel := orl, gain := gr, offset := orl, acc := [{}, {}, {}, {}],
    calAt := some (s.uptime, (s.die k).temp), worst := min worst 1023, scanAt := some s.uptime,
    dead := (t.dead ++ dead).eraseDups }).bump64 (R.SEAM_EVALS_LO k) 64

/-- Does the tile fail its hard test: a reference or checksum column fails, or its pattern passes were withheld? -/
def tileFails (fits : List ColFit) (withheld : Bool) : Bool :=
  withheld || fits.any (fun f => fitFails f && [1, 2, 3, 1060, 1061, 1062].contains f.col.toNat)

/-- Logical columns in use that fail the hard test. -/
def TileSt.failingCols (t : TileSt) (fits : List ColFit) : List Nat :=
  ((fits.filter (fun f => fitFails f && t.inUse f.col.toNat)).filterMap (fun f => t.nameOf f.col.toNat)).filter (fun e => decide (e < 1024))

/-! ### Writing (R243 to R252) -/

/-- The nearest level of a verify reading in the tile's format. -/
def nearestLevel (four : Bool) (mu : Int) : Nat :=
  if four then (clampInt 0 3 (roundAway mu 1024)).toNat else if 1536 < mu then 3 else 0

/-- δ of an outlier: level steps in a four-level tile, counts in a binary one (R244). -/
def outlierDelta (four : Bool) (want held : Nat) : Int :=
  (cellCounts four want : Int) - cellCounts four held

/-- What a write leaves in one column: the levels held, and the column's outlier entries (R243, R244). -/
def writeColumn (t : TileSt) (c : Nat) (want : BitVec 2048) (given : List CellRead) : BitVec 2048 × List Outlier :=
  let held := fun r =>
    match given.find? (fun g => g.col.toNat == c && g.row.toNat == r) with
    | some g => nearestLevel t.fourLevel g.mu
    | none => min (lev want r) (t.ceilOf c)
  let outs := (List.range 1024).filterMap (fun r =>
    match given.find? (fun g => g.col.toNat == c && g.row.toNat == r) with
    | some _ => some (Outlier.mk c r (outlierDelta t.fourLevel (lev want r) (held r)) 0)
    | none => if t.ceilOf c < lev want r then some (Outlier.mk c r (outlierDelta t.fourLevel (lev want r) (held r)) 1) else none)
  (levelsOf held, outs)

/-- Outlier entries a tile holds (R244). -/
def outlierCap : Nat := 256

/-- Write one logical column of a tile; the answer is true when its outlier entries did not fit (R245). -/
def State.writeCol (s : State) (k p e : Nat) (want : BitVec 2048) (given : List CellRead) : Bool × State :=
  let t := s.tileSt k p
  let c := t.colOf e
  let w := writeColumn t c want given
  let others := t.outliers.filter (fun o => o.col != c)
  let full := outlierCap < others.length + w.2.length
  let top := given.countP (fun g => g.col.toNat == c && lev want g.row.toNat == 3)
  let t1 := { t with
    outliers := if full then others else others ++ w.2,
    wear := aset t.wear c (min 65535 (t.wearOf c + 1)),
    giveups := aset t.giveups c (aget t.giveups c + top) }
  (full, (if e < 1024 then (s.setTile k p t1).setCellCol k p c w.1 else s.setTile k p t1))

/-- Is a tile's pump retired, so that it cannot be written (R282)? -/
def State.unwritable (s : State) (k p : Nat) : Bool := s.regBit (R.SEAM_PUMPS k) (16 + pumpOf p)

/-- A free spare column of a tile that passed its last fit, the lowest (R275). -/
def TileSt.freeSpare (t : TileSt) : Option Nat :=
  (List.range 32).find? (fun n => !(t.dead.contains n) && !(t.colmap.any (fun m => m.1 == n)))

/-- The column map with `e` moved to spare `n`. A spare column that carried it is never used again. -/
def TileSt.remap (t : TileSt) (e n : Nat) : TileSt :=
  { t with
    dead := t.dead ++ (t.colmap.filter (fun m => m.2 == e)).map Prod.fst,
    colmap := t.colmap.filter (fun m => m.2 != e) ++ [(n, e)] }

/-- The wear line W(d) (R284). -/
def State.wearLine (s : State) (k : Nat) : Nat :=
  let c := s.fld (F.SEAM_PLAN_WEAR_COMMIT_CEIL k)
  min c (30 + c * s.fld (F.SEAM_PLAN_INFO_DAYS k) / 3650)

/-- Headroom of a column (R285). -/
def State.headroom (s : State) (k p c : Nat) : Nat := s.wearLine k - (s.tileSt k p).wearOf c

/-- Endurance budget of a tile (R285). -/
def State.tileBudget (s : State) (k p : Nat) : Nat :=
  ((List.range 1024).map (fun e => s.headroom k p ((s.tileSt k p).colOf e))).sum

/-- Sound unused spare tiles of a die, in ascending order, whose pumps are in service. -/
def State.spareTiles (s : State) (k : Nat) : List Nat :=
  (List.range physTiles).filter (fun p => s.tileRole k p == 2 && !s.unwritable k p)

/-- The spare of R276: the same pump's lowest, else the nearest pump's, the lower number on a tie. -/
def State.pickSpare (s : State) (k p : Nat) : Option Nat :=
  let far := fun q : Nat => (pumpOf q - pumpOf p) + (pumpOf p - pumpOf q)
  (s.spareTiles k).foldl (fun best q => match best with
    | none => some q
    | some b => if far q < far b then some q else some b) none

/-- Recount SPARE_TILES (Table SEAM-13); the spares of a retired pump are lost (R282). -/
def State.countSpares (s : State) (k : Nat) : State :=
  s.setFld (F.SEAM_STATUS_SPARE_TILES k) ((min 4095 (s.spareTiles k).length))

/-- Retire a tile (R276). -/
def State.retireTile (s : State) (k p : Nat) : State :=
  (s.setTile k p { s.tileSt k p with retired := true }).alarm (F.SEAM_ALARM_TILE_RETIRED k) p

end Sys2Proof.Machine
end

