-- ==== Sys2Proof/Machine/TunnelFrames.lean ====
section
/-! DEFINITION.  Ports and frames of the Tunnel (R362 to R365), and writes to benches that peers serve (R377). -/

namespace Sys2Proof.Machine

def tsOFF : Nat := 0
def tsTRAINING : Nat := 1
def tsCHECKING : Nat := 2
def tsMEMBER : Nat := 3
def tsBROKEN : Nat := 4
def tsLEAVING : Nat := 5

def State.tunnelState (s : State) : Nat := s.fld F.TUNNEL_STATUS_STATE
def State.position (s : State) : Nat := s.fld F.TUNNEL_CFG_POSITION
def State.chainSize (s : State) : Nat := s.fld F.TUNNEL_CFG_N

/-- Is the device a working member: MEMBER or BROKEN (R368)? -/
def State.inChain (s : State) : Bool := s.tunnelState == tsMEMBER || s.tunnelState == tsBROKEN

def tportDefault (_ : Nat) : TPortSt := {}
def State.tport (s : State) (p : Nat) : TPortSt := tget tportDefault s.tunnel.ports p
def State.setTPort (s : State) (p : Nat) (v : TPortSt) : State :=
  { s with tunnel := { s.tunnel with ports := tset tportDefault s.tunnel.ports p v } }

/-- The ports of the device's role (Table CASC-1): port 0 leads to the next position, port 1 to the one before. -/
def State.rolePorts (s : State) : List Nat :=
  match s.fld F.TUNNEL_CFG_ROLE with
  | 1 => [0]
  | 2 => [0, 1]
  | 3 => [1]
  | _ => []

def State.portUp (s : State) (p : Nat) : Bool := s.bit (F.TUNNEL_PORT_STATUS_UP p)

/-- The port towards a position. -/
def State.portTo (s : State) (m : Nat) : Nat := if s.position < m then 0 else 1

/-- Frame types (Table CASC-4). -/
def ftIDLE : Nat := 0
def ftHELLO : Nat := 1
def ftQUERY : Nat := 2
def ftANSWER : Nat := 3
def ftAPPEND : Nat := 4
def ftACK : Nat := 5
def ftTOKEN : Nat := 6
def ftLOST : Nat := 7
def ftMIRROR : Nat := 8
def ftBENCH_OP : Nat := 9
def ftCHAIN : Nat := 10
def ftNAK : Nat := 11

/-- Send a frame on a port that is up: it takes the next LSEQ and is kept for replay until acknowledged; IDLE takes none (R364). -/
def State.sendFrame (s : State) (p : Nat) (f : Frame) : State :=
  if !s.portUp p then s
  else
    let t := s.tport p
    let idle := decide (f.type.toNat = ftIDLE)
    let g := { f with lseq := BitVec.ofNat 16 (if idle then 0 else t.txSeq + 1), ack := BitVec.ofNat 16 t.rxSeq }
    let s1 : State := { s with tunnel := { s.tunnel with sent := s.tunnel.sent ++ [(p, g)] } }
    s1.setTPort p { t with
      txSeq := if idle then t.txSeq else (t.txSeq + 1) % 65536, replay := if idle then t.replay else t.replay ++ [g], lastSent := s.now }

/-- A frame that this device originates. -/
def State.mkFrame (s : State) (type dst req arg0 arg1 : Nat) (payload : List Byte) : Frame :=
  { type := BitVec.ofNat 8 type, src := BitVec.ofNat 3 s.position, dst := BitVec.ofNat 8 dst, lseq := 0, ack := 0,
    req := BitVec.ofNat 32 req, arg0 := BitVec.ofNat 64 arg0, arg1 := BitVec.ofNat 64 arg1, payload := payload }

/-- Send a frame to a member, or to every member (DST 0xFF) on each port of the role. -/
def State.sendTo (s : State) (f : Frame) : State :=
  if f.dst = 0xFF#8 then s.rolePorts.foldl (fun a p => a.sendFrame p f) s
  else s.sendFrame (s.portTo f.dst.toNat) f

/-- The peer that serves a position of this device's share (R377). -/
def State.awayPeer (s : State) (l p : Nat) : Option Nat := (s.tunnel.away.find? (fun a => a.1 == l && a.2.1 == p)).map (fun a => a.2.2)

/-- Send a write to a position that a peer serves (R377): operation, library, global position and the arguments. -/
def State.sendBenchOp (s : State) (m op l p : Nat) (args : List Byte) : State :=
  s.sendTo (s.mkFrame ftBENCH_OP m 0 (l + (s.fld (F.TUNNEL_LIB_RANGE_BASE l) + p) % 65536 * 65536) op args)

end Sys2Proof.Machine
end

