-- ==== Sys2Proof/Machine/SumpOps.lean ====
section
/-! DEFINITION.  Shared operations of Sump's libraries: entries, side-records and key mirrors (R297 to R300), the three-step
update (R315, R316), intended levels (Table UPKEEP-1) and what the end of a batch does to entries. -/

namespace Sys2Proof.Machine

/-! ### Libraries, entries, mirrors -/

def esEMPTY : Nat := 0
def esVALID : Nat := 1
def esINVALID : Nat := 2
def esQUARANTINED : Nat := 3

def libDefault (_ : Nat) : LibSt := {}
def State.lib (s : State) (l : Nat) : LibSt := tget libDefault s.sump.libs l
def State.setLib (s : State) (l : Nat) (v : LibSt) : State :=
  { s with sump := { s.sump with libs := tset libDefault s.sump.libs l v } }

def State.libActive (s : State) (l : Nat) : Bool := s.bit (F.SUMP_LIB_CFG_ACTIVE l)
def State.libKind (s : State) (l : Nat) : Nat := s.fld (F.SUMP_LIB_CFG_KIND l)
def State.sumpReady (s : State) : Bool := s.bit F.SUMP_STATUS_READY && !s.fatal && decide (s.powerLevel ≤ 1)

/-- Change a library's bench list, with BENCHES (R294). -/
def State.setBenches (s : State) (l : Nat) (bs : List Nat) : State :=
  (s.setLib l { s.lib l with benches := bs }).setFld (F.SUMP_LIB_CFG_BENCHES l) bs.length

/-- Positions at and above this one name mirror benches hosted for peers, by global position (R377). -/
def hostedBase : Nat := 65536

/-- The device bench at a position of a library, or of a hosted mirror bench. -/
def State.benchAt (s : State) (l p : Nat) : Option Nat :=
  if p < hostedBase then (s.lib l).benches[p]?
  else (s.tunnel.hosted.find? (fun h => h.lib == l && h.gpos + hostedBase == p)).map (fun h => h.bench)

/-- The library and position a device bench belongs to, or serves for a peer. -/
def State.benchLib (s : State) (b : Nat) : Option (Nat × Nat) :=
  match (List.range 16).findSome? (fun l => ((s.lib l).benches.findIdx? (· == b)).map (fun p => (l, p))) with
  | some x => some x
  | none => (s.tunnel.hosted.find? (fun h => h.bench == b)).map (fun h => (h.lib, h.gpos + hostedBase))

def entryDefault (_ : Nat) : Entry := {}
def State.entry (s : State) (b c : Nat) : Entry := tget entryDefault s.sump.entries (b * 1024 + c)

/-- Count up or down a VALID or QUARANTINED total. -/
def addTo (n : Nat) (plus minus : Bool) : Nat := (if plus then n + 1 else n) - (if minus then 1 else 0)

/-- Write a side-record; VALID of its library and SUMP_QUARANTINED follow (Tables SUMP-13, SUMP-14). -/
def State.setEntry (s : State) (b c : Nat) (v : Entry) : State :=
  let old := s.entry b c
  let s1 : State := { s with sump := { s.sump with entries := tset entryDefault s.sump.entries (b * 1024 + c) v } }
  let s2 := match s.benchLib b with
    | some (l, _) => s1.setFld (F.SUMP_LIB_SIZE_VALID l)
        (addTo (s.fld (F.SUMP_LIB_SIZE_VALID l)) (v.state == esVALID) (old.state == esVALID))
    | none => s1
  s2.setFld F.SUMP_QUARANTINED_COUNT
    (addTo (s.fld F.SUMP_QUARANTINED_COUNT) (v.state == esQUARANTINED) (old.state == esQUARANTINED))

def State.setEntryState (s : State) (b c st : Nat) : State := s.setEntry b c { s.entry b c with state := st }

/-- Slot of an entry's key mirror: the 1,024 entries of a bench are consecutive (R298). -/
def mirrorSlot (b c : Nat) : Nat := b * 1024 + c

def mirrorDefault (_ : Nat) : Option Key := none
def State.mirror (s : State) (b c : Nat) : Option Key := tget mirrorDefault s.sump.mirrors (s.entry b c).mirror
def State.setMirror (s : State) (slot : Nat) (k : Option Key) : State :=
  { s with sump := { s.sump with mirrors := tset mirrorDefault s.sump.mirrors slot k } }

/-- Bench and column of an entry number of a library (R294). -/
def State.entryAt (s : State) (l e : Nat) : Option (Nat × Nat) :=
  ((s.lib l).benches[e / 1024]?).map (fun b => (b, e % 1024))

/-- The entry number a record reports: global in a SPAN library of a chain (R352). -/
def State.reportEntry (s : State) (l e : Nat) : Nat :=
  if s.bit (F.TUNNEL_LIB_SPAN l) && s.fld F.TUNNEL_CFG_ROLE != 0 then e + 1024 * s.fld (F.TUNNEL_LIB_RANGE_BASE l) else e

/-- Number of 1 bits of a key. -/
def popKey (k : Key) : Nat := popc k

/-- The mask of the first n dimensions. -/
def lowMask (n : Nat) : Key := BitVec.ofNat 32768 (2 ^ n - 1)

/-- Bytes of a key in the layout of R55. -/
def keyBytes (dim : Nat) (k : Key) : List Byte := bytesLE (dim / 8) k.toNat

/-- KEY_CRC of a key (Table SUMP-3). -/
def keyCrc (dim : Nat) (k : Key) : Nat := crc32 (keyBytes dim k)

/-- POP, POP_PRE and KEY_CRC for a key (Table SUMP-3). -/
def Entry.withKey (e : Entry) (dim : Nat) (k : Key) : Entry :=
  { e with pop := popKey k, popPre := popKey (k &&& lowMask (dim / 4)), crc := keyCrc dim k }

/-- Does a read-back key agree with the side-record (R300)? -/
def Entry.agrees (e : Entry) (dim : Nat) (k : Key) : Bool :=
  e.pop == popKey k && e.popPre == popKey (k &&& lowMask (dim / 4)) && e.crc == keyCrc dim k

/-- The 32 bytes of a side-record (Table SUMP-3). -/
def Entry.bytes (e : Entry) : List Byte :=
  bytesLE 4 e.mirror ++ bytesLE 2 e.pop ++ bytesLE 2 e.popPre ++ bytesLE 1 e.prio ++ bytesLE 1 (e.state + 4 * e.origin) ++
    bytesLE 2 0 ++ bytesLE 4 e.cls ++ bytesLE 4 e.seq ++ bytesLE 4 e.crc ++ bytesLE 8 e.ts

/-- Quarantine an entry (Table SUMP-4). -/
def State.quarantine (s : State) (b c : Nat) : State :=
  (s.setEntryState b c esQUARANTINED).alarm F.SUMP_ALARM_QUARANTINE (b * 1024 + c)

/-- Entries of a library's benches in the given states, as (bench, column). -/
def State.entriesIn (s : State) (b : Nat) (states : List Nat) : List Nat :=
  (s.sump.entries.filter (fun e => e.1 / 1024 == b && states.contains e.2.state)).map (fun e => e.1 % 1024)

/-- VALID entries of every library of a kind, with those under a three-step update (Table SUMP-1). -/
def State.kindCount (s : State) (kind : Nat) : Nat :=
  ((List.range 16).filter (fun l => s.libActive l && s.libKind l == kind)).foldl (fun a l =>
    (s.lib l).benches.foldl (fun n b => n + (s.entriesIn b [esVALID, esINVALID]).length) a) 0

/-- Limits of Table SUMP-1. -/
def kindLimit (kind : Nat) : Nat := if kind = 0 then 1000000 else 15000000

/-! ### Intended levels (Table UPKEEP-1) -/

/-- Levels of a key in tile r of its bench (R230). -/
def keyLevels (k : Key) (r : Nat) : BitVec 2048 := levelsOf (fun i => if k.getLsbD (1024 * r + i) then 3 else 0)

/-- Digits of a weight in offset form (R231): I8 has four, I4 two. -/
def weightDigit (i4 : Bool) (w : Int) (i : Nat) : Nat :=
  (if i4 then (w + 8).toNat % 16 else (w + 128).toNat % 256) / 4 ^ i % 4

def weightDefault (_ : Nat) : List Int := []
def State.weights (s : State) (m c : Nat) : List Int := tget weightDefault s.sump.weights (m * 65536 + c)
def State.setWeights (s : State) (m c : Nat) (w : List Int) : State :=
  { s with sump := { s.sump with weights := tset weightDefault s.sump.weights (m * 65536 + c) w } }

def State.mtxI4 (s : State) (m : Nat) : Bool := s.bit (F.SUMP_MTX_FORMAT m)
def State.mtxDigits (s : State) (m : Nat) : Nat := if s.mtxI4 m then 2 else 4
/-- Weight columns of a tile (Table SEAM-5). -/
def State.mtxPerTile (s : State) (m : Nat) : Nat := if s.mtxI4 m then 512 else 256

/-- The matrix defined on a bench, by its library and position (R318). -/
def State.matrixOn (s : State) (l p : Nat) : Option Nat :=
  (List.range 256).find? (fun m => s.bit (F.SUMP_MTX_VALID m) && s.fld (F.SUMP_MTX_LIBRARY m) == l && s.fld (F.SUMP_MTX_POS m) == p)

/-- The device bench of a matrix. -/
def State.matrixBench (s : State) (m : Nat) : Option Nat :=
  if s.bit (F.SUMP_MTX_VALID m) then (s.lib (s.fld (F.SUMP_MTX_LIBRARY m))).benches[s.fld (F.SUMP_MTX_POS m)]? else none

/-- Levels of one digit column of weights; rows beyond the weights are erased. -/
def digitLevels (i4 : Bool) (w : List Int) (i : Nat) : BitVec 2048 :=
  levelsOf (fun r => match w[r]? with | some v => weightDigit i4 v i | none => 0)

/-- The level a logical data column of a bench should hold, for tile r and column e: the mirror's key, the matrix's digits, the
cells as they stand where the key or matrix mirror is lost, and level 0 elsewhere. A bench held by a library update keeps its entries. -/
def State.intendedCol (s : State) (k j r e : Nat) : BitVec 2048 :=
  let b := s.devBench k j
  let ph := s.physTile k (j * (s.dim / 1024) + r)
  let held := s.cellCol k ph ((s.tileSt k ph).colOf e)
  let keyed : BitVec 2048 :=
    if (s.entry b e).state = esEMPTY then 0
    else match s.mirror b e with
      | some key => keyLevels key r
      | none => held
  match s.benchLib b with
  | none => if s.sump.held.contains b then keyed else 0
  | some (l, p) =>
    if s.libKind l = 2 then
      match s.matrixOn l p with
      | none => 0
      | some m =>
        let n := s.mtxDigits m
        let w := s.weights m (r * s.mtxPerTile m + e / n)
        if w.isEmpty then held else digitLevels (s.mtxI4 m) w (e % n)
    else keyed

/-- A read-back key of an entry (R273): each bit is 1 where its cell is nearer 3 than 0; `cells` gives the readings that differ
from the levels held. -/
def State.readBack (s : State) (b c : Nat) (cells : List CellRead) : Key :=
  let k := s.benchDie b
  let t := s.dim / 1024
  BitVec.ofNat 32768 (bitsNat s.dim (fun d =>
    let ph := s.physTile k (s.benchLocal b * t + d / 1024)
    let pc := (s.tileSt k ph).colOf c
    decide (1536 < s.cellMu k ph (cells.filter (fun x => x.tile.toNat == d / 1024)) pc (d % 1024))))

/-! ### Upkeep writes (R268) -/

/-- An upkeep write of columns of one logical tile to their intended levels. -/
def State.upkeepWrite (s : State) (k l : Nat) (cols : List Nat) : State :=
  let p := s.physTile k l
  let bj := s.benchOfTile l
  let lv := fun e => match bj with
    | some (j, r) => if e < 1024 then s.intendedCol k j r e else 0
    | none => if e < 1024 then s.cellCol k p ((s.tileSt k p).colOf e) else 0
  let d := s.die k
  s.setDie k { d with batches := d.batches ++ [{
    target := .tile (BitVec.ofNat 16 p), bench := bj.map Prod.fst, phys := [p], cols := cols,
    levels := cols.map (fun e => ((0, e), lv e)), upkeep := true }] }

/-- Columns not erased of a tile are queued to be erased (DELETE, REMOVE_BENCH). -/
def State.queueErase (s : State) (b : Nat) : State :=
  let k := s.benchDie b
  let t := s.dim / 1024
  let jobs := (List.range t).flatMap (fun r =>
    let l := s.benchLocal b * t + r
    let p := s.physTile k l
    ((List.range 1024).filter (fun e => s.cellCol k p ((s.tileSt k p).colOf e) != 0)).map (fun e => RefreshJob.mk l e false))
  s.setQueue k ((s.die k).refreshQ ++ jobs)

/-- Is every data column of a bench erased? -/
def State.benchErased (s : State) (b : Nat) : Bool :=
  let k := s.benchDie b
  (s.benchPhys k (s.benchLocal b)).all (fun p => (List.range 1024).all (fun e => s.cellCol k p ((s.tileSt k p).colOf e) == 0))

/-- Assign a bench to a library, or release it. The format of the bench's tiles becomes the library's (R236). -/
def State.assignBench (s : State) (b : Nat) (l : Option Nat) (four : Bool) : State :=
  let k := s.benchDie b
  let j := s.benchLocal b
  let s1 := s.setBench k j { s.benchSt k j with lib := l, fourLevel := if l.isSome then some four else (s.benchSt k j).fourLevel }
  if l.isSome then (s.benchPhys k j).foldl (fun a p => a.setTile k p { a.tileSt k p with fourLevel := four }) s1 else s1

/-! ### The three-step update (R315, R316) -/

/-- Is a request still to receive a result from a bench? -/
def Request.owed (r : Request) (b : Nat) : Bool :=
  r.benches.any (fun e => e.bench == b && !e.miss && (e.waiting || !r.ready))

/-- Tags of the admitted requests that have still to receive a bench's result. -/
def State.owedTags (s : State) (b : Nat) : List Nat := (s.sump.active.filter (fun r => r.owed b)).map (fun r => r.tag)

/-- Drop a repair of an entry: its outcome is discarded (R311). -/
def State.dropRepair (s : State) (b c : Nat) : State :=
  { s with sump := { s.sump with repairs := s.sump.repairs.map (fun j => if j.at_ = b * 1024 + c then { j with dropped := true } else j) } }

def State.repairing (s : State) (b c : Nat) : Bool := s.sump.repairs.any (fun j => j.at_ == b * 1024 + c && !j.dropped)

/-- Step 1 of the library's first waiting batch, when none is in flight: its entries become INVALID. A write of an entry under
refresh waits (Table UPKEEP-9). -/
def State.beginBatch (s : State) (l : Nat) : State :=
  let lb := s.lib l
  match lb.queue with
  | [] => s.setFld (F.SUMP_LIB_CFG_BATCH l) 0
  | q :: rest =>
    if q.begun || (match s.benchAt l q.pos with
      | some b => (s.die (s.benchDie b)).batches.any (fun x => x.upkeep && x.bench == some (s.benchLocal b) && q.items.any (fun i => x.cols.contains i.col))
      | none => false) then s
    else match s.benchAt l q.pos with
      | none => s.setLib l { lb with queue := rest }
      | some b =>
        let s1 := q.items.foldl (fun a i => (a.setEntryState b i.col esINVALID).dropRepair b i.col) s
        (s1.setLib l { s1.lib l with queue := { q with begun := true, waits := s.owedTags b } :: rest }).setFld (F.SUMP_LIB_CFG_BATCH l) 1

/-- A WRITE item (Table HOST-8b). -/
def itemBytes (dim : Nat) (i : WriteItem) : List Byte :=
  bytesLE 2 i.col ++ bytesLE 1 i.prio ++ bytesLE 1 0 ++ bytesLE 4 i.cls ++ bytesLE 8 0 ++ keyBytes dim i.key

/-- A batch joins its library's queue (R316); one for a position that a peer serves travels to the peer (R377). -/
def State.queueBatch (s : State) (l : Nat) (q : LibBatch) : State :=
  match if q.matrix.isNone then s.awayPeer l q.pos else none with
  | some m =>
    let s1 := match s.benchAt l q.pos with
      | some b => q.items.foldl (fun (a : State) (i : WriteItem) => a.setEntry b i.col {}) s
      | none => s
    s1.sendBenchOp m 5 l q.pos (bytesLE 1 q.items.length ++ q.items.flatMap (itemBytes s.dim))
  | none => (s.setLib l { s.lib l with queue := (s.lib l).queue ++ [q] }).beginBatch l

/-- Write an entry's mirror and side-record fields (R298, step 2 of R315). -/
def State.writeEntry (s : State) (b : Nat) (i : WriteItem) : State :=
  let e := ({ s.entry b i.col with
    mirror := mirrorSlot b i.col, prio := i.prio, cls := i.cls, origin := i.origin, seq := i.seq, ts := i.ts } : Entry).withKey s.dim i.key
  (s.setMirror (mirrorSlot b i.col) (some i.key)).setEntry b i.col e

/-- Another clean copy of an entry's key (R409): where the keys differ, the copy with the higher SEQ wins and the other is rewritten
from it; on equal SEQ the entry is quarantined. -/
def State.resolveCopy (s : State) (x : KeyCopy) : State :=
  let b := x.bench.toNat
  let c := x.col.toNat
  let e := s.entry b c
  match s.mirror b c, s.benchLib b with
  | some key, some (l, p) =>
    if e.state = esEMPTY || key = x.key || x.seq.toNat < e.seq then s
    else if e.seq < x.seq.toNat then
      s.queueBatch l { src := .upkeep, pos := p, items := [⟨c, x.key, e.prio, e.cls, e.origin, x.seq.toNat, e.ts, false⟩] }
    else
      (((s.quarantine b c).alarm F.SUMP_ALARM_CONFLICT (b * 1024 + c)).alarm F.CHISEL_ALARM_CONFLICT (b * 1024 + c)).bump F.CHISEL_CONFLICTS_COUNT 1
  | _, _ => s

/-- Send a batch of search entries of a bench to its die (R251). -/
def State.sendEntries (s : State) (l b : Nat) (items : List WriteItem) : State :=
  let k := s.benchDie b
  let j := s.benchLocal b
  let d := s.die k
  let ph := s.benchPhys k j
  s.setDie k { d with batches := d.batches ++ [{
    target := .bench (BitVec.ofNat 13 j), bench := some j, phys := ph, cols := items.map (fun i => i.col),
    levels := items.flatMap (fun i => (List.range ph.length).map (fun r => ((r, i.col), keyLevels i.key r))), lib := some l }] }

/-- Staging tiles kept among the pillar tiles, by logical number (R270). -/
def stagingTiles : List Nat := (List.range 64).map (fun i => 32704 + i)

/-- Staging tiles not in use by a fill or a matrix write. -/
def State.freeStaging (s : State) (k : Nat) : List Nat :=
  let d := s.die k
  stagingTiles.filter (fun l => !(d.fills.any (fun f => f.2 == l)) && !(s.tileSt k (s.physTile k l)).retired &&
    !(d.batches.any (fun b => b.phys.contains (s.physTile k l))))

/-- Send a new version of a matrix: the whole bench is written into staging tiles (R213). -/
def State.sendMatrix (s : State) (l b m first : Nat) (new : List (List Int)) : State :=
  let k := s.benchDie b
  let j := s.benchLocal b
  let d := s.die k
  let t := s.dim / 1024
  let stage := (s.freeStaging k).take t
  let n := s.mtxDigits m
  let w := fun c => match new[c - first]? with | some v => if first ≤ c then v else s.weights m c | none => s.weights m c
  s.setDie k { d with batches := d.batches ++ [{
    target := .bench (BitVec.ofNat 13 j), bench := some j, phys := stage.map (s.physTile k), cols := List.range 1024,
    levels := (List.range t).flatMap (fun r => (List.range 1024).map (fun e =>
      let c := w (r * s.mtxPerTile m + e / n)
      let p := s.physTile k (j * t + r)
      ((r, e), if c.isEmpty then s.cellCol k p ((s.tileSt k p).colOf e) else digitLevels (s.mtxI4 m) c (e % n)))), lib := some l }] }

/-- Send the library's pending batch of appends (R322). -/
def State.sendPending (s : State) (l : Nat) : State :=
  match (s.lib l).pend with
  | none => s
  | some (pos, _, items) =>
    (s.setLib l { s.lib l with pend := none }).queueBatch l { src := .append, pos := pos, items := items, written := true }

/-! ### Requests -/

/-- Device benches of the mirror reserve (R375). -/
def State.isReserved (s : State) (b : Nat) : Bool := s.tunnel.reserved.contains b

/-- Change a request that is admitted. -/
def State.setReq (s : State) (r : Request) : State :=
  { s with sump := { s.sump with active := s.sump.active.map (fun x => if x.tag = r.tag then r else x) } }

def State.req (s : State) (tag : Nat) : Option Request := s.sump.active.find? (fun r => r.tag == tag)

/-- A window is reported SUMP_BUSY (R32, R327). -/
def State.busySkip (s : State) (n start aditFlags : Nat) : State :=
  ((s.bump F.SUMP_BUSY_SKIPS_COUNT 1).alarm F.SUMP_ALARM_BUSY n).skipWindow n skSUMP_BUSY start aditFlags

/-! ### Learning state that follows an entry (Table CHISEL-8) -/

def State.shadow (s : State) (b c : Nat) : Option Shadow := tget (fun _ => none) s.chisel.shadows (b * 1024 + c)
def State.setShadow (s : State) (b c : Nat) (v : Option Shadow) : State :=
  { s with chisel := { s.chisel with shadows := tset (fun _ => none) s.chisel.shadows (b * 1024 + c) v } }

/-- P seeded from a key (R387). -/
def seedShadow (dim init seq : Nat) (k : Key) : Shadow :=
  { p := (List.range dim).map (fun d => if k.getLsbD d then -(init : Int) else init), seq := seq, rebuilt := true }

def State.learningLib (s : State) (l : Nat) : Bool := s.bit (F.CHISEL_LIB_LEARN l)

/-- Seed the shadow of an entry from its mirror. -/
def State.seed1 (s : State) (b c : Nat) : State :=
  match s.mirror b c with
  | some k => s.setShadow b c (some (seedShadow s.dim (s.fld F.CHISEL_PROTO_INIT) (s.entry b c).seq k))
  | none => s

/-- CHISEL_USED: learning entries and pool prototypes in use. -/
def State.countUsed (s : State) : State :=
  s.setFld F.CHISEL_USED_ENTRIES (min (2 ^ 20 - 1) (s.chisel.shadows.length + s.chisel.pool.length))

/-- An entry's learning state is freed. -/
def State.freeShadow (s : State) (b c : Nat) : State := (s.setShadow b c none).countUsed

/-- Is an entry in a batch of its library, so that a refresh of it is dropped (Table UPKEEP-9)? -/
def State.inBatch (s : State) (b c : Nat) : Bool :=
  match s.benchLib b with
  | none => false
  | some (l, p) => (s.lib l).queue.any (fun q => q.pos == p && q.items.any (fun i => i.col == c)) ||
      (match (s.lib l).pend with | some (q, _, is) => q == p && is.any (fun i => i.col == c) | none => false)

end Sys2Proof.Machine
end

