-- ==== Sys2Proof/Machine/TunnelOps.lean ====
section
/-! DEFINITION.  Shared operations of the cascade: members, shares and the frames of a
forwarded request (R351 to R361). -/

namespace Sys2Proof.Machine

/-- Pass a frame on, away from the port it came by (R365). -/
def State.forward (s : State) (p : Nat) (f : Frame) : State :=
  if f.dst = 0xFF#8 || decide (f.dst.toNat ≠ s.position) then
    (s.rolePorts.filter (· != p)).foldl (fun a q => a.sendFrame q f) s
  else s

/-- Is the frame for this device? -/
def State.addressed (s : State) (f : Frame) : Bool := f.dst == 0xFF#8 || f.dst.toNat == s.position

/-- Members in RESPONDING, other than this device. -/
def State.responding (s : State) : List Nat :=
  (List.range 8).filter (fun m => m != s.position && hasBit (s.fld F.TUNNEL_STATUS_RESPONDING) m)

def State.isSpan (s : State) (l : Nat) : Bool := s.bit (F.TUNNEL_LIB_SPAN l)

/-- Other members that hold a share of a library (TUNNEL_LIB_l.SHARES). -/
def State.sharers (s : State) (l : Nat) : List Nat :=
  (List.range 8).filter (fun m => m != s.position && hasBit (s.fld (F.TUNNEL_LIB_SHARES l)) m)

/-- SPAN libraries that a mask names. -/
def State.spanOf (s : State) (mask : Nat) : List Nat := (List.range 16).filter (fun l => hasBit mask l && s.isSpan l)

/-- Is a request with this mask forwarded (R354): does a SPAN library of it have a share on another member? -/
def State.forwards (s : State) (mask : Nat) : Bool := s.inChain && (s.spanOf mask).any (fun l => !(s.sharers l).isEmpty)

/-- Payload of a QUERY or APPEND: the key and the present-sliver mask (Table CASC-4). -/
def State.queryPayload (s : State) (key : Key) (present : Nat) : List Byte := keyBytes s.dim key ++ bytesLE 16 present

/-- ARG0 of a QUERY (Table CASC-4). -/
def queryArg (mask k q kind beta : Nat) : Nat :=
  mask % 65536 * 2 ^ 48 + k % 64 * 2 ^ 42 + q % 8 * 2 ^ 39 + kind % 4 * 2 ^ 37 + beta % 65536

/-- A candidate's 16 bytes in an ANSWER. -/
def Cand.bytes (c : Cand) : List Byte :=
  bytesLE 3 c.entry ++ bytesLE 1 c.lib ++ bytesLE 2 c.dist ++ bytesLE 1 c.prio ++ bytesLE 1 0 ++ bytesLE 4 c.cls ++ bytesLE 4 0

/-- ARG0 of an ANSWER. -/
def answerArg (a : Answer) (status : Nat) : Nat :=
  a.errBound % 65536 * 2 ^ 48 + a.benchMiss % 65536 * 2 ^ 32 + a.nobench % 65536 * 2 ^ 16 + a.cands.length % 256 * 256 + status % 256

/-- The REQ field (Table CASC-3). -/
def reqField (origin serial : Nat) : Nat := origin % 8 * 2 ^ 29 + serial % 2 ^ 29

/-- The present-sliver mask as a compared set over D dimensions (R306). -/
def presentMask (dim present : Nat) : Key :=
  BitVec.ofNat 32768 ((List.range (dim / 256)).foldr (fun j a => (if present.testBit j then 2 ^ 256 - 1 else 0) * 2 ^ (256 * j) + a) 0)

/-- A request that cannot be served is answered BUSY (R355). -/
def State.answerBusy (s : State) (origin req : Nat) : State :=
  (s.sendTo (s.mkFrame ftANSWER origin req 1 0 [])).bump F.TUNNEL_REMOTE_BUSY_COUNT 1

/-- Does this member hold a library's append token (R359)? -/
def State.holdsToken (s : State) (l : Nat) : Bool := s.bit (F.TUNNEL_LIB_TOKEN l)

/-- The next member in ascending position, from the tail back to the head, with LEN above 0 in the library (R360). -/
def State.nextHolder (s : State) (l : Nat) : Option Nat :=
  let n := s.chainSize
  ((List.range n).map (fun i => (s.position + 1 + i) % n)).find? (fun m => m == s.position || hasBit (s.fld (F.TUNNEL_LIB_SHARES l)) m)

/-- Pass the token on (R360, R361): the generation rises by 1. -/
def State.passToken (s : State) (l : Nat) : State :=
  match s.nextHolder l with
  | none => s
  | some m =>
    let g := s.fld (F.TUNNEL_LIB_GEN_GEN l) + 1
    let s0 := s.setFld (F.TUNNEL_LIB_GEN_GEN l) g
    let s1 : State := { s0 with tunnel := { s0.tunnel with holder := aset s0.tunnel.holder l m } }
    if m = s.position then s1
    else (s1.setFld (F.TUNNEL_LIB_TOKEN l) 0).sendTo (s1.mkFrame ftTOKEN m 0 l g [])

end Sys2Proof.Machine
end

