-- ==== Sys2Proof/Machine/SearchOps.lean ====
section
/-! DEFINITION.  Shared operations of search: assembly and queues (R302 to R306), approximate distances and ranking (R306 to R312),
the Q setting and the band (R329 to R336), matrix values (R233, R341). -/

namespace Sys2Proof.Machine

/-! ### Settings -/

/-- K as a register or descriptor gives it: 0 uses KDEF; 0 acts as 1, values above 32 as 32 (Tables SUMP-13, SUMP-14). -/
def State.clampK (s : State) (k : Nat) : Nat := min 32 (max 1 (if k = 0 then s.fld F.SUMP_CFG_KDEF else k))

/-- A four-bit Q selection: 8 to 15 uses DEFQ (R329). -/
def State.resolveQ (s : State) (v : Nat) : Nat := if v < 8 then v else s.fld F.SUMP_QCFG_DEFQ

/-- The Q setting of a stream's windows. -/
def State.streamQ (s : State) (n : Nat) : Nat :=
  s.resolveQ (s.fld ⟨R.SUMP_QSTREAM (n / 8), 4 * (n % 8), 4⟩)

/-- σ_D of Table APPROX-3. -/
def sigmaD (dim : Nat) : Nat :=
  if dim = 4096 then 56 else if dim = 8192 then 79 else if dim = 16384 then 111 else 157

/-- M_q, for Q1 to Q6. -/
def State.bandMul (s : State) (q : Nat) : Nat := if 1 ≤ q ∧ q ≤ 6 then s.fld (F.SUMP_QBAND_M q) else 0

/-- β of R332; 0 at Q0, at Q7, and where M_q is 0 (R331). -/
def State.band (s : State) (q : Nat) : Nat := s.bandMul q * sigmaD s.dim / 4

/-- Throttle level of a die (Table SUMP-13). -/
def State.throttleOf (s : State) (k : Nat) : Nat := s.fld ⟨R.SUMP_THROTTLE, 3 * k, 3⟩

/-! ### Record flags (Tables SUMP-10, APPROX-8) -/

def rfMIRROR_ERR : Nat := 3
def rfBUNDLE_SAT : Nat := 4
def rfEVENT_LOSS : Nat := 5
def rfEMPTY : Nat := 6
def rfTILE_WITHHELD : Nat := 7
def rfTOP1_EXACT : Nat := 8
def rfNOVEL : Nat := 9
def rfRECALL_QUEUED : Nat := 10
def rfRECALL_DROPPED : Nat := 11
def rfTHROTTLED : Nat := 12
def rfESTIMATED : Nat := 13
def rfBOUND_EXCEEDED : Nat := 14
def rfQUARANTINE : Nat := 15
def rfFORCED : Nat := 16
def rfMSB_ONLY : Nat := 17
def rfBAND_EDGE : Nat := 18
def rfREFINED : Nat := 19
def rfPREFIX_ONLY : Nat := 20

/-- Flag bit `i` when `b` holds. -/
def flagIf (b : Bool) (i : Nat) : Nat := if b then 2 ^ i else 0

/-! ### Assembly (R305, R306) -/

/-- Slivers of the stream that have come, by position. -/
def Assembly.has (a : Assembly) (j : Nat) : Bool := a.slivers.any (fun x => x.pos == j)

/-- Are all slivers in, except those reported missing? -/
def State.asmComplete (s : State) (a : Assembly) : Bool :=
  let gone := s.missingSlivers (s.sgroup a.stream)
  (List.range s.groupCores).all (fun j => a.has j || gone.contains j)

/-- The key of the slivers present; a missing sliver drives no row. -/
def Assembly.key (a : Assembly) : Key :=
  a.slivers.foldl (fun (k : Key) (x : SliverIn) => k ||| (x.bits.setWidth 32768 <<< (256 * x.pos : Nat))) (0 : Key)

def Assembly.present (a : Assembly) : Nat := a.slivers.foldl (fun m x => m ||| 2 ^ x.pos) 0

/-- Flags that slivers give a record (Table SUMP-10). -/
def Assembly.sliverFlags (a : Assembly) (missing : Bool) : Nat :=
  flagIf missing 1 ||| flagIf (a.slivers.any (fun x => x.sat)) rfBUNDLE_SAT ||| flagIf (a.slivers.any (fun x => x.loss)) rfEVENT_LOSS |||
    flagIf (!a.slivers.isEmpty && a.slivers.all (fun x => x.zero)) rfEMPTY

/-- Queries of the stream still queued, that a newer window overtakes, are reported SUMP_BUSY (Table FLOW-3, Table SUMP-11). -/
def State.overtake (s : State) (n start : Nat) : State :=
  let old := fun (r : Request) => decide (r.kind = .window) && r.stream == n && r.start < start
  let gone := (s.sump.watchQ ++ s.sump.ordQ).filter old
  let s1 : State := { s with sump := { s.sump with
    watchQ := s.sump.watchQ.filter (fun r => !old r), ordQ := s.sump.ordQ.filter (fun r => !old r) } }
  gone.foldl (fun (a : State) r => a.busySkip n r.start r.aditFlags) s1

/-- A query joins WATCH or ORDINARY. -/
def State.queueWindow (s : State) (r : Request) : State :=
  let s1 := s.overtake r.stream r.start
  if s.bit (F.ADIT_STREAM_CFG_WATCH r.stream) then { s1 with sump := { s1.sump with watchQ := s1.sump.watchQ ++ [r] } }
  else { s1 with sump := { s1.sump with ordQ := s1.sump.ordQ ++ [r] } }

/-- The query is assembled (R305): it goes to its queue, or is reported NO_QUERY. -/
def State.assemble (s : State) (a : Assembly) : State :=
  let s1 : State := { s with asm := dropFirst a s.asm }
  let missing := s.groupCores - a.slivers.length
  if a.slivers.isEmpty || s.fld F.SUMP_CFG_MAXMISS < missing then s1.skipWindow a.stream skNO_QUERY a.start a.aditFlags
  else s1.queueWindow {
    kind := .window, stream := a.stream, start := a.start, key := a.key, present := a.present, aditFlags := a.aditFlags,
    flags := a.flags ||| a.sliverFlags (0 < missing), startTs := s.tickStart a.start }

/-- Change an assembly. -/
def State.setAsm (s : State) (old new : Assembly) : State := { s with asm := s.asm.map (fun x => if x = old then new else x) }

/-- Sump takes a sliver (R305, Table GAL-4). -/
def State.takeSliver (s : State) (m : Msg) : State :=
  let w := msgWord m 0
  let n := (w.extractLsb' 0 16).toNat
  let j := (w.extractLsb' 16 7).toNat
  let start := (msgWord m 1).toNat
  match s.asm.find? (fun a => a.stream == n && a.start == start) with
  | none => s.bump F.SUMP_LATE_SLIVERS_COUNT 1
  | some a =>
    if a.has j || s.groupCores ≤ j then s
    else
      let first := a.slivers.isEmpty
      let x : SliverIn := {
        pos := j, pop := (w.extractLsb' 32 9).toNat, sat := w.getLsbD 41, loss := w.getLsbD 42, zero := w.getLsbD 43,
        bits := msgWord m 5 ++ msgWord m 4 ++ msgWord m 3 ++ msgWord m 2 }
      let b := { a with slivers := a.slivers ++ [x], sliverBy := if first then some (s.now + s.fld F.SUMP_SLIVER_WAIT_WAIT) else a.sliverBy }
      let s1 := (if first then s.overtake n start else s).setAsm a b
      if s1.asmComplete b then s1.assemble b else s1

/-! ### Distances (R308, R309, R312) -/

/-- Tiles of a bench. -/
def State.tilesPer (s : State) : Nat := s.dim / 1024

/-- The prefix tiles of R57. -/
def State.prefixTiles (s : State) : Nat := s.dim / 4096

/-- Rows that a query drives in a tile. -/
def tileRows (k : Key) (r : Nat) : Nat := (List.range 1024).countP (fun i => k.getLsbD (1024 * r + i))

/-- Dimensions of the slivers present: |C|. -/
def presentDims (dim present : Nat) : Nat := 256 * (List.range (dim / 256)).countP (fun j => present.testBit j)

/-- |E|: dimensions of C that the tiles counted hold. -/
def eDims (dim present counted : Nat) : Nat :=
  256 * (List.range (dim / 256)).countP (fun j => present.testBit j && counted.testBit (j / 4))

/-- 1 bits of the query in the tiles counted. -/
def qBits (dim counted : Nat) (k : Key) : Nat :=
  (((List.range (dim / 1024)).filter (fun r => counted.testBit r)).map (tileRows k)).sum

/-- E_q over a set of tiles (R312). -/
def errBound (dim tiles : Nat) (k : Key) : Nat :=
  2 * (((List.range (dim / 1024)).filter (fun r => tiles.testBit r)).map (fun r =>
    let n := tileRows k r
    if n = 0 then 0 else 1 + n / 512)).sum

/-- Is E all D dimensions, or the prefix (R308)? -/
def isAll (dim present counted : Nat) : Bool := eDims dim present counted == dim
def isPrefix (dim present counted : Nat) : Bool :=
  eDims dim present counted == dim / 4 && counted == 2 ^ (dim / 4096) - 1

/-- Ĥ in 1/16 count, ties rounded upward (R308), and whether |p_E| was estimated. -/
def approx16 (dim present counted : Nat) (q : Key) (e : Entry) (c : Nat) : Int × Bool :=
  let ed := eDims dim present counted
  let est := !isAll dim present counted && !isPrefix dim present counted
  let pe : Nat := if isAll dim present counted then e.pop * dim else if isPrefix dim present counted then e.popPre * dim else e.pop * ed
  let num : Int := 16 * presentDims dim present * (((qBits dim counted q : Int) - 2 * c) * dim + pe)
  let den : Int := ed * dim
  ((2 * num + den) / (2 * den), est)

/-- An entry as ranked: approximate ranked distance and Ĥ in 1/16 count, and the keys of R309. -/
structure Rank where
  rank : Int
  h16 : Int
  prio : Nat
  lib : Nat
  entry : Nat
  bench : Nat
  col : Nat
  est : Bool
  deriving DecidableEq, Repr

/-- The order of R309. -/
def rankBefore (r p l e : Int) (r' p' l' e' : Int) : Bool :=
  r < r' || (r == r' && (p' < p || (p == p' && (l < l' || (l == l' && e < e')))))

def Rank.before (a b : Rank) : Bool := rankBefore a.rank a.prio a.lib a.entry b.rank b.prio b.lib b.entry
def Cand.before (a b : Cand) : Bool := rankBefore a.rank a.prio a.lib a.entry b.rank b.prio b.lib b.entry

/-- Insert in order. -/
def insRank (x : Rank) : List Rank → List Rank
  | [] => [x]
  | y :: t => if x.before y then x :: y :: t else y :: insRank x t

def insCand (x : Cand) : List Cand → List Cand
  | [] => [x]
  | y :: t => if x.before y then x :: y :: t else y :: insCand x t

def sortRanks (l : List Rank) : List Rank := l.foldl (fun a x => insRank x a) []
def sortCands (l : List Cand) : List Cand := l.foldl (fun a x => insCand x a) []

def State.pstep (s : State) (l : Nat) : Nat := s.fld (F.SUMP_LIB_CFG_PSTEP l)

/-- The entries of a bench with their approximate ranked distances; none where E is empty. -/
def State.benchRanks (s : State) (r : Request) (b : BenchEval) : List Rank :=
  if b.miss || eDims s.dim r.present b.counted = 0 then []
  else b.entries.map (fun e =>
    let h := approx16 s.dim r.present b.counted r.key e.2.1 (b.counts.getD e.1 0)
    { rank := h.1 - 16 * (s.pstep b.lib * e.2.1.prio : Nat), h16 := h.1, prio := e.2.1.prio, lib := b.lib,
      entry := b.pos * 1024 + e.1, bench := b.bench, col := e.1, est := h.2 })

/-- Every entry of a request in the order of R309. -/
def State.ranks (s : State) (r : Request) : List Rank := sortRanks (r.benches.flatMap (s.benchRanks r))

/-- Tiles counted in any bench. -/
def Request.countedTiles (r : Request) : Nat := r.benches.foldl (fun m b => if b.miss then m else m ||| b.counted) 0

/-- VALID entries of the benches searched. -/
def Request.validEntries (r : Request) : Nat := (r.benches.map (fun b => if b.miss then 0 else b.entries.length)).sum

/-! ### Evaluations -/

/-- The precedence class of a request's passes (Table FLOW-6). -/
def State.reqClass (s : State) (r : Request) : Nat :=
  match r.kind with
  | .window => if s.bit (F.ADIT_STREAM_CFG_WATCH r.stream) then 0 else 1
  | .synapse => 1
  | _ => 2

/-- Send an evaluation to a die (R307). A bench that is no longer READY completes it NOT_READY (Table SEAM-11). -/
def State.sendEval (s : State) (r : Request) (b kind part : Nat) (input : EvalInput) (passes : List PassJob) : State :=
  let k := s.benchDie b
  let d := s.die k
  s.setDie k { d with evals := d.evals ++ [{
    die := k, bench := s.benchLocal b, tag := r.tag, kind := kind, cls := s.reqClass r, part := part, input := input, passes := passes,
    notReady := !s.benchReady b }] }

/-- Search evaluations of the benches over tiles [lo, hi). -/
def State.sendSearch (s : State) (r : Request) (part lo hi : Nat) (bs : List Nat) : State :=
  bs.foldl (fun (a : State) b => a.sendEval r b 0 part (.query r.key)
    ((List.range (hi - lo)).map (fun i => { tile := lo + i }))) s

/-! ### Matrix requests (R209 to R211, R233, R341) -/

/-- Kind of a matrix evaluation (Table SEAM-7): BIT 1, U4 2, I8 3. -/
def Request.mtxKind (r : Request) : Nat := if decide (r.kind = .synapse) then 1 else r.inkind + 1

/-- Tiles of a matrix that hold a used column. -/
def State.mtxTiles (s : State) (m : Nat) : Nat :=
  let n := s.fld (F.SUMP_MTX_SHAPE_COLS m)
  (n + s.mtxPerTile m - 1) / s.mtxPerTile m

/-- Is the matrix request evaluated whole in its first evaluation? -/
def State.mtxWhole (s : State) (r : Request) : Bool :=
  decide (r.kind = .synapse) || r.q == 7 || s.mtxI4 r.matrix

/-- Passes of a matrix evaluation: whole, its most significant part, or the remainder (Table APPROX-1). -/
def mtxPasses (i8in : Bool) (mode tiles : Nat) : List PassJob :=
  (List.range tiles).flatMap (fun t =>
    match mode, i8in with
    | 0, false => [{ tile := t }]
    | 0, true => [{ tile := t, half := 1 }, { tile := t }]
    | 1, false => [{ tile := t, digits := 1 }]
    | 1, true => [{ tile := t, half := 1, digits := 1 }]
    | _, false => [{ tile := t, digits := 2 }]
    | _, true => [{ tile := t, half := 1, digits := 2 }, { tile := t }])

/-- Counts of a digit column, and the input sum, of a tile and half. -/
def BenchEval.digit (b : BenchEval) (tile half e : Nat) : Int :=
  ((b.got.filter (fun g => g.1 == tile && g.2.1 == half)).map (fun g => g.2.2.1.getD e 0)).sum
def BenchEval.inputSum (b : BenchEval) (tile half : Nat) : Nat :=
  match b.got.find? (fun g => g.1 == tile && g.2.1 == half) with | some g => g.2.2.2 | none => 0

/-- Does tile `t` of the evaluation contribute? -/
def BenchEval.hasTile (b : BenchEval) (t : Nat) : Bool := b.counted.testBit t

/-- The exact value of weight column c (R233); zero for a tile that contributes nothing. -/
def State.mtxValue (s : State) (r : Request) (b : BenchEval) (c : Nat) : Int :=
  let m := r.matrix
  let n := s.mtxDigits m
  let t := c / s.mtxPerTile m
  let k := c % s.mtxPerTile m
  let off : Int := if s.mtxI4 m then 8 else 128
  let part := fun half => ((List.range n).map (fun i => 4 ^ i * b.digit t half (k * n + i))).sum - off * b.inputSum t half
  if !b.hasTile t then 0
  else if r.mtxKind = 3 then
    16 * part 1 + part 0 - 128 * tget (fun _ => (0 : Int)) s.seam.wtot ((s.benchDie b.bench * 8192 + s.benchLocal b.bench) * 16384 + c)
  else part 0

/-- The partial value of an I8 weight column (Table APPROX-4). -/
def State.mtxPartial (s : State) (r : Request) (b : BenchEval) (c : Nat) : Int :=
  let m := r.matrix
  let t := c / s.mtxPerTile m
  let k := c % s.mtxPerTile m
  let half := if r.mtxKind = 3 then 1 else 0
  let x : Int := b.inputSum t half
  let v := 16 * b.digit t half (4 * k + 2) + 64 * b.digit t half (4 * k + 3) + 15 * x / 2 - 128 * x
  let w := tget (fun _ => (0 : Int)) s.seam.wtot ((s.benchDie b.bench * 8192 + s.benchLocal b.bench) * 16384 + c)
  if !b.hasTile t then 0
  else if r.mtxKind = 3 then 16 * v + 15 * w / 2 - 128 * w else v

/-- E_p of R341, the largest error of the partial values. -/
def State.mtxError (s : State) (r : Request) (b : BenchEval) : Nat :=
  let x := (List.range s.tilesPer).foldl (fun a t => max a (b.inputSum t (if r.mtxKind = 3 then 1 else 0))) 0
  let w := (15 * x + 1) / 2
  if r.mtxKind = 3 then 16 * w + 960 * s.fld (F.SUMP_MTX_SHAPE_ROWS r.matrix) + 1 else w

/-- Largest value less the second largest, of two or more. -/
def topGap (l : List Int) : Int :=
  let p := l.foldl (fun (a : Option Int × Option Int) v =>
    match a with
    | (none, x) => (some v, x)
    | (some b, x) => if b < v then (some v, some b) else match x with
      | none => (some b, some v)
      | some y => (some b, some (max y v))) (none, none)
  match p with
  | (some b, some y) => b - y
  | _ => 0

end Sys2Proof.Machine
end

