-- ==== Sys2Proof/Machine/Search.lean ====
section
/-! DEFINITION.  The commands of search: SLIVER and its waits, synapse requests, admission, and bench results with the
refinement decision (R209 to R213, R302 to R310, R329 to R341). -/

namespace Sys2Proof.Machine

/-- Is the message the oldest of its sender at a Sump port? -/
def State.atSump (s : State) (m : Msg) : Bool :=
  s.oldest m && (match endpoint m.dest.toNat with | .sump _ => true | _ => false)

/-- SLIVER (R305): Sump takes the message; a message with neither tag of R209 is discarded and counted. -/
def execSliver (msg : Msg) (s : State) : Out :=
  if !s.atSump msg || decide (msg.tag.toNat = tagSYNAPSE) then .next s
  else if decide (msg.tag.toNat = tagSLIVER) then .next ((s.unlist msg).takeSliver msg)
  else .next ((s.unlist msg).bump F.SUMP_BADTAG_COUNT 1)

/-- The assembly of a stream's window. -/
def State.asmOf (s : State) (n start : Nat) : Option Assembly := s.asm.find? (fun a => a.stream == n && a.start == start)

/-- SLIVER_WAIT_EXPIRY (R305): the sliver wait has passed, or every expected sliver is in because others were reported missing. -/
def execSliverWaitExpiry (stream : Stream) (start : Word64) (s : State) : Out :=
  match s.asmOf stream.toNat start.toNat with
  | none => .next s
  | some a =>
    match a.sliverBy with
    | none => .next s
    | some t => if t ≤ s.now || s.asmComplete a then .next (s.assemble a) else .next s

/-- CLOSE_WAIT_EXPIRY (R305). -/
def execCloseWaitExpiry (stream : Stream) (start : Word64) (s : State) : Out :=
  match s.asmOf stream.toNat start.toNat with
  | none => .next s
  | some a =>
    match a.closeBy with
    | none => .next s
    | some t => if t ≤ s.now then .next (s.assemble a) else .next s

/-! ### Synapse requests -/

/-- Matrix rows named by a synapse request's items (Table SNN-9a). -/
def synRows (m : Msg) : List Nat := (m.payload.drop 2).flatMap (fun w => (itemSpikes w).map Prod.snd)

/-- Rows as a 0/1 input vector. -/
def rowVector (rows : List Nat) : List Int := (List.range 1024).map (fun r => if rows.contains r then 1 else 0)

/-- SYNAPSE_REQUEST (R209): the messages of a request are gathered, and with the last it joins the ORDINARY queue; beyond 4,096
queued it is dropped and counted. -/
def execSynapseRequest (msg : Msg) (s : State) : Out :=
  if !s.atSump msg || decide (msg.tag.toNat ≠ tagSYNAPSE) then .next s
  else
    let s0 := s.unlist msg
    let w := msgWord msg 0
    let n := (w.extractLsb' 0 16).toNat
    let m := (w.extractLsb' 16 8).toNat
    let t := (msgWord msg 1).toNat
    let mine := fun (p : SynPart) => p.src == msg.src.toNat && p.stream == n && p.matrix == m && p.tick == t
    let rows := (match s0.sump.syn.find? mine with | some p => p.rows | none => []) ++ synRows msg
    let others := s0.sump.syn.filter (fun p => !mine p)
    if !s.sumpReady then .next s0
    else if w.getLsbD 24 then
      let s1 : State := { s0 with sump := { s0.sump with syn := others } }
      if 4096 ≤ (s1.sump.ordQ.filter (fun r => decide (r.kind = .synapse))).length then .next (s1.bump F.SUMP_SYN_DROPS_COUNT 1)
      else
        let r : Request := { kind := .synapse, stream := n, start := t, matrix := m, rows := rowVector rows }
        .next { s1 with sump := { s1.sump with ordQ := s1.sump.ordQ ++ [r] } }
    else .next { s0 with sump := { s0.sump with syn := others ++ [⟨msg.src.toNat, n, m, t, rows⟩] } }

/-- Write a synapse result block (R211): sums saturated to I16, zero unless STATUS is OK. -/
def State.writeSynBlock (s : State) (r : Request) (status : Nat) (sums : List Int) : State :=
  let sat := sums.countP (fun v => decide (sat16 v ≠ v))
  let b : SynBlock := { tick := r.start, status := status, satCount := if status = 0 then sat else 0,
                        sums := if status = 0 then sums.map sat16 else sums.map (fun _ => 0) }
  { s with synBlocks := tset (fun _ => none) s.synBlocks (synKey r.matrix r.stream r.start) (some b) }

/-- An admitted request ends (SUMP_QUERIES). -/
def State.endRequest (s : State) (tag : Nat) : State :=
  { s with sump := { s.sump with active := s.sump.active.filter (fun r => r.tag != tag) } }.bump64 R.SUMP_QUERIES_LO 1

/-! ### Results -/

/-- Add a search evaluation's passes to a bench's counts. -/
def BenchEval.addSearch (b : BenchEval) (e : Eval) : BenchEval :=
  e.passes.foldl (fun (a : BenchEval) j => match j.st with
    | .done counts _ _ _ => { a with
        counted := a.counted ||| 2 ^ j.tile,
        counts := (List.range 1024).map (fun i => a.counts.getD i 0 + (counts.getD i 0).toNat) }
    | .withheld => { a with withheld := true }
    | _ => a) b

/-- Keep a matrix evaluation's passes; a tile any of whose passes was withheld contributes nothing. -/
def BenchEval.addMatrix (b : BenchEval) (e : Eval) : BenchEval :=
  let bad := (e.passes.filter (fun j => decide (j.st = .withheld))).map (fun j => j.tile)
  e.passes.foldl (fun (a : BenchEval) j => match j.st with
    | .done counts x _ _ => { a with
        counted := if bad.contains j.tile then a.counted else a.counted ||| 2 ^ j.tile,
        got := a.got ++ [(j.tile, j.half, counts, x)] }
    | .withheld => { a with withheld := true, status := max a.status 2, counted := a.counted &&& (2 ^ 32 - 1 - 2 ^ j.tile) }
    | _ => a) b

/-- What a bench result does to its bench's evaluation. -/
def BenchEval.take (b : BenchEval) (e : Eval) : BenchEval :=
  if e.notReady then { b with waiting := false, miss := b.miss || e.part == 0, status := if e.part = 0 then max b.status 1 else b.status }
  else
    let c := if e.kind = 0 then b.addSearch e else b.addMatrix e
    { c with waiting := false, refined := b.refined || e.part == 1 }

/-- Gap of the first two candidates in 1/16 count (R333). -/
def gapOf : List Rank → Option Int
  | a :: b :: _ => some (b.rank - a.rank)
  | _ => none

/-- The refinement decision of a search request whose first evaluation is back (R333 to R335, R345). -/
def State.decideSearch (s : State) (r : Request) : State :=
  if r.q = 7 || r.refined then s.setReq { r with ready := true }
  else
    let cands := (s.ranks r).take r.k
    let g := if r.beta = 0 || r.k < 2 then none else gapOf cands
    let pre := 2 ^ s.prefixTiles - 1
    let ed := eDims s.dim r.present pre
    let es2 : Int := 32 * presentDims s.dim r.present * errBound s.dim pre r.key
    let refine := match g with | some x => decide (x ≤ 16 * r.beta) | none => false
    let edge := match g with | some x => decide (((x - 16 * r.beta).natAbs * ed : Int) ≤ es2) | none => false
    let live := r.benches.filter (fun b => !b.miss)
    let forced := live.filter (fun b => eDims s.dim r.present b.counted == 0)
    let targets := (if refine then live else forced).map (fun b => b.bench)
    let r1 := { r with refined := true, edge := edge, forced := !forced.isEmpty, ready := targets.isEmpty,
                       benches := r.benches.map (fun b => if targets.contains b.bench && !b.miss then { b with waiting := true } else b) }
    (s.setReq r1).sendSearch r1 1 s.prefixTiles s.tilesPer targets

/-- Values of a matrix request's columns and whether they are partial. -/
def State.mtxAnswer (s : State) (r : Request) (b : BenchEval) : List Int × Bool :=
  let cols := s.fld (F.SUMP_MTX_SHAPE_COLS r.matrix)
  let part := !(s.mtxWhole r) && !b.refined
  ((List.range cols).map (fun c => if b.miss then 0 else if part then s.mtxPartial r b c else s.mtxValue r b c), part)

/-- APPROX.Q of a record (Table APPROX-8). -/
def approxQ (q : Nat) : Nat := q * 2 ^ 21

/-- A host matrix query ends: its values go to its export ring, and its record follows (R318, R434). -/
def State.endMatrix (s : State) (r : Request) (b : BenchEval) : State :=
  let a := s.mtxAnswer r b
  let msb := a.2 && !b.miss
  let bytes := a.1.flatMap (fun v => bytesLE 4 (BitVec.ofInt 32 v).toNat)
  let fl := approxQ r.q ||| flagIf msb rfMSB_ONLY ||| flagIf b.refined rfREFINED ||| flagIf r.throttled rfTHROTTLED |||
    flagIf b.withheld rfTILE_WITHHELD
  let rec_ : Result := { kind := 3, reason := b.status, stream := r.stream, start := r.start, flags := fl }
  let s1 := ((s.endRequest r.tag).bump F.SUMP_Q_MSB_COUNT (if msb then 1 else 0)).bump F.SUMP_Q_REFINE_COUNT (if b.refined then 1 else 0)
  match r.kind with
  | .matrix ring idx => s1.exportOut r.export_ { ring := ring, idx := idx, tag := r.hostTag, bytes := bytes, record := some (r.ring, rec_) }
  | _ => s1

/-- The decision of a matrix request (R341). -/
def State.decideMatrix (s : State) (r : Request) : State :=
  match r.benches with
  | [] => s
  | b :: _ =>
    if r.kind = .synapse then (s.writeSynBlock r b.status (s.mtxAnswer r b).1).endRequest r.tag
    else if s.mtxWhole r || r.refined || b.miss then s.endMatrix r b
    else
      let vals := (s.mtxAnswer r b).1
      let ep := s.mtxError r b
      if vals.length < 2 || (0 < r.beta && 8 * topGap vals ≤ (r.beta * ep : Nat)) then
        let r1 := { r with refined := true, benches := [{ b with waiting := true }] }
        (s.setReq r1).sendEval r1 b.bench r.mtxKind 1 (.rows r.rows) (mtxPasses (r.mtxKind == 3) 2 (s.mtxTiles r.matrix))
      else s.endMatrix r b

/-- Sump takes a finished evaluation of a request. -/
def State.takeEval (s : State) (r : Request) (b : Nat) (e : Eval) : State :=
  let r1 := { r with
    throttled := r.throttled || 0 < s.throttleOf e.die,
    benches := r.benches.map (fun x => if x.bench = b then x.take e else x) }
  let s1 := s.setReq r1
  if r1.benches.any (fun x => x.waiting) then s1
  else if e.kind = 0 then s1.decideSearch r1 else s1.decideMatrix r1

/-! ### Admission (R302 to R304, R307, R310) -/

/-- VALID entries of a bench with their keys, as they stand at admission. -/
def State.entriesAt (s : State) (b : Nat) : List (Nat × Entry × Option Key) :=
  (s.entriesIn b [esVALID]).map (fun c => (c, s.entry b c, s.mirror b c))

/-- The position of a library's local position as reports give it: global in a SPAN library of a chain (R352). -/
def State.reportPos (s : State) (l p : Nat) : Nat :=
  if s.isSpan l && s.fld F.TUNNEL_CFG_ROLE != 0 then p + s.fld (F.TUNNEL_LIB_RANGE_BASE l) else p

/-- The benches of a library, with the position each serves: its own list, less the positions a peer serves, and the mirror benches
hosted for peers (R377). -/
def State.searchBenches (s : State) (l : Nat) : List (Nat × Nat) :=
  (((s.lib l).benches.zipIdx).filter (fun y => (s.awayPeer l y.2).isNone)).map (fun y => (y.1, s.reportPos l y.2)) ++
    ((s.tunnel.hosted.filter (fun h => h.lib == l)).map (fun h => (h.bench, h.gpos)))

/-- The bench set of a mask. A bench that is not READY is left out (R310). -/
def State.benchSet (s : State) (mask : Nat) : List BenchEval :=
  ((List.range 16).filter (hasBit mask)).flatMap (fun l => (s.searchBenches l).map (fun y =>
    let ok := s.benchReady y.1
    { bench := y.1, lib := l, pos := y.2, entries := if ok then s.entriesAt y.1 else [], miss := !ok, waiting := ok }))

/-- Clear the bits of FREE and SYNAPSE libraries (R304). -/
def State.liveMask (s : State) (mask : Nat) : Nat :=
  ((List.range 16).filter (fun l => hasBit mask l && s.libActive l && s.libKind l != 2)).foldl (fun a l => a ||| 2 ^ l) 0

/-- The SPAN libraries of a mask: a served request searches no LOCAL library (R351, R355). -/
def State.spanMask (s : State) (mask : Nat) : Nat := (s.spanOf mask).foldl (fun a l => a ||| 2 ^ l) 0

/-- CLASS libraries of the mask with no VALID entry. -/
def State.emptyClass (s : State) (mask : Nat) : Nat :=
  ((List.range 16).filter (fun l => hasBit mask l && s.libKind l == 0 && s.fld (F.SUMP_LIB_SIZE_VALID l) == 0)).foldl (fun a l => a ||| 2 ^ l) 0

/-- Mask, K, Q and band that a request takes at admission (R302, R329, R332). -/
def State.settings (s : State) (r : Request) : Request :=
  match r.kind with
  | .window =>
    let q := s.streamQ r.stream
    { r with mask := s.liveMask (s.fld (F.SUMP_STREAM_MASK r.stream)), k := s.clampK (s.fld (F.SUMP_STREAM_K r.stream)), q := q, beta := s.band q }
  | .rcall => { r with mask := s.liveMask r.mask, beta := s.band r.q }
  | .host .. => let q := s.resolveQ r.q; { r with mask := s.liveMask r.mask, k := s.clampK r.k, q := q, beta := s.band q }
  | .served .. => r
  | .synapse => { r with q := 7 }
  | .matrix .. => let q := s.resolveQ r.q; { r with q := q, beta := s.bandMul q }

/-- Request kind in a QUERY frame (Table CASC-4). -/
def ReqKind.code : ReqKind → Nat
  | .window => 0
  | .rcall => 1
  | _ => 2

def ReqKind.isServed : ReqKind → Bool
  | .served .. => true
  | _ => false

/-- Forward a request at admission (R354): the members expected to answer, and the deadline. -/
def State.forwardQuery (s : State) (r : Request) : State × Request :=
  let span := s.spanOf r.mask
  if r.kind.isServed || span.isEmpty || s.fld F.TUNNEL_CFG_ROLE == 0 then (s, r)
  else if !s.inChain then (s, { r with partial_ := true })
  else if !s.forwards r.mask then (s, r)
  else
    let f := s.mkFrame ftQUERY 0xFF (reqField s.position r.tag) (queryArg r.mask r.k r.q r.kind.code r.beta) r.start (s.queryPayload r.key r.present)
    ((s.sendTo f).bump F.TUNNEL_FWD_COUNT 1,
      { r with expect := s.responding, deadline := s.now + 100 * max 100 (s.fld F.TUNNEL_ANS_WAIT_US) })

/-- Does any die of the bench set stand above throttle level 0 (R323)? -/
def State.anyThrottled (s : State) (r : Request) : Bool := r.benches.any (fun b => !b.miss && 0 < s.throttleOf (s.benchDie b.bench))

/-- Admit a search request: fix its settings and bench set, forward it, and send its evaluations. -/
def State.admitSearch (s : State) (r0 : Request) : State :=
  let r1 := s.settings { r0 with tag := s.sump.nextTag }
  let set := if r1.kind.isServed then s.spanMask (s.liveMask r1.mask) else r1.mask
  let r2 := { r1 with benches := s.benchSet set, emptyLibs := s.emptyClass r1.mask }
  let f := s.forwardQuery { r2 with throttled := s.anyThrottled r2 }
  let go := (f.2.benches.filter (fun b => !b.miss)).map (fun b => b.bench)
  let r3 := { f.2 with ready := go.isEmpty }
  let s1 : State := { f.1 with sump := { f.1.sump with active := f.1.sump.active ++ [r3], nextTag := (f.1.sump.nextTag + 1) % 2 ^ 29 } }
  s1.sendSearch r3 0 0 (if r3.q = 7 then s.tilesPer else s.prefixTiles) go

/-- Admit a synapse or host matrix request. -/
def State.admitMatrix (s : State) (r0 : Request) : State :=
  let r1 := s.settings { r0 with tag := s.sump.nextTag }
  let s0 : State := { s with sump := { s.sump with nextTag := (s.sump.nextTag + 1) % 2 ^ 29 } }
  match s.matrixBench r1.matrix with
  | none => s0
  | some b =>
    let ok := s.benchReady b
    let r2 := { r1 with benches := [{ bench := b, lib := s.fld (F.SUMP_MTX_LIBRARY r1.matrix), pos := s.fld (F.SUMP_MTX_POS r1.matrix),
                                      status := if ok then 0 else 1, miss := !ok, waiting := ok }] }
    let s1 : State := { s0 with sump := { s0.sump with active := s0.sump.active ++ [{ r2 with throttled := s.anyThrottled r2 }] } }
    if !ok then s1.decideMatrix r2
    else s1.sendEval r2 b r2.mtxKind 0 (.rows r2.rows) (mtxPasses (r2.mtxKind == 3) (if s.mtxWhole r2 then 0 else 1) (s.mtxTiles r2.matrix))

/-- The ring of a request's record, where the backlog holds it back (R438). -/
def State.recordHeld (s : State) (r : Request) : Bool :=
  match r.kind with
  | .rcall => s.backlogFull r.ring
  | .host .. => s.backlogFull r.ring
  | .matrix .. => s.backlogFull r.ring
  | _ => false

/-- REQUEST_ADMIT (R302, R303): WATCH before ORDINARY before RECALL, each in the order queued. -/
def execRequestAdmit (s : State) : Out :=
  if !s.sumpReady then .next s
  else match s.sump.watchQ with
  | r :: t => .next ({ s with sump := { s.sump with watchQ := t } }.admitSearch r)
  | [] =>
    match s.sump.ordQ with
    | r :: t =>
      let s1 : State := { s with sump := { s.sump with ordQ := t } }
      .next (if r.kind = .synapse then s1.admitMatrix r else s1.admitSearch r)
    | [] =>
      match s.sump.recallQ with
      | r :: t =>
        if s.recordHeld r then .next s
        else
          let s1 : State := { s with sump := { s.sump with recallQ := t } }
          .next (match r.kind with | .matrix .. => s1.admitMatrix r | _ => s1.admitSearch r)
      | [] => .next s

/-- Are both Shaft links of a die retired, so that nothing more comes from it? -/
def State.shaftGone (s : State) (k : Nat) : Bool := s.regBit (R.SEAM_STATUS k) 26 && s.regBit (R.SEAM_STATUS k) 27

/-- BENCH_RESULT (R238, R333): Sump takes the result of a finished evaluation over a Shaft link. With no link up only a bench that was
not READY is answered for; with both links retired every evaluation of the die is. -/
def execBenchResult (die : Die) (bench : BitVec 13) (tag : Word) (s : State) : Out :=
  let k := die.toNat
  let d := s.die k
  match d.evals.find? (fun e => e.bench == bench.toNat && e.tag == tag.toNat && (e.finished || s.shaftGone k)) with
  | none => .next s
  | some e =>
    let down := decide (s.fld (F.SEAM_STATUS_SHAFT_UP k) = 0)
    if down && !e.notReady && !s.shaftGone k then .next s
    else
      let s1 := s.setDie k { d with evals := dropFirst e d.evals }
      .next (match s1.req tag.toNat with
        | some r => s1.takeEval r (s.devBench k bench.toNat) (if down then { e with notReady := true } else e)
        | none => s1)

end Sys2Proof.Machine
end

