-- ==== Sys2Proof/Machine/ChiselOps.lean ====
section
/-! DEFINITION.  Shared operations of Chisel: epochs and close points (R380, R381), bundling into epoch counters (R388 to R391,
R398), the novelty pool and the hold ring (R391, R392). -/

namespace Sys2Proof.Machine

/-! ### Epochs -/

/-- Epoch length in ticks (R380): E of 0 acts as 1, above 655 as 655. -/
def State.epochLen (s : State) : Nat := 100 * min 655 (max 1 (s.fld F.CHISEL_CFG_E))

def State.commitEvery (s : State) : Nat := max 1 (s.fld F.CHISEL_CFG_CE)

/-- The current epoch number. -/
def State.epoch (s : State) : Nat := s.get64 R.CHISEL_EPOCH_LO

/-- The epoch in which a stream's window closes (R35, R381). -/
def State.windowEpoch (s : State) (n start : Nat) : Nat := (start + s.fld (F.ADIT_STREAM_WIN_W n) - 1) / s.epochLen

/-- Has an epoch passed its close point? -/
def State.epochClosed (s : State) (k : Nat) : Bool := match s.chisel.closed with | some c => k ≤ c | none => false

def State.chiselReady (s : State) : Bool := s.bit F.CHISEL_STATUS_READY && !s.fatal && decide (s.powerLevel = 0)

/-- EN in force for an epoch: that latched at its boundary (Table CHISEL-11). -/
def State.learnOn (s : State) (k : Nat) : Bool := if k < s.epoch then s.chisel.enLast else s.chisel.en

/-! ### Counters -/

/-- A list of counters of length D; an absent one is zero. -/
def padTo (dim : Nat) (u : List Int) : List Int := (u ++ List.replicate (dim - u.length) 0).take dim

/-- bundle(U, q, w) with every dimension outside C counting as zero (R68, R389). -/
def addKey (dim : Nat) (u : List Int) (q mask : Key) (w : Int) : List Int :=
  (padTo dim u).zipIdx.map (fun x => if mask.getLsbD x.2 then sat8 (x.1 + w * b1val (q.getLsbD x.2)) else x.1)

/-- P at a close point (R390). -/
def closeCounters (dim decay : Nat) (p u : List Int) : List Int :=
  ((padTo dim p).zip (padTo dim u)).map (fun (x : Int × Int) => sat8 (x.1 - (if decay = 0 then 0 else x.1 / (2 : Int) ^ decay) + x.2))

/-- The tie key (R72). -/
def State.tieKey (s : State) : Key :=
  (List.range (s.dim / 256)).foldl (fun (k : Key) j => k ||| ((tieSliver s.seed j).setWidth 32768 <<< (256 * j : Nat))) (0 : Key)

/-- binarise of D counters (R72). -/
def State.binarise (s : State) (p : List Int) : Key :=
  let tie := s.tieKey
  BitVec.ofNat 32768 (bitsNat s.dim (fun d => let a := p.getD d 0; if a = 0 then tie.getLsbD d else decide (a < 0)))

def State.wSup (s : State) : Int := (BitVec.ofNat 8 (s.fld F.CHISEL_PROTO_W_SUP)).toInt
def State.wUnsup (s : State) : Int := (BitVec.ofNat 8 (s.fld F.CHISEL_PROTO_W_UNSUP)).toInt

/-- Bundle into the bank of epoch k, by parity (R382, Table CHISEL-1). -/
def Shadow.add (h : Shadow) (dim k : Nat) (q mask : Key) (w : Int) : Shadow :=
  if k % 2 = 0 then { h with u0 := addKey dim h.u0 q mask w, n0 := h.n0 + 1 }
  else { h with u1 := addKey dim h.u1 q mask w, n1 := h.n1 + 1 }

def BgModel.add (h : BgModel) (dim k : Nat) (q mask : Key) (w : Int) : BgModel :=
  if k % 2 = 0 then { h with u0 := addKey dim h.u0 q mask w, n0 := h.n0 + 1 }
  else { h with u1 := addKey dim h.u1 q mask w, n1 := h.n1 + 1 }

/-- Apply the bank of epoch k and empty it (R390). -/
def Shadow.close (h : Shadow) (dim decay k : Nat) : Shadow :=
  if k % 2 = 0 then { h with p := closeCounters dim decay h.p h.u0, u0 := [], hits := h.hits + h.n0, n0 := 0 }
  else { h with p := closeCounters dim decay h.p h.u1, u1 := [], hits := h.hits + h.n1, n1 := 0 }

def BgModel.close (h : BgModel) (dim decay k : Nat) : BgModel :=
  if k % 2 = 0 then { h with b := closeCounters dim decay h.b h.u0, u0 := [], n0 := 0 }
  else { h with b := closeCounters dim decay h.b h.u1, u1 := [], n1 := 0 }

/-- An update taken. -/
def State.tookUpdate (s : State) : State := s.bump64 R.CHISEL_UPDATES_LO 1

/-! ### Entries, backgrounds, pool -/

/-- Bundle into a learning entry's epoch counters; an update to a QUARANTINED entry is dropped and counted (Table CHISEL-8). -/
def State.learnEntry (s : State) (b c k : Nat) (q mask : Key) (w : Int) : State :=
  if (s.entry b c).state = esQUARANTINED then s.bump F.CHISEL_LATE_COUNT 1
  else match s.shadow b c with
    | some h => (s.setShadow b c (some (h.add s.dim k q mask w))).tookUpdate
    | none => s

def bgDefault (_ : Nat) : BgModel := {}
def State.bg (s : State) (n : Nat) : BgModel := tget bgDefault s.chisel.bg n
def State.setBg (s : State) (n : Nat) (v : BgModel) : State := { s with chisel := { s.chisel with bg := tset bgDefault s.chisel.bg n v } }

/-- Bundle into a stream's background counters (R398). -/
def State.learnBg (s : State) (n k : Nat) (q mask : Key) (w : Int) : State := (s.setBg n ((s.bg n).add s.dim k q mask w)).tookUpdate

def State.poolSize (s : State) : Nat := min 4096 (s.fld F.CHISEL_POOL_SIZE)
def State.poolFull (s : State) : Bool := s.poolSize ≤ s.chisel.pool.length

/-- The comparison key of a pool prototype (R391). -/
def State.compareKey (s : State) (p : Proto) : Key := match p.first with | some q => q | none => s.binarise p.shadow.p

/-- The lowest pool index of a library not in use. -/
def State.poolIndex (s : State) (l : Nat) : Nat :=
  ((List.range 4097).find? (fun i => !s.chisel.pool.any (fun p => p.lib == l && p.index == i))).getD 0

/-- Start a pool prototype seeded from a query. -/
def State.newProto (s : State) (l k : Nat) (q : Key) (hits label : Nat) : State :=
  let h : Shadow := { seedShadow s.dim (s.fld F.CHISEL_PROTO_INIT) 0 q with hits := hits }
  State.countUsed { s with chisel := { s.chisel with pool := s.chisel.pool ++ [
    { lib := l, index := s.poolIndex l, shadow := h, first := some q, last := k, label := label }] } }

/-- A query for the novelty pool (R391). -/
def State.learnPool (s : State) (l k : Nat) (q mask : Key) : State :=
  let dist := fun (p : Proto) => popKey ((s.compareKey p ^^^ q) &&& mask)
  let near := (s.chisel.pool.filter (fun p => p.lib == l)).foldl (fun (m : Option Proto) p =>
    match m with | none => some p | some x => if dist p < dist x then some p else some x) none
  let start := if s.poolFull then (s.bump F.CHISEL_POOL_DROPS_COUNT 1).alarm F.CHISEL_ALARM_POOL_FULL l else (s.newProto l k q 1 0xFFFFFFFF).tookUpdate
  match near with
  | none => start
  | some p =>
    if dist p ≤ s.fld (F.CHISEL_LIB_DIST_POOL_DIST l) then
      { s with chisel := { s.chisel with pool := s.chisel.pool.map (fun x => if x = p then { p with shadow := p.shadow.add s.dim k q mask s.wUnsup, last := k } else x) } }.tookUpdate
    else start

/-- Put a window's query in the hold ring; the oldest slot is overwritten when it is full (R392). -/
def State.hold (s : State) (n start k : Nat) (q : Key) (present : Nat) : State :=
  let cap := s.fld F.CHISEL_HOLD_SLOTS
  if cap = 0 then s
  else { s with chisel := { s.chisel with hold := s.chisel.hold.drop (s.chisel.hold.length + 1 - cap) ++ [⟨q, present, n, start, k, []⟩] } }

/-! ### Records (R388 to R392, R398) -/

/-- Is a window record eligible (R388)? -/
def State.eligible (s : State) (w : Result) (k : Nat) : Bool :=
  w.kind == 0 && w.status == 0 && s.learnOn k && s.bit (F.CHISEL_STREAM_LEARN w.stream) &&
    (w.flags % 65536) &&& s.fld F.CHISEL_EXCL_FLAGS == 0 && w.aditFlags &&& s.fld F.CHISEL_EXCL_ADIT == 0

/-- The lowest library of a mask with CREATE (R391). -/
def State.createLib (s : State) (mask : Nat) : Option Nat := (List.range 16).find? (fun l => hasBit mask l && s.bit (F.CHISEL_LIB_CREATE l))

/-- Chisel takes a window record with the window's query. -/
def State.learnRecord (s : State) (w : Result) (q : Key) (present mask : Nat) : State :=
  let n := w.stream
  let k := s.windowEpoch n w.start
  if !s.chiselReady || !s.eligible w k then s
  else if s.epochClosed k then s.bump F.CHISEL_LATE_COUNT 1
  else
    let c := presentMask s.dim present
    let l := w.bestLib
    let near := decide (w.bestEntry ≠ 0xFFFFFF) && w.bestDist ≤ s.fld (F.CHISEL_LIB_DIST_ASSIGN_DIST l)
    let s1 := if near && s.learningLib l then
        (match s.entryAt l w.bestEntry with | some (b, col) => s.learnEntry b col k q c s.wUnsup | none => s)
      else s
    let novel := w.flags.testBit rfNOVEL
    let s2 := if novel then (match s.createLib mask with | some m => s1.learnPool m k q c | none => s1) else s1
    let s3 := if near && s.bit (F.CHISEL_LIB_BG l) && s.bit (F.CHISEL_STREAM_BG n) then s2.learnBg n k q c s.wUnsup else s2
    match s.fld (F.CHISEL_STREAM_HOLD n) with
    | 0 => s3
    | 1 => if novel then s3.hold n w.start k q present else s3
    | _ => s3.hold n w.start k q present

end Sys2Proof.Machine
end

