-- ==== Sys2Proof/Machine/FlintScalar.lean ====
section
/-! DEFINITION.  The meanings of the scalar Flint instructions (05_flint_instructions R164 to R171, Tables FLINT-3 and
FLINT-4). -/

namespace Sys2Proof.Machine

/-! ### Shared forms -/

/-- A scalar result. -/
def resS (k : CoreSt) (rd : SReg) (v : Word) : Act := .done { core := k.setS rd v }

/-- A scalar result that an instruction just after waits for (R170). -/
def lateS (k : CoreSt) (rd : SReg) (v : Word) (wait : Nat) : Act := .done { core := k.setS rd v, haz := hazS rd, hazWait := wait }

/-- A scalar register-register instruction (form R). -/
def State.formR (s : State) (i : Issue) (rd ra rb : SReg) (f : Word → Word → Word) : State :=
  s.issue i (hazS ra ++ hazS rb) (fun k => resS k rd (f (k.s ra) (k.s rb)))

/-- A register-immediate instruction (form I). -/
def State.formI (s : State) (i : Issue) (rd ra : SReg) (f : Word → Word) : State :=
  s.issue i (hazS ra) (fun k => resS k rd (f (k.s ra)))

/-- An FX16 result: saturated and sign-extended. -/
def fxWord (x : Int) : Word := BitVec.ofInt 32 (sat16 x)

/-- The address checks of a data access of `n` bytes at `a`, aligned to `align`: MISALIGN before ADDR (Table FLINT-8). -/
def memFault (k : CoreSt) (a n align : Nat) : Option (Nat × Word) :=
  if a % align ≠ 0 then some (excMISALIGN, BitVec.ofNat 32 a)
  else (k.badByte a n).map (fun b => (excADDR, BitVec.ofNat 32 b))

/-- A load of `n` bytes at RA + IMM, extended by `ext`. -/
def State.loadN (s : State) (i : Issue) (rd ra : SReg) (imm : Imm16) (n : Nat) (ext : Nat → Word) : State :=
  s.issue i (hazS ra) (fun k =>
    let a := (k.s ra + immS imm).toNat
    match memFault k a n n with
    | some e => .exc e.1 e.2
    | none => .done { core := k.setS rd (ext (leValue (k.bytes a n))), read := some (a, n), haz := hazS rd, hazWait := 1 })

/-- A store of the low `n` bytes of RB at RA + IMM; a halfword or byte store reads the 64-bit word first (R192). -/
def State.storeN (s : State) (i : Issue) (rb ra : SReg) (imm : Imm16) (n : Nat) : State :=
  s.issue i (hazS rb ++ hazS ra) (fun k =>
    let a := (k.s ra + immS imm).toNat
    match memFault k a n n with
    | some e => .exc e.1 e.2
    | none => .done { core := k.store a (bytesLE n (k.s rb).toNat), read := if n < 4 then some (a / 8 * 8, 8) else none, rewrite := true })

/-- A branch on a condition of RA and RB: 2 cycles when taken, 1 when not (R170). -/
def State.branch (s : State) (i : Issue) (rb ra : SReg) (imm : Imm16) (cond : Word → Word → Bool) : State :=
  s.issue i (hazS rb ++ hazS ra) (fun k =>
    if cond (k.s ra) (k.s rb) then .done { core := k, target := some (k.pc + 4 + 4 * immS imm), cycles := 2 } else .done { core := k })

/-- A shift selected by SHI: 0 SLL, 1 SRL, 2 SRA, 3 rotate right. -/
def shiftWord (sel n : Nat) (x : Word) : Word :=
  match sel with
  | 0 => x <<< n
  | 1 => x >>> n
  | 2 => x.sshiftRight n
  | _ => x.rotateRight n

/-! ### Table FLINT-3 -/

/-- ADD (Table FLINT-3): RD = RA + RB. -/
def execAdd (i : Issue) (rd ra rb : SReg) (s : State) : Out := .next (s.formR i rd ra rb (fun a b => a + b))

/-- SUB (Table FLINT-3): RD = RA − RB. -/
def execSub (i : Issue) (rd ra rb : SReg) (s : State) : Out := .next (s.formR i rd ra rb (fun a b => a - b))

/-- AND (Table FLINT-3): RD = RA AND RB. -/
def execAnd (i : Issue) (rd ra rb : SReg) (s : State) : Out := .next (s.formR i rd ra rb (fun a b => a &&& b))

/-- OR (Table FLINT-3): RD = RA OR RB. -/
def execOr (i : Issue) (rd ra rb : SReg) (s : State) : Out := .next (s.formR i rd ra rb (fun a b => a ||| b))

/-- XOR (Table FLINT-3): RD = RA XOR RB. -/
def execXor (i : Issue) (rd ra rb : SReg) (s : State) : Out := .next (s.formR i rd ra rb (fun a b => a ^^^ b))

/-- SLL (Table FLINT-3): RD = RA << RB[4:0]. -/
def execSll (i : Issue) (rd ra rb : SReg) (s : State) : Out := .next (s.formR i rd ra rb (fun a b => a <<< (b.toNat % 32)))

/-- SRL (Table FLINT-3): logical shift right. -/
def execSrl (i : Issue) (rd ra rb : SReg) (s : State) : Out := .next (s.formR i rd ra rb (fun a b => a >>> (b.toNat % 32)))

/-- SRA (Table FLINT-3): arithmetic shift right. -/
def execSra (i : Issue) (rd ra rb : SReg) (s : State) : Out := .next (s.formR i rd ra rb (fun a b => a.sshiftRight (b.toNat % 32)))

/-- SLT (Table FLINT-3): signed compare. -/
def execSlt (i : Issue) (rd ra rb : SReg) (s : State) : Out := .next (s.formR i rd ra rb (fun a b => boolWord (a.slt b)))

/-- SLTU (Table FLINT-3): unsigned compare. -/
def execSltu (i : Issue) (rd ra rb : SReg) (s : State) : Out := .next (s.formR i rd ra rb (fun a b => boolWord (a.ult b)))

/-- MUL (Table FLINT-3): the low 32 bits of the product. -/
def execMul (i : Issue) (rd ra rb : SReg) (s : State) : Out :=
  .next (s.issue i (hazS ra ++ hazS rb) (fun k => lateS k rd (k.s ra * k.s rb) 2))

/-- MULH (Table FLINT-3): the high 32 bits of the signed product. -/
def execMulh (i : Issue) (rd ra rb : SReg) (s : State) : Out :=
  .next (s.issue i (hazS ra ++ hazS rb) (fun k => lateS k rd (BitVec.ofInt 32 (((k.s ra).toInt * (k.s rb).toInt) / 4294967296)) 2))

/-- ADDS (Table FLINT-3): saturating signed add. -/
def execAdds (i : Issue) (rd ra rb : SReg) (s : State) : Out := .next (s.formR i rd ra rb (fun a b => BitVec.ofInt 32 (satS32 (a.toInt + b.toInt))))

/-- SUBS (Table FLINT-3): saturating signed subtract. -/
def execSubs (i : Issue) (rd ra rb : SReg) (s : State) : Out := .next (s.formR i rd ra rb (fun a b => BitVec.ofInt 32 (satS32 (a.toInt - b.toInt))))

/-- MIN (Table FLINT-3): signed minimum. -/
def execMin (i : Issue) (rd ra rb : SReg) (s : State) : Out := .next (s.formR i rd ra rb (fun a b => if a.slt b then a else b))

/-- MAX (Table FLINT-3): signed maximum. -/
def execMax (i : Issue) (rd ra rb : SReg) (s : State) : Out := .next (s.formR i rd ra rb (fun a b => if a.slt b then b else a))

/-- POPC (Table FLINT-3): number of 1 bits in RA; RB is not read. -/
def execPopc (i : Issue) (rd ra _rb : SReg) (s : State) : Out := .next (s.formI i rd ra (fun a => BitVec.ofNat 32 (popc a)))

/-- CLZ (Table FLINT-3): leading zeros of RA, 32 when RA = 0; RB is not read. -/
def execClz (i : Issue) (rd ra _rb : SReg) (s : State) : Out := .next (s.formI i rd ra (fun a => BitVec.ofNat 32 (clz32 a)))

/-- CTZ (Table FLINT-3): trailing zeros of RA, 32 when RA = 0; RB is not read. -/
def execCtz (i : Issue) (rd ra _rb : SReg) (s : State) : Out := .next (s.formI i rd ra (fun a => BitVec.ofNat 32 (ctz32 a)))

/-- FXADD (Table FLINT-3): saturating FX16 add. -/
def execFxadd (i : Issue) (rd ra rb : SReg) (s : State) : Out := .next (s.formR i rd ra rb (fun a b => fxWord (lowFx a + lowFx b)))

/-- FXSUB (Table FLINT-3): saturating FX16 subtract. -/
def execFxsub (i : Issue) (rd ra rb : SReg) (s : State) : Out := .next (s.formR i rd ra rb (fun a b => fxWord (lowFx a - lowFx b)))

/-- FXMUL (Table FLINT-3, R171): rounded to nearest with ties away from zero, then saturated. -/
def execFxmul (i : Issue) (rd ra rb : SReg) (s : State) : Out :=
  .next (s.issue i (hazS ra ++ hazS rb) (fun k => lateS k rd (fxWord (roundAway (lowFx (k.s ra) * lowFx (k.s rb)) 256)) 2))

/-! ### Table FLINT-4 -/

/-- ADDI (Table FLINT-4): RD = RA + IMM. -/
def execAddi (i : Issue) (rd ra : SReg) (imm : Imm16) (s : State) : Out := .next (s.formI i rd ra (fun a => a + immS imm))

/-- ANDI (Table FLINT-4): RD = RA AND IMM, zero-extended. -/
def execAndi (i : Issue) (rd ra : SReg) (imm : Imm16) (s : State) : Out := .next (s.formI i rd ra (fun a => a &&& immZ imm))

/-- ORI (Table FLINT-4): RD = RA OR IMM, zero-extended. -/
def execOri (i : Issue) (rd ra : SReg) (imm : Imm16) (s : State) : Out := .next (s.formI i rd ra (fun a => a ||| immZ imm))

/-- XORI (Table FLINT-4): RD = RA XOR IMM, zero-extended. -/
def execXori (i : Issue) (rd ra : SReg) (imm : Imm16) (s : State) : Out := .next (s.formI i rd ra (fun a => a ^^^ immZ imm))

/-- SLTI (Table FLINT-4): signed compare with IMM. -/
def execSlti (i : Issue) (rd ra : SReg) (imm : Imm16) (s : State) : Out := .next (s.formI i rd ra (fun a => boolWord (a.slt (immS imm))))

/-- SHI (Table FLINT-4): IMM[15:14] selects SLL, SRL, SRA or rotate right by IMM[4:0]; IMM[13:5] is reserved. -/
def execShi (i : Issue) (rd ra : SReg) (imm : Imm16) (s : State) : Out :=
  .next (s.issue i (hazS ra) (fun k =>
    if imm.extractLsb' 5 9 ≠ 0 then .exc excILLEGAL 0
    else resS k rd (shiftWord (imm.toNat / 16384) (imm.toNat % 32) (k.s ra))))

/-- LUI (Table FLINT-4): RD = IMM << 16; RA is unused. -/
def execLui (i : Issue) (rd ra : SReg) (imm : Imm16) (s : State) : Out :=
  .next (s.issue i [] (fun k => if ra ≠ 0 then .exc excILLEGAL 0 else resS k rd (immZ imm <<< 16)))

/-- LW (Table FLINT-4): word at RA + IMM. -/
def execLw (i : Issue) (rd ra : SReg) (imm : Imm16) (s : State) : Out := .next (s.loadN i rd ra imm 4 (fun x => BitVec.ofNat 32 x))

/-- LH (Table FLINT-4): sign-extended halfword at RA + IMM. -/
def execLh (i : Issue) (rd ra : SReg) (imm : Imm16) (s : State) : Out := .next (s.loadN i rd ra imm 2 (fun x => (BitVec.ofNat 16 x).signExtend 32))

/-- LHU (Table FLINT-4): zero-extended halfword at RA + IMM. -/
def execLhu (i : Issue) (rd ra : SReg) (imm : Imm16) (s : State) : Out := .next (s.loadN i rd ra imm 2 (fun x => BitVec.ofNat 32 x))

/-- LB (Table FLINT-4): sign-extended byte at RA + IMM. -/
def execLb (i : Issue) (rd ra : SReg) (imm : Imm16) (s : State) : Out := .next (s.loadN i rd ra imm 1 (fun x => (BitVec.ofNat 8 x).signExtend 32))

/-- LBU (Table FLINT-4): zero-extended byte at RA + IMM. -/
def execLbu (i : Issue) (rd ra : SReg) (imm : Imm16) (s : State) : Out := .next (s.loadN i rd ra imm 1 (fun x => BitVec.ofNat 32 x))

/-- SW (Table FLINT-4): word at RA + IMM = RB. -/
def execSw (i : Issue) (rb ra : SReg) (imm : Imm16) (s : State) : Out := .next (s.storeN i rb ra imm 4)

/-- SH (Table FLINT-4): halfword at RA + IMM = RB. -/
def execSh (i : Issue) (rb ra : SReg) (imm : Imm16) (s : State) : Out := .next (s.storeN i rb ra imm 2)

/-- SB (Table FLINT-4): byte at RA + IMM = RB. -/
def execSb (i : Issue) (rb ra : SReg) (imm : Imm16) (s : State) : Out := .next (s.storeN i rb ra imm 1)

/-- BEQ (Table FLINT-4): branch if RA = RB. -/
def execBeq (i : Issue) (rb ra : SReg) (imm : Imm16) (s : State) : Out := .next (s.branch i rb ra imm (fun a b => a == b))

/-- BNE (Table FLINT-4): branch if RA ≠ RB. -/
def execBne (i : Issue) (rb ra : SReg) (imm : Imm16) (s : State) : Out := .next (s.branch i rb ra imm (fun a b => a != b))

/-- BLT (Table FLINT-4): branch if RA < RB signed. -/
def execBlt (i : Issue) (rb ra : SReg) (imm : Imm16) (s : State) : Out := .next (s.branch i rb ra imm (fun a b => a.slt b))

/-- BGE (Table FLINT-4): branch if RA ≥ RB signed. -/
def execBge (i : Issue) (rb ra : SReg) (imm : Imm16) (s : State) : Out := .next (s.branch i rb ra imm (fun a b => !a.slt b))

/-- BLTU (Table FLINT-4): branch if RA < RB unsigned. -/
def execBltu (i : Issue) (rb ra : SReg) (imm : Imm16) (s : State) : Out := .next (s.branch i rb ra imm (fun a b => a.ult b))

/-- BGEU (Table FLINT-4): branch if RA ≥ RB unsigned. -/
def execBgeu (i : Issue) (rb ra : SReg) (imm : Imm16) (s : State) : Out := .next (s.branch i rb ra imm (fun a b => !a.ult b))

/-- JAL (Table FLINT-4): s31 = pc + 4 and jump by OFF words. -/
def execJal (i : Issue) (off : BitVec 26) (s : State) : Out :=
  .next (s.issue i [] (fun k => .done { core := k.setS 31 (k.pc + 4), target := some (k.pc + 4 + 4 * off.signExtend 32), cycles := 2 }))

/-- JALR (Table FLINT-4): RD = pc + 4 and jump to (RA + IMM) AND NOT 3. -/
def execJalr (i : Issue) (rd ra : SReg) (imm : Imm16) (s : State) : Out :=
  .next (s.issue i (hazS ra) (fun k =>
    .done { core := k.setS rd (k.pc + 4), target := some ((k.s ra + immS imm) &&& 0xFFFFFFFC#32), cycles := 2 }))

end Sys2Proof.Machine
end

