-- ==== Sys2Proof/Machine/FlintSliver.lean ====
section
/-! DEFINITION.  The meanings of the sliver instructions (05_flint_instructions R172, R173, Table FLINT-5). -/

namespace Sys2Proof.Machine

/-! ### Shared forms -/

/-- The address of form L: RA + `n` × IMM. -/
def CoreSt.addrL (k : CoreSt) (ra : SReg) (imm : Imm16) (n : Nat) : Nat := (k.s ra + BitVec.ofNat 32 n * immS imm).toNat

/-- A sliver result of VA and VB. -/
def State.formV (s : State) (i : Issue) (vd va vb : VReg) (reads : List Nat) (f : Sliver → Sliver → Sliver) : State :=
  s.issue i reads (fun k => .done { core := k.setV vd (f (k.v va) (k.v vb)) })

/-- A scalar result of VA and VB. -/
def State.countV (s : State) (i : Issue) (va vb : VReg) (sx : SReg) (reads : List Nat) (wait : Nat) (f : Sliver → Sliver → Nat) : State :=
  s.issue i reads (fun k => .done { core := k.setS sx (BitVec.ofNat 32 (f (k.v va) (k.v vb))), haz := if wait = 0 then [] else hazS sx, hazWait := wait })

def VReg.odd_ (v : VReg) : Bool := v.getLsbD 0
def hazPair (v : VReg) : List Nat := hazV v ++ hazV (v + 1)

/-- Bundle into the tally with weight `w` (R68, R172). -/
def CoreSt.bundle (k : CoreSt) (w : Int) (val : Nat → Int) : CoreSt :=
  let r := bundleTally k.tally w val
  { k with tally := r.1, tlsat := k.tlsat || r.2 }

/-- The tally as 256 bytes, A_0 first, and back. -/
def tallyBytes (t : List (Nat × Int)) : List Byte := (List.range 256).map (fun i => BitVec.ofInt 8 (tallyGet t i))
def tallyFrom (bs : List Byte) : List (Nat × Int) := tallyOf 256 (fun i => (bs.getD i 0).toInt)

/-! ### Table FLINT-5 -/

/-- VLD: 32 bytes at RA + 32 × IMM. -/
def execVld (i : Issue) (vd : VReg) (ra : SReg) (imm : Imm16) (s : State) : Out :=
  .next (s.issue i (hazS ra) (fun k =>
    let a := k.addrL ra imm 32
    match memFault k a 32 32 with
    | some e => .exc e.1 e.2
    | none => .done { core := k.setV vd (BitVec.ofNat 256 (leValue (k.bytes a 32))), read := some (a, 32), haz := hazV vd, hazWait := 1 }))

/-- VST: store a sliver register. -/
def execVst (i : Issue) (vd : VReg) (ra : SReg) (imm : Imm16) (s : State) : Out :=
  .next (s.issue i (hazS ra ++ hazV vd) (fun k =>
    let a := k.addrL ra imm 32
    match memFault k a 32 32 with
    | some e => .exc e.1 e.2
    | none => .done { core := k.store a (bytesLE 32 (k.v vd).toNat) }))

/-- VMOV: VD = VA. -/
def execVmov (i : Issue) (vd va vb : VReg) (_sx : SReg) (s : State) : Out := .next (s.formV i vd va vb (hazV va) (fun a _ => a))

/-- VNOT: VD = NOT VA. -/
def execVnot (i : Issue) (vd va vb : VReg) (_sx : SReg) (s : State) : Out := .next (s.formV i vd va vb (hazV va) (fun a _ => ~~~a))

/-- VAND: VD = VA AND VB. -/
def execVand (i : Issue) (vd va vb : VReg) (_sx : SReg) (s : State) : Out :=
  .next (s.formV i vd va vb (hazV va ++ hazV vb) (fun a b => a &&& b))

/-- VOR: VD = VA OR VB. -/
def execVor (i : Issue) (vd va vb : VReg) (_sx : SReg) (s : State) : Out :=
  .next (s.formV i vd va vb (hazV va ++ hazV vb) (fun a b => a ||| b))

/-- VXOR: VD = VA XOR VB, which is bind, B1 (R68). -/
def execVxor (i : Issue) (vd va vb : VReg) (_sx : SReg) (s : State) : Out :=
  .next (s.formV i vd va vb (hazV va ++ hazV vb) (fun a b => a ^^^ b))

/-- VANDN: VD = VA AND NOT VB. -/
def execVandn (i : Issue) (vd va vb : VReg) (_sx : SReg) (s : State) : Out :=
  .next (s.formV i vd va vb (hazV va ++ hazV vb) (fun a b => a &&& ~~~b))

/-- VTBIND: bind of two T2 pairs (R68); an odd register is illegal. -/
def execVtbind (i : Issue) (vd va vb : VReg) (_sx : SReg) (s : State) : Out :=
  .next (s.issue i (hazPair va ++ hazPair vb) (fun k =>
    if VReg.odd_ vd || VReg.odd_ va || VReg.odd_ vb then .exc excILLEGAL 0
    else .done { core := ((k.readT2 (k.pair va)).readT2 (k.pair vb)).setPair vd (t2Bind (k.pair va) (k.pair vb)), cycles := 2 }))

/-- VBTBIND: bind of a B1 sliver, taken as T2, with a T2 pair (R68, Table HDV-3). -/
def execVbtbind (i : Issue) (vd va vb : VReg) (_sx : SReg) (s : State) : Out :=
  .next (s.issue i (hazV va ++ hazPair vb) (fun k =>
    if VReg.odd_ vd || VReg.odd_ vb then .exc excILLEGAL 0
    else .done { core := (k.readT2 (k.pair vb)).setPair vd (t2Bind (~~~0#256, k.v va) (k.pair vb)), cycles := 2 }))

/-- VROT: VD bit i = VA bit (i − SX[7:0]) mod 256. -/
def execVrot (i : Issue) (vd va _vb : VReg) (sx : SReg) (s : State) : Out :=
  .next (s.issue i (hazV va ++ hazS sx) (fun k => .done { core := k.setV vd (rotSliver (k.v va) ((k.s sx).toNat % 256)) }))

/-- VPERM: the local half of a group permute (R70). -/
def execVperm (i : Issue) (vd va vb : VReg) (sx : SReg) (s : State) : Out :=
  .next (s.issue i (hazV va ++ hazV vb ++ hazS sx) (fun k => .done { core := k.setV vd (permSliver (k.v va) (k.v vb) ((k.s sx).toNat % 256)) }))

/-- VPOP: SX = number of 1 bits of VA. -/
def execVpop (i : Issue) (_vd va vb : VReg) (sx : SReg) (s : State) : Out := .next (s.countV i va vb sx (hazV va) 1 (fun a _ => popc a))

/-- VPOPAND: SX = number of 1 bits of VA AND VB. -/
def execVpopand (i : Issue) (_vd va vb : VReg) (sx : SReg) (s : State) : Out :=
  .next (s.countV i va vb sx (hazV va ++ hazV vb) 0 (fun a b => popc (a &&& b)))

/-- VPOPXOR: SX = number of 1 bits of VA XOR VB. -/
def execVpopxor (i : Issue) (_vd va vb : VReg) (sx : SReg) (s : State) : Out :=
  .next (s.countV i va vb sx (hazV va ++ hazV vb) 0 (fun a b => popc (a ^^^ b)))

/-- VDOTT2: the T2 dot product of two pairs (R74). -/
def execVdott2 (i : Issue) (_vd va vb : VReg) (sx : SReg) (s : State) : Out :=
  .next (s.issue i (hazPair va ++ hazPair vb) (fun k =>
    if VReg.odd_ va || VReg.odd_ vb then .exc excILLEGAL 0
    else .done { core := ((k.readT2 (k.pair va)).readT2 (k.pair vb)).setS sx (BitVec.ofInt 32 (t2Dot (k.pair va) (k.pair vb))), cycles := 2 }))

/-- The weight of a bundle, sext(SX[7:0]). -/
def bundleWeight (w : Word) : Int := (w.setWidth 8).toInt

/-- VCADD: bundle a B1 sliver into the tally (R68, R69, R172). -/
def execVcadd (i : Issue) (_vd va _vb : VReg) (sx : SReg) (s : State) : Out :=
  .next (s.issue i (hazV va ++ hazS sx) (fun k => .done { core := k.bundle (bundleWeight (k.s sx)) (fun d => b1val ((k.v va).getLsbD d)) }))

/-- VCADDT: bundle a T2 pair into the tally. -/
def execVcaddt (i : Issue) (_vd va _vb : VReg) (sx : SReg) (s : State) : Out :=
  .next (s.issue i (hazPair va ++ hazS sx) (fun k =>
    if VReg.odd_ va then .exc excILLEGAL 0
    else .done { core := (k.readT2 (k.pair va)).bundle (bundleWeight (k.s sx)) (fun d => t2val ((k.pair va).1.getLsbD d) ((k.pair va).2.getLsbD d)) }))

/-- VSIGN: binarise the tally with tie bits from VB (R72), and report POP, TLSAT and ZERO in SX. -/
def execVsign (i : Issue) (vd _va vb : VReg) (sx : SReg) (s : State) : Out :=
  .next (s.issue i (hazV vb) (fun k =>
    let b := binariseTally k.tally (k.v vb)
    .done { core := (k.setV vd b).setS sx (signWord b k.tlsat (tallyZero k.tally)), haz := hazV vd ++ hazS sx, hazWait := 1 }))

/-- VTHIN: thin the tally into a T2 pair, with θ above 127 acting as 127 (R68, R73). -/
def execVthin (i : Issue) (vd _va _vb : VReg) (sx : SReg) (s : State) : Out :=
  .next (s.issue i (hazS sx) (fun k =>
    if VReg.odd_ vd then .exc excILLEGAL 0
    else .done { core := k.setPair vd (thinTally k.tally (min 127 (k.s sx).toNat)), cycles := 2 }))

/-- TCLR: every counter and TLSAT to 0; its register fields are unused. -/
def execTclr (i : Issue) (vd va vb : VReg) (sx : SReg) (s : State) : Out :=
  .next (s.issue i [] (fun k =>
    if vd ≠ 0 ∨ va ≠ 0 ∨ vb ≠ 0 ∨ sx ≠ 0 then .exc excILLEGAL 0 else .done { core := { k with tally := [], tlsat := false } }))

/-- TSAVE: the 256 counters to memory, A_0 at the lowest address; VD is unused. -/
def execTsave (i : Issue) (vd : VReg) (ra : SReg) (imm : Imm16) (s : State) : Out :=
  .next (s.issue i (hazS ra) (fun k =>
    let a := k.addrL ra imm 256
    if vd ≠ 0 then .exc excILLEGAL 0
    else match memFault k a 256 256 with
    | some e => .exc e.1 e.2
    | none => .done { core := k.store a (tallyBytes k.tally), cycles := 8 }))

/-- TLOAD: the 256 counters from memory; TLSAT is unchanged. -/
def execTload (i : Issue) (vd : VReg) (ra : SReg) (imm : Imm16) (s : State) : Out :=
  .next (s.issue i (hazS ra) (fun k =>
    let a := k.addrL ra imm 256
    if vd ≠ 0 then .exc excILLEGAL 0
    else match memFault k a 256 256 with
    | some e => .exc e.1 e.2
    | none => .done { core := { k with tally := tallyFrom (k.bytes a 256) }, read := some (a, 256), cycles := 8 }))

/-- VDOT8: SX = sat32(SX + the sum of 32 products of signed bytes). -/
def execVdot8 (i : Issue) (_vd va vb : VReg) (sx : SReg) (s : State) : Out :=
  .next (s.issue i (hazV va ++ hazV vb ++ hazS sx) (fun k =>
    .done { core := k.setS sx (BitVec.ofInt 32 (satS32 ((k.s sx).toInt + dot8 (k.v va) (k.v vb)))), cycles := 4 }))

/-- VEXT: SX = word FN of VA. -/
def execVext (i : Issue) (_vd va _vb : VReg) (sx : SReg) (word : BitVec 3) (s : State) : Out :=
  .next (s.issue i (hazV va) (fun k =>
    .done { core := k.setS sx ((k.v va).extractLsb' (32 * word.toNat) 32), haz := hazS sx, hazWait := 1 }))

/-- A sliver with one 32-bit word replaced. -/
def insWord (a : Sliver) (n : Nat) (w : Word) : Sliver :=
  (a &&& ~~~((0xFFFFFFFF#256) <<< (32 * n))) ||| ((w.setWidth 256) <<< (32 * n))

/-- VINS: word FN − 0x20 of VD = SX. -/
def execVins (i : Issue) (vd _va _vb : VReg) (sx : SReg) (word : BitVec 3) (s : State) : Out :=
  .next (s.issue i (hazV vd ++ hazS sx) (fun k => .done { core := k.setV vd (insWord (k.v vd) word.toNat (k.s sx)) }))

end Sys2Proof.Machine
end

