-- ==== Sys2Proof/Machine/FlintSystem.lean ====
section
/-! DEFINITION.  The meanings of the event, synchronisation and system instructions of Flint, and of what wakes a waiting
core (05_flint_instructions R164 to R184, Table FLINT-6; 04_gallery_fabric R142, R149, R150). -/

namespace Sys2Proof.Machine

/-! ### Sending and receiving -/

def immLo (imm : Imm16) : Nat := imm.toNat % 4096
def immHi (imm : Imm16) : Nat := imm.toNat / 4096

/-- May a core send the tag (R136, R174)? -/
def tagSendable (tag : Nat) : Bool := tag < 0xF00 || tag == tagSLIVER

/-- The message a SEND makes (R174): TICK the low 16 bits of FLINT_TICK_LO, SRC filled in by the router. -/
def CoreSt.sendMsg (k : CoreSt) (dest tag len a : Nat) : Msg :=
  { tick := BitVec.ofNat 16 k.tick, tag := BitVec.ofNat 12 tag, src := BitVec.ofNat 14 (k.logical.getD 0), dest := BitVec.ofNat 14 dest,
    payload := (List.range len).map (fun j => BitVec.ofNat 64 (leValue (k.bytes (a + 8 * j) 8))) }

/-- SEND (R174, Table FLINT-6). -/
def execSend (i : Issue) (rd ra : SReg) (imm : Imm16) (s : State) : Out :=
  .next (s.issue i (hazS rd ++ hazS ra) (fun k =>
    let len := immHi imm
    let tag := immLo imm
    let a := (k.s ra).toNat
    if 8 < len || !tagSendable tag then .exc excILLSEND 0
    else match memFault k a (8 * len) 8 with
    | some e => .exc e.1 e.2
    | none =>
      let m := k.sendMsg ((k.s rd).toNat % 16384) tag len a
      .done { core := { k with sent := sat32 (k.sent + 1) }, read := some (a, 8 * len), cycles := 2 + len, post := fun t => t.inject m }))

/-- Take the oldest held message away; a waiting message may eject (R142, R145). -/
def CoreSt.takeHeld (k : CoreSt) (rest : List (Bool × Msg)) : CoreSt :=
  { k with held := rest, recvd := sat32 (k.recvd + 1) }.drain k.portQ

/-- What RECV reports of a message. -/
def recvWord (m : Msg) : Word := BitVec.ofNat 32 (2 ^ 31 + m.payload.length * 4096 + m.tag.toNat)

/-- RECV (R145, Table FLINT-6): the oldest held message into SRAM at RA, or RD = 0 when none is held. A message with one of
hardware's tags is then acted on by the core's program. -/
def execRecv (i : Issue) (rd ra : SReg) (imm : Imm16) (s : State) : Out :=
  .next (s.issue i (hazS ra) (fun k =>
    let a := (k.s ra).toNat
    if imm ≠ 0 then .exc excILLEGAL 0
    else if a % 8 ≠ 0 then .exc excMISALIGN (k.s ra)
    else match k.held with
    | [] => .done { core := k.setS rd 0 }
    | (_, m) :: rest =>
      match memFault k a (8 + 8 * m.payload.length) 8 with
      | some e => .exc e.1 e.2
      | none =>
        .done { core := ((k.store a (flitBytes (msgFlits m))).setS rd (recvWord m)).takeHeld rest, cycles := 2 + m.payload.length,
                post := fun t => t.took i.core.val m }))

/-! ### Waiting -/

/-- The conditions of WAIT that hold (Table FLINT-6). -/
def CoreSt.waitBits (k : CoreSt) : Nat :=
  bitsNat 4 (fun b => match b with | 0 => !k.held.isEmpty | 1 => k.tickev | 2 => k.tmrev | _ => k.fetchDone != 0)

/-- A WAIT returns `bits`, clearing TICKEV and TMREV where it returns them (R175). -/
def CoreSt.wake (k : CoreSt) (rd : SReg) (bits : Nat) : CoreSt :=
  { k with tickev := k.tickev && !bits.testBit 1, tmrev := k.tmrev && !bits.testBit 2 }.setS rd (BitVec.ofNat 32 bits)

/-- End a core's wait: it goes on at the next instruction, `extra` cycles later. -/
def State.resume (s : State) (c extra : Nat) (k : CoreSt) : State :=
  s.setCore c { k with wait := .none, pc := k.pc + 4, busy := s.coreCycle c + extra }

/-- WAIT (R175): at once when a masked condition holds, else the core sleeps. RA is unused. -/
def execWait (i : Issue) (rd ra : SReg) (imm : Imm16) (s : State) : Out :=
  .next (s.issue i [] (fun k =>
    let mask := imm.toNat % 16
    if mask = 0 ∨ 16 ≤ imm.toNat ∨ ra ≠ 0 then .exc excILLEGAL 0
    else
      let bits := k.waitBits &&& mask
      if bits ≠ 0 then .done { core := k.wake rd bits }
      else .done { core := { k with wait := .wait rd.toNat mask }, hold := true }))

/-- WAIT_WAKE (R175, R184): every masked condition that holds is returned. -/
def execWaitWake (core : CoreId) (s : State) : Out :=
  let c := core.val
  let k := s.core c
  match k.wait with
  | .wait rd mask =>
    let bits := k.waitBits &&& mask
    if bits = 0 ∨ !s.coreRuns c then .next s else .next (s.resume c 2 (k.wake (BitVec.ofNat 5 rd) bits))
  | _ => .next s

/-! ### Fetching (R149, R150) -/

/-- Lowest slot with no fetch outstanding. -/
def CoreSt.freeSlot (k : CoreSt) : Option Nat := (List.range 4).find? (fun n => !k.fetches.any (fun f => f.1 == n))

/-- One prefetcher sees a fetch of HBM line `l` (R150): a line of its region already brought in is a hit, and the lines
ahead are brought in. -/
def State.prefetch (s : State) (n l : Nat) : State :=
  let base := s.fld (F.GAL_PF_BASE_LINE n)
  if !s.bit (F.GAL_PF_CTRL_EN n) || l < base || base + s.fld (F.GAL_PF_LEN_LINES n) ≤ l then s
  else
    let (far, lines) := tget (fun _ => (0, [])) s.prefetched n
    let stride := max 1 (s.fld (F.GAL_PF_CTRL_STRIDE n))
    let depth := min 64 (max 1 (s.fld (F.GAL_PF_CTRL_DEPTH n)))
    let far' := max far l
    let new := ((List.range depth).map (fun j => l + (j + 1) * stride)).filter (fun x =>
      x < base + s.fld (F.GAL_PF_LEN_LINES n) && x ≤ far' + depth * stride && !lines.contains x)
    let s1 := if lines.contains l then s.bump (F.GAL_PF_HITS_COUNT n) 1 else s
    { s1 with prefetched := tset (fun _ => (0, [])) s1.prefetched n (far', (new ++ lines).take 64) }

/-- Every prefetcher sees the lines of a fetch. -/
def State.prefetchAll (s : State) (a len : Nat) : State :=
  ((List.range ((a + len - 1) / 128 + 1 - a / 128)).map (a / 128 + ·)).foldl (fun t l => (List.range 32).foldl (fun u n => u.prefetch n l) t) s

/-- FETCH (R149, Table FLINT-6): 32 × (FN[2:0] + 1) bytes from HBM unit RA to SRAM at RB; RD is the slot. The core stalls while
four fetches are outstanding. -/
def execFetch (i : Issue) (rd ra rb : SReg) (fn : BitVec 6) (s : State) : Out :=
  .next (s.issue i (hazS ra ++ hazS rb) (fun k =>
    let len := 32 * (fn.toNat % 8 + 1)
    let u := (k.s ra).toNat
    let b := (k.s rb).toNat
    if 8 ≤ fn.toNat then .exc excILLEGAL 0
    else if b % 32 ≠ 0 then .exc excMISALIGN (k.s rb)
    else if u < k.fwinLo.toNat || k.fwinHi.toNat < u + len / 32 then .exc excADDR (k.s ra)
    else match k.badByte b len with
    | some x => .exc excADDR (BitVec.ofNat 32 x)
    | none =>
      match k.freeSlot with
      | none => .stall
      | some n =>
        .done { core := { k.setS rd (BitVec.ofNat 32 n) with
                  fetches := k.fetches ++ [(n, ⟨32 * u, b, len⟩)], fetchDone := if hasBit k.fetchDone n then k.fetchDone - 2 ^ n else k.fetchDone },
                post := fun t => t.prefetchAll (32 * u) len }))

/-- FWAIT (Table FLINT-6): until every slot of the mask is DONE. -/
def execFwait (i : Issue) (_rd _ra : SReg) (imm : Imm16) (s : State) : Out :=
  .next (s.issue i [] (fun k =>
    let mask := imm.toNat % 16
    if mask = 0 then .exc excILLEGAL 0
    else if k.fetchDone &&& mask = mask then .done { core := k }
    else .done { core := { k with wait := .fwait mask }, hold := true }))

/-- FWAIT_DONE (R149): every slot named by the waiting FWAIT is done. -/
def execFwaitDone (core : CoreId) (s : State) : Out :=
  let c := core.val
  let k := s.core c
  match k.wait with
  | .fwait mask => if k.fetchDone &&& mask ≠ mask ∨ !s.coreRuns c then .next s else .next (s.resume c 2 k)
  | _ => .next s

/-- TRACE (R177). -/
def execTrace (i : Issue) (_rd ra : SReg) (imm : Imm16) (s : State) : Out :=
  .next (s.issue i (hazS ra) (fun k =>
    if immHi imm ≠ 0 then .exc excILLEGAL 0 else .done { core := k.trace (immLo imm) (k.s ra) }))

/-! ### Barriers and fences (R176, R174) -/

def scopeOf (n : Nat) : Option Scope := match n with | 0 => some .sliver | 1 => some .group | 2 => some .device | _ => none

/-- BARRIER (R176): the core waits for its scope; FLINT_BAR_TIMEOUT bounds the wait when it is nonzero. -/
def execBarrier (i : Issue) (_rd _ra : SReg) (imm : Imm16) (s : State) : Out :=
  .next (s.issue i [] (fun k =>
    match scopeOf imm.toNat with
    | none => .exc excILLEGAL 0
    | some sc =>
      .done { core := { k with wait := .barrier sc (if k.barTimeout = 0 then none else some (s.coreCycle i.core.val + k.barTimeout.toNat)) }, hold := true }))

/-- Is a core of the region of a scope: sliver group, core group, or the device? -/
def State.inRegion (s : State) (sc : Scope) (region c : Nat) : Bool :=
  match sc, (s.core c).logical with
  | .device, _ => true
  | .group, some l => l / 128 == region
  | .sliver, some l => l / s.groupCores == region
  | _, none => false

/-- The region of a scope that a core belongs to. -/
def State.regionOf (s : State) (sc : Scope) (c : Nat) : Nat :=
  match sc, (s.core c).logical with
  | .group, some l => l / 128
  | .sliver, some l => l / s.groupCores
  | _, _ => 0

def CoreSt.atBarrier (k : CoreSt) (sc : Scope) : Bool := match k.wait with | .barrier x _ => x == sc | _ => false

/-- The running cores of a region; every other core's token is automatic (Table GAL-5). -/
def State.barrierCores (s : State) (sc : Scope) (region : Nat) : List Nat :=
  (s.cores.map Prod.fst).filter (fun c => s.coreRuns c && s.inRegion sc region c)

/-- Has every core of the region reached the barrier? -/
def State.barrierFull (s : State) (sc : Scope) (region : Nat) : Bool :=
  (s.barrierCores sc region).all (fun c => (s.core c).atBarrier sc)

def State.barrierRelease (s : State) (sc : Scope) (region : Nat) : State :=
  (s.barrierCores sc region).foldl (fun a c => a.resume c 0 (s.core c)) s

/-- BARRIER_COMPLETE (R176): every core of the scope has reached the barrier, and the waiting cores continue. -/
def execBarrierComplete (scope : Scope) (region : BitVec 9) (s : State) : Out :=
  if s.barrierFull scope region.toNat then .next (s.barrierRelease scope region.toNat) else .next s

/-- BARRIER_TIMEOUT (R176): a barrier complete in this cycle completes; else BARTIMEOUT is raised. -/
def execBarrierTimeout (core : CoreId) (s : State) : Out :=
  let c := core.val
  match (s.core c).wait with
  | .barrier sc (some x) =>
    if !s.coreRuns c ∨ s.cycleNow < x then .next s
    else if s.barrierFull sc (s.regionOf sc c) then .next (s.barrierRelease sc (s.regionOf sc c))
    else .next (s.raise c excBARTIMEOUT 0)
  | _ => .next s

/-- Have the drains of a FENCE mask completed? A SEND is injected when it completes (R174). -/
def CoreSt.fenced_ (k : CoreSt) (mask : Nat) : Bool :=
  (!mask.testBit 1 || k.fetches.isEmpty) && (!mask.testBit 2 || k.traceQ.isEmpty)

/-- FENCE (Table FLINT-6). -/
def execFence (i : Issue) (_rd _ra : SReg) (imm : Imm16) (s : State) : Out :=
  .next (s.issue i [] (fun k =>
    let mask := imm.toNat % 8
    if mask = 0 then .exc excILLEGAL 0
    else if k.fenced_ mask then .done { core := k }
    else .done { core := { k with wait := .fence mask }, hold := true }))

/-- FENCE_DONE (R174). -/
def execFenceDone (core : CoreId) (s : State) : Out :=
  let c := core.val
  let k := s.core c
  match k.wait with
  | .fence mask => if !k.fenced_ mask ∨ !s.coreRuns c then .next s else .next (s.resume c 0 k)
  | _ => .next s

/-- HALT (R181): the core enters the finished state. -/
def execHalt (i : Issue) (off : BitVec 26) (s : State) : Out :=
  .next (s.issue i [] (fun k =>
    if off ≠ 0 then .exc excILLEGAL 0
    else .done { core := { k with finished := true }, hold := true, post := fun t => t.gapStreams (k.logical.getD 0) }))

/-! ### Control and status registers (R167, Table FLINT-1) -/

/-- FLINT_CORE_ID of a core. -/
def State.coreId (s : State) (k : CoreSt) : Word :=
  match k.logical with
  | some l => BitVec.ofNat 32 (l / s.groupCores * 2 ^ 23 + l % s.groupCores * 2 ^ 16 + l)
  | none => 0

/-- BUSY and DONE of FLINT_FETCH. -/
def CoreSt.fetchWord (k : CoreSt) : Word :=
  BitVec.ofNat 32 (bitsNat 4 (fun n => k.fetches.any (fun f => f.1 == n)) * 16 + k.fetchDone)

/-- A snapshot CSR: (range, is it the length), for numbers 0x010 to 0x017. -/
def snapCsr (n : Nat) : Option (Nat × Bool) := if 0x10 ≤ n ∧ n ≤ 0x17 then some ((n - 0x10) / 2, n % 2 == 1) else none

/-- The value of a CSR at cycle `t`, and the core after the read; none for a number not in the table. -/
def State.csrRead (s : State) (t : Nat) (k : CoreSt) (n : Nat) : Option (Word × CoreSt) :=
  match n with
  | 0x00 => some (s.coreId k, k)
  | 0x01 => some (BitVec.ofNat 32 (s.fld F.GAL_CFG_DSEL), k)
  | 0x02 => some (BitVec.ofNat 32 (t - k.cycleBase), { k with cycleLatch := BitVec.ofNat 32 ((t - k.cycleBase) / 2 ^ 32) })
  | 0x03 => some (k.cycleLatch, k)
  | 0x04 => some (BitVec.ofNat 32 k.tick, k)
  | 0x05 => some (BitVec.ofNat 32 (k.tick / 2 ^ 32), k)
  | 0x06 => some (BitVec.ofNat 32 (t - k.tickCycle), k)
  | 0x07 => some (k.tmr, k)
  | 0x08 => some (k.flags, k)
  | 0x09 => some (BitVec.ofNat 32 k.ovfBase, k)
  | 0x0A => some (BitVec.ofNat 32 k.ovfSize, k)
  | 0x0B => some (k.fetchWord, k)
  | 0x0C => some (k.fwinLo, k)
  | 0x0D => some (k.fwinHi, k)
  | 0x0E => some (k.barTimeout, k)
  | 0x20 => some (k.excVec, k)
  | 0x21 => some (k.epc, k)
  | 0x22 => some (k.causeWord, k)
  | 0x23 => some (k.badaddr, k)
  | 0x24 => some (k.scratch, k)
  | 0x30 => some (BitVec.ofNat 32 k.traceDrop, { k with traceDrop := 0 })
  | 0x31 => some (0, k)
  | _ => match snapCsr n with
    | some (i, false) => some (tget (fun _ => 0#32) k.snapBase i, k)
    | some (i, true) => some (tget (fun _ => 0#32) k.snapLen i, k)
    | none => none

/-- The core after a CSR takes a new value in its RW fields (R167, R168); `t` is the cycle. -/
def CoreSt.csrStore (k : CoreSt) (t n : Nat) (v : Word) : CoreSt :=
  match n with
  | 0x07 => { k with tmr := v, tmrDone := decide (v.toNat < t - k.tickCycle) }
  | 0x09 => if 0 < k.ovfUse then k else { k with ovfBase := v.toNat % 2 ^ 17, ovfNext := 0 }
  | 0x0A => if 0 < k.ovfUse then k else { k with ovfSize := v.toNat % 1024, ovfNext := 0 }
  | 0x0E => { k with barTimeout := v }
  | 0x20 => { k with excVec := v }
  | 0x21 => { k with epc := v &&& 0xFFFFFFFC#32 }
  | 0x24 => { k with scratch := v }
  | _ => match snapCsr n with
    | some (i, false) => { k with snapBase := tset (fun _ => 0#32) k.snapBase i (v &&& 0x1FFFF#32) }
    | some (i, true) => { k with snapLen := tset (fun _ => 0#32) k.snapLen i (v &&& 0x3FFFF#32) }
    | none => k

/-- Is a number a CSR? -/
def isCsr (n : Nat) : Bool := n ≤ 0x0E || (0x10 ≤ n && n ≤ 0x17) || (0x20 ≤ n && n ≤ 0x24) || n == 0x30 || n == 0x31

/-- The RW bits of a CSR as stored. -/
def CoreSt.csrRw (k : CoreSt) (n : Nat) : Word :=
  match n with
  | 0x07 => k.tmr
  | 0x09 => BitVec.ofNat 32 k.ovfBase
  | 0x0A => BitVec.ofNat 32 k.ovfSize
  | 0x0E => k.barTimeout
  | 0x20 => k.excVec
  | 0x21 => k.epc
  | 0x24 => k.scratch
  | _ => match snapCsr n with
    | some (i, false) => tget (fun _ => 0#32) k.snapBase i
    | some (i, true) => tget (fun _ => 0#32) k.snapLen i
    | none => 0

/-- CSRR (R167). -/
def execCsrr (i : Issue) (rd _ra : SReg) (imm : Imm16) (s : State) : Out :=
  .next (s.issue i [] (fun k =>
    match s.csrRead (s.coreCycle i.core.val) k (immLo imm) with
    | none => .exc excILLEGAL 0
    | some (v, k1) => lateS k1 rd v 1))

/-- CSRW (R167): RO fields ignore the write, W1C bits written 1 are cleared, NOTE adds to GAL_CS_CODERR (R82). -/
def execCsrw (i : Issue) (_rd ra : SReg) (imm : Imm16) (s : State) : Out :=
  .next (s.issue i (hazS ra) (fun k =>
    let n := immLo imm
    if !isCsr n then .exc excILLEGAL 0
    else if n = 0x08 then .done { core := k.clearFlags (k.s ra) }
    else if n = 0x31 then .done { core := { k with codErr := sat32 (k.codErr + (k.s ra).toNat % 2) } }
    else .done { core := k.csrStore (s.coreCycle i.core.val) n (k.s ra) }))

/-- CSRC (R167): clears, in an RW or W1C field, every bit that is 1 in RA. -/
def execCsrc (i : Issue) (_rd ra : SReg) (imm : Imm16) (s : State) : Out :=
  .next (s.issue i (hazS ra) (fun k =>
    let n := immLo imm
    if !isCsr n then .exc excILLEGAL 0
    else if n = 0x08 then .done { core := k.clearFlags (k.s ra) }
    else .done { core := k.csrStore (s.coreCycle i.core.val) n (k.csrRw n &&& ~~~(k.s ra)) }))

/-- ERET (R179): back to FLINT_EPC; IN_HANDLER falls. -/
def execEret (i : Issue) (off : BitVec 26) (s : State) : Out :=
  .next (s.issue i [] (fun k =>
    if off ≠ 0 then .exc excILLEGAL 0
    else .done { core := { k with inHandler := false }, target := some k.epc, cycles := 2 }))

/-- FLINT_TIMER_MATCH (R167): FLINT_TICKPOS reaches a nonzero FLINT_TMR, once in a tick. -/
def execFlintTimerMatch (core : CoreId) (s : State) : Out :=
  let c := core.val
  let k := s.core c
  if k.tmr = 0 ∨ k.tmrDone ∨ k.fenced ∨ k.inReset ∨ s.coreCycle c - k.tickCycle < k.tmr.toNat then .next s
  else .next (s.setCore c { k with tmrev := true, tmrDone := true })

/-- TICK_NOTICE (R178): FLINT_TICK advances, FLINT_TICKPOS starts at 0 and TICKEV is set. -/
def execTickNotice (core : CoreId) (s : State) : Out :=
  let c := core.val
  let k := s.core c
  if k.fenced ∨ k.inReset then .next s
  else .next (s.setCore c { k with tick := s.tick, tickCycle := s.cycleNow, tickev := true, tmrDone := false })

/-- CORE_RESTART (R182): after a transient fault the core is reset and loaded again, its home streams start afresh (R157), and it
starts at the next tick boundary. -/
def execCoreRestart (core : CoreId) (s : State) : Out :=
  let c := core.val
  let k := s.core c
  if !k.faulted ∨ k.fenced then .next s
  else
    let s1 := (s.setCore c (k.resetCore s.cycleNow false)).loadCore c
    let s2 := s1.setCore c { s1.core c with restartPend := true }
    .next (s2.loseStreams (k.logical.getD 0))

/-! ### Undefined words (R169) -/

/-- Fields of an instruction word. -/
def wOp (w : Word) : Nat := (w.extractLsb' 26 6).toNat
def wFn (w : Word) : Nat := (w.extractLsb' 0 6).toNat
def wImm (w : Word) : Nat := (w.extractLsb' 0 16).toNat
def wA (w : Word) : Nat := (w.extractLsb' 16 5).toNat

/-- Is a word of form V legal in its FN and its unused and reserved fields (Table FLINT-5)? -/
def legalV (w : Word) : Bool :=
  let fn := wFn w
  let vd := w.getLsbD 22
  let va := w.getLsbD 18
  let vb := w.getLsbD 14
  (w.extractLsb' 6 3 == 0) && match wOp w with
  | 0x22 => fn < 6 || (fn == 6 && !vd && !va && !vb) || (fn == 7 && !vd && !vb)
  | 0x23 | 0x24 | 0x27 | 0x2C => true
  | 0x25 => fn < 3 || (fn == 3 && !va && !vb)
  | 0x26 => fn == 0 || (fn == 1 && !va)
  | 0x28 => !vd
  | 0x29 => w.extractLsb' 9 17 == 0
  | 0x2D => fn < 8 || (0x20 ≤ fn && fn < 0x28)
  | _ => false

/-- Is an instruction word defined, with its unused and reserved fields zero and its static operands legal (R169, Table FLINT-8)? -/
def flintLegal (w : Word) : Bool :=
  match wOp w with
  | 0x00 => wFn w ≤ 0x15 && w.extractLsb' 6 5 == 0
  | 0x01 | 0x02 | 0x03 | 0x04 | 0x05 | 0x08 | 0x09 | 0x0A | 0x0B | 0x0C | 0x10 | 0x11 | 0x12 => true
  | 0x14 | 0x15 | 0x16 | 0x17 | 0x18 | 0x19 | 0x1A | 0x1B => true
  | 0x06 => w.extractLsb' 5 9 == 0
  | 0x07 => wA w == 0
  | 0x20 | 0x21 => !w.getLsbD 21
  | 0x2A | 0x2B => w.extractLsb' 21 5 == 0
  | 0x22 | 0x23 | 0x24 | 0x25 | 0x26 | 0x27 | 0x28 | 0x29 | 0x2C | 0x2D => legalV w
  | 0x30 => true
  | 0x31 => wImm w == 0
  | 0x32 => wImm w % 16 != 0 && wImm w < 16 && wA w == 0
  | 0x33 => wFn w < 8 && w.extractLsb' 6 5 == 0
  | 0x34 => wImm w % 16 != 0
  | 0x35 => wImm w < 4096
  | 0x38 => wImm w < 3
  | 0x39 => wImm w % 8 != 0
  | 0x3A | 0x3E => w.extractLsb' 0 26 == 0
  | 0x3B | 0x3C | 0x3D => isCsr (wImm w % 4096)
  | _ => false

/-- ILLEGAL_INSTRUCTION (R169, R179): a core issues an undefined word and raises ILLEGAL. A legal word is not this event. -/
def execIllegalInstruction (i : Issue) (word : Word) (s : State) : Out :=
  if flintLegal word then .next s else .next (s.issue i [] (fun _ => .exc excILLEGAL 0))

end Sys2Proof.Machine
end

