-- ==== Sys2Proof/Machine/Snn.lean ====
section
/-! DEFINITION.  The meanings of the home core's network commands (06_spiking_execution R197 to R203; R76; R395). -/

namespace Sys2Proof.Machine

/-- Is a held message an ADIT_SPIKES of the stream? -/
def spikesOf (n : Nat) (e : Bool × Msg) : Bool :=
  e.2.tag.toNat == tagADIT_SPIKES && ((msgWord e.2 0).extractLsb' 0 16).toNat == n

/-- ADIT_SPIKES (R135, R198, R201): the home core takes the oldest ADIT_SPIKES message it holds for the stream. -/
def execAditSpikes (stream : Stream) (s : State) : Out :=
  let n := stream.toNat
  let c := s.homeCore n
  let k := s.core c
  match k.held.find? (spikesOf n) with
  | none => .next s
  | some e =>
    if !s.coreRuns c then .next s
    else .next ((s.setCore c (k.takeHeld (dropFirst e k.held))).took c e.2)

/-- The next tick a stream's home core is to process: the first tick of the stream's first window before any (R214). -/
def State.nextTick (s : State) (n : Nat) : Option Nat :=
  match (s.net n).next with
  | some t => some t
  | none => (s.stream n).nextWin.map (s.winStart n)

/-- TPROC_EXPIRY (R197): TPROC cycles after the stream's next tick became due, the home core processes it. -/
def execTprocExpiry (stream : Stream) (s : State) : Out :=
  let n := stream.toNat
  let q := s.net n
  match q.net, s.nextTick n with
  | some d, some t =>
    let due := s.tickStart (t + s.delay n + 1)
    if !s.coreRuns (s.homeCore n) ∨ !s.mapped n ∨ !s.ticking ∨ s.cycleNow < 8 * due + d.tproc.toNat then .next s
    else .next ((s.setNet n { q with first := some (q.first.getD t), next := some t }).processTick n t)
  | _, _ => .next s

/-- The window length in bins: G of the stream, at least 1. -/
def State.bin (s : State) (n : Nat) : Nat := max 1 (s.fld (F.ADIT_STREAM_TIME_G n))

/-- One core of the sliver group encodes its sliver of a broadcast record and sends it to the Sump port of its column
(R76, R77, R143, Table GAL-4). -/
def State.encodeCore (s : State) (n : Nat) (b : Broadcast) (j : Nat) : State :=
  let l := s.sgroup n * s.groupCores + j
  let c := s.physOf l
  let k := s.core c
  if s.sliverMissing l || !s.coreRuns c then s
  else
    let (t, sat) := encodeSliver s.seed (s.bin n) j b.spikes
    let bits := binariseTally t (tieSliver s.seed j)
    let loss := k.loss || (b.loss && l == s.homeLogical n)
    let w := fun q : Nat => bits.extractLsb' (64 * q) 64
    (s.setCore c { k with loss := false }).sendFrom c (0x2000 + coreX c) tagSLIVER
      [sliverWord n j (popc bits) sat loss (tallyZero t), BitVec.ofNat 64 b.start, w 0, w 1, w 2, w 3]

/-- SLIVER_ENCODE (R76): each core of the sliver group encodes the oldest record broadcast for the stream. -/
def execSliverEncode (stream : Stream) (s : State) : Out :=
  let n := stream.toNat
  match (s.net n).outbox with
  | [] => .next s
  | b :: rest =>
    .next ((List.range s.groupCores).foldl (fun a j => a.encodeCore n b j) (s.setNet n { s.net n with outbox := rest }))

/-- EPOCH_HANDSHAKE (R395, R412). -/
def execEpochHandshake (core : CoreId) (s : State) : Out :=
  if s.coreRuns core.val then .next (s.handshake core.val) else .next s

end Sys2Proof.Machine
end

