-- ==== Sys2Proof/Machine/Library.lean ====
section
/-! DEFINITION.  The library operations (09_associative_search Table SUMP-2, 13_host_rings Table HOST-8), the three-step update's
later steps, repair and the filing of appends (R315, R311, R322). -/

namespace Sys2Proof.Machine

/-- A library descriptor's fields (Table HOST-8). -/
structure LibDesc where
  op : Nat
  tag : Nat
  addr : Nat
  len : Nat
  lib : Nat
  count : Nat
  export_ : Nat
  arg0 : Nat
  arg1 : Nat
  arg2 : Nat
  arg3 : Nat

def libDesc (d : Slot) : LibDesc :=
  ⟨slotField d 0 1, slotField d 4 4, slotField d 8 8, slotField d 16 4, slotField d 20 1, slotField d 21 1, slotField d 22 1,
   slotField d 24 4, slotField d 28 4, slotField d 32 8, slotField d 40 4⟩

/-- Does a library descriptor break R424: a reserved byte, its buffer's alignment or length, or the library number? -/
def libDescBad (d : Slot) (hasBuf : Bool) : Bool :=
  let x := libDesc d
  slotField d 1 3 != 0 || slotField d 23 1 != 0 || slotField d 44 12 != 0 || 16 ≤ x.lib || 4194304 < x.len ||
    (if hasBuf then x.addr % 8 != 0 else x.addr != 0)

/-- Complete a library descriptor by the status its body gives, or later when it gives none (R422 to R424, R434). -/
def State.libOpWhen (s : State) (ready : Bool) (ring : Ring) (idx : Word) (op : Nat) (hasBuf dmaOk : Bool)
    (body : LibDesc → State × Option (Nat × Nat × Nat)) : State :=
  let r := ring.toNat
  let i := idx.toNat
  match s.takenDesc r i 2 with
  | none => s
  | some d =>
    let x := libDesc d
    if s.fatal || x.op ≠ op then s
    else if libDescBad d hasBuf then s.complete r i stBAD_DESC 0 0 0
    else if hasBuf && !dmaOk then s.dmaError.complete r i stDMA_ERR 0 0 0
    else if !ready then s.complete r i stNOT_READY 0 0 0
    else
      let b := body x
      match b.2 with
      | none => b.1.beginDesc r i
      | some (st, aux, res) => b.1.complete r i st 0 aux res

/-- A library operation of Sump: it completes NOT_READY while Sump is not ready. -/
def State.libOp (s : State) (ring : Ring) (idx : Word) (op : Nat) (hasBuf dmaOk : Bool)
    (body : LibDesc → State × Option (Nat × Nat × Nat)) : State :=
  s.libOpWhen s.sumpReady ring idx op hasBuf dmaOk body

/-- Status answers of a body. -/
def State.ends (s : State) (st aux res : Nat) : State × Option (Nat × Nat × Nat) := (s, some (st, aux, res))

/-- LIMIT sets SUMP_ALARM.LIMIT (R295). -/
def State.limited (s : State) (l : Nat) : State × Option (Nat × Nat × Nat) := (s.alarm F.SUMP_ALARM_LIMIT l).ends stLIMIT 0 0

/-- Items of a buffer: `n` of `size` bytes; none when COUNT or LEN does not fit. -/
def items (x : LibDesc) (size : Nat) (buf : List Byte) : Option (List (List Byte)) :=
  if x.count < 1 || 64 < x.count || x.len < x.count * size || buf.length < x.count * size then none
  else some ((List.range x.count).map (fun i => (buf.drop (i * size)).take size))

/-- Entry-number items; none when a reserved byte is nonzero (Table HOST-8b). -/
def entryItems (x : LibDesc) (buf : List Byte) : Option (List Nat) :=
  match items x 4 buf with
  | none => none
  | some l => if l.any (fun b => sliceLE b 3 1 != 0) then none else some (l.map (fun b => sliceLE b 0 3))

/-! ### Library and bench list -/

/-- Is the library the target of an update, so that DELETE, ADD_BENCH and REMOVE_BENCH are refused (Table MODES-2)? -/
def State.updating (s : State) (l : Nat) : Bool := s.fld F.LANTERN_UPDATE_LIB_STATE != 0 && s.fld F.LANTERN_UPDATE_LIBRARY == l

/-- CREATE (Table SUMP-2): the library becomes ACTIVE with its kind and no benches. -/
def execCreate (ring : Ring) (idx : Word) (s : State) : Out :=
  .next (s.libOp ring idx 1 false true (fun x =>
    if 3 < x.arg0 then s.ends stBAD_DESC 0 0
    else if s.libActive x.lib || x.arg0 = 3 then s.ends stREFUSED 0 0
    else (((s.setFld (F.SUMP_LIB_CFG_ACTIVE x.lib) 1).setFld (F.SUMP_LIB_CFG_KIND x.lib) x.arg0).setBenches x.lib []).ends stOK 0 0))

/-- Release a bench: its entries become EMPTY, its learning state is freed, and it is erased by upkeep writes. -/
def State.releaseBench (s : State) (b : Nat) : State :=
  let s1 := (s.entriesIn b [esVALID, esINVALID, esQUARANTINED]).foldl (fun a c => ((a.setEntry b c {}).dropRepair b c).freeShadow b c) s
  (s1.assignBench b none false)

/-- Empty and free a library (DELETE). -/
def State.freeLib (s : State) (l : Nat) : State :=
  let bs := (s.lib l).benches
  let s1 := bs.foldl (fun a b => a.releaseBench b) s
  let s2 := (s1.setBenches l []).setLib l {}
  let s3 := ((s2.setFld (F.SUMP_LIB_CFG_ACTIVE l) 0).setFld (F.SUMP_LIB_CFG_KIND l) 0).setFld (F.SUMP_LIB_SIZE_VALID l) 0
  let s4 : State := { s3 with chisel := { s3.chisel with pool := s3.chisel.pool.filter (fun p => p.lib != l) } }
  (bs.foldl (fun a b => a.queueErase b) s4).countUsed

/-- DELETE (Table SUMP-2). -/
def execDeleteLib (ring : Ring) (idx : Word) (s : State) : Out :=
  .next (s.libOp ring idx 2 false true (fun x =>
    if !s.libActive x.lib || s.updating x.lib || !(s.lib x.lib).queue.isEmpty ||
        (List.range 256).any (fun m => s.bit (F.SUMP_MTX_VALID m) && s.fld (F.SUMP_MTX_LIBRARY m) == x.lib) then s.ends stREFUSED 0 0
    else if (s.lib x.lib).benches.any (fun b => !s.benchReady b) then s.ends stNOT_READY 0 0
    else (s.freeLib x.lib).ends stOK 0 0))

/-- Format of a library's kind (Table SUMP-1): true for four-level. -/
def State.libFour (s : State) (l : Nat) : Bool := s.libKind l == 2

/-- ADD_BENCH (Table SUMP-2, R352, R375). -/
def execAddBench (ring : Ring) (idx : Word) (s : State) : Out :=
  .next (s.libOp ring idx 3 false true (fun x =>
    let b := x.arg0
    let n := (s.lib x.lib).benches.length
    if !s.libActive x.lib || s.updating x.lib || 8 * s.perDie ≤ b then s.ends stREFUSED 0 0
    else if (s.benchOf b).lib.isSome || !s.benchErased b || s.isReserved b || s.sump.held.contains b ||
        (match (s.benchOf b).fourLevel with | some f => f != s.libFour x.lib | none => false) then s.ends stREFUSED 0 0
    else if s.isSpan x.lib && s.fld F.TUNNEL_CFG_ROLE != 0 && s.fld (F.TUNNEL_LIB_RANGE_LEN x.lib) ≤ n then s.limited x.lib
    else if !s.benchReady b then s.ends stNOT_READY 0 0
    else ((s.setBenches x.lib ((s.lib x.lib).benches ++ [b])).assignBench b (some x.lib) (s.libFour x.lib)).ends stOK 0 n))

/-- REMOVE_BENCH (Table SUMP-2): the bench at the last position, when every entry of it is EMPTY. -/
def execRemoveBench (ring : Ring) (idx : Word) (s : State) : Out :=
  .next (s.libOp ring idx 4 false true (fun x =>
    match (s.lib x.lib).benches.getLast? with
    | none => s.ends stREFUSED 0 0
    | some b =>
      if !s.libActive x.lib || s.updating x.lib || !(s.entriesIn b [esVALID, esINVALID, esQUARANTINED]).isEmpty then s.ends stREFUSED 0 0
      else (((s.setBenches x.lib (s.lib x.lib).benches.dropLast).assignBench b none false).queueErase b).ends stOK 0 0))

/-! ### Entries -/

/-- WRITE items (Table HOST-8b); none when a reserved byte is nonzero or a column lies beyond 1,023. -/
def State.writeItems (s : State) (x : LibDesc) (buf : List Byte) : Option (List WriteItem) :=
  match items x (16 + s.dim / 8) buf with
  | none => none
  | some l =>
    if l.any (fun b => 1024 ≤ sliceLE b 0 2 || sliceLE b 3 1 != 0 || sliceLE b 8 8 != 0) then none
    else some (l.map (fun b =>
      ⟨sliceLE b 0 2, BitVec.ofNat 32768 (sliceLE b 16 (s.dim / 8)), sliceLE b 2 1, sliceLE b 4 4, 0, 0, s.now, false⟩))

/-- May these columns of a bench be written: none is quarantined with a repair in progress (R311)? -/
def State.writable (s : State) (b : Nat) (cols : List Nat) : Bool := cols.all (fun c => !s.repairing b c)

/-- WRITE (R295, R315): the items join the library's queue of batches; the descriptor completes with the batch result. -/
def execWrite (ring : Ring) (idx : Word) (buf : List Byte) (dmaOk : Bool) (s : State) : Out :=
  .next (s.libOp ring idx 5 true dmaOk (fun x =>
    match s.writeItems x buf with
    | none => s.ends stBAD_DESC 0 0
    | some ws =>
      let cols := ws.map (fun w => w.col)
      if !s.libActive x.lib || s.libKind x.lib = 2 then s.ends stREFUSED 0 0
      else match (s.lib x.lib).benches[x.arg0]? with
      | none => s.ends stREFUSED 0 0
      | some b =>
        let fresh := (cols.filter (fun c => (s.entry b c).state != esVALID && (s.entry b c).state != esINVALID)).length
        if cols.eraseDups.length ≠ cols.length || !s.writable b cols then s.ends stREFUSED 0 0
        else if kindLimit (s.libKind x.lib) < s.kindCount (s.libKind x.lib) + fresh then s.limited x.lib
        else match s.awayPeer x.lib x.arg0 with
        | some m => (s.sendBenchOp m 5 x.lib x.arg0 (bytesLE 1 x.count ++ buf)).ends stOK 0 x.count
        | none =>
          if !s.benchReady b then s.ends stNOT_READY 0 0
          else (s.queueBatch x.lib { src := .host ring.toNat idx.toNat, pos := x.arg0, items := ws }, none)))

/-- Make an entry EMPTY at once (INVALIDATE, Table SUMP-4): a write of it not yet begun is withdrawn, and a repair's outcome is
discarded. -/
def State.invalidateEntry (s : State) (l e : Nat) : State :=
  match s.entryAt l e with
  | none => s
  | some (b, c) =>
    let drop := fun (q : LibBatch) => if !q.begun && q.pos = e / 1024 then { q with items := q.items.filter (fun i => i.col != c) } else q
    let lb := s.lib l
    let pend := match lb.pend with
      | some (p, t, is) => if p = e / 1024 then some (p, t, is.filter (fun i => i.col != c)) else some (p, t, is)
      | none => none
    ((((s.setLib l { lb with queue := lb.queue.map drop, pend := pend }).dropRepair b c).setEntry b c {}).freeShadow b c)

/-- The entries that an operation names, when every one exists. -/
def State.named (s : State) (l : Nat) (es : List Nat) : Option (List (Nat × Nat)) :=
  if s.libActive l && es.all (fun e => e < 1024 * (s.lib l).benches.length) then some (es.filterMap (s.entryAt l)) else none

/-- Send the items of an operation that name entries of positions that peers serve, one frame a position (R377). -/
def State.sendAway (s : State) (l op : Nat) (l_ : List (Nat × List Byte)) : State :=
  let far := l_.filter (fun x => (s.awayPeer l (x.1 / 1024)).isSome)
  ((far.map (fun x => x.1 / 1024)).eraseDups).foldl (fun (a : State) p =>
    match a.awayPeer l p with
    | some m =>
      let g := far.filter (fun x => x.1 / 1024 == p)
      a.sendBenchOp m op l p (bytesLE 1 g.length ++ g.flatMap Prod.snd)
    | none => a) s

/-- Entry numbers whose position the device serves itself. -/
def State.nearby (s : State) (l : Nat) (es : List Nat) : List Nat := es.filter (fun e => (s.awayPeer l (e / 1024)).isNone)

/-- INVALIDATE. -/
def execInvalidate (ring : Ring) (idx : Word) (buf : List Byte) (dmaOk : Bool) (s : State) : Out :=
  .next (s.libOp ring idx 6 true dmaOk (fun x =>
    match entryItems x buf with
    | none => s.ends stBAD_DESC 0 0
    | some es =>
      match s.named x.lib es with
      | none => s.ends stREFUSED 0 0
      | some _ =>
        let near := s.nearby x.lib es
        let at_ := near.filterMap (s.entryAt x.lib)
        if at_.any (fun p => !s.benchReady p.1) then s.ends stNOT_READY 0 0
        else
          let n := (at_.eraseDups.filter (fun p => (s.entry p.1 p.2).state != esEMPTY)).length
          let far := (es.eraseDups.filter (fun e => !near.contains e)).map (fun e => (e, bytesLE 4 e))
          ((near.foldl (fun a e => a.invalidateEntry x.lib e) s).sendAway x.lib 6 far).ends stOK 0 (n + far.length)))

/-- SET_FIELDS (R317). -/
def execSetFields (ring : Ring) (idx : Word) (buf : List Byte) (dmaOk : Bool) (s : State) : Out :=
  .next (s.libOp ring idx 7 true dmaOk (fun x =>
    match items x 8 buf with
    | none => s.ends stBAD_DESC 0 0
    | some l =>
      let es := l.map (fun b => sliceLE b 0 3)
      match s.named x.lib es with
      | none => s.ends stREFUSED 0 0
      | some _ =>
        let mine := l.filter (fun b => (s.awayPeer x.lib (sliceLE b 0 3 / 1024)).isNone)
        let at_ := mine.filterMap (fun b => s.entryAt x.lib (sliceLE b 0 3))
        if es.eraseDups.length ≠ es.length || at_.any (fun p => (s.entry p.1 p.2).state == esEMPTY) then s.ends stREFUSED 0 0
        else if at_.any (fun p => !s.benchReady p.1) then s.ends stNOT_READY 0 0
        else
          (((at_.zip mine).foldl (fun (a : State) y =>
            a.setEntry y.1.1 y.1.2 { a.entry y.1.1 y.1.2 with prio := sliceLE y.2 3 1, cls := sliceLE y.2 4 4 }) s).sendAway x.lib 7
              (l.map (fun b => (sliceLE b 0 3, b)))).ends stOK 0 l.length))

/-- READ: the side-record and key mirror of each entry go to the export ring; a lost mirror reads as zero (R442). -/
def execRead (ring : Ring) (idx : Word) (buf : List Byte) (dmaOk : Bool) (s : State) : Out :=
  .next (s.libOp ring idx 8 true dmaOk (fun x =>
    match entryItems x buf with
    | none => s.ends stBAD_DESC 0 0
    | some es =>
      if !s.isExportRing x.export_ then s.ends stBAD_DESC 0 0
      else match s.named x.lib es with
      | none => s.ends stREFUSED 0 0
      | some at_ =>
        if at_.any (fun p => !s.benchReady p.1) then s.ends stNOT_READY 0 0
        else
          let out := at_.flatMap (fun p => (s.entry p.1 p.2).bytes ++ keyBytes s.dim ((s.mirror p.1 p.2).getD 0))
          let lost := at_.any (fun p => (s.mirror p.1 p.2).isNone)
          let n := at_.countP (fun p => (s.mirror p.1 p.2).isNone)
          let s1 := if lost then (s.bump F.HOST_HBM_UNINIT_COUNT n).alarm F.HOST_ALARM_HBM_UNINIT 0 else s
          (s1.exportOut x.export_ { ring := ring.toNat, idx := idx.toNat, tag := x.tag, bytes := out, uninit := lost, status := stOK, result := at_.length }, none)))

/-! ### Matrices -/

/-- DEFINE_MATRIX (R318). A result area of 0 is one that Lantern chooses: a free value. -/
def execDefineMatrix (ring : Ring) (idx : Word) (s : State) : Out :=
  .next (s.libOp ring idx 9 false true (fun x =>
    let m := x.arg0 % 256
    let i4 := hasBit x.arg0 8
    let pos := x.arg0 / 65536
    let rows := x.arg1 % 65536
    let cols := x.arg1 / 65536
    if x.arg0 / 512 % 128 ≠ 0 || rows < 1 || 1024 < rows || 2 ^ 32 ≤ x.arg2 then s.ends stBAD_DESC 0 0
    else if !s.libActive x.lib || s.libKind x.lib ≠ 2 || s.bit (F.SUMP_MTX_VALID m) || s.dim / 1024 * (if i4 then 512 else 256) < cols then
      s.ends stREFUSED 0 0
    else match (s.lib x.lib).benches[pos]? with
    | none => s.ends stREFUSED 0 0
    | some b =>
      if !s.benchReady b then s.ends stNOT_READY 0 0
      else
        let d := s.draw
        let area := if x.arg2 = 0 then Config.freeNat d.1 % 2 ^ 32 else x.arg2
        let s0 := if x.arg2 = 0 then d.2 else s
        let s1 := ((s0.setFld (F.SUMP_MTX_VALID m) 1).setFld (F.SUMP_MTX_FORMAT m) (cond i4 1 0)).setFld (F.SUMP_MTX_LIBRARY m) x.lib
        let s2 := ((s1.setFld (F.SUMP_MTX_POS m) pos).setFld (F.SUMP_MTX_SHAPE_COLS m) cols).setFld (F.SUMP_MTX_SHAPE_ROWS m) rows
        (s2.setFld (F.SUMP_MTX_AREA_BASE m) area).ends stOK 0 area))

/-- A column of weights from its bytes: I8 a byte a row, I4 a nibble a row, row 0 in the lowest bits. -/
def weightsOf (i4 : Bool) (rows : Nat) (b : List Byte) : List Int :=
  (List.range rows).map (fun r =>
    if i4 then (BitVec.ofNat 4 (sliceLE b (r / 2) 1 / 16 ^ (r % 2))).toInt else (BitVec.ofNat 8 (sliceLE b r 1)).toInt)

/-- WRITE_MATRIX (R213): the new version is written through a staging copy, and stands between two requests. -/
def execWriteMatrix (ring : Ring) (idx : Word) (buf : List Byte) (dmaOk : Bool) (s : State) : Out :=
  .next (s.libOp ring idx 10 true dmaOk (fun x =>
    let m := x.arg0 % 256
    let first := x.arg1 % 65536
    let n := x.arg1 / 65536
    let rows := s.fld (F.SUMP_MTX_SHAPE_ROWS m)
    let size := if s.mtxI4 m then (rows + 1) / 2 else rows
    if x.arg0 / 256 ≠ 0 then s.ends stBAD_DESC 0 0
    else if !s.bit (F.SUMP_MTX_VALID m) || s.fld (F.SUMP_MTX_LIBRARY m) ≠ x.lib then s.ends stREFUSED 0 0
    else if s.fld (F.SUMP_MTX_SHAPE_COLS m) < first + n || x.len < n * size || buf.length < n * size then s.ends stBAD_DESC 0 0
    else match s.matrixBench m with
    | none => s.ends stREFUSED 0 0
    | some b =>
      if !s.benchReady b then s.ends stNOT_READY 0 0
      else
        let new := (List.range n).map (fun c => weightsOf (s.mtxI4 m) rows ((buf.drop (c * size)).take size))
        (s.queueBatch x.lib { src := .host ring.toNat idx.toNat, pos := s.fld (F.SUMP_MTX_POS m), items := [], matrix := some (m, first, new) }, none)))

/-! ### Repair -/

/-- Start a repair (R311). -/
def State.startRepair (s : State) (b c : Nat) (host : Option (Nat × Nat)) : State :=
  { s with sump := { s.sump with repairs := s.sump.repairs.filter (fun j => j.at_ != b * 1024 + c) ++ [⟨b * 1024 + c, host, false⟩] } }

/-- REPAIR: read-back repair of a QUARANTINED entry. -/
def execRepair (ring : Ring) (idx : Word) (s : State) : Out :=
  .next (s.libOp ring idx 11 false true (fun x =>
    match s.named x.lib [x.arg0] with
    | some [(b, c)] =>
      if (s.entry b c).state ≠ esQUARANTINED || s.repairing b c then s.ends stREFUSED 0 0
      else if !s.benchReady b then s.ends stNOT_READY 0 0
      else (s.startRepair b c (some (ring.toNat, idx.toNat)), none)
    | _ => s.ends stREFUSED 0 0))

/-- REPAIR_DONE (R300, R311): the read-back key is checked; when it agrees it becomes the mirror and the entry VALID, else the
entry stays QUARANTINED. A repair whose entry was invalidated or written meanwhile is discarded. -/
def execRepairDone (lib : Lib) (entry : BitVec 24) (cells : List CellRead) (s : State) : Out :=
  match s.entryAt lib.toNat entry.toNat with
  | none => .next s
  | some (b, c) =>
    match s.sump.repairs.find? (fun j => j.at_ == b * 1024 + c) with
    | none => .next s
    | some j =>
      let s0 : State := { s with sump := { s.sump with repairs := s.sump.repairs.filter (fun x => x.at_ != b * 1024 + c) } }
      let e := s0.entry b c
      let key := s0.readBack b c cells
      let ok := !j.dropped && decide (e.state = esQUARANTINED) && e.agrees s.dim key
      let s1 := if ok then (s0.setMirror e.mirror (some key)).setEntryState b c esVALID
        else if j.dropped then s0
        else s0.alarm F.SUMP_ALARM_QUARANTINE (b * 1024 + c)
      .next (match j.host with
        | some (r, i) => s1.complete r i stOK 0 0 (if ok then 1 else 0)
        | none => s1)

/-! ### Steps 2 and 3 of the update -/

/-- WRITE_STEP (R315, R336): every request admitted before the invalidation has the bench's result; the mirrors and side-records
are written and the batch goes to the die. -/
def execWriteStep (lib : Lib) (s : State) : Out :=
  let l := lib.toNat
  match (s.lib l).queue with
  | [] => .next s
  | q :: rest =>
    match s.benchAt l q.pos with
    | none => .next s
    | some b =>
      if !q.begun || q.sent || !s.sumpReady || !s.benchReady b || s.sump.active.any (fun r => q.waits.contains r.tag && r.owed b) then .next s
      else
        let s1 := if q.written then s else q.items.foldl (fun a i => a.writeEntry b i) s
        let s2 := s1.setLib l { s1.lib l with queue := { q with sent := true, waits := [] } :: rest }
        .next (match q.matrix with
          | some (m, first, new) => s2.sendMatrix l b m first new
          | none => s2.sendEntries l b q.items)

/-- Column weight totals of a matrix follow a write (R233, R252). -/
def State.setTotals (s : State) (b m first : Nat) (new : List (List Int)) : State :=
  new.zipIdx.foldl (fun (a : State) w =>
    let a1 := a.setWeights m (first + w.2) w.1
    { a1 with seam := { a1.seam with wtot := tset (fun _ => (0 : Int)) a1.seam.wtot ((a1.benchDie b * 8192 + a1.benchLocal b) * 16384 + first + w.2) w.1.sum } }) s

/-- When the last copy of a moved bench is validated the old bench is retired, and its tiles that are not retired become spares
(Table SEAM-8, R277). -/
def State.finishMove (s : State) (l p b : Nat) : State :=
  match s.sump.moving.find? (fun m => m.2 == b) with
  | none => s
  | some m =>
    if (s.lib l).queue.any (fun q => decide (q.src = .move) && q.pos == p) then s
    else
      let k := s.benchDie m.1
      let j := s.benchLocal m.1
      let t := s.dim / 1024
      let s1 : State := { s with sump := { s.sump with moving := s.sump.moving.filter (fun x => x != m) } }
      let s2 := s1.setBench k j { s1.benchSt k j with state := .retired, lib := none }
      ((List.range t).foldl (fun a r => a.setMap k (j * t + r) physTiles) s2).countSpares k

/-- Chisel's commit has nothing left in any library's queue (R404). -/
def State.commitEnds (s : State) : State :=
  if (List.range 16).any (fun l => (s.lib l).queue.any (fun q => decide (q.src = .chisel))) then s
  else s.setFld F.CHISEL_STATUS_COMMITTING 0

/-- Take one batch result (R315 step 3, Table SUMP-4). -/
def State.takeBatch (s : State) (k : Nat) (r : BatchRes) : State :=
  let b := s.devBench k r.bench
  match s.benchLib b with
  | none => s
  | some (l, p) =>
    let sound := r.cols.filter (fun c => !r.failing.contains c)
    match (s.lib l).queue with
    | q :: rest =>
      if q.sent && q.pos = p && (q.matrix.isSome && r.cols.length == 1024 || decide (q.items.map (fun i => i.col) = r.cols)) then
        let good := q.items.filter (fun i => sound.contains i.col && (s.entry b i.col).state == esINVALID)
        let bad := q.items.filter (fun i => !sound.contains i.col && (s.entry b i.col).state == esINVALID)
        let s1 : State := good.foldl (fun (a : State) (i : WriteItem) => a.setEntryState b i.col esVALID) s
        let s2 : State := if r.failing.isEmpty then s1 else
          (s1.bump F.SUMP_WRITE_FAILS_COUNT bad.length).alarm F.SUMP_ALARM_WRITE_FAIL l
        let s3 : State := match q.matrix with | some (m, first, new) => s2.setTotals b m first new | none => s2
        let s4 : State := match q.src with
          | .host .. => if !s3.learningLib l then s3 else (good.foldl (fun (a : State) (i : WriteItem) => a.seed1 b i.col) s3).countUsed
          | .chisel => (s3.bump F.CHISEL_COMMITS_COUNT (good.countP (fun (i : WriteItem) => !i.created))).bump F.CHISEL_CREATED_COUNT (good.countP (fun (i : WriteItem) => i.created))
          | _ => s3
        let drop := fun (x : LibBatch) => match q.src, x.src with
          | .host .., .chisel => if x.pos = p then { x with items := x.items.filter (fun i => !good.any (fun g => g.col == i.col)) } else x
          | _, _ => x
        let s5 : State := (s4.setLib l { s4.lib l with queue := rest.map drop }).beginBatch l
        let s6 : State := match q.src with
          | .host ri ii => s5.complete ri ii stOK 0 bad.length (match q.matrix with | some (_, _, new) => new.length | none => good.length)
          | .chisel => s5.commitEnds
          | .move => s5.finishMove l p b
          | _ => s5
        s6
      else
        ((sound.filter (fun c => (s.entry b c).state == esINVALID && !q.items.any (fun i => i.col == c && q.pos == p))).foldl
          (fun (a : State) c => a.setEntryState b c esVALID) s).beginBatch l
    | [] => ((sound.filter (fun c => c < 1024 && (s.entry b c).state == esINVALID &&
          !(match (s.lib l).pend with | some (q, _, is) => q == p && is.any (fun i => i.col == c) | none => false))).foldl
        (fun (a : State) c => a.setEntryState b c esVALID) s).beginBatch l

/-! ### Candidates of a library update (R472) -/

/-- Send a candidate's batch: its mirrors and side-records are written with it, and its columns are EMPTY until then. -/
def State.sendCandidate (s : State) (l b : Nat) (is : List WriteItem) : State :=
  (is.foldl (fun (a : State) (i : WriteItem) => (a.writeEntry b i).setEntryState b i.col esINVALID) s).sendEntries l b is

/-- Send the next batch of each die that has none of the candidate's in flight. -/
def State.feedCandidates (s : State) : Nat → State
  | 0 => s
  | fuel + 1 =>
    match s.lantern.libJob with
    | none => s
    | some j =>
      let busy := fun k => j.benches.any (fun b => s.benchDie b == k &&
        (((s.die k).batches.any (fun x => x.bench == some (s.benchLocal b))) || (s.die k).results.any (fun x => x.bench == s.benchLocal b)))
      match j.todo.find? (fun x => !busy (s.benchDie x.1)) with
      | none => s
      | some x =>
        let s1 : State := { s with lantern := { s.lantern with libJob := some { j with todo := dropFirst x j.todo } } }
        (s1.sendCandidate j.lib x.1 x.2).feedCandidates fuel

/-- A batch result of a candidate's bench: sound entries become VALID, failing ones are written again. -/
def State.takeCandidate (s : State) (b : Nat) (r : BatchRes) (j : LibJob) : State :=
  let mine := r.cols.filter (fun c => (s.entry b c).state == esINVALID)
  let good := mine.filter (fun c => !r.failing.contains c)
  let again := (mine.filter (fun c => r.failing.contains c)).filterMap (fun c => (s.mirror b c).map (fun key =>
    let e := s.entry b c
    WriteItem.mk c key e.prio e.cls e.origin e.seq e.ts false))
  let s1 := good.foldl (fun (a : State) c => a.setEntryState b c esVALID) s
  let s2 := s1.setFld F.LANTERN_UPDATE_ENTRIES (s.fld F.LANTERN_UPDATE_ENTRIES + good.length)
  let s3 : State := if again.isEmpty then s2
    else { s2 with lantern := { s2.lantern with libJob := some { j with todo := (b, again) :: j.todo } } }
  s3.feedCandidates 8

/-- BATCH_RESULT (R315): Sump takes the next batch result of a bench. -/
def execBatchResult (die : Die) (bench : BitVec 13) (s : State) : Out :=
  let k := die.toNat
  let d := s.die k
  match d.results.find? (fun r => r.bench == bench.toNat) with
  | none => .next s
  | some r =>
    if s.fld (F.SEAM_STATUS_SHAFT_UP k) = 0 || !s.sumpReady then .next s
    else
      let s1 := s.setDie k { d with results := dropFirst r d.results }
      match s1.lantern.libJob with
      | some j =>
        let b := s1.devBench k r.bench
        .next (if j.benches.contains b && (s1.benchLib b).isNone then s1.takeCandidate b r j else s1.takeBatch k r)
      | none => .next (s1.takeBatch k r)

/-! ### Appends (R322, R360) -/

/-- How a filing ends. -/
inductive Filing where
  | filed (entry : Nat)
  | refused
  | passed
  | waits

/-- Does a library's cursor pass a token when it leaves the share (R360)? -/
def State.tokenLib (s : State) (l : Nat) : Bool := s.isSpan l && s.inChain

/-- The cursor stands past the last entry: it wraps, or on a SPAN token holder the token passes (R360). -/
def State.wrapCursor (s : State) (l : Nat) : State :=
  let s1 := (s.sendPending l).setFld (F.SUMP_LIB_CURSOR_CURSOR l) 0
  if s.tokenLib l then s1.passToken l else s1

/-- File a query in an appending library (R322): the entry at the cursor is overwritten and joins the pending batch of its bench. -/
def State.fileAppend (s : State) (l : Nat) (key : Key) (ts : Nat) : State × Filing :=
  let n := 1024 * (s.lib l).benches.length
  let cur0 := s.fld (F.SUMP_LIB_CURSOR_CURSOR l)
  if n = 0 then (s, .refused)
  else if n ≤ cur0 && s.tokenLib l then (s.wrapCursor l, .passed)
  else
    let cur := if n ≤ cur0 then 0 else cur0
    match s.entryAt l cur with
    | none => (s, .refused)
    | some (b, c) =>
      let st := (s.entry b c).state
      if s.inBatch b c && st = esINVALID then (s, .waits)
      else if st = esEMPTY && 15000000 ≤ s.kindCount 1 then (s.alarm F.SUMP_ALARM_LIMIT l, .refused)
      else
        let it : WriteItem := ⟨c, key, 0, 0xFFFFFFFF, 2, 0, ts, false⟩
        let s0 := s.setFld (F.SUMP_LIB_CURSOR_CURSOR l) cur
        let s1 := (((s0.setEntryState b c esINVALID).dropRepair b c).writeEntry b it).setLib l
          { s0.lib l with pend := match (s0.lib l).pend with
            | some (p, t, is) => some (p, t, is ++ [it])
            | none => some (cur / 1024, s.now, [it]) }
        let s2 := s1.setFld (F.SUMP_LIB_CURSOR_CURSOR l) (cur + 1)
        let full := match (s2.lib l).pend with | some (_, _, is) => 64 ≤ is.length | none => false
        if cur + 1 = n then (s2.wrapCursor l, .filed cur)
        else if full || (cur + 1) / 1024 ≠ cur / 1024 then (s2.sendPending l, .filed cur)
        else (s2, .filed cur)

/-- SUMP_APPEND_WAIT in ms: 0 acts as 1, values above 60,000 as 60,000. -/
def State.appendWait (s : State) : Nat := min 60000 (max 1 (s.fld F.SUMP_APPEND_WAIT_MS))

/-- APPEND_WAIT_EXPIRY (R322): the wait has passed since the pending batch's first entry, and the batch is sent. -/
def execAppendWaitExpiry (lib : Lib) (s : State) : Out :=
  match (s.lib lib.toNat).pend with
  | none => .next s
  | some (_, t, _) => if t + 100000 * s.appendWait ≤ s.now then .next (s.sendPending lib.toNat) else .next s

end Sys2Proof.Machine
end

