-- ==== Sys2Proof/Machine/Verify.lean ====
section
/-! DEFINITION.  Verification and the result record (R311 to R314, R319 to R326), filing (R322, R359), and the merge of a forwarded
request (R355 to R358). -/

namespace Sys2Proof.Machine

/-! ### Verification (R311 to R314) -/

/-- A candidate with what its bench fixed at admission. -/
structure Checked where
  rank : Rank
  entry : Entry
  dist : Option Nat
  deriving DecidableEq, Repr

/-- The exact distance over C of a candidate, by its key at admission; none when its mirror cannot be read. -/
def State.check (s : State) (r : Request) (bad : List (Nat × Nat)) (x : Rank) : Checked :=
  let rec_ := (r.benches.find? (fun b => b.bench == x.bench && b.lib == x.lib)).bind (fun b => b.entries.find? (fun e => e.1 == x.col))
  match rec_ with
  | none => ⟨x, {}, none⟩
  | some (_, e, key) =>
    ⟨x, e, match key with
      | some k => if bad.contains (x.lib, x.entry) then none else some (popKey ((r.key ^^^ k) &&& presentMask s.dim r.present))
      | none => none⟩

def State.candOf (s : State) (c : Checked) : Option Cand :=
  c.dist.map (fun h => { lib := c.rank.lib, entry := c.rank.entry, dist := h, prio := c.entry.prio, cls := c.entry.cls,
                         rank := (h : Int) - (s.pstep c.rank.lib * c.entry.prio : Nat) })

/-- Was a bench evaluated over all its tiles, with none withheld and no sliver missing? -/
def State.wholeBench (s : State) (r : Request) (b : BenchEval) : Bool :=
  b.counted == 2 ^ s.tilesPer - 1 && !b.withheld && presentDims s.dim r.present == s.dim

/-- TOP1_EXACT (R313). -/
def State.top1 (s : State) (r : Request) (cands : List Rank) (best : Option Cand) (eq : Nat) : Bool :=
  let live := r.benches.filter (fun b => !b.miss)
  match best with
  | none => false
  | some b =>
    !live.isEmpty && live.all (s.wholeBench r) &&
      (r.validEntries ≤ r.k || (match cands.getLast? with | some x => decide (16 * b.rank < x.rank - 16 * eq) | none => false))

/-- An uncorrectable mirror read (R311): the entry is quarantined and its repair starts. -/
def State.mirrorError (s : State) (x : Rank) : State :=
  let s1 := (s.bump F.SUMP_MIRROR_ERRS_COUNT 1).alarm F.SUMP_ALARM_MIRROR_ERR (x.bench * 1024 + x.col)
  if (s1.entry x.bench x.col).state = esVALID then (s1.quarantine x.bench x.col).startRepair x.bench x.col none else s1

/-- A candidate beyond E_q (R314): every tile of its bench is due a full calibration. -/
def State.boundExceeded (s : State) (x : Rank) : State :=
  let k := s.benchDie x.bench
  let d := s.die k
  let tiles := (List.range s.tilesPer).map (fun r => s.benchLocal x.bench * s.tilesPer + r)
  ((s.setDie k { d with calDue := d.calDue ++ tiles.filter (fun t => !d.calDue.contains t) }).bump F.SUMP_BOUND_EXCEED_COUNT 1).alarm
    F.SUMP_ALARM_BOUND_EXCEEDED x.bench

/-- Verify a request's own candidates: the state, and what this device contributes to the record. -/
def State.verifyOwn (s : State) (r : Request) (bad : List (Nat × Nat)) : State × Answer :=
  let all := s.ranks r
  let top := all.take r.k
  let chk := top.map (s.check r bad)
  let cands := sortCands (chk.filterMap s.candOf)
  let lost := (chk.filter (fun c => c.dist.isNone)).map (fun c => c.rank)
  let quar := lost.any (fun x => (s.entry x.bench x.col).state == esVALID)
  let eq := errBound s.dim r.countedTiles r.key
  let beyond := (chk.filter (fun c => (match c.dist with
    | some h => decide (16 * eq < (c.rank.h16 - 16 * h).natAbs)
    | none => false) && r.benches.any (fun b => b.bench == c.rank.bench && !b.miss && s.wholeBench r b))).map (fun c => c.rank)
  let live := r.benches.filter (fun b => !b.miss)
  let miss := r.benches.countP (fun b => b.miss)
  let refined := live.any (fun b => b.refined)
  let prefixOnly := r.q != 7 && live.any (fun b => !b.refined)
  let falseHit := match top.head?, cands.head? with
    | some x, some c => decide (x.lib ≠ c.lib ∨ x.entry ≠ c.entry)
    | _, _ => false
  let nobench := ((List.range 16).filter (fun l => hasBit r.mask l && !live.any (fun b => b.lib == l))).foldl (fun a l => a ||| 2 ^ l) 0
  let flags := r.flags ||| flagIf (0 < miss) rfPARTIAL ||| flagIf (live.any (fun b => b.withheld)) rfTILE_WITHHELD |||
    flagIf (all.any (fun x => x.est)) rfESTIMATED ||| flagIf (!lost.isEmpty) rfMIRROR_ERR ||| flagIf quar rfQUARANTINE |||
    flagIf (!beyond.isEmpty) rfBOUND_EXCEEDED ||| flagIf r.throttled rfTHROTTLED ||| flagIf (s.top1 r top cands.head? eq) rfTOP1_EXACT |||
    flagIf r.forced rfFORCED ||| flagIf r.edge rfBAND_EDGE ||| flagIf refined rfREFINED ||| flagIf prefixOnly rfPREFIX_ONLY ||| approxQ r.q
  let s1 := beyond.foldl (fun (a : State) x => a.boundExceeded x) (lost.foldl (fun (a : State) x => a.mirrorError x) s)
  let s2 := (s1.bump64 R.SUMP_VERIFIES_LO cands.length).bump F.SUMP_FALSE_HITS_COUNT (if falseHit then 1 else 0)
  let s3 := ((s2.bump F.SUMP_Q_PREFIX_COUNT (if prefixOnly then 1 else 0)).bump F.SUMP_Q_REFINE_COUNT (if refined then 1 else 0)).bump
    F.SUMP_Q_FORCED_COUNT (if r.forced then 1 else 0)
  (s3.bump F.SUMP_Q_EDGE_COUNT (if r.edge then 1 else 0),
    { from_ := s.position, errBound := min eq 65535, benchMiss := min miss 65535, nobench := nobench, flags := flags, cands := cands })

/-! ### The merge (Table CASC-2) -/

/-- Bits that do not merge by OR: TOP1_EXACT and APPROX.Q. -/
def ownBits : Nat := 2 ^ 8 + 7 * 2 ^ 21

/-- The merged answer: its RESPONDERS and whether it is PARTIAL. -/
def State.merge (s : State) (r : Request) (own : Answer) : Answer × Nat × Bool :=
  let l := own :: r.answers
  let resp := l.foldl (fun m a => m ||| 2 ^ a.from_) 0
  let whole := r.deadline == 0 || resp == 2 ^ s.chainSize - 1
  let top := whole && l.all (fun a => a.flags.testBit rfTOP1_EXACT)
  let flags := l.foldl (fun m a => m ||| (a.flags - (a.flags &&& ownBits))) 0 ||| flagIf top rfTOP1_EXACT ||| approxQ r.q
  let part := r.partial_ || (s.spanOf r.mask).any (fun b => (s.sharers b).any (fun m => !hasBit resp m))
  ({ from_ := own.from_, errBound := l.foldl (fun m a => max m a.errBound) 0, benchMiss := min 65535 (l.map (fun a => a.benchMiss)).sum,
     nobench := l.foldl (fun m a => m &&& a.nobench) 65535, flags := flags, cands := sortCands (l.flatMap (fun a => a.cands)) }, resp, part)

/-- A request's record from the merged answer (Table SUMP-8). -/
def State.recordOf (s : State) (r : Request) (a : Answer) (resp : Nat) (part : Bool) : Result :=
  let w : Result := {
    kind := r.kind.code, status := if part then 2 else 0, stream := r.stream, start := r.start, responders := resp,
    candidates := min 63 a.cands.length, errBound := a.errBound, dims := presentDims s.dim r.present, benchMiss := a.benchMiss,
    nobench := a.nobench, aditFlags := if r.kind = .window then r.aditFlags else 0, flags := a.flags }
  let w1 := match a.cands with
    | [] => w
    | b :: _ => { w with bestLib := b.lib, bestEntry := b.entry, bestDist := b.dist, bestPrio := b.prio, bestClass := b.cls }
  match a.cands with
  | _ :: c :: _ => { w1 with secondLib := c.lib, secondEntry := c.entry, secondDist := c.dist }
  | _ => w1

/-- The record of a request none of whose libraries was searched (R304, R310). -/
def State.noBenchRecord (r : Request) (resp : Nat) : Result :=
  { kind := r.kind.code, status := 1, reason := skNO_BENCH, stream := r.stream, start := r.start, responders := resp,
    aditFlags := if r.kind = .window then r.aditFlags else 0 }

/-! ### Novelty and recall (R319, R320) -/

/-- The least verified distance of a library. -/
def bestIn (cands : List Cand) (l : Nat) : Option Nat :=
  (cands.filter (fun c => c.lib == l)).foldl (fun (m : Option Nat) c => match m with | none => some c.dist | some x => some (min x c.dist)) none

/-- Does a library's answer exceed its NOVEL_DIST, or has it no VALID entry (`empty`)? 0xFFFF makes it never novel. -/
def State.libNovel (s : State) (cands : List Cand) (l : Nat) (empty : Bool) : Bool :=
  let nd := s.fld (F.SUMP_LIB_NOVEL_NOVEL_DIST l)
  nd != 0xFFFF && (empty || (match bestIn cands l with | some h => nd < h | none => false))

/-- CLASS libraries of the mask that were searched. -/
def State.classSearched (s : State) (r : Request) (a : Answer) : List Nat :=
  (List.range 16).filter (fun l => hasBit r.mask l && s.libKind l == 0 && !hasBit a.nobench l)

def State.isNovel (s : State) (r : Request) (a : Answer) : Bool :=
  let ls := s.classSearched r a
  !ls.isEmpty && ls.all (fun l => s.libNovel a.cands l (hasBit r.emptyLibs l))

/-- Capacity of the RECALL queue (Table SUMP-5). -/
def recallCap : Nat := 64

/-- Write a window's record; a novel window queues its recall, or drops it (R319, Table SUMP-5), and Chisel takes the record (R388). -/
def State.endWindowQuery (s : State) (r : Request) (a : Answer) (w : Result) : State :=
  let n := r.stream
  let s0 := s.endRequest r.tag
  if !s.isNovel r a then
    let s1 := s0.windowRecord w
    if s1.host.runs.any (fun u => u.stream == n) then s1 else s1.learnRecord w r.key r.present r.mask
  else
    let mask := (s.classSearched r a).foldl (fun m l => m ||| s.fld (F.SUMP_LIB_NOVEL_RECALL_MASK l)) 0
    let ring := s.streamRing n
    let want := s.bit F.SUMP_CFG_RECALL_EN && mask != 0
    let drop := want && (recallCap ≤ s.sump.recallQ.length || s.backlogFull ring)
    let w1 := { w with flags := w.flags ||| 2 ^ rfNOVEL ||| flagIf (want && !drop) rfRECALL_QUEUED ||| flagIf drop rfRECALL_DROPPED }
    let s1 := if drop then (s0.bump F.SUMP_RECALL_DROPS_COUNT 1).alarm F.SUMP_ALARM_RECALL_DROP n else s0
    let s2 := s1.windowRecord w1
    if s2.host.runs.any (fun u => u.stream == n) then s2
    else
      let q : Request := { kind := .rcall, stream := n, start := r.start, key := r.key, present := r.present, mask := mask, k := r.k, q := r.q,
                           append := true, ring := ring, startTs := r.startTs }
      let s3 : State := if want && !drop then { s2 with sump := { s2.sump with recallQ := s2.sump.recallQ ++ [q] } } else s2
      s3.learnRecord w1 r.key r.present r.mask

/-! ### Filing (R322, R357, R359) -/

/-- The known token holder of a library. -/
def State.tokenHolder (s : State) (l : Nat) : Nat := aget s.tunnel.holder l

/-- Send an APPEND to the holder (R359); with the holder lost the filing is counted as not acknowledged. -/
def State.sendAppend (s : State) (r : Request) (l : Nat) : State × Bool :=
  let h := s.tokenHolder l
  if h = s.position || !s.responding.contains h then (s.bump F.TUNNEL_APPEND_LOST_COUNT 1, false)
  else
    let q := s.sump.nextTag
    let s1 := s.sendTo (s.mkFrame ftAPPEND h (reqField s.position q) l r.startTs (s.queryPayload r.key r.present))
    ({ s1 with
      sump := { s1.sump with nextTag := (q + 1) % 2 ^ 29 }
      tunnel := { s1.tunnel with appends := s1.tunnel.appends ++ [⟨r.tag, q, l, s.now⟩] } }, true)

/-- Note a filing in the record: the lowest-numbered library stands (R322). -/
def Result.filedAs (w : Result) (l e : Nat) : Result := if l < w.archLib then { w with archLib := l, archEntry := e } else w

/-- File a query in the appending libraries given; `none` when one must wait for an entry's update. The answer holds the libraries
whose acknowledgement is awaited. -/
def State.fileAll (r : Request) : List Nat → State × Result × List Nat → Option (State × Result × List Nat)
  | [], a => some a
  | l :: t, (s, w, acks) =>
    if s.tokenLib l && !s.holdsToken l then
      let x := s.sendAppend r l
      State.fileAll r t (x.1, w, if x.2 then acks ++ [l] else acks)
    else
      match s.fileAppend l r.key r.startTs with
      | (_, .waits) => none
      | (s1, .filed e) => State.fileAll r t (s1, w.filedAs l (s1.reportEntry l e), acks)
      | (s1, .refused) => State.fileAll r t (s1, w, acks)
      | (s1, .passed) =>
        let x := s1.sendAppend r l
        State.fileAll r t (x.1, w, if x.2 then acks ++ [l] else acks)

/-- Appending libraries in which a request is novel (R322). -/
def State.appendTo (s : State) (r : Request) (a : Answer) : List Nat :=
  (List.range 16).filter (fun l => hasBit r.mask l && s.libKind l == 1 && s.bit (F.SUMP_LIB_CFG_APPEND l) &&
    s.libNovel a.cands l (!(r.benches.any (fun b => b.lib == l && !b.miss && !b.entries.isEmpty)) && !(a.cands.any (fun c => c.lib == l))))

/-- Write a recall's or a host query's record and end the request (R320, R434). -/
def State.putAnswer (s : State) (r : Request) (w : Result) : State :=
  let s1 := s.endRequest r.tag
  match r.kind with
  | .host ring idx => s1.sendRecord r.ring (.result w (some (ring, idx)))
  | _ => s1.sendRecord r.ring (.result w none)

/-- A recall or host query ends: it files its query where it is novel, and its record is written, at once or with the
acknowledgement of another member. -/
def State.endRecall (s : State) (r : Request) (a : Answer) (w : Result) (part : Bool) : State :=
  let ls := if r.append then s.appendTo r a else []
  let w1 := if r.kind = .rcall ∧ !ls.isEmpty then { w with flags := w.flags ||| 2 ^ rfNOVEL } else w
  if part then s.putAnswer r w1
  else match State.fileAll r ls (s, w1, []) with
  | none => s
  | some (s1, w2, []) => s1.putAnswer r w2
  | some (s1, w2, acks) => s1.setReq { r with record := some w2, acks := acks }

/-- Does the record of a recall wait for its triggering window's (R320)? -/
def State.triggerWaits (s : State) (r : Request) : Bool :=
  decide (r.kind = .rcall) && s.sump.outOfTurn.any (fun w => w.stream == r.stream && w.start == r.start)

/-- End a request whose own answer and every expected answer are in (R356 to R358). -/
def State.finish (s : State) (r : Request) (own : Answer) : State :=
  let m := s.merge r own
  let a := m.1
  let s0 := if m.2.2 then s.bump F.TUNNEL_PARTIAL_COUNT 1 else s
  if decide (a.nobench &&& r.mask = r.mask) && a.cands.isEmpty then
    if r.kind = .window then (s0.endRequest r.tag).windowRecord (State.noBenchRecord r m.2.1) else s0.putAnswer r (State.noBenchRecord r m.2.1)
  else
    let w := s.recordOf r a m.2.1 m.2.2
    if r.kind = .window then s0.endWindowQuery r a w
    else s0.endRecall r a w m.2.2

/-! ### Served requests (R355) -/

/-- Are served requests still to be answered? -/
def State.serving (s : State) : Bool := (s.sump.active ++ s.sump.recallQ).any (fun r => r.kind.isServed)

/-- The device is out of the chain (Table CASC-5, OFF): the heartbeat stops and the mirror reserve is released. -/
def State.chainOff (s : State) : State :=
  let s1 : State := { s with tunnel := { s.tunnel with joined := false, reserved := [], ports := [], hellos := [], helloAt := none, lost := [],
                                                       matchOut := false, syncLow := false, barriers := [] } }
  (((s1.setReg R.TUNNEL_STATUS 0).setFld F.TUNNEL_MIRROR_RESERVED 0).setFld (F.TUNNEL_PORT_STATUS_UP 0) 0).setFld (F.TUNNEL_PORT_STATUS_UP 1) 0

/-- LEAVING ends once the last served request has been answered. -/
def State.settleLeave (s : State) : State :=
  if s.tunnelState = tsLEAVING ∧ !s.serving then s.chainOff else s

/-- Send a served request's answer to its origin, when a path exists (R371). -/
def State.sendAnswer (s : State) (r : Request) (origin req : Nat) (a : Answer) : State :=
  let f := s.mkFrame ftANSWER origin req (answerArg a 0) a.flags (a.cands.flatMap Cand.bytes)
  ((s.endRequest r.tag).sendTo f).settleLeave

/-- Act on a ready request: verify its own candidates once, then answer its origin, or end it when every answer is in. -/
def State.verifyStep (s : State) (r : Request) (bad : List (Nat × Nat)) : State :=
  let p := match r.own with | some a => (s, a) | none => s.verifyOwn r bad
  let r1 := { r with own := some p.2 }
  let s1 := p.1.setReq r1
  match r.kind with
  | .served origin req => s1.sendAnswer r1 origin req p.2
  | _ => if !r1.expect.isEmpty || r1.record.isSome || s1.triggerWaits r1 then s1 else s1.finish r1 p.2

/-- VERIFY (R311): `bad` names the candidates whose mirrors meet an uncorrectable error. -/
def execVerify (tag : Word) (bad : List (Lib × BitVec 24)) (s : State) : Out :=
  match s.req tag.toNat with
  | none => .next s
  | some r => if r.ready && s.sumpReady then .next (s.verifyStep r (bad.map (fun e => (e.1.toNat, e.2.toNat)))) else .next s

end Sys2Proof.Machine
end

