-- ==== Sys2Proof/Machine/Host.lean ====
section
/-! DEFINITION.  The commands of the host rings (13_host_rings). -/

namespace Sys2Proof.Machine

/-! ### Ring states (R429 to R432) -/

/-- Change a ring's state and write its status line. -/
def State.setRingState (s : State) (r st : Nat) : State :=
  let s1 := s.setFld (F.HOST_RING_STATUS_STATE r) st
  if s1.linkUp then s1.statusLine r else s1

/-- A failed access to the ring's own slots, doorbell line or status line (R432): an ACTIVE ring, or one in INIT, goes to ERROR. -/
def State.ringError (s : State) (r : Nat) : State :=
  if s.ringState r = ringACTIVE || s.ringState r = ringINIT then (s.setFld (F.HOST_RING_STATUS_STATE r) ringERROR).alarm F.HOST_ALARM_RING_ERROR r
  else s

/-- Descriptors taken at once, at most (Table HOST-3). -/
def takeCap (type : Nat) : Nat := if type = 3 then 16 else 64

/-- Is a descriptor's OP listed for its ring type (R424)? -/
def opListed (type op : Nat) : Bool :=
  match type with
  | 0 => decide (1 ≤ op ∧ op ≤ 3)
  | 1 => decide (1 ≤ op ∧ op ≤ 2)
  | 2 => decide (1 ≤ op ∧ op ≤ 14)
  | _ => decide (op = 1)

/-- Is the index marked as cancelled (R428)? -/
def marked (marks : List (Nat × Nat)) (i : Nat) : Bool := marks.any (fun m => idxSub i m.1 < m.2)

/-- Clear the mark of one index. -/
def unmark (marks : List (Nat × Nat)) (i : Nat) : List (Nat × Nat) :=
  match marks with
  | [] => []
  | m :: t =>
    let d := idxSub i m.1
    if d < m.2 then ([(m.1, d), (idxAdd i 1, m.2 - d - 1)].filter (fun x => 0 < x.2)) ++ t else m :: unmark t i

/-- May the part take a descriptor of the ring now? In Idle only query rings are read (R481), a query ring is not read while
RECALL or its record's backlog is full (Table SUMP-5, R438), and a fatal fault stops all taking (R499). -/
def State.mayTake (s : State) (r : Nat) : Bool :=
  let q := s.ring r
  let t := s.ringType r
  decide (s.ringState r = ringACTIVE) && !s.fatal && decide (s.powerLevel = 0 ∨ (s.powerLevel = 1 ∧ t = 1)) &&
    decide (q.taken.length < takeCap t) &&
    (t != 1 || (decide (s.sump.recallQ.length + (q.taken.length - q.begun.length) < recallCap) &&
      !s.backlogFull (s.fld (F.HOST_RING_CFG_RESULT_RING r))))

/-- Take descriptors in index order, up to HOST_INDEX (R422). -/
def State.takeDescs (s : State) (r : Nat) : List (Option Slot) → State
  | [] => s
  | d :: t =>
    let q := s.ring r
    let i := q.next
    if i = s.hostIndex r || !s.mayTake r then s
    else
      let q1 := { q with next := idxAdd i 1 }
      if marked q.marks i then
        ((s.setRing r { q1 with marks := unmark q.marks i }).complete r i stCANCELLED 0 0 0).takeDescs r t
      else match d with
      | none => s.ringError r
      | some w =>
        let s1 := s.setRing r { q1 with taken := q.taken ++ [(i, w)] }
        (if opListed (s.ringType r) (slotField w 0 1) then s1 else s1.complete r i stBAD_DESC 0 0 0).takeDescs r t

/-- Read a ring's doorbell line, and take what it releases (R419, R422, R425). -/
def State.readDoorbell (s : State) (line : Doorbell) : State :=
  let r := line.ring.toNat
  match line.host with
  | none => s.ringError r
  | some h =>
    let s1 := s.setFld (F.HOST_RING_HOST_INDEX r) h.toNat
    if isSubmission (s.ringType r) then s1.takeDescs r line.descs else s1

/-- In Sleep and Deep sleep no doorbell line is read, and an access to the kick page is counted (R481). -/
def State.asleep (s : State) : Bool := decide (s.powerLevel = 2 ∨ s.powerLevel = 3)

/-- KICK (R420). -/
def execKick (line : Doorbell) (s : State) : Out :=
  if !s.alive || !s.linkUp then .next s
  else if s.asleep then .next (s.bump F.POWER_ASLEEP_ACCESS_COUNT 1)
  else .next (s.readDoorbell line)

/-- Polling interval in timestamp units: HOST_POLL.US in Run, at least 1,000 µs in Idle (R419, R481). -/
def State.pollEvery (s : State) : Nat :=
  let us := s.fld F.HOST_POLL_US
  100 * (if s.powerLevel = 1 then max us 1000 else us)

/-- DOORBELL_POLL (R419): the lines of the rings in ACTIVE or STOPPING are read. -/
def execDoorbellPoll (lines : List Doorbell) (s : State) : Out :=
  if !s.alive || !s.linkUp || s.asleep || s.fld F.HOST_POLL_US = 0 || s.now < s.host.polledAt + s.pollEvery then .next s
  else
    let s1 : State := { s with host := { s.host with polledAt := s.now } }
    .next (lines.foldl (fun (a : State) d =>
      let st := a.ringState d.ring.toNat
      if st = ringACTIVE || st = ringSTOPPING then a.readDoorbell d else a) s1)

/-- Count an access under R15, R420 or R428. -/
def State.accessError (s : State) : State := (s.bump F.HOST_ACCESS_ERR_COUNT 1).alarm F.HOST_ALARM_ACCESS_ERR 0

/-- CANCEL (R420, R428): indices already taken are counted, the others marked. -/
def execCancel (ring : Ring) (value : Word64) (s : State) : Out :=
  let r := ring.toNat
  let c := value.toNat % 2 ^ 32
  let n0 := value.toNat / 2 ^ 32 % 65536
  let n := if n0 = 0 then 65536 else n0
  if !s.alive || !s.linkUp then .next s
  else if s.asleep then .next (s.bump F.POWER_ASLEEP_ACCESS_COUNT 1)
  else if value.toNat / 2 ^ 48 ≠ 0 || !isSubmission (s.ringType r) || s.ringState r ≠ ringACTIVE then .next s.accessError
  else
    let q := s.ring r
    let d := idxSub q.next c
    let late := if 0 < d && d ≤ 2 ^ 31 then min d n else 0
    let s1 := s.bump (F.HOST_RING_LATECANCEL_COUNT r) late
    .next (if n = late then s1 else s1.setRing r { q with marks := q.marks ++ [(idxAdd c late, n - late)] })

/-- Is the ring's configuration one that ENABLE accepts (Table HOST-9)? -/
def State.ringValid (s : State) (r : Nat) : Bool :=
  s.ringType r != 7 && decide (s.fld (F.HOST_RING_CFG_SIZE r) ≤ 10) && s.get64 (R.HOST_RING_BASE_LO r) % 4096 == 0 &&
    s.get64 R.HOST_DB_LO / 4096 != 0 && s.get64 R.HOST_SP_LO / 4096 != 0

/-- ENABLE of a DISABLED ring (Table HOST-9); `host` is HOST_INDEX as its doorbell line now reads. -/
def State.enableRing (s : State) (r : Nat) (host : Option Nat) : State :=
  if !s.ringValid r then s.alarm F.HOST_ALARM_CMD_REFUSED r
  else
    let q := s.ring r
    let s0 := s.bump (F.HOST_RING_FLUSHED_COUNT r) (q.taken.length - q.begun.length)
    let sub := isSubmission (s.ringType r)
    let h := if sub then host.getD 0 else 0
    let s1 := s0.setRing r { q with taken := [], begun := [], orphans := q.orphans ++ q.begun, doneIdx := [], next := h, marks := [], irqCount := 0, irqAt := 0 }
    let s2 := ((s1.setBit (F.HOST_RING_CFG_EN r) true).setFld (F.HOST_RING_DEV_INDEX r) h).setFld (F.HOST_RING_HOST_INDEX r) h
    let s3 := s2.setRingState r ringINIT
    if !sub then s3
    else if host.isNone then s3.ringError r
    else s3.setRingState r ringACTIVE

/-- RING_ENABLE (R429): the write's other fields are stored first; in any other state the command is refused. -/
def execRingEnable (ring : Ring) (cfg : Word) (host : Option Word) (s : State) : Out := gate 1 s (
  let r := ring.toNat
  if s.ringState r ≠ ringDISABLED then .next (s.alarm F.HOST_ALARM_CMD_REFUSED r)
  else .next ((s.setReg (R.HOST_RING_CFG r) (cfg &&& 0x7FFFBF00#32)).enableRing r (host.map (fun h => h.toNat))))

/-- RING_ZERO_FILL_DONE (R425): every slot reads as zero and the ring is ACTIVE; a failed write sends it to ERROR. -/
def execRingZeroFillDone (ring : Ring) (ok : Bool) (s : State) : Out :=
  let r := ring.toNat
  if s.ringState r ≠ ringINIT || isSubmission (s.ringType r) then .next s
  else if !ok then .next (s.ringError r)
  else .next ((s.hostWrite (s.get64 (R.HOST_RING_BASE_LO r)) (List.replicate (64 * s.ringSize r) 0)).setRingState r ringACTIVE)

/-- Blocks of a replay read that an export ring has already taken (32 bytes each, Table HOST-14). -/
def ExportReq.sent (q : ExportReq) : Nat := q.result - q.bytes.length / 32

/-- End a request's output because its own ring or its export ring is disabled (Table HOST-10): a replay read and an EXPORT end
FLUSHED, other work ends normally. The RESULT of a flushed EXPORT is not stated: a free value. -/
def State.cutExport (s : State) (q : ExportReq) : State :=
  if s.ringType q.ring = 0 then s.complete q.ring q.idx stFLUSHED q.cflags q.aux q.sent
  else if q.learn then
    let d := s.draw
    d.2.endExport q stFLUSHED (Config.freeNat d.1 % 2 ^ 32)
  else s.endExport q q.status q.result

/-- Remove the waiting output that `sel` names from every export ring, and end its requests. -/
def State.cutExports (s : State) (sel : Nat → ExportReq → Bool) : State :=
  (List.range 64).foldl (fun (a : State) g =>
    let q := a.ring g
    let hit := q.exports.filter (sel g)
    if hit.isEmpty then a
    else hit.foldl (fun (b : State) x => b.cutExport x) (a.setRing g { q with exports := q.exports.filter (fun x => !sel g x) })) s

/-- Taken work ends as Table HOST-10 states when its ring is disabled. -/
def State.endTaken (s : State) (r : Nat) : State :=
  let q := s.ring r
  let idle := q.taken.filter (fun e => !q.begun.contains e.1)
  match s.ringType r with
  | 0 =>
    let s1 := s.cutExports (fun _ x => x.ring == r)
    (idle.filter (fun e => slotField e.2 0 1 == 3)).foldl (fun (a : State) e => a.complete r e.1 stFLUSHED 0 0 0) s1
  | 2 =>
    let s1 := s.cutExports (fun _ x => x.ring == r && x.learn)
    (idle.filter (fun e => slotField e.2 0 1 == 12 || slotField e.2 0 1 == 13)).foldl (fun (a : State) e => a.complete r e.1 stFLUSHED 0 0 0) s1
  | 3 =>
    let s1 := s.cutExports (fun g _ => g == r)
    idle.foldl (fun (a : State) e => a.complete r e.1 stFLUSHED cfLAST 0 0) s1
  | _ => s

/-- Ready descriptors not yet taken complete FLUSHED (R430). -/
def State.flushReady (s : State) (r : Nat) : Nat → State
  | 0 => s
  | fuel + 1 =>
    let q := s.ring r
    if q.next = s.hostIndex r then s
    else ((s.setRing r { q with next := idxAdd q.next 1 }).complete r q.next stFLUSHED 0 0 0).flushReady r fuel

/-- DISABLE of an ACTIVE or ERROR ring (R430). -/
def State.disableRing (s : State) (r : Nat) : State :=
  let s1 := (s.setBit (F.HOST_RING_CFG_EN r) false).setRingState r ringSTOPPING
  if isSubmission (s.ringType r) then (s1.flushReady r (idxSub (s1.hostIndex r) (s1.ring r).next)).endTaken r else s1

/-- RING_DISABLE (R429, R430). -/
def execRingDisable (ring : Ring) (s : State) : Out := gate 1 s (
  let r := ring.toNat
  if s.ringState r = ringACTIVE || s.ringState r = ringERROR then .next (s.disableRing r)
  else .next (s.alarm F.HOST_ALARM_CMD_REFUSED r))

/-- RING_STOPPED (R429): every taken descriptor has completed. -/
def execRingStopped (ring : Ring) (s : State) : Out :=
  let r := ring.toNat
  let q := s.ring r
  if s.ringState r ≠ ringSTOPPING || !q.taken.isEmpty then .next s
  else .next ((s.setRing r { q with marks := [] }).setRingState r ringDISABLED)

/-! ### Query descriptors (R434) -/

/-- Reserved bytes of a query descriptor (Table HOST-7). -/
def queryReserved (d : Slot) : Bool :=
  slotField d 1 3 != 0 || slotField d 23 1 != 0 || slotField d 32 24 != 0 || slotField d 8 8 % 64 != 0 || 32 ≤ slotField d 19 1

/-- Queue a request in RECALL. -/
def State.queueRecall (s : State) (r i : Nat) (q : Request) : State :=
  ({ s with sump := { s.sump with recallQ := s.sump.recallQ ++ [q] } } : State).beginDesc r i

/-- SEARCH (R434): the key is read, and the host query waits in RECALL. -/
def execSearch (ring : Ring) (idx : Word) (buf : List Byte) (dmaOk : Bool) (s : State) : Out :=
  let r := ring.toNat
  let i := idx.toNat
  match s.takenDesc r i 1 with
  | none => .next s
  | some d =>
    let sel := slotField d 19 1
    if s.fatal || slotField d 0 1 ≠ 1 then .next s
    else if queryReserved d || 32 < slotField d 18 1 then .next (s.complete r i stBAD_DESC 0 0 0)
    else if !s.sumpReady then .next (s.complete r i stNOT_READY 0 0 0)
    else if !dmaOk then .next (s.dmaError.complete r i stDMA_ERR 0 0 0)
    else if recallCap ≤ s.sump.recallQ.length then .next s
    else
      let start := slotField d 24 8
      .next (s.queueRecall r i {
        kind := .host r i, stream := slotField d 4 2, start := start, startTs := s.tickStart start,
        key := BitVec.ofNat 32768 (sliceLE buf 0 (s.dim / 8)), present := 2 ^ (s.dim / 256) - 1,
        mask := slotField d 16 2, k := slotField d 18 1, q := sel % 16, append := hasBit sel 4,
        ring := s.fld (F.HOST_RING_CFG_RESULT_RING r), hostTag := slotField d 4 4 })

/-- The input vector of a matrix query by row (Table HOST-7): BIT a bit a row, U4 a nibble, I8 a signed byte. -/
def matrixInput (kind rows : Nat) (buf : List Byte) : List Int :=
  (List.range 1024).map (fun j =>
    if rows ≤ j then 0
    else match kind with
    | 0 => ((sliceLE buf (j / 8) 1 / 2 ^ (j % 8) % 2 : Nat) : Int)
    | 1 => ((sliceLE buf (j / 2) 1 / 16 ^ (j % 2) % 16 : Nat) : Int)
    | _ => (BitVec.ofNat 8 (sliceLE buf j 1)).toInt)

/-- MATRIX (R318, R341, R434): the input is read, and the host matrix query waits in RECALL. -/
def execMatrix (ring : Ring) (idx : Word) (buf : List Byte) (dmaOk : Bool) (s : State) : Out :=
  let r := ring.toNat
  let i := idx.toNat
  match s.takenDesc r i 1 with
  | none => .next s
  | some d =>
    let sel := slotField d 19 1
    let m := slotField d 20 1
    let e := slotField d 22 1
    if s.fatal || slotField d 0 1 ≠ 2 then .next s
    else if queryReserved d || 2 < slotField d 21 1 || !s.isExportRing e then .next (s.complete r i stBAD_DESC 0 0 0)
    else if !s.sumpReady then .next (s.complete r i stNOT_READY 0 0 0)
    else if !s.bit (F.SUMP_MTX_VALID m) then .next (s.complete r i stREFUSED 0 0 0)
    else if !dmaOk then .next (s.dmaError.complete r i stDMA_ERR 0 0 0)
    else if recallCap ≤ s.sump.recallQ.length then .next s
    else
      .next (s.queueRecall r i {
        kind := .matrix r i, stream := slotField d 4 2, start := slotField d 24 8, q := sel % 16, matrix := m, inkind := slotField d 21 1,
        rows := matrixInput (slotField d 21 1) (s.fld (F.SUMP_MTX_SHAPE_ROWS m)) buf, export_ := e,
        ring := s.fld (F.HOST_RING_CFG_RESULT_RING r), hostTag := slotField d 4 4 })

/-! ### Export buffers (R436) -/

/-- EXPORT_BUFFER (R436): the oldest waiting buffer takes the output of the oldest request of its ring. A buffer that cannot be
written completes DMA_ERR, and so does the request (R432). -/
def execExportBuffer (ring : Ring) (idx : Word) (dmaOk : Bool) (s : State) : Out :=
  let r := ring.toNat
  let i := idx.toNat
  match s.takenDesc r i 3 with
  | none => .next s
  | some d =>
    let addr := slotField d 8 8
    let len := slotField d 16 4
    if s.fatal || ((s.ring r).taken.head?.map Prod.fst) != some i then .next s
    else if slotField d 1 3 ≠ 0 || addr % 64 ≠ 0 || len % 64 ≠ 0 || len < 4096 || 16777216 < len || slotField d 20 36 ≠ 0 then
      .next (s.complete r i stBAD_DESC 0 0 0)
    else match (s.ring r).exports with
    | [] => .next s
    | q :: rest =>
      let g := s.ring r
      if !dmaOk then
        .next (((s.setRing r { g with exports := rest }).dmaError.complete r i stDMA_ERR 0 0 0).endExport { q with record := none } stDMA_ERR 0)
      else
        let out := q.bytes.take len
        let left := q.bytes.drop len
        let last := left.isEmpty && q.closed
        let cf := (if q.first then cfFIRST else 0) + (if last then cfLAST else 0) + (if q.uninit then cfUNINIT else 0)
        let s1 := s.setRing r { g with exports := if last then rest else { q with bytes := left, first := false } :: rest }
        let s2 := (s1.hostWrite addr out).hostWrite (s.slotAddr r i + 48) (bytesLE 4 q.tag ++ bytesLE 1 q.ring ++ bytesLE 3 0)
        let s3 := s2.complete r i stOK cf 0 out.length
        .next (if last then s3.endExport q q.status q.result else s3)

/-! ### Messages and backlogs -/

/-- IRQ_TIMER (R427). -/
def execIrqTimer (ring : Ring) (s : State) : Out :=
  let r := ring.toNat
  let q := s.ring r
  let us := s.fld (F.HOST_RING_IRQ_TIME_US r)
  if us = 0 || s.fld (F.HOST_RING_IRQ_COUNT r) = 0 || q.irqCount = 0 || s.now < q.irqAt + 100 * us then .next s
  else .next ((s.setRing r { q with irqCount := 0 }).sendMsi (s.fld (F.HOST_RING_CFG_VECTOR r)))

/-- Runs of SKIPPED windows enter the ring's backlog as it finds room, at most 65,535 windows a record (R438). -/
def State.enterRuns (s : State) (r : Nat) : Nat → State
  | 0 => s
  | fuel + 1 =>
    if s.backlogFull r then s
    else match s.host.runs.find? (fun u => aget s.host.oldRing u.stream == r) with
    | none => s
    | some u =>
      let left := u.count - min u.count 65535
      let u' : SkipRun := { u with count := left, start := u.start + 65535 * s.fld (F.ADIT_STREAM_WIN_W u.stream) }
      let runs := if left = 0 then dropFirst u s.host.runs else s.host.runs.map (fun v => if v.stream == u.stream then u' else v)
      let s1 : State := { s with host := { s.host with runs := runs } }
      let q := s1.ring r
      (s1.setRing r { q with backlog := q.backlog ++ [.result u.result none] }).enterRuns r fuel

/-- Move waiting records to the ring while it has room. -/
def State.drainRing (s : State) (r : Nat) : Nat → State
  | 0 => s
  | fuel + 1 =>
    if !s.ringRoom r then s
    else match (s.ring r).backlog with
    | [] => s
    | w :: t => (((s.setRing r { s.ring r with backlog := t }).putRec r w).enterRuns r s.host.runs.length).drainRing r fuel

/-- BACKLOG_DRAIN (R438): an ACTIVE result ring with room takes the records that wait for it, in order. -/
def execBacklogDrain (ring : Ring) (ok : Bool) (s : State) : Out :=
  let r := ring.toNat
  if !s.alive || s.fatal || s.asleep || s.ringState r ≠ ringACTIVE || s.ringType r ≠ 4 || !s.ringRoom r then .next s
  else if !ok then .next (if (s.ring r).backlog.isEmpty then s else s.ringError r)
  else
    let s1 := s.enterRuns r (s.host.runs.length + 65536)
    .next (s1.drainRing r (s1.ringSize r))

end Sys2Proof.Machine
end

