-- ==== Sys2Proof/Machine/Chisel.lean ====
section
/-! DEFINITION.  The commands of Chisel (12_chisel_learning): epoch boundaries and handshakes, close points, commits, confirmations,
exports and the accepted register writes. -/

namespace Sys2Proof.Machine

/-! ### Boundaries and handshakes (R380, R383, R384, R412) -/

/-- The close wait, 5 to 1,000 ms, in timestamp units. -/
def State.closeWait (s : State) : Nat := 100000 * min 1000 (max 5 (s.fld F.CHISEL_CLOSE_WAIT_MS))

/-- The handshake wait, at least 500 µs. -/
def State.hsWait (s : State) : Nat := 100 * max 500 (s.fld F.CHISEL_HS_WAIT_US)

/-- Physical numbers of the cores of every RUNNING core group that hold a logical address. -/
def State.noticeCores (s : State) : List Nat :=
  (((List.range 64).filter (fun g => s.groupState g == gsRUNNING)).flatMap (fun g => (List.range 128).map (fun i => 128 * g + i)))

/-- The cores that have not reported (HS_PENDING). -/
def State.setPendingCores (s : State) (l : List Nat) : State :=
  { s with chisel := { s.chisel with pendingCores := l } }.setFld F.CHISEL_STATUS_HS_PENDING (min 65535 l.length)

/-- The head starts a chain barrier with command 3 at a boundary (R384). -/
def State.startEpochBarrier (s : State) (k : Nat) : State :=
  if s.inChain && s.position == 0 then
    let s1 := s.sendTo (s.mkFrame ftCHAIN 0xFF 0 3 k [])
    { s1 with tunnel := { s1.tunnel with barriers := s1.tunnel.barriers ++ [⟨s.position, 3, k, s.now, true⟩], syncLow := false } }
  else s

/-- The boundary's notices (R383): one to each core of every RUNNING group. -/
def State.sendNotices (s : State) : State :=
  if !s.chiselReady || !s.lanternRuns then { s with lantern := { s.lantern with noticesDue := true } }
  else
    let cs := s.noticeCores
    let s1 := cs.foldl (fun (a : State) l => a.sendNotice l) s
    let s2 : State := { s1 with chisel := { s1.chisel with hsAt := if cs.isEmpty then none else some (s.now + s.hsWait) } }
    s2.setPendingCores cs

/-- EPOCH_BOUNDARY (R380, R383): the epoch in progress ends. -/
def execEpochBoundary (s : State) : Out :=
  let k := s.epoch
  if !s.ticking || s.tick < (k + 1) * s.epochLen then .next s
  else
    let s1 := (s.set64 R.CHISEL_EPOCH_LO (k + 1))
    let s2 : State := { s1 with chisel := { s1.chisel with
      enLast := s1.chisel.en, en := s1.bit F.CHISEL_CFG_EN, closes := s1.chisel.closes ++ [(k, s.now + s.closeWait)] } }
    .next ((s2.sendNotices).startEpochBarrier k)

/-- HS_DONE (R383, R412): a core's report; with the last one the synapse snapshot is due at the next tick boundary. Any other tag at a
Chisel port is discarded and counted. -/
def execHsDone (msg : Msg) (s : State) : Out :=
  if !(s.oldest msg && (match endpoint msg.dest.toNat with | .chisel _ => true | _ => false)) then .next s
  else
    let s0 := s.unlist msg
    if msg.tag.toNat ≠ tagHS_DONE then .next (s0.bump F.CHISEL_BADTAG_COUNT 1)
    else if (msgWord msg 0).toNat ≠ s.epoch || !s.chisel.pendingCores.contains msg.src.toNat then .next s0
    else
      let left := s.chisel.pendingCores.filter (fun l => l != msg.src.toNat)
      let s1 := s0.setPendingCores left
      if left.isEmpty && s.chisel.hsAt.isSome then .next { s1 with chisel := { s1.chisel with hsAt := none, snapDue := true } }
      else .next s1

/-- HS_WAIT_EXPIRY (R383, Table CHISEL-9): the notice is sent again to the cores that have not reported, and the snapshot is due without
them. -/
def execHsWaitExpiry (s : State) : Out :=
  match s.chisel.hsAt with
  | none => .next s
  | some t =>
    if s.now < t then .next s
    else
      let late := s.chisel.pendingCores
      let s1 := late.foldl (fun (a : State) l => a.sendNotice l) s
      let s2 := (s1.bump F.CHISEL_HS_LATE_COUNT late.length).alarm F.CHISEL_ALARM_HS_LATE (late.headD 0)
      .next { s2 with chisel := { s2.chisel with hsAt := none, snapDue := true } }

/-- Plastic synapse words of a network. -/
def Net.plasticWords (k : Net) : List SynWord :=
  k.rows.zipIdx.flatMap (fun r => (r.1.zipIdx.filter (fun y => y.1.plastic)).map (fun y => ⟨r.2, y.2, y.1.weight, y.1.delay⟩))

/-- The synapse shadow is taken at a tick boundary (R383): of every stream of a RUNNING group whose home core has reported. It waits
while an export of synapses is open (R406). -/
def State.takeSynShadow (s : State) : State :=
  if !s.chisel.snapDue || (match s.chisel.exportSt with | some e => e.kind == 2 | none => false) then s
  else
    let streams := s.validStreams.filter (fun n =>
      s.groupState (s.coreGroup n) == gsRUNNING && (s.net n).net.isSome && !s.chisel.pendingCores.contains (s.homeLogical n))
    let m := streams.foldl (fun (a : List (Nat × Option SynShadow)) n =>
      tset synShadowDefault a n (some ⟨s.epoch, (s.net n).plasticWords⟩)) s.chisel.synShadow
    { s with chisel := { s.chisel with synShadow := m, snapDue := false } }

/-! ### Close points (R382, R390, R399) -/

/-- LOAD_SHADOW records take effect first (R407). -/
def State.applyLoads (s : State) : State :=
  let s1 := s.chisel.loads.foldl (fun (a : State) r =>
    match a.entryAt r.lib r.entry with
    | some (b, c) =>
      match a.shadow b c with
      | some h => if a.learningLib r.lib && (a.entry b c).seq == r.seq then a.setShadow b c (some { h with p := r.p, seq := r.seq })
                  else a.bump F.CHISEL_SHADOW_DISCARDS_COUNT 1
      | none => a.bump F.CHISEL_SHADOW_DISCARDS_COUNT 1
    | none => a.bump F.CHISEL_SHADOW_DISCARDS_COUNT 1) s
  { s1 with chisel := { s1.chisel with loads := [] } }

/-- Apply the epoch's updates to prototypes and pool (R390). -/
def State.closePrototypes (s : State) (k : Nat) : State :=
  let dk := s.fld F.CHISEL_PROTO_DECAY
  { s with chisel := { s.chisel with
    shadows := s.chisel.shadows.map (fun e => (e.1, e.2.map (fun h => h.close s.dim dk k)))
    pool := s.chisel.pool.map (fun p => { p with shadow := p.shadow.close s.dim dk k, first := none }) } }

/-- A published background model in the T2 layout of R59. -/
def thinBytes (dim th : Nat) (b : List Int) : List Byte :=
  let v := padTo dim b
  (List.range (dim / 256)).flatMap (fun j =>
    let w := (v.drop (256 * j)).take 256
    bytesLE 32 (bitsNat 256 (fun i => decide ((th : Int) < (w.getD i 0).natAbs))) ++ bytesLE 32 (bitsNat 256 (fun i => decide (w.getD i 0 < -(th : Int)))))

/-- Close and publish the background models to bank k mod 2 (R398, R399). -/
def State.closeBackgrounds (s : State) (k : Nat) : State :=
  let dk := s.fld F.CHISEL_BG_BG_DECAY
  let streams := ((s.listed 0x1180000 0x11C0000).filter (fun a => a % 4 == 0)).map (fun a => (a - 0x1180000) / 4)
  (streams.filter (fun n => s.bit (F.CHISEL_STREAM_BG n))).foldl (fun (a : State) n =>
    let m := (a.bg n).close s.dim dk k
    (a.setBg n m).hbmWrite (s.fld F.CHISEL_BG_BASE_BASE * 4096 + (2 * n + k % 2) * (s.dim / 4)) (thinBytes s.dim (s.fld F.CHISEL_BG_BG_THETA) m.b)) s

/-- Pool prototypes that no update has reached for AGE epochs are discarded (R391). -/
def State.agePool (s : State) (k : Nat) : State :=
  let age := max 1 (s.fld F.CHISEL_POOL_AGE)
  { s with chisel := { s.chisel with pool := s.chisel.pool.filter (fun p => k < p.last + age) } }.countUsed

/-! ### Commits (R401 to R404) -/

/-- Is a write of the entry already queued? -/
def State.writeQueued (s : State) (b c : Nat) : Bool := s.inBatch b c

/-- Has every column of an entry headroom in its bench's tiles (R285)? -/
def State.entryHeadroom (s : State) (b c : Nat) : Bool :=
  let k := s.benchDie b
  (s.benchPhys k (s.benchLocal b)).all (fun p => 0 < s.headroom k p ((s.tileSt k p).colOf c))

/-- May an entry be committed now (R402)? -/
def State.committable (s : State) (b c : Nat) : Bool :=
  s.benchReady b && decide ((s.entry b c).state = esVALID) && !s.writeQueued b c && s.entryHeadroom b c

/-- A due entry: bench, column, entry number, δ and the key to write. -/
structure DueEntry where
  bench : Nat
  col : Nat
  entry : Nat
  delta : Nat
  key : Key
  deriving DecidableEq, Repr

/-- The learning entries of a library with their δ (R401). -/
def State.dueEntries (s : State) (l : Nat) : List DueEntry :=
  (s.lib l).benches.zipIdx.flatMap (fun b => (List.range 1024).filterMap (fun c =>
    match s.shadow b.1 c, s.mirror b.1 c with
    | some h, some k =>
      let key := s.binarise h.p
      let d := popKey (key ^^^ k)
      if s.fld F.CHISEL_COMMIT_THRESH < d || (s.entry b.1 c).seq < h.seq then some ⟨b.1, c, 1024 * b.2 + c, d, key⟩ else none
    | _, _ => none))

/-- Insert by descending δ, ties by ascending entry number. -/
def insDue (x : DueEntry) : List DueEntry → List DueEntry
  | [] => [x]
  | y :: t => if y.delta < x.delta || (y.delta == x.delta && x.entry < y.entry) then x :: y :: t else y :: insDue x t

/-- Count deferrals (R402). -/
def State.defer (s : State) (n l : Nat) : State :=
  if n = 0 then s else (s.bump F.CHISEL_DEFERRED_COUNT n).alarm F.CHISEL_ALARM_COMMIT_DEFERRED l

/-- The next commit sequence value (R404). -/
def State.nextSeq (s : State) : Nat × State :=
  let q := (s.fld F.CHISEL_SEQ_SEQ + 1) % 2 ^ 32
  (q, s.setFld F.CHISEL_SEQ_SEQ q)

/-- EMPTY entries of a library's READY benches, lowest first, with no write queued. -/
def State.emptyEntries (s : State) (l : Nat) : List (Nat × Nat) :=
  ((s.lib l).benches.filter s.benchReady).flatMap (fun b => ((List.range 1024).filter (fun c =>
    decide ((s.entry b c).state = esEMPTY) && !s.writeQueued b c)).map (fun c => (b, c)))

/-- Take pool prototypes as creations (R403). The answer holds the items, by bench. -/
def State.takeCreations (s : State) (l : Nat) : List Proto → List (Nat × Nat) → Nat → List (Nat × WriteItem) → State × List (Nat × WriteItem)
  | [], _, _, acc => (s, acc)
  | p :: ps, free, room, acc =>
    match free, room with
    | (b, c) :: rest, n + 1 =>
      let q := s.nextSeq
      let h := { p.shadow with seq := q.1, hits := 0 }
      let it : WriteItem := ⟨c, s.binarise p.shadow.p, s.fld (F.CHISEL_LIB_NEWPRIO l), p.label, 1, q.1, s.now, true⟩
      let s1 := q.2.setShadow b c (some h)
      let s2 : State := { s1 with chisel := { s1.chisel with pool := s1.chisel.pool.filter (fun x => x != p) } }
      s2.takeCreations l ps rest n (acc ++ [(b, it)])
    | [], _ => (s.defer 1 l).takeCreations l ps [] room acc
    | _, 0 => (s, acc)

/-- Take due entries (R402, R404). -/
def State.takeDue (s : State) : List DueEntry → Nat → List (Nat × WriteItem) → State × List (Nat × WriteItem)
  | [], _, acc => (s, acc)
  | _, 0, acc => (s, acc)
  | x :: t, n + 1, acc =>
    let q := s.nextSeq
    let e := s.entry x.bench x.col
    let it : WriteItem := ⟨x.col, x.key, e.prio, e.cls, 1, q.1, s.now, false⟩
    let s1 := match s.shadow x.bench x.col with
      | some h => q.2.setShadow x.bench x.col (some { h with seq := q.1, hits := 0 })
      | none => q.2
    s1.takeDue t n (acc ++ [(x.bench, it)])

/-- Group items into batches of up to 64 of one bench, in list order (R402). -/
def commitBatches (l : List (Nat × WriteItem)) : List (Nat × List WriteItem) :=
  ((l.map Prod.fst).eraseDups).flatMap (fun b =>
    let g := (l.filter (fun x => x.1 == b)).map Prod.snd
    (chunks 64 g.length g).map (fun c => (b, c)))

/-- Is the library in the trial of an update, so that commits to it are deferred (R474)? -/
def State.inLibTrial (s : State) (l : Nat) : Bool := s.fld F.LANTERN_UPDATE_LIB_STATE == 4 && s.fld F.LANTERN_UPDATE_LIBRARY == l

/-- Draw up one library's commit and queue its batches. -/
def State.commitLib (s : State) (l : Nat) : State :=
  let due := (s.dueEntries l).foldl (fun a x => insDue x a) []
  let ok := due.filter (fun x => s.committable x.bench x.col && !s.inLibTrial l)
  let s1 := (s.setFld (F.CHISEL_LIB_DUE_DUE l) due.length).defer (due.length - ok.length) l
  let protos := s.chisel.pool.filter (fun p => p.lib == l && s.fld F.CHISEL_POOL_MIN_HITS ≤ p.shadow.hits)
  let cap := s.fld F.CHISEL_COMMIT_MAX
  let c := s1.takeCreations l (if s.inLibTrial l then [] else protos) (s1.emptyEntries l) cap []
  let d := c.1.takeDue ok (cap - c.2.length) c.2
  (commitBatches d.2).foldl (fun (a : State) g =>
    match a.benchLib g.1 with
    | some (_, p) => a.queueBatch l { src := .chisel, pos := p, items := g.2 }
    | none => a) d.1

/-- Drop the part of a commit list not yet begun (R404). -/
def State.dropCommit (s : State) : State :=
  ((List.range 16).foldl (fun (a : State) l =>
    a.setLib l { a.lib l with queue := (a.lib l).queue.filter (fun q => q.begun || !decide (q.src = .chisel)) }) s).commitEnds

/-- A commit epoch (R380)? -/
def State.isCommitEpoch (s : State) (k : Nat) : Bool := (k + 1) % s.commitEvery == 0 || s.chisel.commitNow.contains k

/-- The commit of a commit epoch's close point. -/
def State.startCommit (s : State) : State :=
  let s0 := s.dropCommit
  let s1 := ((List.range 16).filter (fun l => s0.learningLib l)).foldl (fun (a : State) l => a.commitLib l) s0
  (s1.setFld F.CHISEL_STATUS_COMMITTING 1).commitEnds

/-- The close point of epoch k (R382). The hold ring is cleared of the epoch (R392). -/
def State.closePoint (s : State) (k : Nat) : State :=
  let s0 : State := { s with chisel := { s.chisel with closes := s.chisel.closes.drop 1, closed := some k } }
  let s1 := s0.applyLoads
  let s2 := if s.learnOn k then (s1.closePrototypes k).closeBackgrounds k else s1
  let s3 := if s.learnOn k then s2.agePool k else s2
  let s4 : State := { s3 with chisel := { s3.chisel with hold := s3.chisel.hold.filter (fun h => h.epoch != k) } }
  let s5 := if s.learnOn k && s4.isCommitEpoch k then s4.startCommit else s4
  { s5 with chisel := { s5.chisel with commitNow := s5.chisel.commitNow.filter (fun j => j != k) } }

/-- CLOSE_POINT (R382): held back while an export is open (R406) and while Chisel is not ready. -/
def execClosePoint (s : State) : Out :=
  match s.chisel.closes with
  | [] => .next s
  | (k, t) :: _ => if s.now < t || !s.chiselReady || !s.lanternRuns || s.chisel.exportSt.isSome then .next s else .next (s.closePoint k)

/-- COMMIT_NOW (R380). -/
def State.commitNowWrite (s : State) : State :=
  { s with chisel := { s.chisel with commitNow := s.chisel.commitNow.filter (fun j => j != s.epoch) ++ [s.epoch] } }

/-- COMMIT_NOW: the write of CHISEL_CTRL.COMMIT_NOW = 1. -/
def execCommitNow (s : State) : Out := gate 6 s (.next s.commitNowWrite)

/-! ### Confirmations (R393) -/

/-- A confirmation that is not applied. -/
def State.confDrop (s : State) (st : Nat) : State × Option (Nat × Nat × Nat) := (s.bump F.CHISEL_CONF_DROPS_COUNT 1).ends st 0 0

/-- Note a verdict applied; a slot keeps four. -/
def State.noteVerdict (s : State) (h : HoldSlot) (v : Nat × Nat × Nat) : State :=
  { s with chisel := { s.chisel with hold := s.chisel.hold.map (fun x => if x = h then { h with applied := (h.applied ++ [v]).take 4 } else x) } }

/-- CONFIRM (R393, Table CHISEL-2). -/
def execConfirm (ring : Ring) (idx : Word) (s : State) : Out :=
  .next (s.libOpWhen s.chiselReady ring idx 14 false true (fun x =>
    let n := x.arg0 % 65536
    let v := x.arg0 / 65536 % 256
    let l := x.lib
    let k := s.windowEpoch n x.arg2
    let ent := x.arg1 % 2 ^ 24
    let slot := s.chisel.hold.find? (fun h => h.stream == n && h.start == x.arg2)
    if x.arg0 / 2 ^ 24 % 16 ≠ l || v < 1 || 4 < v then s.ends stBAD_DESC 0 0
    else if !s.learnOn k || !s.bit (F.CHISEL_STREAM_LEARN n) then s.confDrop stLEARN_OFF
    else if s.epochClosed k then (s.bump F.CHISEL_LATE_COUNT 1).confDrop stEPOCH_CLOSED
    else match slot with
    | none => s.confDrop stNOT_HELD
    | some h =>
      let mark := if v ≤ 2 then (v, l, ent) else (v, 0, 0)
      let c := presentMask s.dim h.present
      if h.applied.contains mark then s.confDrop stDUPLICATE
      else
        let done := fun (a : State) => (a.noteVerdict h mark).ends stAPPLIED 0 0
        match v with
        | 3 =>
          if s.poolFull then (s.alarm F.CHISEL_ALARM_POOL_FULL l).confDrop stPOOL_FULL
          else done ((s.newProto l k h.key (s.fld F.CHISEL_POOL_MIN_HITS) x.arg3).tookUpdate)
        | 4 => done (s.learnBg n k h.key c s.wSup)
        | _ =>
          match s.entryAt l ent with
          | none => s.confDrop stENTRY_GONE
          | some (b, col) =>
            if (s.entry b col).state = esEMPTY || (s.entry b col).state = esQUARANTINED || decide ((s.benchOf b).state = .retired) ||
                !s.learningLib l || (s.shadow b col).isNone then s.confDrop stENTRY_GONE
            else done (s.learnEntry b col k h.key c (if v = 1 then s.wSup else -s.wSup))))

/-! ### Exports (R405, R406) and LOAD_SHADOW (R407) -/

/-- An export record (Table CHISEL-5): the header with its CRC, and the payload. -/
def exportRecord (kind flags epoch index entry count seq : Nat) (payload : List Byte) : List Byte :=
  let head := bytesLE 2 0xC15E ++ bytesLE 1 kind ++ bytesLE 1 flags ++ bytesLE 4 payload.length ++ bytesLE 8 epoch ++ bytesLE 2 index ++
    bytesLE 3 entry ++ bytesLE 1 0 ++ bytesLE 2 count ++ bytesLE 4 seq
  head ++ bytesLE 4 (crc32 (head ++ [0, 0, 0, 0] ++ payload)) ++ payload

/-- Counters as bytes. -/
def counterBytes (dim : Nat) (p : List Int) : List Byte := (padTo dim p).map (fun v => BitVec.ofInt 8 v)

/-- The record of a learning entry. -/
def State.protoRecord (s : State) (k l e b c : Nat) (h : Shadow) : List Byte :=
  let n := s.entry b c
  let delta := match s.mirror b c with | some m => popKey (s.binarise h.p ^^^ m) | none => 0
  exportRecord 1 (if h.rebuilt then 2 else 0) k l e 0 h.seq (counterBytes s.dim h.p ++ bytesLE 1 (n.state + 4 * n.origin) ++ bytesLE 1 n.prio ++
    bytesLE 2 delta ++ bytesLE 4 n.cls ++ bytesLE 4 h.hits ++ bytesLE 4 0)

def State.poolRecord (s : State) (k l : Nat) (p : Proto) : List Byte :=
  exportRecord 4 0 k l p.index 0 0 (counterBytes s.dim p.shadow.p ++ bytesLE 4 0 ++ bytesLE 4 p.label ++ bytesLE 4 p.shadow.hits ++ bytesLE 4 0)

/-- A synapse word (Table SNN-7) as an item of a SYN record. -/
def State.synItem (s : State) (n : Nat) (w : SynWord) : List Byte :=
  let post := (((s.net n).rows.getD w.row []).getD w.index ⟨0, 0, true, 0, 0, 0⟩).post
  let v := (BitVec.ofInt 8 w.weight).toNat * 2 ^ 24 + w.delay % 64 * 2 ^ 18 + 2 ^ 17 + post % 1024
  bytesLE 2 w.row ++ bytesLE 2 w.index ++ bytesLE 4 v

def State.synRecord (s : State) (k n : Nat) (h : SynShadow) : List Byte :=
  exportRecord 2 (if h.epoch < k + 1 then 1 else 0) k n 0 h.words.length 0 (h.words.flatMap (s.synItem n))

/-- The records of an export, as the state stands after the last close point. -/
def State.exportRecords (s : State) (kind k l first last : Nat) : List (List Byte) :=
  let streams := (List.range (last + 1)).drop first
  match kind with
  | 1 => (s.lib l).benches.zipIdx.flatMap (fun b => (List.range 1024).filterMap (fun c =>
      (s.shadow b.1 c).map (fun h => s.protoRecord k l (1024 * b.2 + c) b.1 c h)))
  | 2 => streams.filterMap (fun n => (s.synShadowOf n).map (fun h => s.synRecord k n h))
  | 3 => (streams.filter (fun n => s.bit (F.CHISEL_STREAM_BG n))).map (fun n => exportRecord 3 0 k n 0 0 0 (counterBytes s.dim (s.bg n).b))
  | _ => (s.chisel.pool.filter (fun p => p.lib == l)).map (fun p => s.poolRecord k l p)

/-- EXPORT (R405): only one export is open at a time. -/
def execExportOp (ring : Ring) (idx : Word) (s : State) : Out :=
  .next (s.libOpWhen s.chiselReady ring idx 12 false true (fun x =>
    let kind := x.arg0 % 8
    let first := x.arg1 % 65536
    let last := x.arg1 / 65536
    if kind < 1 || 4 < kind || !s.isExportRing x.export_ || (decide (kind = 2 ∨ kind = 3) && last < first) then s.ends stBAD_DESC 0 0
    else if s.chisel.exportSt.isSome then s.ends stBUSY 0 0
    else
      let k := s.chisel.closed.getD 0
      let recs := s.exportRecords kind k x.lib first last
      let out := recs.flatMap id ++ exportRecord 0xFF 0 k 0 0 (recs.length % 65536) 0 []
      let s1 : State := { s with chisel := { s.chisel with exportSt := some ⟨ring.toNat, idx.toNat, kind⟩ } }
      let q : ExportReq := { ring := ring.toNat, idx := idx.toNat, tag := x.tag, bytes := out, result := recs.length, learn := true }
      ((s1.setFld F.CHISEL_STATUS_EXPORT_OPEN 1).exportOut x.export_ q, none)))

/-- A PROTO record of a LOAD_SHADOW buffer; none when it is not one, or its CRC fails. -/
def State.parseProto (s : State) (b : List Byte) : Option LoadRec :=
  if sliceLE b 0 2 ≠ 0xC15E || sliceLE b 2 1 ≠ 1 || crc32 (b.take 28 ++ [0, 0, 0, 0] ++ b.drop 32) ≠ sliceLE b 28 4 then none
  else some { lib := sliceLE b 16 2 % 16, entry := sliceLE b 18 3, seq := sliceLE b 24 4, p := ((b.drop 32).take s.dim).map (fun x => x.toInt) }

/-- LOAD_SHADOW (R407): the records wait for the next close point. -/
def execLoadShadow (ring : Ring) (idx : Word) (buf : List Byte) (dmaOk : Bool) (s : State) : Out :=
  .next (s.libOpWhen s.chiselReady ring idx 13 true dmaOk (fun x =>
    match items x (48 + s.dim) buf with
    | none => s.ends stBAD_DESC 0 0
    | some l =>
      let recs := l.filterMap s.parseProto
      let s1 : State := { s with chisel := { s.chisel with loads := s.chisel.loads ++ recs } }
      (s1.bump F.CHISEL_SHADOW_DISCARDS_COUNT (l.length - recs.length)).ends stOK 0 recs.length))

/-! ### Register writes (R385, R386) -/

/-- A write of CHISEL_LCAP or CHISEL_HOLD: only while EN = 0. Whether a larger size fits beside the other areas of HBM is a free value
(the specification does not give every area's size); a refused one sets HBM_SHORT. -/
def State.lcapWrite (s : State) (hold : Bool) (value : Word) : State :=
  let f := if hold then F.CHISEL_HOLD_SLOTS else F.CHISEL_LCAP_ENTRIES
  let v := value.toNat % 2 ^ 20
  if s.bit F.CHISEL_CFG_EN then s.alarm F.CHISEL_ALARM_CFG_BUSY 0
  else if v ≤ s.fld f then s.setFld f v
  else
    let d := s.draw
    if Config.freeNat d.1 % 2 = 0 then d.2.setFld f v else d.2.alarm F.CHISEL_ALARM_HBM_SHORT (if hold then 1 else 0)

/-- CHISEL_LCAP_WRITE (R385). -/
def execChiselLcapWrite (hold : Bool) (value : Word) (s : State) : Out := gate 6 s (.next (s.lcapWrite hold value))

/-- Learning entries that benches of learning libraries hold, with library l among them. -/
def State.learnRoom (s : State) (l : Nat) : Nat :=
  1024 * (((List.range 16).filter (fun x => x == l || s.learningLib x)).map (fun x => (s.lib x).benches.length)).sum + s.poolSize

/-- Every entry of a library with a key is seeded (R387), or every one's shadow is freed. -/
def State.seedLib (s : State) (l : Nat) (on : Bool) : State :=
  State.countUsed ((s.lib l).benches.foldl (fun (a : State) b =>
    (a.entriesIn b [esVALID, esINVALID, esQUARANTINED]).foldl (fun (a : State) c => if on then a.seed1 b c else a.setShadow b c none) a) s)

/-- A write of CHISEL_LIB_l (R386). -/
def State.libLearnWrite (s : State) (l : Nat) (value : Word) : State :=
  let was := s.learningLib l
  let want := value.getLsbD 31
  let ok := s.libActive l && s.libKind l == 0 && !s.isSpan l && s.learnRoom l ≤ s.fld F.CHISEL_LCAP_ENTRIES
  let s1 := s.setReg (R.CHISEL_LIB l) (value &&& 0x600000FF#32)
  if !want then if was then s1.seedLib l false else s1
  else if was then s1.setFld (F.CHISEL_LIB_LEARN l) 1
  else if ok then (s1.setFld (F.CHISEL_LIB_LEARN l) 1).seedLib l true
  else s1.alarm F.CHISEL_ALARM_CFG_BUSY l

/-- CHISEL_LIB_LEARN_WRITE (R386). -/
def execChiselLibLearnWrite (lib : Lib) (value : Word) (s : State) : Out := gate 6 s (.next (s.libLearnWrite lib.toNat value))

end Sys2Proof.Machine
end

