-- ==== Sys2Proof/Machine/Lantern.lean ====
section
/-! DEFINITION.  Lantern's commands: mailboxes and channels, restarts, firmware banks, program loads, inspection and the Gallery
mailboxes (14_lantern_mailboxes_updates R446 to R470). -/

namespace Sys2Proof.Machine

/-! ### Firmware banks (Tables LANTERN-7, LANTERN-8) -/

def fbEMPTY : Nat := 0
def fbDOWNLOADING : Nat := 1
def fbDOWNLOADED : Nat := 2
def fbVERIFIED : Nat := 3
def fbTRIAL : Nat := 4
def fbACTIVE : Nat := 5
def fbFALLBACK : Nat := 6
def fbREJECTED : Nat := 7

def magicFirmware : Nat := 0xF1A70001
def magicLibrary : Nat := 0xF1A70002
def magicKey : Nat := 0xF1A70003

/-- The header of the firmware a new part holds in bank A; the specification gives no version: VERSION 0, SVN 0 and key slot 0. -/
def factoryHeader : List Byte := bytesLE 4 magicFirmware ++ bytesLE 2 1

def State.bankState (s : State) (n : Nat) : Nat := s.fld (if n = 0 then F.LANTERN_BANKS_A else F.LANTERN_BANKS_B)

def State.setBank (s : State) (n st : Nat) : State := s.setFld (if n = 0 then F.LANTERN_BANKS_A else F.LANTERN_BANKS_B) st

/-- The image header a bank holds. -/
def State.bankHdr (s : State) (n : Nat) : List Byte :=
  match s.lantern.hdrs.find? (fun h => h.bank == n) with
  | some h => h.hdr
  | none => if n = 0 then factoryHeader else []

def State.setHdr (s : State) (n : Nat) (h : List Byte) : State :=
  let s1 : State := { s with lantern := { s.lantern with hdrs := ⟨n, h⟩ :: s.lantern.hdrs.filter (fun x => x.bank != n) } }
  s1.setReg (R.LANTERN_BANK_VER n) (BitVec.ofNat 32 (sliceLE h 8 4))

/-- A bank becomes EMPTY: its VERSION reads zero. -/
def State.emptyBank (s : State) (n : Nat) : State := (s.setHdr n []).setBank n fbEMPTY

def hdrVersion (h : List Byte) : Nat := sliceLE h 8 4
def hdrSvn (h : List Byte) : Nat := sliceLE h 12 4
def hdrPayload (h : List Byte) : Nat := sliceLE h 16 8

/-- Is a key slot filled and not revoked (R466)? -/
def State.slotFilled (s : State) (k : Nat) : Bool :=
  if k < 4 then !s.lantern.revoked.contains k else s.lantern.keys.any (fun x => x.slot == k)

/-- The checks of R468 that the header alone decides, but for the SVN. -/
def State.hdrPasses (s : State) (h : List Byte) : Bool :=
  sliceLE h 0 4 == magicFirmware && sliceLE h 4 2 == 1 && sliceLE h 6 1 < 4 && s.slotFilled (sliceLE h 6 1) &&
    hdrPayload h ≤ 786432

/-- Does a bank pass R468? `sig` is the outcome of its hash and signature checks. -/
def State.bankPasses (s : State) (n : Nat) (sig : Bool) : Bool :=
  s.hdrPasses (s.bankHdr n) && sig && s.fld F.LANTERN_SVN_MIN_SVN ≤ hdrSvn (s.bankHdr n)

/-- The bank in a state, if one is. -/
def State.bankIn (s : State) (st : Nat) : Option Nat := [0, 1].find? (fun n => s.bankState n == st)

/-- The bank that FW_DOWNLOAD writes (R467): neither ACTIVE nor, during a trial, the other. -/
def State.inactiveBank (s : State) : Option Nat :=
  if (s.bankIn fbTRIAL).isSome then none
  else [1, 0].find? (fun n => s.bankState n != fbACTIVE)

/-! ### Restarts (R448 to R450) -/

/-- Recovery mode (R449). -/
def State.enterRecovery (s : State) : State :=
  let s1 : State := { s with lantern := { s.lantern with boot := none } }
  ((((s1.setBit F.LANTERN_STATUS_READY false).setBit F.LANTERN_STATUS_RECOVERY true).setBit F.LANTERN_STATUS_SWITCHING false)
    |>.setBit F.LANTERN_STATUS_TRIAL false).setFld F.LANTERN_FW_RUN_VERSION 0

/-- Choose a bank (R448 step 3): the ACTIVE bank if it passes, else the FALLBACK bank if it passes, which becomes ACTIVE, else recovery
mode. -/
def State.chooseBank (s : State) (aGood bGood : Bool) (cause : Nat) : State :=
  let sig := fun n => if n = 0 then aGood else bGood
  let active := s.bankIn fbACTIVE
  let go := fun (a : State) (n : Nat) => ({ a with lantern := { a.lantern with boot := some { bank := n, cause := cause } } } : State)
  match active.filter (fun n => s.bankPasses n (sig n)) with
  | some n => go s n
  | none =>
    match (s.bankIn fbFALLBACK).filter (fun n => s.bankPasses n (sig n)) with
    | some n =>
      -- the failing bank becomes REJECTED, so that one bank is ACTIVE (assumption 62)
      let s1 := match active with | some m => s.setBank m fbREJECTED | none => s
      go ((s1.setBank n fbACTIVE).alarm F.LANTERN_ALARM_FALLBACK_BOOT n) n
    | none => s.enterRecovery

/-- Upkeep notices and lost updates reported when firmware starts (R464, R470, R475). -/
def State.startNotices (s : State) : State :=
  let s1 := s.lantern.updateLost.foldl (fun (a : State) u => a.notice ncUPDATE_LOST [updateWord u]) s
  let s2 := s.lantern.rolledBack.foldl (fun (a : State) u => a.notice ncROLLED_BACK [updateWord u]) s1
  let s3 : State := { s2 with lantern := { s2.lantern with updateLost := [], rolledBack := [], noticesDue := false } }
  if s.lantern.noticesDue then s3.sendNotices else s3

/-- The firmware of a bank runs: STARTED, or RESTARTED after an unplanned restart, then what the start reports. -/
def State.startBank (s : State) (b : Boot) : State :=
  let h := s.bankHdr b.bank
  let trial := s.bankState b.bank == fbTRIAL
  let s1 : State := { s with lantern := { s.lantern with boot := none, trialAt := s.power.clock } }
  let s2 := (((s1.setBit F.LANTERN_STATUS_READY true).setBit F.LANTERN_STATUS_RECOVERY false).setBit F.LANTERN_STATUS_SWITCHING false)
    |>.setBit F.LANTERN_STATUS_TRIAL trial
  let s3 := ((s2.setFld F.LANTERN_STATUS_ACTIVE_BANK b.bank).setFld F.LANTERN_FW_RUN_VERSION (hdrVersion h)).setFld F.LANTERN_SVN_RUN_SVN (hdrSvn h)
  (if b.cause = 0 then s3.notice ncSTARTED [hdrVersion h, b.bank] else s3.notice ncRESTARTED [b.cause]).startNotices

/-- The library update in progress has lost its candidate: the benches are erased and released (Table LANTERN-10). -/
def State.dropCandidate (s : State) : State :=
  match s.lantern.libJob with
  | none => s
  | some j =>
    let s1 := j.benches.foldl (fun (a : State) b => (a.releaseBench b).queueErase b) s
    let s2 : State := { s1 with
      sump := { s1.sump with held := s1.sump.held.filter (fun b => !j.benches.contains b) }
      lantern := { s1.lantern with libJob := none } }
    s2.setFld F.LANTERN_UPDATE_LIB_STATE 0

/-- Downloads in progress are discarded with their commands (R450, Table LANTERN-11). -/
def State.loseDownloads (s : State) : State :=
  let s1 := match s.lantern.fwJob with
    | none => s
    | some j =>
      let a : State := { s with lantern := { s.lantern with fwJob := none, updateLost := s.lantern.updateLost ++ [0] } }
      (a.emptyBank j.bank).alarm F.LANTERN_ALARM_UPDATE_LOST 0
  if s1.fld F.LANTERN_UPDATE_LIB_STATE = 1 then
    match s1.lantern.libJob with
    | none => s1
    | some j =>
      let s2 : State := { s1 with lantern := { s1.lantern with updateLost := s1.lantern.updateLost ++ [1 + j.lib] } }
      s2.dropCandidate.alarm F.LANTERN_ALARM_UPDATE_LOST j.lib
  else s1

/-- A trial rolls back by a bank switch (R470). -/
def State.rollbackSwitch (s : State) : State :=
  match s.bankIn fbTRIAL with
  | none => s
  | some n =>
    let s1 := ((s.setBank n fbREJECTED).setBank (1 - n) fbACTIVE).alarm F.LANTERN_ALARM_FW_ROLLBACK n
    ({ s1 with lantern := { s1.lantern with boot := some { bank := 1 - n, switch := true, rollback := true }, rolledBack := s1.lantern.rolledBack ++ [0] } }
      : State).setBit F.LANTERN_STATUS_SWITCHING true

/-- The third unplanned restart of the ACTIVE bank within 24 h (R450): onto the FALLBACK bank if it passes, else a device fault. -/
def State.thirdRestart (s : State) (aGood bGood : Bool) : State :=
  match s.bankIn fbACTIVE, (s.bankIn fbFALLBACK).filter (fun n => s.bankPasses n (if n = 0 then aGood else bGood)) with
  | some m, some n =>
    let s1 := ((s.setBank m fbFALLBACK).setBank n fbACTIVE).alarm F.LANTERN_ALARM_FALLBACK_BOOT n
    { s1 with faults := s1.faults.filter (fun e => !decide (e.1 = .lantern)) }
  | _, _ => s.deviceFault 8 0

/-- An unplanned restart (R450). -/
def State.unplanned (s : State) (cause : Nat) (aGood bGood : Bool) : State :=
  let f := s.recordFault .lantern false
  let s1 := (f.2.bump F.LANTERN_RESTARTS_COUNT 1).alarm F.LANTERN_ALARM_RESTART cause
  let s2 := (List.range 32).foldl (fun (a : State) n =>
    (a.setChan n {}).enterResync n) s1
  let forget := fun (w : Waiting) => { w with chan := none }
  let s3 : State := { s2 with lantern := { s2.lantern with
    fwJob := s2.lantern.fwJob.map (fun j => { j with who := forget j.who })
    load := s2.lantern.load.map (fun j => { j with who := forget j.who })
    libJob := s2.lantern.libJob.map (fun j => { j with who := forget j.who }) } }
  let s4 := s3.loseDownloads
  if (s4.bankIn fbTRIAL).isSome then s4.rollbackSwitch
  else
    let s5 := if f.1 then s4.thirdRestart aGood bGood else s4
    (s5.setBit F.LANTERN_STATUS_READY false).chooseBank aGood bGood cause

/-- WATCHDOG_EXPIRY (R450). -/
def execWatchdogExpiry (aGood bGood : Bool) (s : State) : Out :=
  if s.lanternRuns then .next (s.unplanned 1 aGood bGood) else .next s

/-- FLINT_M_FAULT (R450): a program stop, or an uncorrectable SRAM error that no re-read clears. -/
def execFlintMFault (sram aGood bGood : Bool) (s : State) : Out :=
  if s.served then .next (s.unplanned (if sram then 3 else 2) aGood bGood) else .next s

/-! ### Mailboxes (R451 to R459) -/

/-- MBX_IN_WRITE (R451): the word is stored; over a word not read yet, COLLISION is set. -/
def execMbxInWrite (chan : Chan) (word : Word) (s : State) : Out :=
  let n := chan.toNat
  if !s.alive then .next s
  else
    let s1 := if s.regBit R.MBX_IN_FULL n then s.setRegBit R.MBX_IN_COLLISION n true else s
    .next ((s1.setReg (R.MBX_IN_DATA n) word).setRegBit R.MBX_IN_FULL n true)

/-- Take an outbound word: an RC read (R451). -/
def State.outRead (s : State) (n : Nat) : State :=
  (s.setReg (R.MBX_OUT_DATA n) 0).setRegBit R.MBX_OUT_FULL n false

/-- MBX_OUT_READ (R451). -/
def execMbxOutRead (chan : Chan) (s : State) : Out :=
  let n := chan.toNat
  if !s.alive then .next s
  else .next { s.outRead n with rdata := (s.reg (R.MBX_OUT_DATA n)).setWidth 64 }

/-- NARGS of a listed OP (Table LANTERN-4). -/
def cmdArgs (op : Nat) : Option Nat :=
  match op with
  | 0x00 | 0x01 | 0x21 | 0x22 | 0x23 | 0x24 | 0x41 => some 0
  | 0x10 => some 4
  | 0x11 | 0x30 => some 5
  | 0x20 | 0x40 => some 3
  | 0x31 | 0x32 | 0x33 | 0x34 | 0x35 => some 1
  | _ => none

def cmdOp (h : Word) : Nat := (h.extractLsb' 24 8).toNat
def cmdNargs (h : Word) : Nat := (h.extractLsb' 20 4).toNat
def cmdTag (h : Word) : Nat := (h.extractLsb' 0 16).toNat

/-- The complete command at the front of a channel's queue, when Lantern may execute it: header and arguments. -/
def State.front (s : State) (n : Nat) : Option (Word × List Word) :=
  let c := s.chan n
  match c.queue with
  | [] => none
  | h :: t =>
    if !s.served || c.busy || 16 ≤ c.replies.length || t.length < cmdNargs h then none else some (h, t.take (cmdNargs h))

/-- Remove the front command from its queue. -/
def State.popFront (s : State) (n : Nat) : State :=
  let c := s.chan n
  match c.queue with
  | [] => s
  | h :: t => s.setChan n { c with queue := t.drop (cmdNargs h) }

/-- The status of a front command that no command of its own executes: an unknown OP or wrong NARGS, or one that recovery mode or
Sleep answers NOT_READY (R449, R460, Table MODES-2). -/
def State.turnedAway (s : State) (h : Word) : Option Nat :=
  if cmdArgs (cmdOp h) ≠ some (cmdNargs h) then some rsBAD_CMD
  else if s.powerLevel = 2 && !([0x00, 0x01, 0x41].contains (cmdOp h)) then some rsNOT_READY
  else if s.recovery && !([0x00, 0x01, 0x20, 0x21, 0x22].contains (cmdOp h)) then some rsNOT_READY
  else none

/-- Answer the front commands that are turned away. -/
def State.settle (s : State) (n : Nat) : Nat → State
  | 0 => s
  | fuel + 1 =>
    match s.front n with
    | none => s
    | some (h, _) =>
      match s.turnedAway h with
      | none => s
      | some st => ((s.popFront n).reply n st (cmdTag h) []).settle n fuel

/-- MBX_WORD_TAKE (R456, R459). -/
def execMbxWordTake (chan : Chan) (s : State) : Out :=
  let n := chan.toNat
  if !s.served || !s.regBit R.MBX_IN_FULL n then .next s
  else
    let w := s.reg (R.MBX_IN_DATA n)
    let s1 := s.setRegBit R.MBX_IN_FULL n false
    let c := s1.chan n
    if s1.regBit R.MBX_IN_COLLISION n then
      .next (((s1.setRegBit R.MBX_IN_COLLISION n false).enterResync n).reply n rsCOLLISION 0 [])
    else if c.resync && c.queue.isEmpty then .next (if w = 0 then s1.setChan n { c with queue := [w] } else s1)
    else if 16 ≤ c.queue.length then .next (s1.enterResync n)
    else .next ((s1.setChan n { c with queue := c.queue ++ [w] }).settle n 16)

/-- REPLY_WRITE (R457): the next held word; with MBX_IRQ.EN an MSI-X message follows the rise of FULL. -/
def execReplyWrite (chan : Chan) (s : State) : Out :=
  let n := chan.toNat
  match (s.chan n).replies with
  | [] => .next s
  | w :: t =>
    if !s.served || s.regBit R.MBX_OUT_FULL n then .next s
    else
      let s1 := ((s.setChan n { s.chan n with replies := t }).setReg (R.MBX_OUT_DATA n) w).setRegBit R.MBX_OUT_FULL n true
      let s2 := if s1.bit F.MBX_IRQ_EN then s1.sendMsi (s1.fld F.MBX_IRQ_VECTOR) else s1
      .next (s2.settle n 16)

/-! ### Commands (R460 to R463) -/

/-- Execute the front command of a channel when it is `op`: `body` gets the state without it, its TAG and its arguments. -/
def State.command (s : State) (chan : Chan) (op : Nat) (body : State → Nat → List Nat → State) : State :=
  let n := chan.toNat
  match s.front n with
  | none => s
  | some (h, args) =>
    if cmdOp h ≠ op || (s.turnedAway h).isSome then s
    else (body (s.popFront n) (cmdTag h) (args.map (fun w => w.toNat))).settle n 16

/-- A word of an argument list, 0 when absent. -/
def argAt (l : List Nat) (i : Nat) : Nat := l.getD i 0
/-- A 64-bit argument given low half first. -/
def arg64 (l : List Nat) (i : Nat) : Nat := argAt l i + 2 ^ 32 * argAt l (i + 1)

/-- The channel of a command that is answered later. -/
def State.waits (s : State) (n tag : Nat) : State × Waiting := (s.setChan n { s.chan n with busy := true }, ⟨some n, tag⟩)

/-- SYNC (R459). -/
def execSync (chan : Chan) (s : State) : Out :=
  .next (s.command chan 0x00 (fun s tag _ =>
    let n := chan.toNat
    (s.setChan n { s.chan n with resync := false }).reply n rsOK tag []))

/-- VERSION (Table LANTERN-4). -/
def execVersion (chan : Chan) (s : State) : Out :=
  .next (s.command chan 0x01 (fun s tag _ =>
    s.reply chan.toNat rsOK tag [s.fld F.LANTERN_FW_RUN_VERSION, (s.reg R.LANTERN_SVN).toNat, s.fld F.LANTERN_STATUS_ACTIVE_BANK]))

/-- LOAD_PROGRAM (R462): the codes 9 and 8 first, then the checks of R187. Loads run one at a time: a command taken during another's load
waits. -/
def execLoadProgram (chan : Chan) (image : List Byte) (nets : List NetDef) (dmaOk : Bool) (s : State) : Out :=
  if s.lantern.load.isSome then .next s
  else .next (s.command chan 0x10 (fun s tag args =>
    let n := chan.toNat
    let g := argAt args 0
    let len := argAt args 3
    let img := image.take len
    if 64 ≤ g then s.reply n rsBAD_ARG tag []
    else if !s.power.hbm then s.reply n rsNOT_READY tag []
    else if 67108864 < len then s.reply n rsREFUSED tag [9]
    else if s.groupState g ≠ gsIDLE || (s.grp g).pend.isSome then s.reply n rsREFUSED tag [8]
    else if !dmaOk then s.dmaError.reply n rsDMA_ERR tag []
    else match s.imageFault img len with
    | some code => s.reply n rsREFUSED tag [code]
    | none =>
      let w := s.waits n tag
      let s1 := (w.1.setGroupState g gsLOADING).setGrp g { w.1.grp g with loading := some (img, nets) }
      { s1 with lantern := { s1.lantern with load := some ⟨w.2, g, len⟩ } }))

/-- INSPECT (R463): `bad` is the word of the range that meets an uncorrectable error. -/
def execInspect (chan : Chan) (bad : Option (BitVec 9)) (dmaOk : Bool) (s : State) : Out :=
  .next (s.command chan 0x11 (fun s tag args =>
    let n := chan.toNat
    let pos := argAt args 0
    let off := argAt args 1
    let len := argAt args 2
    let c := pos / 128 * 96 + pos % 128
    if 16384 ≤ pos || 88 ≤ pos / 128 || 96 ≤ pos % 128 || off % 8 ≠ 0 || len % 8 ≠ 0 || len < 8 || 4096 < len || sramSize < off + len then
      s.reply n rsBAD_ARG tag []
    else if (s.core c).fenced then s.reply n rsFENCED tag []
    else if !dmaOk then s.dmaError.reply n rsDMA_ERR tag []
    else
      let k := s.core c
      let m := match bad with
        | some b => min len (8 * b.toNat)
        | none => len
      let un := 0 < k.unwritten off m
      let s1 := s.hostWrite (arg64 args 3) (k.bytes off m)
      let s2 := if un then s1.bump F.HOST_UNINIT_COUNT 1 else s1
      s2.holdWords n (replyWords (if m < len then rsECC else rsOK) tag un [m])))

/-! ### Firmware (R467 to R470) -/

/-- FW_DOWNLOAD (Table LANTERN-8): the image is written into the inactive bank. -/
def execFwDownload (chan : Chan) (image : List Byte) (dmaOk : Bool) (s : State) : Out :=
  .next (s.command chan 0x20 (fun s tag args =>
    let n := chan.toNat
    let len := argAt args 2
    if s.lantern.fwJob.isSome then s.reply n rsBUSY tag []
    else match s.inactiveBank with
    | none => s.reply n rsSTATE tag []
    | some b =>
      if 1048576 < len then s.reply n rsBAD_ARG tag []
      else if !dmaOk then ((s.emptyBank b).dmaError).reply n rsDMA_ERR tag []
      else
        let h := (image.take (min len 128))
        let w := s.waits n tag
        let s1 := (w.1.setBank b fbDOWNLOADING).setHdr b h
        { s1 with lantern := { s1.lantern with fwJob := some ⟨w.2, b, h⟩ } }))

/-- FW_DOWNLOAD_DONE (R467): the bank has been written and read back. -/
def execFwDownloadDone (ok : Bool) (s : State) : Out :=
  match s.lantern.fwJob with
  | none => .next s
  | some j =>
    if !s.served then .next s
    else
      let s1 : State := { s with lantern := { s.lantern with fwJob := none } }
      .next (if ok then (s1.setBank j.bank fbDOWNLOADED).answer j.who rsOK [j.bank] else (s1.emptyBank j.bank).answer j.who rsDMA_ERR [])

/-- FW_VERIFY (R468): `sigOk` is the outcome of the hash and signature checks. -/
def execFwVerify (chan : Chan) (sigOk : Bool) (s : State) : Out :=
  .next (s.command chan 0x21 (fun s tag _ =>
    let n := chan.toNat
    match s.bankIn fbDOWNLOADED with
    | none => s.reply n rsSTATE tag []
    | some b =>
      let h := s.bankHdr b
      if !(s.hdrPasses h && sigOk) then s.reply n rsSIG_FAIL tag []
      else if hdrSvn h < s.fld F.LANTERN_SVN_MIN_SVN then s.reply n rsSVN_LOW tag []
      else (s.setBank b fbVERIFIED).reply n rsOK tag [hdrVersion h, hdrSvn h]))

/-- FW_ACTIVATE (R469): the verified bank becomes TRIAL, the ACTIVE bank FALLBACK, and the bank switch begins. -/
def execFwActivate (chan : Chan) (s : State) : Out :=
  .next (s.command chan 0x22 (fun s tag _ =>
    let n := chan.toNat
    match s.bankIn fbVERIFIED with
    | none => s.reply n rsSTATE tag []
    | some b =>
      let s1 := if s.bankState (1 - b) = fbACTIVE then s.setBank (1 - b) fbFALLBACK else s
      let s2 := ((s1.setBank b fbTRIAL).reply n rsOK tag []).setBit F.LANTERN_STATUS_SWITCHING true
      { s2 with lantern := { s2.lantern with boot := some { bank := b, switch := true } } }))

/-- BANK_SWITCH_DONE (R469): the new firmware runs; a bank that does not pass is REJECTED when in trial, and the choice of R448 is made. -/
def execBankSwitchDone (aGood bGood : Bool) (s : State) : Out :=
  match s.lantern.boot with
  | none => .next s
  | some b =>
    if !b.switch || !s.alive || s.powerLevel = 3 then .next s
    else if s.bankPasses b.bank (if b.bank = 0 then aGood else bGood) then .next (s.startBank b)
    else
      let s1 := if s.bankState b.bank = fbTRIAL then
          let a := (s.setBank b.bank fbREJECTED).alarm F.LANTERN_ALARM_FW_ROLLBACK b.bank
          ({ a with lantern := { a.lantern with rolledBack := a.lantern.rolledBack ++ [0] } } : State)
        else s
      let s2 := s1.chooseBank aGood bGood 0
      .next (match s2.lantern.boot with
        | some x => s2.startBank x
        | none => s2)

/-- FW_CONFIRM (Table LANTERN-8). -/
def execFwConfirm (chan : Chan) (s : State) : Out :=
  .next (s.command chan 0x23 (fun s tag _ =>
    let n := chan.toNat
    match s.bankIn fbTRIAL with
    | none => s.reply n rsSTATE tag []
    | some b =>
      (((s.setBank b fbACTIVE).setBit F.LANTERN_STATUS_TRIAL false).setFld F.LANTERN_SVN_MIN_SVN (max (s.fld F.LANTERN_SVN_MIN_SVN) (hdrSvn (s.bankHdr b))))
        |>.reply n rsOK tag []))

/-- FW_ROLLBACK (R470). -/
def execFwRollback (chan : Chan) (s : State) : Out :=
  .next (s.command chan 0x24 (fun s tag _ =>
    let n := chan.toNat
    if (s.bankIn fbTRIAL).isNone then s.reply n rsSTATE tag [] else (s.reply n rsOK tag []).rollbackSwitch))

/-- TRIAL_EXPIRY (R470): LANTERN_TRIAL_WAIT seconds have passed since the trial's firmware started. -/
def execTrialExpiry (s : State) : Out :=
  let w := s.fld F.LANTERN_TRIAL_WAIT_S
  if s.lanternRuns && s.bit F.LANTERN_STATUS_TRIAL && w ≠ 0 && s.lantern.trialAt + 100000000 * w ≤ s.power.clock then .next s.rollbackSwitch
  else .next s

/-- UPDATE_STATUS (Table LANTERN-4). -/
def execUpdateStatus (chan : Chan) (s : State) : Out :=
  .next (s.command chan 0x41 (fun s tag _ =>
    s.reply chan.toNat rsOK tag [(s.reg R.LANTERN_BANKS).toNat, (s.reg R.LANTERN_UPDATE).toNat]))

/-! ### Gallery mailboxes (R453, R454) -/

def tagGMBX_WRITE : Nat := 0xEF2
def tagGMBX_REQUEST : Nat := 0xEF3

/-- Does a message stand first in line at a Lantern port, and does Lantern take messages? -/
def State.atLantern (s : State) (m : Msg) : Bool :=
  s.lanternRuns && s.oldest m && (match endpoint m.dest.toNat with | .lantern _ => true | _ => false)

/-- A message discarded at a Lantern port. -/
def State.badTag (s : State) (m : Msg) : State := (s.bump F.LANTERN_BADTAG_COUNT 1).alarm F.LANTERN_ALARM_BADTAG m.src.toNat

def gmbxFull (s : State) (n : Nat) : Bool := s.regBit R.LANTERN_GMBX_STATUS n

/-- Store a word in a Gallery mailbox (R451). -/
def State.gmbxStore (s : State) (n : Nat) (w : Word) : State :=
  let s1 := if gmbxFull s n then s.setRegBit R.LANTERN_GMBX_STATUS (8 + n) true else s
  (s1.setReg (R.LANTERN_GMBX_DATA n) w).setRegBit R.LANTERN_GMBX_STATUS n true

/-- A core's write of mailbox 0 to 3. -/
def State.coreWrite (s : State) (m : Msg) : State :=
  let w := msgWord m 0
  let n := w.toNat % 4
  if m.payload.length ≠ 1 || w.toNat % 2 ^ 32 ≠ n then s.badTag m
  else ((s.gmbxStore n (w.extractLsb' 32 32)).setFld (F.LANTERN_GMBX_SRC_LOGICAL n) m.src.toNat)

/-- A core's request for mailbox 4 to 7: the reply takes the word; a reply that is sunk because its core was reset or fenced loses it. -/
def State.coreRequest (s : State) (m : Msg) : State :=
  let w := (msgWord m 0).toNat
  if m.payload.length ≠ 1 || w < 4 || 8 ≤ w then s.badTag m
  else
    let full := gmbxFull s w
    let k := s.core (s.physOf m.src.toNat)
    let data : Word64 := s.reg (R.LANTERN_GMBX_DATA w) ++ (if full then 1#32 else 0#32)
    let s1 := s.setRegBit R.LANTERN_GMBX_STATUS w false
    let s2 := s1.inject { tick := BitVec.ofNat 16 s.tick, tag := BitVec.ofNat 12 tagGMBX, src := m.dest, dest := m.src, payload := [data] }
    if full && (k.fenced || k.inReset) then (s2.bump F.LANTERN_MBX_DROP_COUNT 1).alarm F.LANTERN_ALARM_MBX_DROP w else s2

/-- Lantern takes one message at its ports; any other tag is discarded. -/
def State.takeLantern (s : State) (m : Msg) : State :=
  let s1 := s.unlist m
  if m.tag.toNat = tagGMBX_WRITE then s1.coreWrite m
  else if m.tag.toNat = tagGMBX_REQUEST then s1.coreRequest m
  else s1.badTag m

/-- GMBX_CORE_WRITE (R453): messages of every tag but 0xEF3. -/
def execGmbxCoreWrite (msg : Msg) (s : State) : Out :=
  if s.atLantern msg && msg.tag.toNat ≠ tagGMBX_REQUEST then .next (s.takeLantern msg) else .next s

/-- GMBX_CORE_REQUEST (R453). -/
def execGmbxCoreRequest (msg : Msg) (s : State) : Out :=
  if s.atLantern msg && msg.tag.toNat = tagGMBX_REQUEST then .next (s.takeLantern msg) else .next s

/-- GMBX_DATA_WRITE (R453): mailboxes 4 to 7; the data of 0 to 3 is not written by the host. -/
def execGmbxDataWrite (box : BitVec 3) (word : Word) (s : State) : Out := gate 0 s (
  if box.toNat < 4 then .next s else .next (s.gmbxStore box.toNat word))

/-- Read a Gallery mailbox: an RC read of mailboxes 0 to 3 (R453). -/
def State.gmbxRead (s : State) (n : Nat) : State :=
  if n < 4 then (s.setReg (R.LANTERN_GMBX_DATA n) 0).setRegBit R.LANTERN_GMBX_STATUS n false else s

/-- GMBX_DATA_READ (R453). -/
def execGmbxDataRead (box : BitVec 3) (s : State) : Out := gate 0 s (
  .next { s.gmbxRead box.toNat with rdata := (s.reg (R.LANTERN_GMBX_DATA box.toNat)).setWidth 64 })

end Sys2Proof.Machine
end

