-- ==== Sys2Proof/Machine/LanternLib.lean ====
section
/-! DEFINITION.  Library updates from images and owner keys (14_lantern_mailboxes_updates R466, R471 to R475). -/

namespace Sys2Proof.Machine

/-! ### Library images (R465) -/

def luNONE : Nat := 0
def luDOWNLOADING : Nat := 1
def luDOWNLOADED : Nat := 2
def luVERIFIED : Nat := 3
def luTRIAL : Nat := 4

def State.libState (s : State) : Nat := s.fld F.LANTERN_UPDATE_LIB_STATE

/-- A field of the library header, which follows the image header. -/
def lhField (l : List Byte) (off n : Nat) : Nat := sliceLE l (128 + off) n

/-- Item `i` of a library payload, and its size. -/
def State.itemSize (s : State) : Nat := 16 + s.dim / 8
def State.imgItem (s : State) (l : List Byte) (i : Nat) : List Byte := (l.drop (192 + i * s.itemSize)).take s.itemSize

/-- Are these bytes all zero? -/
def zeroBytes (l : List Byte) (off n : Nat) : Bool := ((l.drop off).take n).all (fun b => b == 0)

/-- Are the entry numbers of the items strictly rising, below `top`? -/
def risingBelow (top : Nat) : List Nat → Bool
  | [] => true
  | [a] => decide (a < top)
  | a :: b :: t => decide (a < b) && risingBelow top (b :: t)

/-- Does the image break Table LANTERN-7 or the library layout (detail 1)? -/
def State.libImageBad (s : State) (l : List Byte) (len : Nat) : Bool :=
  let n := lhField l 8 4
  let its := (List.range n).map (s.imgItem l)
  sliceLE l 0 4 != magicLibrary || sliceLE l 4 2 != 1 || 8 ≤ sliceLE l 6 1 || !zeroBytes l 7 1 || sliceLE l 12 4 != 0 ||
    !zeroBytes l 80 48 || hdrPayload l != 64 + n * s.itemSize || len != 224 + hdrPayload l ||
    1 < lhField l 0 1 || 15 < lhField l 12 1 || !zeroBytes l 141 3 || !zeroBytes l 148 44 ||
    its.any (fun b => !zeroBytes b 3 1 || !zeroBytes b 5 3 || !zeroBytes b 12 4) ||
    !risingBelow (1024 * lhField l 2 2) (its.map (fun b => sliceLE b 0 3))

/-- The detail code of a refused download, the lowest that applies (R472); none when the image is accepted. -/
def State.libRefused (s : State) (t : Nat) (l : List Byte) (len : Nat) : Option Nat :=
  let kind := lhField l 0 1
  let n := lhField l 8 4
  if s.libImageBad l len then some 1
  else if (s.libActive t && s.libKind t != kind && s.libKind t != 2) || lhField l 1 1 != s.fld F.GAL_CFG_DSEL ||
      lhField l 4 4 != (keyword s.seed 0 0 0).toNat % 2 ^ 32 then some 2
  else if s.isSpan t || (s.libActive t && s.libKind t == 2) ||
      (List.range 256).any (fun m => s.bit (F.SUMP_MTX_VALID m) && s.fld (F.SUMP_MTX_LIBRARY m) == t) then some 3
  else
    let own := if s.libActive t && s.libKind t == kind then
        (s.lib t).benches.foldl (fun a b => a + (s.entriesIn b [esVALID, esINVALID]).length) 0 else 0
    if kindLimit kind < s.kindCount kind - own + n then some 5 else none

/-- Benches a candidate may take: unassigned, erased, binary or without a format, outside the mirror reserve and not held. -/
def State.candidateBench (s : State) (b : Nat) : Bool :=
  (s.benchOf b).lib.isNone && s.benchReady b && s.benchErased b && !s.isReserved b && !s.sump.held.contains b &&
    (match (s.benchOf b).fourLevel with | some f => !f | none => true)

/-- `n` benches taken in turn across the dies, the lowest free one of each die at each turn (R472). -/
def takeTurns : Nat → List (List Nat) → Nat → List Nat
  | 0, _, _ => []
  | fuel + 1, dies, n =>
    if n = 0 || dies.all (fun d => d.isEmpty) then []
    else
      let now := (dies.filterMap List.head?).take n
      now ++ takeTurns fuel (dies.map List.tail) (n - now.length)

def State.pickCandidates (s : State) (n : Nat) : List Nat :=
  takeTurns n ((List.range 8).map (fun k => ((List.range s.perDie).map (s.devBench k)).filter s.candidateBench)) n

/-- An unassigned bench takes the binary format. -/
def State.formatBench (s : State) (b : Nat) : State :=
  let k := s.benchDie b
  let j := s.benchLocal b
  (s.benchPhys k j).foldl (fun (a : State) p => a.setTile k p { a.tileSt k p with fourLevel := false })
    (s.setBench k j { s.benchSt k j with fourLevel := some false })

/-- The batches of an image by bench: at most 64 items of one bench each. -/
def State.imageBatches (s : State) (l : List Byte) (benches : List Nat) : List (Nat × List WriteItem) :=
  let its := (List.range (lhField l 8 4)).map (fun i =>
    let b := s.imgItem l i
    (sliceLE b 0 3, WriteItem.mk (sliceLE b 0 3 % 1024) (BitVec.ofNat 32768 (sliceLE b 16 (s.dim / 8))) (sliceLE b 4 1) (sliceLE b 8 4) 0 0 s.now false))
  benches.zipIdx.flatMap (fun b =>
    let mine := (its.filter (fun x => x.1 / 1024 == b.2)).map Prod.snd
    (chunks 64 mine.length mine).map (fun g => (b.1, g)))

/-! ### The commands of Table LANTERN-10 -/

/-- LIB_DOWNLOAD (R471, R472). -/
def execLibDownload (chan : Chan) (image : List Byte) (dmaOk : Bool) (s : State) : Out :=
  .next (s.command chan 0x30 (fun s tag args =>
    let n := chan.toNat
    let t := argAt args 0
    let len := arg64 args 3
    let img := image.take len
    if 16 ≤ t then s.reply n rsBAD_ARG tag []
    else if s.libState ≠ luNONE then s.reply n rsBUSY tag []
    else if !s.sumpReady then s.reply n rsNOT_READY tag []
    else if !dmaOk then s.dmaError.reply n rsDMA_ERR tag []
    else match s.libRefused t img len with
    | some code => s.reply n rsREFUSED tag [code]
    | none =>
      let want := lhField img 2 2
      let bs := s.pickCandidates want
      if bs.length < want then s.reply n rsNO_SPACE tag []
      else
        let w := s.waits n tag
        let s1 := bs.foldl (fun (a : State) b => a.formatBench b) w.1
        let s2 := ((s1.setFld F.LANTERN_UPDATE_LIBRARY t).setFld F.LANTERN_UPDATE_LIB_STATE luDOWNLOADING).setFld F.LANTERN_UPDATE_ENTRIES 0
        let s3 : State := { s2 with
          sump := { s2.sump with held := s2.sump.held ++ bs }
          lantern := { s2.lantern with libJob := some {
            who := w.2, lib := t, kind := lhField img 0 1, version := hdrVersion img, keySlot := sliceLE img 6 1, pstep := lhField img 12 1,
            novel := lhField img 16 2, recallMask := lhField img 18 2, entries := lhField img 8 4, benches := bs,
            todo := s.imageBatches img bs } } }
        s3.feedCandidates 8))

/-- Is every item of the candidate written? -/
def State.candidateDone (s : State) (j : LibJob) : Bool :=
  j.todo.isEmpty && j.benches.all (fun b =>
    (s.entriesIn b [esINVALID]).isEmpty &&
      !((s.die (s.benchDie b)).batches.any (fun x => x.bench == some (s.benchLocal b)) ||
        (s.die (s.benchDie b)).results.any (fun x => x.bench == s.benchLocal b)))

/-- LIB_DOWNLOAD_DONE (Table LANTERN-10): every bench is written. -/
def execLibDownloadDone (s : State) : Out :=
  match s.lantern.libJob with
  | none => .next s
  | some j =>
    if s.libState ≠ luDOWNLOADING || !s.lanternRuns || !s.candidateDone j then .next s
    else .next ((s.setFld F.LANTERN_UPDATE_LIB_STATE luDOWNLOADED).answer j.who rsOK [s.fld F.LANTERN_UPDATE_ENTRIES])

/-- Run a library command on the update in progress: BAD_ARG for a library that does not exist, STATE when the update is not of that
library or in none of the states given. -/
def State.onUpdate (s : State) (n tag : Nat) (args : List Nat) (states : List Nat) (body : LibJob → State) : State :=
  if 16 ≤ argAt args 0 then s.reply n rsBAD_ARG tag []
  else match s.lantern.libJob with
  | none => s.reply n rsSTATE tag []
  | some j => if j.lib ≠ argAt args 0 || !states.contains s.libState then s.reply n rsSTATE tag [] else body j

/-- LIB_VERIFY (R466, R473): `sigOk` is the outcome of the hash and signature checks. -/
def execLibVerify (chan : Chan) (sigOk : Bool) (s : State) : Out :=
  .next (s.command chan 0x31 (fun s tag args =>
    let n := chan.toNat
    s.onUpdate n tag args [luDOWNLOADED] (fun j =>
      if !(sigOk && s.slotFilled j.keySlot) then s.reply n rsSIG_FAIL tag []
      else (s.setFld F.LANTERN_UPDATE_LIB_STATE luVERIFIED).reply n rsOK tag [j.version])))

/-- VALID entries of a bench list. -/
def State.validIn (s : State) (bs : List Nat) : Nat := bs.foldl (fun a b => a + (s.entriesIn b [esVALID]).length) 0

/-- Exchange a library's bench list: the old benches are held outside any library, the new ones join it, and the learning state follows
the new entries (R473, R474). -/
def State.swapBenches (s : State) (l : Nat) (new : List Nat) : State :=
  let old := (s.lib l).benches
  let s1 := old.foldl (fun (a : State) b => a.assignBench b none false) s
  let s2 := new.foldl (fun (a : State) b => a.assignBench b (some l) false) s1
  let s3 : State := { s2 with
    sump := { s2.sump with held := s2.sump.held.filter (fun b => !new.contains b) ++ old }
    chisel := { s2.chisel with pool := s2.chisel.pool.filter (fun p => p.lib != l) } }
  let s4 := s3.setLib l { s3.lib l with queue := (s3.lib l).queue.filter (fun q => q.begun || !decide (q.src = .chisel)) }
  let s5 := (s4.setBenches l new).setFld (F.SUMP_LIB_SIZE_VALID l) (s4.validIn new)
  let s6 := if s5.learningLib l then
      (old.foldl (fun (a : State) b => (a.entriesIn b [esVALID, esINVALID, esQUARANTINED]).foldl (fun (a : State) c => a.setShadow b c none) a) s5).seedLib l true
    else s5
  s6.countUsed.commitEnds

/-- Settings of a library. -/
def State.setLibCfg (s : State) (l : Nat) (active : Bool) (kind pstep novel mask : Nat) : State :=
  ((((s.setBit (F.SUMP_LIB_CFG_ACTIVE l) active).setFld (F.SUMP_LIB_CFG_KIND l) kind).setFld (F.SUMP_LIB_CFG_PSTEP l) pstep)
    |>.setFld (F.SUMP_LIB_NOVEL_NOVEL_DIST l) novel).setFld (F.SUMP_LIB_NOVEL_RECALL_MASK l) mask

/-- Are the library's batches, other than Chisel's not begun, all over, so that its lists may be swapped? -/
def State.swapReady (s : State) (l : Nat) : Bool :=
  (s.lib l).pend.isNone && (s.lib l).queue.all (fun q => !q.begun && decide (q.src = .chisel))

/-- LIB_ACTIVATE (R473, R474): once no batch of the target is in flight. A pending batch of appends is sent first. -/
def execLibActivate (chan : Chan) (s : State) : Out :=
  let ready := match s.lantern.libJob with
    | some j => s.swapReady j.lib || s.libState ≠ luVERIFIED
    | none => true
  let s0 := match s.lantern.libJob with
    | some j => if s.libState = luVERIFIED then s.sendPending j.lib else s
    | none => s
  if !ready then .next s0
  else .next (s.command chan 0x32 (fun s tag args =>
    let n := chan.toNat
    s.onUpdate n tag args [luVERIFIED] (fun j =>
      let l := j.lib
      let j' := { j with
        oldBenches := (s.lib l).benches, oldActive := s.libActive l, oldKind := s.libKind l, oldPstep := s.fld (F.SUMP_LIB_CFG_PSTEP l),
        oldNovel := s.fld (F.SUMP_LIB_NOVEL_NOVEL_DIST l), oldMask := s.fld (F.SUMP_LIB_NOVEL_RECALL_MASK l) }
      let s1 := (s.swapBenches l j.benches).setLibCfg l true j.kind j.pstep j.novel j.recallMask
      let s2 : State := { s1 with lantern := { s1.lantern with libJob := some j' } }
      (s2.setFld F.LANTERN_UPDATE_LIB_STATE luTRIAL).reply n rsOK tag [])))

/-- Release benches held by the update: their entries become EMPTY and they are erased (Table SUMP-2, DELETE). -/
def State.releaseHeld (s : State) (bs : List Nat) : State :=
  let s1 := bs.foldl (fun (a : State) b => a.releaseBench b) s
  let s2 : State := { s1 with sump := { s1.sump with held := s1.sump.held.filter (fun b => !bs.contains b) } }
  (bs.foldl (fun (a : State) b => a.queueErase b) s2).countUsed

/-- LIB_CONFIRM (Table LANTERN-10). -/
def execLibConfirm (chan : Chan) (s : State) : Out :=
  .next (s.command chan 0x33 (fun s tag args =>
    let n := chan.toNat
    s.onUpdate n tag args [luTRIAL] (fun j =>
      let s1 := s.releaseHeld j.oldBenches
      let s2 : State := { s1 with lantern := { s1.lantern with libJob := none } }
      (s2.setFld F.LANTERN_UPDATE_LIB_STATE luNONE).reply n rsOK tag [])))

/-- A library trial ends in rollback: lists and settings go back, the candidate is erased and released. -/
def State.libRestore (s : State) (j : LibJob) : State :=
  let s1 := (s.swapBenches j.lib j.oldBenches).setLibCfg j.lib j.oldActive j.oldKind j.oldPstep j.oldNovel j.oldMask
  let s2 := s1.releaseHeld j.benches
  let s3 : State := { s2 with lantern := { s2.lantern with libJob := none } }
  s3.setFld F.LANTERN_UPDATE_LIB_STATE luNONE

/-- The rollback with its alarm. -/
def State.libBack (s : State) (j : LibJob) : State := (s.libRestore j).alarm F.LANTERN_ALARM_LIB_ROLLBACK j.lib

/-- LIB_ROLLBACK (Table LANTERN-10): once no batch of the target is in flight. -/
def execLibRollback (chan : Chan) (s : State) : Out :=
  let ready := match s.lantern.libJob with
    | some j => s.swapReady j.lib || s.libState ≠ luTRIAL
    | none => true
  let s0 := match s.lantern.libJob with
    | some j => if s.libState = luTRIAL then s.sendPending j.lib else s
    | none => s
  if !ready then .next s0
  else .next (s.command chan 0x34 (fun s tag args =>
    let n := chan.toNat
    s.onUpdate n tag args [luTRIAL] (fun j =>
      ((s.libBack j).reply n rsOK tag []).notice ncROLLED_BACK [updateWord (1 + j.lib)])))

/-- LIB_ABORT (Table LANTERN-10): an unfinished download is answered STATE. -/
def execLibAbort (chan : Chan) (s : State) : Out :=
  .next (s.command chan 0x35 (fun s tag args =>
    let n := chan.toNat
    s.onUpdate n tag args [luDOWNLOADING, luDOWNLOADED, luVERIFIED] (fun j =>
      let s1 := if s.libState = luDOWNLOADING then s.answer j.who rsSTATE [] else s
      s1.dropCandidate.reply n rsOK tag [])))

/-! ### Owner keys (R466) -/

/-- KEY_ENROL: a key record signed by a filled, unrevoked slot writes or clears an owner slot. -/
def execKeyEnrol (chan : Chan) (image : List Byte) (sigOk dmaOk : Bool) (s : State) : Out :=
  .next (s.command chan 0x40 (fun s tag args =>
    let n := chan.toNat
    let len := argAt args 2
    let slot := sliceLE image 128 1
    let signer := sliceLE image 6 1
    if len ≠ 324 then s.reply n rsBAD_ARG tag []
    else if !dmaOk then s.dmaError.reply n rsDMA_ERR tag []
    else if sliceLE image 0 4 ≠ magicKey || sliceLE image 4 2 ≠ 1 || hdrPayload image ≠ 100 || slot < 4 || 7 < slot || 7 < signer ||
        1 < sliceLE image 129 1 || !zeroBytes image 130 2 then s.reply n rsBAD_ARG tag []
    else if !(sigOk && s.slotFilled signer) then s.reply n rsSIG_FAIL tag []
    else
      let rest := s.lantern.keys.filter (fun k => k.slot != slot)
      let ks := if sliceLE image 129 1 = 1 then rest else ⟨slot, (image.drop 132).take 96⟩ :: rest
      ({ s with lantern := { s.lantern with keys := ks } } : State).reply n rsOK tag [slot]))

/-! ### Power failure and reset during an update (Table LANTERN-11) -/

/-- The outcome of an update in progress at a reset or loss of power: a download is lost; a library update is discarded, or rolled back
from its trial. The alarms are raised at the next start. The firmware trial is rolled back at boot (R448). -/
def State.resetUpdates (s : State) : State :=
  let s1 := match s.lantern.fwJob with
    | none => s
    | some j =>
      let a : State := { s with lantern := { s.lantern with fwJob := none, updateLost := s.lantern.updateLost ++ [0] } }
      a.emptyBank j.bank
  let s2 := match s1.lantern.libJob with
    | none => s1
    | some j =>
      if s1.libState = luTRIAL then
        let a := s1.libRestore j
        { a with lantern := { a.lantern with rolledBack := a.lantern.rolledBack ++ [1 + j.lib] } }
      else
        ({ s1 with lantern := { s1.lantern with updateLost := s1.lantern.updateLost ++ [1 + j.lib] } } : State).dropCandidate
  s2

end Sys2Proof.Machine
end

