-- ==== Sys2Proof/Machine/Seam.lean ====
section
/-! DEFINITION.  The commands of the Seam dies (07_seam_arrays, 08_seam_upkeep). -/

namespace Sys2Proof.Machine

/-! ### Evaluation -/

/-- Evaluations of a bench that leaves READY and of which no pass has latched complete NOT_READY (Table SEAM-11). -/
def State.markNotReady (s : State) (k : Nat) (sel : Eval → Bool) : State :=
  let d := s.die k
  s.setDie k { d with evals := d.evals.map (fun e =>
    if sel e && e.passes.all (fun j => decide (j.st = .waiting)) then { e with notReady := true } else e) }

/-- Change a bench's state; leaving READY ends evaluations not yet latched. -/
def State.moveBenchState (s : State) (k j : Nat) (st : BenchState) : State :=
  let s1 := s.setBench k j { s.benchSt k j with state := st }
  if st = .ready then s1 else s1.markNotReady k (fun e => e.bench == j)

/-- TILE_PASS_START (R224, R225, R264): the pass's inputs are latched in a free slot, after the tile's recalibration when its
calibration is not current. A pass that drives no row takes no slot and reads zero (R226). -/
def execTilePassStart (die : Die) (bench : BitVec 13) (tag : Word) (tile : BitVec 5) (pattern : List RefRead) (s : State) : Out :=
  let k := die.toNat
  let j := bench.toNat
  match s.waitingEval k j tag.toNat tile.toNat with
  | none => .next s
  | some e =>
    if !s.dieReady k then .next s
    else match e.waitingJob tile.toNat with
    | none => .next s
    | some q =>
      let p := s.physTile k (j * (s.dim / 1024) + q.tile)
      let x := passInput e.input e.kind q
      let put := fun (a : State) (st : PassSt) =>
        a.setEval k e { e with passes := e.passes.map (fun y => if y = q then { q with st := st } else y) }
      if rowsDriven x = 0 then .next (put s (.done (List.replicate 1024 0) 0 0 0))
      else if s.passRunning k j q.tile then .next s
      else if !s.slotFree k e.cls then .next s
      else
        let s1 := if s.calCurrent k p then s else s.recalibrate k p pattern
        .next (put (s1.takeSlots k 1 false) (.running { phys := p, tile := s1.tileSt k p, input := x }))

/-- TILE_PASS_COMPLETE (R226 to R229, R240 to R248): the columns are converted under the settings of the latch point, corrected
and checked; a failed check repeats the pass in its slot up to three times, and then withholds the tile. `noise` is the
analogue deviation of a column's charge from its exact count, zero where not given. -/
def execTilePassComplete (die : Die) (bench : BitVec 13) (tag : Word) (tile : BitVec 5) (noise : List (BitVec 11 × Int)) (s : State) : Out :=
  let k := die.toNat
  match s.runningEval k bench.toNat tag.toNat tile.toNat with
  | none => .next s
  | some e =>
    match e.runningJob tile.toNat with
    | none => .next s
    | some q =>
      match q.st with
      | .running l =>
        let sr := fullRange l.tile.levels l.input.sum
        let t := passTrunc sr
        let put := fun (a : State) (st : PassSt) (again : Nat) =>
          a.setEval k e { e with retries := min 255 (e.retries + again), passes := e.passes.map (fun y => if y = q then { q with st := st } else y) }
        let s1 := (s.bump64 (R.SEAM_EVALS_LO k) 1).bump (F.SEAM_TRUNC_COUNT k) (if t = 0 then 0 else 1)
        if s.checkPasses k l noise then
          let raw := refCols.map (fun c => (s.columnRaw k l noise c : Int))
          let s2 := s1.setTile k l.phys ((s1.tileSt k l.phys).accumulate raw ((refExact l.tile.levels l.input).map Int.ofNat))
          .next (put (s2.giveSlots k 1 false) (.done (s.passCounts k l q.digits noise) l.input.sum t (corrections l)) 0)
        else if l.tries < 3 then
          .next (put (s1.bump (F.SEAM_RETRY_COUNT k) 1) (.running { l with tries := l.tries + 1 }) 1)
        else
          let s2 := ((s1.bump (F.SEAM_CHECK_FAIL_COUNT k) 1).alarm (F.SEAM_ALARM_CHECK_FAIL k) l.phys).tileFault k l.phys false
          .next (put (s2.giveSlots k 1 false) .withheld 0)
      | _ => .next s

/-- SHAFT_LINK_RETIRE (R30): the link is retired; results not acknowledged go out on the other link, and no pass is repeated.
With both links retired the die is not ready. -/
def execShaftLinkRetire (die : Die) (link : BitVec 1) (s : State) : Out :=
  let k := die.toNat
  let s1 := (s.setRegBit (R.SEAM_STATUS k) (26 + link.toNat) true).setRegBit (R.SEAM_STATUS k) (28 + link.toNat) false
  if s1.fld (F.SEAM_STATUS_SHAFT_UP k) = 0 then
    .next ((s1.setFld (F.SEAM_STATUS_DIE_READY k) 0).markNotReady k (fun _ => true))
  else .next s1

/-- SHAFT_LINK_DOWN (R272): a link goes down; with both down the die leaves ready until they return. -/
def execShaftLinkDown (die : Die) (link : BitVec 1) (s : State) : Out :=
  let k := die.toNat
  let s1 := s.setRegBit (R.SEAM_STATUS k) (28 + link.toNat) false
  if s1.fld (F.SEAM_STATUS_SHAFT_UP k) = 0 then
    .next ((s1.setFld (F.SEAM_STATUS_DIE_READY k) 0).markNotReady k (fun _ => true))
  else .next s1

/-! ### Remapping and queues -/

/-- Is the tile's bench a matrix bench in READY, or the tile's refresh one that a staging fill makes (R269)? -/
def State.byFill (s : State) (k l e : Nat) : Bool :=
  match s.benchOfTile l with
  | some (j, _) =>
    decide ((s.benchSt k j).state = .ready) &&
      (1024 ≤ e || (match (s.benchSt k j).lib with | some lb => s.libKind lb == 2 | none => false) ||
        192 < ((s.die k).refreshQ.filter (fun q => q.tile == l)).length)
  | none => false

/-- Before a column of a READY search bench is rewritten its entry is invalidated (R269, R275). A quarantined entry is left,
and nothing is written: the answer is false. -/
def State.freeColumn (s : State) (k l e : Nat) : Bool × State :=
  match s.benchOfTile l with
  | none => (true, s)
  | some (j, _) =>
    let b := s.devBench k j
    if 1024 ≤ e || (s.benchSt k j).lib = none then (true, s)
    else if (s.entry b e).state = esQUARANTINED then (false, s)
    else if (s.entry b e).state = esVALID && decide ((s.benchSt k j).state = .ready) then (true, s.setEntryState b e esINVALID)
    else (true, s)

/-- Remap a logical column (R275): the lowest free spare column takes it and is written; with none free the tile is replaced. In a
READY matrix bench the remap waits for a staging fill. -/
def State.remapColumn (s : State) (k l e : Nat) : State :=
  let p := s.physTile k l
  let t := s.tileSt k p
  if 1024 ≤ e then s.replaceTile k l
  else match t.freeSpare with
  | none => s.tileFault k p true
  | some n =>
    if s.byFill k l e then
      let d := s.die k
      if d.remapDue.contains (l, e) then s else s.setDie k { d with remapDue := d.remapDue ++ [(l, e)] }
    else
      let f := s.freeColumn k l e
      let s1 := ((f.2.setTile k p (t.remap e n)).bump (F.SEAM_REMAPS_COUNT k) 1).alarm (F.SEAM_ALARM_COLUMN_REMAPPED k) p
      if f.1 then s1.upkeepWrite k l [e] else s1

/-- Queue a column found out of margin (R266). A column out of margin again within 24 h of its refresh is a transient fault, and
its third within 24 h remaps it (Table UPKEEP-5). -/
def State.queueColumn (s : State) (k l e : Nat) (late : Bool) : State :=
  let p := s.physTile k l
  let t := s.tileSt k p
  let c := t.colOf e
  let h := tget (fun _ => []) t.refreshed c
  let again := match h with | r :: _ => decide (s.uptime < r + dayMs) | [] => false
  let recent := (h.drop 1).filter (fun x => decide (s.uptime < x + dayMs))
  if again && 2 ≤ recent.length && e < 1024 then s.remapColumn k l e
  else
    let s1 := if again then s.setTile k p { t with refreshed := tset (fun _ => []) t.refreshed c (h.take 1 ++ (s.uptime :: recent).take 2) } else s
    if (s1.die k).refreshQ.any (fun q => q.tile == l && q.col == e) then s1
    else s1.setQueue k ((s1.die k).refreshQ ++ [⟨l, e, late⟩])

/-- What a full calibration of a tile in service leads to (R260, R261, R266, R271): failing columns are remapped, a failing tile
is due for replacement, and columns out of margin are written directly in a bench check, else queued. -/
def State.afterCalibration (s : State) (k p : Nat) (cells : List CellRead) (fits : List ColFit) (withheld : Bool) : State :=
  let bad := s.outOfMargin k p cells
  let s1 := s.calibrate k p cells fits
  match s.logicalTile k p with
  | none => s1
  | some l =>
    if tileFails fits withheld then s1.tileFault k p true
    else
      let s2 := ((s.tileSt k p).failingCols fits).foldl (fun a e => a.remapColumn k l e) s1
      match s2.benchOfTile l with
      | some (j, r) =>
        let bs := s2.benchSt k j
        match bs.check with
        | some ck =>
          let s3 := s2.putBench k j { bs with check := some { done := (ck.done ++ [r]).eraseDups, cols := ck.cols ++ bad.map (fun e => (r, e.1)) } }
          if bad.isEmpty then s3.giveSlots k 1 true
          else (chunks 64 bad.length (bad.map Prod.fst)).foldl (fun a g => a.upkeepWrite k l g) s3
        | none => bad.foldl (fun a e => a.queueColumn k l e.1 e.2) s2
      | none => bad.foldl (fun a e => a.queueColumn k l e.1 e.2) s2

/-! ### Batches -/

def Batch.runs (b : Batch) : Bool := b.started

/-- BATCH_START (R39, R40, R251): a batch begins once it holds a slot for every tile it writes. A tile whose pump is retired is
replaced first (R282). -/
def execBatchStart (die : Die) (bench : BitVec 13) (s : State) : Out :=
  let k := die.toNat
  let d := s.die k
  match d.batches.find? (fun b => decide (b.target = .bench bench) && !b.started) with
  | none => .next s
  | some b =>
    if !s.dieReady k || s.writesHeld || d.batches.any (fun x => decide (x.target = .bench bench) && x.started) then .next s
    else if b.phys.any (s.unwritable k) then
      .next ((b.phys.filter (s.unwritable k)).foldl (fun a p => match a.logicalTile k p with | some l => a.replaceTile k l | none => a) s)
    else if s.slotLimit k < s.slotsActive k + b.phys.length then .next s
    else
      let s1 := s.takeSlots k b.phys.length true
      .next (s1.setDie k { s1.die k with batches := (s1.die k).batches.map (fun x => if x = b then { b with started := true } else x) })

/-- The level a batch intends for a tile index and column. -/
def Batch.want (b : Batch) (ti e : Nat) : BitVec 2048 :=
  match b.levels.find? (fun x => x.1 == (ti, e)) with
  | some x => x.2
  | none => 0

/-- Exchange two logical tiles' physical tiles (R270). -/
def State.swapTiles (s : State) (k l m : Nat) : State :=
  let p := s.physTile k l
  let q := s.physTile k m
  (s.setMap k l q).setMap k m p

/-- OFFLINE takes effect when a batch that was running on the bench has ended. -/
def State.offlineAfter (s : State) (k : Nat) (bench : Option Nat) : State :=
  match bench with
  | none => s
  | some j =>
    let bs := s.benchSt k j
    if bs.offlinePend && !((s.die k).batches.any (fun x => x.bench == some j && x.started)) then
      (s.putBench k j { bs with offlinePend := false }).moveBenchState k j .offline
    else s

/-- The end of a batch or upkeep write (R243 to R245, R252, R268, R283): cells, outliers and program counts are written, failing
columns are reported and remapped, and the result goes to Sump. -/
def State.finishBatch (s : State) (k : Nat) (b : Batch) : State :=
  let jobs := b.phys.zipIdx.flatMap (fun p => b.cols.map (fun e => (p.1, p.2, e)))
  let r := jobs.foldl (fun (acc : State × List (Nat × Nat)) x =>
    let w := acc.1.writeCol k x.1 x.2.2 (b.want x.2.1 x.2.2) (b.givenUp.filter (fun g => g.tile.toNat == x.2.1))
    (w.2, if w.1 then acc.2 ++ [(x.1, x.2.2)] else acc.2)) (s, [])
  let s1 := r.1
  let failing := (r.2.map Prod.snd).eraseDups
  let d := s1.die k
  let checking := match b.bench with | some j => decide ((s.benchSt k j).state = .checking) | none => false
  let s2 := s1.setDie k { d with
    batches := d.batches.filter (fun x => x != b), loopSum := d.loopSum + b.loops, batchSum := d.batchSum + 1,
    results := match b.bench with | some j => d.results ++ [⟨j, b.cols, failing⟩] | none => d.results }
  let s3 : State := (if b.upkeep && checking then s2 else s2.giveSlots k b.phys.length true).bump (F.SEAM_BATCHES_COUNT k) 1
  let s4 : State := if r.2.isEmpty then s3 else (s3.bump (F.SEAM_OUTLIER_OVF_COUNT k) r.2.length).alarm (F.SEAM_ALARM_OUTLIER_FULL k) ((r.2.getD 0 (0, 0)).1)
  let s5 : State := if b.upkeep then b.phys.foldl (fun a p =>
      let t := a.tileSt k p
      a.setTile k p { t with refreshed := b.cols.foldl (fun m e => tset (fun _ => []) m (t.colOf e) (a.uptime :: (tget (fun _ => []) t.refreshed (t.colOf e)).drop 1)) t.refreshed })
      (s4.bump (F.SEAM_REFRESH_COLS_COUNT k) b.cols.length) else s4
  -- a matrix version written into staging tiles takes the bench's places (R213, R270)
  let s6 : State := match b.bench with
    | some j => b.phys.zipIdx.foldl (fun a x =>
        match a.logicalTile k x.1 with
        | some m => if stagingTiles.contains m && !b.upkeep then a.swapTiles k (j * (a.dim / 1024) + x.2) m else a
        | none => a) s5
    | none => s5
  let worn := jobs.filter (fun x => s6.fld (F.SEAM_PLAN_WEAR_WEAR_LIMIT k) ≤ (s6.tileSt k x.1).wearOf ((s6.tileSt k x.1).colOf x.2.2) && x.2.2 < 1024)
  let s7 : State := if worn.isEmpty then s6 else s6.alarm (F.SEAM_UPKEEP_ALARM_WEAR_LIMIT k) ((worn.getD 0 (0, 0, 0)).1)
  let again := r.2 ++ (worn.map (fun x => (x.1, x.2.2))).filter (fun x => !r.2.contains x)
  (again.foldl (fun a x => match a.logicalTile k x.1 with | some l => a.remapColumn k l x.2 | none => a) s7).offlineAfter k b.bench

/-- PROGRAM_LOOP (R251): four erase loops, then program loops. `left` are the cells still outside their window after the loop;
one that has not risen over 8 loops in a row, or is left at the 60th program loop, is given up, and the batch ends when no
cell is left. An upkeep write not yet running takes its slot with its first loop. -/
def execProgramLoop (die : Die) (target : ProgTarget) (left : List LoopCell) (s : State) : Out :=
  let k := die.toNat
  let sel := fun b : Batch => decide (b.target = target) && (b.started || b.upkeep)
  match (s.die k).batches.find? sel with
  | none => .next s
  | some b0 =>
    let checking := match b0.bench with | some j => decide ((s.benchSt k j).state = .checking) | none => false
    if !b0.started && (!checking && s.slotLimit k < s.slotsActive k + 1 || b0.phys.any (s.unwritable k)) then
      .next ((b0.phys.filter (s.unwritable k)).foldl (fun a p => match a.logicalTile k p with | some l => a.replaceTile k l | none => a) s)
    else
      let b := { b0 with started := true }
      let s0 := if b0.started || checking then s else s.takeSlots k 1 true
      let put := fun (a : State) (x : Batch) =>
        a.setDie k { a.die k with batches := (a.die k).batches.map (fun y => if y = b0 then x else y) }
      if 0 < b.erase then .next (put s0 { b with erase := b.erase - 1 })
      else
        let own := left.filter (fun c => match b.phys[c.cell.tile.toNat]? with
          | some p => b.cols.any (fun e => (s.tileSt k p).colOf e == c.cell.col.toNat)
          | none => false)
        let held := own.map (fun c =>
          let old := match b.stuck.find? (fun x => x.1.tile == c.cell.tile && x.1.col == c.cell.col && x.1.row == c.cell.row) with
            | some x => x.2
            | none => 0
          (c.cell, if c.rose then 0 else old + 1))
        let last := decide (60 ≤ b.loops + 1)
        let given := (held.filter (fun x => last || 8 ≤ x.2)).map Prod.fst
        let rest := if last then [] else held.filter (fun x => x.2 < 8)
        let b1 := { b with loops := b.loops + 1, stuck := rest, givenUp := b.givenUp ++ given }
        let s1 := put s0 b1
        if rest.isEmpty then .next (s1.finishBatch k b1) else .next s1

/-! ### Bench commands (Table SEAM-8) -/

def State.selBench (s : State) (k : Nat) : Nat := s.fld (F.SEAM_BSEL_BENCH k)

def State.benchRefused (s : State) (k j : Nat) : State := s.alarm (F.SEAM_ALARM_CMD_REFUSED k) j

/-- OFFLINE, for the bench named by SEAM_BSEL: a batch in progress completes first. -/
def execOffline (die : Die) (s : State) : Out :=
  let k := die.toNat
  let j := s.selBench k
  gate 4 s <|
    if s.perDie ≤ j || decide ((s.benchSt k j).state ≠ .ready) then .next (s.benchRefused k j)
    else if (s.die k).batches.any (fun b => b.bench == some j && b.started) then
      .next (s.putBench k j { s.benchSt k j with offlinePend := true })
    else .next (s.moveBenchState k j .offline)

/-- ONLINE: only when the calibration of every tile is current. -/
def execOnline (die : Die) (s : State) : Out :=
  let k := die.toNat
  let j := s.selBench k
  gate 4 s <|
    if s.perDie ≤ j || decide ((s.benchSt k j).state ≠ .offline) || !((s.benchPhys k j).all (s.calCurrent k)) then .next (s.benchRefused k j)
    else .next (s.moveBenchState k j .ready)

/-- CHECK: a full check with refresh, as at start-up. -/
def execCheck (die : Die) (s : State) : Out :=
  let k := die.toNat
  let j := s.selBench k
  gate 4 s <|
    if s.perDie ≤ j || decide ((s.benchSt k j).state ≠ .offline) then .next (s.benchRefused k j)
    else .next ((s.putBench k j { s.benchSt k j with check := none }).moveBenchState k j .checking)

/-! ### Bring-up and checks -/

/-- DIE_READY (R255, R272): with a link up, a copy of the record area readable and every pump in service tested, the die becomes
ready and its benches enter CHECKING. With neither copy readable it is a permanent device fault. A retired bench stays
retired. -/
def execDieReady (die : Die) (links : BitVec 2) (copies : BitVec 2) (s : State) : Out :=
  let k := die.toNat
  let up := links.toNat &&& (3 - s.fld (F.SEAM_STATUS_SHAFT_RETIRED k))
  if !s.lanternRuns || up = 0 || s.dieReady k then .next s
  else if copies = 0 then .next (s.deviceFault 4 k)
  else if (List.range 16).any (fun p => !s.regBit (R.SEAM_PUMPS k) (16 + p) && !((s.die k).tested.contains p)) then .next s
  else
    let s1 := if copies = 3 then s else s.alarm (F.SEAM_ALARM_RECORD_ERR k) k
    let s2 := ((s1.setFld (F.SEAM_STATUS_DIE_READY k) 1).setFld (F.SEAM_STATUS_RECORD_OK k) 1).setFld (F.SEAM_STATUS_SHAFT_UP k) up
    let mine := (s2.seam.benches.filter (fun e => e.1 / 8192 == k && decide (e.2.state ≠ .retired))).map (fun e => e.1 % 8192)
    .next ((mine.foldl (fun a j => (a.putBench k j { a.benchSt k j with check := none, offlinePend := false }).moveBenchState k j .checking) s2).countSpares k)

/-- Benches of a die waiting for their check, in the order of R50. -/
def State.checkOrder (s : State) (k : Nat) : List Nat :=
  let mine := (List.range 16).flatMap (fun l => ((s.lib l).benches.filter (fun b => s.benchDie b == k)).map s.benchLocal)
  let all := mine ++ (List.range s.perDie).filter (fun j => !mine.contains j)
  all.filter (fun j => decide ((s.benchSt k j).state = .checking) && (s.benchSt k j).check.isNone)

/-- BENCH_CHECK_START (R50, R271): the die begins the next bench check once T slots are free for it. -/
def execBenchCheckStart (die : Die) (s : State) : Out :=
  let k := die.toNat
  let t := s.dim / 1024
  let running := (s.seam.benches.filter (fun e => e.1 / 8192 == k && e.2.check.isSome)).length
  match s.checkOrder k with
  | [] => .next s
  | j :: _ =>
    if !s.dieReady k || !s.upkeepRuns || s.slotLimit k / t ≤ running || s.slotLimit k < s.slotsActive k + t then .next s
    else .next ((s.putBench k j { s.benchSt k j with check := some {} }).takeSlots k t true)

/-- Rebuild or judge an entry's mirror at a bench check (R299, R300): a lost mirror is rebuilt from read-back when it agrees with
the side-record, else the entry is quarantined; an interrupted write whose mirror is lost leaves the entry EMPTY, and one whose
mirror is intact runs again. -/
def State.checkEntry (s : State) (b c : Nat) (cells : List CellRead) : State :=
  let e := s.entry b c
  if e.state = esEMPTY then s
  else match s.mirror b c with
  | none =>
    if e.state = esINVALID then
      ((s.setEntryState b c esEMPTY).alarm F.SUMP_ALARM_WRITE_LOST (b * 1024 + c)).bump F.SUMP_WRITE_FAILS_COUNT 1
    else
      let key := s.readBack b c cells
      if e.agrees s.dim key then s.setMirror e.mirror (some key) else s.quarantine b c
  | some key =>
    if e.state = esINVALID && !s.inBatch b c then
      match s.benchLib b with
      | some (l, p) => s.queueBatch l { src := .upkeep, pos := p, items := [⟨c, key, e.prio, e.cls, e.origin, e.seq, e.ts, false⟩], written := true }
      | none => s
    else s

/-- BENCH_CHECK_DONE (R271, R273, R300): every tile has been calibrated and written, and every cell of the columns written is in
window or sound; the mirrors lost are rebuilt, and the bench becomes READY. `cells` are the readings that differ from the levels
held, `copies` the other clean copies of the bench's keys (R409). -/
def execBenchCheckDone (die : Die) (bench : BitVec 13) (cells : List CellRead) (copies : List KeyCopy) (s : State) : Out :=
  let k := die.toNat
  let j := bench.toNat
  let bs := s.benchSt k j
  let t := s.dim / 1024
  match bs.check with
  | none => .next s
  | some ck =>
    let dirty := (ck.cols.map Prod.fst).eraseDups
    let clean := cells.all (fun x =>
      let p := s.physTile k (j * t + x.tile.toNat)
      !(ck.cols.contains (x.tile.toNat, ((s.tileSt k p).nameOf x.col.toNat).getD 0)) || !s.watched k (s.cellDev k p x))
    if bs.state ≠ .checking || !((List.range t).all ck.done.contains) || !clean || !s.sumpReady ||
        (s.die k).batches.any (fun b => b.bench == some j) || (s.die k).replaceDue.any (fun l => l / t == j) then .next s
    else
      let b := s.devBench k j
      let s0 := (s.entriesIn b [esVALID, esINVALID, esQUARANTINED]).foldl (fun a c => a.checkEntry b c cells) s
      let s1 := (copies.filter (fun x => x.bench.toNat == b)).foldl (fun (a : State) x => a.resolveCopy x) s0
      let s2 : State := match bs.lib with
        | some l => if s1.learningLib l then ((s1.entriesIn b [esVALID]).filter (fun c => (s1.shadow b c).isNone)).foldl (fun a c => a.seed1 b c) s1 else s1
        | none => s1
      .next (((s2.putBench k j { s2.benchSt k j with check := none }).giveSlots k dirty.length true).moveBenchState k j .ready).countUsed

/-- FULL_CALIBRATION (R260, R261). -/
def execFullCalibration (die : Die) (phys : BitVec 16) (cells : List CellRead) (fits : List ColFit) (withheld : Bool) (s : State) : Out :=
  let k := die.toNat
  let p := phys.toNat
  if !s.dieReady k || physTiles ≤ p || s.tileRole k p = 3 then .next s
  else
    let s1 := s.afterCalibration k p cells fits withheld
    let d := s1.die k
    .next (s1.setDie k { d with calDue := d.calDue.filter (fun l => s.physTile k l != p) })

/-! ### Upkeep -/

/-- RECALIBRATION_DUE (R262, R263): a tile in service whose interval has passed, or that RECAL_NOW names, is recalibrated. -/
def execRecalibrationDue (die : Die) (tile : BitVec 15) (pattern : List RefRead) (s : State) : Out :=
  let k := die.toNat
  let p := s.physTile k tile.toNat
  let due := match (s.tileSt k p).calAt with
    | none => true
    | some (at_, _) => at_ + s.fld (F.SEAM_PLAN_TIME_RECAL_MS k) ≤ s.uptime || at_ < (s.die k).recalFrom
  if s.dieReady k && due then .next (s.recalibrate k p pattern) else .next s

/-- PATROL_TILE (R265 to R267): the tile at the patrol position has a full calibration, and late cells are counted and shorten the
patrol interval. The visit waits for a batch running on the tile. -/
def execPatrolTile (die : Die) (cells : List CellRead) (fits : List ColFit) (withheld : Bool) (s : State) : Out :=
  let k := die.toNat
  let l := s.fld (F.SEAM_UPKEEP_STATUS_PATROL_POS k)
  let p := s.physTile k l
  let d := s.die k
  if !s.dieReady k || !s.upkeepRuns || d.roundDone || d.batches.any (fun b => b.started && b.phys.contains p) then .next s
  else
    let late := ((s.outOfMargin k p cells).filter Prod.snd).length
    let fl := cells.countP (fun x => flipped (s.cellDev k p x) && (s.tileSt k p).inUse x.col.toNat && x.col.toNat != 0 && x.col.toNat != 1063)
    let s1 := s.afterCalibration k p cells fits withheld
    let s2 := if late = 0 then s1 else
      (((s1.bump (F.SEAM_DRIFT_LATE_COUNT k) late).alarm (F.SEAM_UPKEEP_ALARM_DRIFT_LATE k) p).setFld (F.SEAM_PLAN_TIME_PATROL_H k)
        (max 1 (s1.fld (F.SEAM_PLAN_TIME_PATROL_H k) / 2)))
    let s3 := if fl = 0 then s2 else (s2.bump (F.SEAM_FLIPPED_COUNT k) fl).alarm (F.SEAM_UPKEEP_ALARM_FLIPPED k) p
    let s4 := s3.setFld (F.SEAM_UPKEEP_STATUS_PATROL_POS k) ((l + 1) % logicalTiles)
    .next (if l + 1 = logicalTiles then s4.setDie k { s4.die k with roundDone := true } else s4)

/-- Begin a patrol round at logical tile 0. -/
def State.beginRound (s : State) (k : Nat) : State :=
  (s.setFld (F.SEAM_UPKEEP_STATUS_PATROL_POS k) 0).setDie k { s.die k with roundAt := s.uptime, roundDone := false }

/-- PATROL_ROUND (R265, R266): the interval has passed and a new round begins; the spare tiles whose fit failed in the last
interval are retired. -/
def execPatrolRound (die : Die) (badSpares : List (BitVec 16)) (s : State) : Out :=
  let k := die.toNat
  if !s.dieReady k || !s.upkeepRuns || s.uptime < (s.die k).roundAt + 3600000 * s.fld (F.SEAM_PLAN_TIME_PATROL_H k) then .next s
  else
    let bad := (badSpares.map (fun p => p.toNat)).filter (fun p => p < physTiles && s.tileRole k p == 2)
    .next (((bad.foldl (fun a p => a.retireTile k p) s).beginRound k).countSpares k)

/-- Order of a refresh job (R268): late before watched, then ascending library number, then the rest. -/
def State.jobKey (s : State) (k : Nat) (j : RefreshJob) : Nat :=
  (if j.late then 0 else 100) + (match s.benchOfTile j.tile with
    | some (b, _) => (match (s.benchSt k b).lib with | some l => l | none => 16)
    | none => 16)

/-- The job that comes first. -/
def State.firstJob (s : State) (k : Nat) : List RefreshJob → Option RefreshJob
  | [] => none
  | j :: t => match s.firstJob k t with
    | none => some j
    | some x => if s.jobKey k x < s.jobKey k j then some x else some j

/-- REFRESH (R268, R269): the first queued columns of one tile, up to 64, are rewritten by an upkeep write in an upkeep slot. The
entry of a search column of a READY bench is invalidated first; a column whose entry is in a batch, or quarantined, is dropped. -/
def execRefresh (die : Die) (s : State) : Out :=
  let k := die.toNat
  let q := (s.die k).refreshQ
  match s.firstJob k (q.filter (fun j => !s.byFill k j.tile j.col)) with
  | none => .next s
  | some f =>
    let p := s.physTile k f.tile
    if !s.dieReady k || !s.upkeepRuns || s.writesHeld || (s.upkeepFloor k ≤ s.slotsUpkeep k && s.slotLimit k ≤ s.slotsActive k) then .next s
    else if s.unwritable k p then .next (s.replaceTile k f.tile)
    else
      let grp := (q.filter (fun j => j.tile == f.tile && j.late == f.late && !s.byFill k j.tile j.col)).take 64
      let s0 := s.setQueue k (q.filter (fun j => !grp.contains j))
      let live := grp.filter (fun j => match s.benchOfTile j.tile with
        | some (b, _) => !s.inBatch (s.devBench k b) j.col
        | none => true)
      let r := live.foldl (fun (acc : State × List Nat) j =>
        let g := acc.1.freeColumn k j.tile j.col
        (g.2, if g.1 then acc.2 ++ [j.col] else acc.2)) (s0, [])
      if r.2.isEmpty then .next r.1
      else
        let s1 := r.1.upkeepWrite k f.tile r.2
        let d := s1.die k
        .next ((s1.setDie k { d with batches := d.batches.dropLast ++ (d.batches.drop (d.batches.length - 1)).map (fun b => { b with started := true }) }).takeSlots k 1 true)

/-- Fixed columns written by a fill: four reference and two checksum columns. -/
def fillFixed : List Nat := [1, 2, 3, 1060, 1061, 1062].map (fun c => 1024 + c)

/-- The columns of logical tile `l` as a fill writes them. -/
def State.fillLevels (s : State) (k l : Nat) : List (Nat × BitVec 2048) :=
  let p := s.physTile k l
  ((List.range 1024).map (fun e => (e, match s.benchOfTile l with
    | some (j, r) => s.intendedCol k j r e
    | none => s.cellCol k p ((s.tileSt k p).colOf e)))) ++ fillFixed.map (fun e => (e, 0))

/-- Fill physical tile `q` with columns under a column map (R270, R276). -/
def State.fillTile (s : State) (k q : Nat) (four : Bool) (colmap : List (Nat × Nat)) (cols : List (Nat × BitVec 2048)) (stuck : List CellRead) : State :=
  let s0 := s.setTile k q { s.tileSt k q with fourLevel := four, colmap := colmap, outliers := [] }
  (cols.foldl (fun a e => (a.writeCol k q e.1 e.2 stuck).2) s0).bump (F.SEAM_FILLS_COUNT k) 1

/-- Is a staging fill due for a tile: a refresh or a remap that R269 or R275 makes that way? -/
def State.fillDue (s : State) (k l : Nat) : Bool :=
  (s.die k).refreshQ.any (fun q => q.tile == l && s.byFill k l q.col) || (s.die k).remapDue.any (fun r => r.1 == l)

/-- STAGING_FILL (R270): a staging tile is written with the tile's columns under its column map, remaps due included, and
calibrated. A staging tile that fails its fit is retired. -/
def execStagingFill (die : Die) (tile : BitVec 15) (stuck : List CellRead) (fits : List ColFit) (s : State) : Out :=
  let k := die.toNat
  let l := tile.toNat
  let d := s.die k
  match s.freeStaging k with
  | [] => .next s
  | m :: _ =>
    if !s.dieReady k || s.writesHeld || !s.fillDue k l || d.fills.any (fun f => f.1 == l) || s.unwritable k (s.physTile k m) then .next s
    else
      let q := s.physTile k m
      let t := s.tileSt k (s.physTile k l)
      let t1 := (d.remapDue.filter (fun r => r.1 == l)).foldl (fun a r => match a.freeSpare with | some n => a.remap r.2 n | none => a) t
      let s1 := (s.fillTile k q t.fourLevel t1.colmap (s.fillLevels k l) stuck).calibrate k q [] fits
      if tileFails fits false || !((s1.tileSt k q).failingCols fits).isEmpty then .next (s1.retireTile k q)
      else .next (s1.setDie k { s1.die k with fills := (s1.die k).fills ++ [(l, m)] })

/-- STAGING_SWAP (R270): the staging tile and the old tile exchange places in the tile map. -/
def execStagingSwap (die : Die) (tile : BitVec 15) (s : State) : Out :=
  let k := die.toNat
  let l := tile.toNat
  let d := s.die k
  match d.fills.find? (fun f => f.1 == l) with
  | none => .next s
  | some f =>
    let cols := (d.refreshQ.filter (fun q => q.tile == l)).length
    let maps := (d.remapDue.filter (fun r => r.1 == l)).length
    let s1 := (s.swapTiles k l f.2).setDie k { d with fills := d.fills.filter (fun x => x.1 != l), remapDue := d.remapDue.filter (fun r => r.1 != l) }
    let s2 := (s1.setQueue k (d.refreshQ.filter (fun q => q.tile != l))).bump (F.SEAM_REFRESH_COLS_COUNT k) cols
    .next (if maps = 0 then s2 else (s2.bump (F.SEAM_REMAPS_COUNT k) maps).alarm (F.SEAM_ALARM_COLUMN_REMAPPED k) (s2.physTile k l))

/-- Order of R282 for an unwritable tile: pillar, write pending, library in ascending number, the rest. -/
def State.unwritableKey (s : State) (k l : Nat) : Nat :=
  if usableTiles ≤ l then 0
  else match s.benchOfTile l with
    | none => 100
    | some (j, _) =>
      if (s.die k).refreshQ.any (fun q => q.tile == l) || (s.die k).batches.any (fun b => b.bench == some j) then 1
      else match (s.benchSt k j).lib with | some lb => 2 + lb | none => 100

/-- Tiles in service on retired pumps. -/
def State.unwritableTiles (s : State) (k : Nat) : List Nat :=
  (List.range logicalTiles).filter (fun l => s.unwritable k (s.physTile k l) && s.physTile k l < physTiles)

/-- TILE_REPLACE (R276, R282): the spare takes the logical number and is filled, the failed tile is retired, and its bench is
checked in CHECKING. A tile is replaced when it is due, or when it is next among the tiles of retired pumps. -/
def execTileReplace (die : Die) (tile : BitVec 15) (stuck : List CellRead) (s : State) : Out :=
  let k := die.toNat
  let l := tile.toNat
  let p := s.physTile k l
  let due := (s.die k).replaceDue.contains l ||
    (s.unwritable k p && (s.unwritableTiles k).all (fun m => s.unwritableKey k l ≤ s.unwritableKey k m))
  match s.pickSpare k p with
  | none => .next s
  | some q =>
    if !s.dieReady k || !due then .next s
    else
      let cols := s.fillLevels k l
      let t := s.tileSt k p
      let s1 : State := match s.benchOfTile l with
        | some (j, _) =>
          let bs := s.benchSt k j
          let keep := if bs.state = BenchState.checking then bs.check.map (fun (c : BenchCheck) => { c with done := c.done.filter (fun r => r != l % (s.dim / 1024)) }) else none
          (s.putBench k j { bs with check := keep }).moveBenchState k j .checking
        | none => s
      let s2 := ((s1.setMap k l q).fillTile k q t.fourLevel [] cols stuck).retireTile k p
      let d := s2.die k
      .next ((s2.setDie k { d with replaceDue := d.replaceDue.filter (· != l), remapDue := d.remapDue.filter (fun r => r.1 != l) }).countSpares k)

/-- May a bench receive the entries of a bench that moves (R277)? -/
def State.moveTarget (s : State) (four : Option Bool) (b : Nat) : Bool :=
  let x := s.benchOf b
  x.lib.isNone && s.benchReady b && (x.fourLevel == none || x.fourLevel == four) && !s.isReserved b && !s.sump.held.contains b && s.benchErased b

/-- The bench taken for a move: the same die's lowest, else the lowest of the other dies. -/
def State.pickMove (s : State) (b : Nat) : Option Nat :=
  let four := (s.benchOf b).fourLevel
  let all := List.range (8 * s.perDie)
  match all.find? (fun x => s.benchDie x == s.benchDie b && s.moveTarget four x) with
  | some x => some x
  | none => all.find? (fun x => s.benchDie x != s.benchDie b && s.moveTarget four x)

/-- Copy a bench's entries to another bench at its position: entry numbers stay (R294), every valid entry is written anew. -/
def State.copyBench (s : State) (l p b x : Nat) : State :=
  let four := (s.benchOf b).fourLevel.getD false
  let cols := s.entriesIn b [esVALID, esINVALID, esQUARANTINED]
  let items := cols.filterMap (fun c => (s.mirror b c).map (fun key =>
    let e := s.entry b c
    (WriteItem.mk c key e.prio e.cls e.origin e.seq e.ts false, e.state)))
  let s1 := cols.foldl (fun a c => a.setEntry b c {}) s
  let s2 := (s1.setBenches l ((s1.lib l).benches.map (fun y => if y = b then x else y))).assignBench x (some l) four
  let s3 := items.foldl (fun a i =>
    (a.writeEntry x i.1).setEntryState x i.1.col (if i.2 = esQUARANTINED then esQUARANTINED else esINVALID)) s2
  let live := (items.filter (fun i => i.2 != esQUARANTINED)).map Prod.fst
  let s4 := cols.foldl (fun a c => match s.shadow b c with | some sh => (a.setShadow b c none).setShadow x c (some sh) | none => a) s3
  (chunks 64 live.length live).foldl (fun a g => a.queueBatch l { src := .move, pos := p, items := g, written := true }) s4

/-- The responding peers in the order position + 1, − 1, + 2, − 2 and onward (R376). -/
def State.peerOrder (s : State) : List Nat :=
  ((List.range 7).flatMap (fun i => (s.position + (i + 1)) :: (if i + 1 ≤ s.position then [s.position - (i + 1)] else []))).filter
    (fun m => s.responding.contains m)

/-- Use a peer's mirror bench for a bench of a SPAN share that has no bench to move to (R376): its key mirrors and side-records
travel in MIRROR frames of 2,048 bytes, and its entries are absent here. -/
def State.mirrorAway (s : State) (l p b : Nat) : State :=
  match if s.inChain && s.bit (F.TUNNEL_LIB_SPAN l) && (s.awayPeer l p).isNone && decide (s.libKind l ≠ 2) then s.peerOrder.head? else none with
  | none => s
  | some m =>
    let cols := List.range 1024
    let keys := cols.flatMap (fun c => keyBytes s.dim ((s.mirror b c).getD 0))
    let recs := cols.flatMap (fun c => (s.entry b c).bytes)
    let parts := chunks 2048 (keys.length + recs.length) (keys ++ recs)
    let g := (s.fld (F.TUNNEL_LIB_RANGE_BASE l) + p) % 65536
    let s1 := parts.zipIdx.foldl (fun (a : State) x => a.sendTo (a.mkFrame ftMIRROR m 0 (l + g * 65536 + x.2 * 2 ^ 32) 0 x.1)) s
    let s2 := (s.entriesIn b [esVALID, esINVALID, esQUARANTINED]).foldl (fun (a : State) c => a.setEntry b c {}) s1
    { s2 with tunnel := { s2.tunnel with away := s2.tunnel.away ++ [(l, p, m)] } }

/-- BENCH_MOVE (R277): a replacement is due and no sound spare tile remains; the bench goes to MOVING, and Sump copies its valid
entries to a spare bench, or waits for the first that becomes free. -/
def execBenchMove (die : Die) (bench : BitVec 13) (s : State) : Out :=
  let k := die.toNat
  let j := bench.toNat
  let b := s.devBench k j
  let bs := s.benchSt k j
  let t := s.dim / 1024
  let bad := (s.die k).replaceDue.filter (fun l => l / t == j && l < s.perDie * t)
  let start := !bad.isEmpty && (s.spareTiles k).isEmpty && decide (bs.state = .checking ∨ bs.state = .ready)
  let wait := decide (bs.state = .moving) && !s.sump.moving.any (fun m => m.1 == b)
  if s.perDie ≤ j || !(start || wait) then .next s
  else
    let s1 : State := if start then
        (bad.foldl (fun a l => a.retireTile k (a.physTile k l))
          ((s.putBench k j { bs with check := none }).moveBenchState k j .moving)).alarm (F.SEAM_UPKEEP_ALARM_NO_SPARE_TILE k) j
      else s
    let d := s1.die k
    let s2 := s1.setDie k { d with replaceDue := d.replaceDue.filter (fun l => !bad.contains l) }
    match s2.benchLib b with
    | none => .next s2
    | some (l, p) =>
      match s2.pickMove b with
      | none => .next (s2.mirrorAway l p b)
      | some x =>
        let s3 : State := { s2 with sump := { s2.sump with moving := s2.sump.moving ++ [(b, x)] } }
        match if s3.libKind l = 2 then s3.matrixOn l p else none with
        | none => .next (s3.copyBench l p b x)
        | some m => .next ((s3.copyBench l p b x).queueBatch l { src := .move, pos := p, items := [], matrix := some (m, 0, []) })

/-! ### Pumps, ageing and plans -/

/-- Retire a pump (R280 to R282): a batch running on one of its tiles ends with every column failing and its cells of unknown
level, and its spare tiles are lost. -/
def State.retirePump (s : State) (k p : Nat) : State :=
  let s0 := ((s.setRegBit (R.SEAM_PUMPS k) (16 + p) true).setRegBit (R.SEAM_PUMPS k) p false).alarm (F.SEAM_ALARM_PUMP_RETIRED k) p
  let hit := (s0.die k).batches.filter (fun b => b.started && b.phys.any (fun q => pumpOf q == p))
  let s1 := hit.foldl (fun a b =>
    let d := a.die k
    let a1 := (a.setDie k { d with
      batches := d.batches.filter (fun x => x != b),
      results := match b.bench with | some j => d.results ++ [⟨j, b.cols, b.cols⟩] | none => d.results }).giveSlots k b.phys.length true
    (b.phys.flatMap (fun q => b.cols.map (fun e => (q, e)))).foldl (fun a x =>
      let t := a.tileSt k x.1
      let c := t.colOf x.2
      let d := a.draw
      (d.2.setCellCol k x.1 c (BitVec.ofNat 2048 (Config.freeNat d.1))).setTile k x.1 { t with wear := aset t.wear c (min 65535 (t.wearOf c + 1)) }) a1) s0
  s1.countSpares k

/-- PUMP_SOFT_START (R278 to R281): the pump reaches its target, makes a slow start and retries, or shows a short and is retired at
once. -/
def execPumpSoftStart (die : Die) (pump : BitVec 4) (outcome : PumpStart) (s : State) : Out :=
  let k := die.toNat
  let p := pump.toNat
  if !s.alive || s.regBit (R.SEAM_PUMPS k) (16 + p) then .next s
  else match outcome with
  | .ok =>
    let d := s.die k
    .next ((s.setDie k { d with tested := (d.tested ++ [p]).eraseDups }).setRegBit (R.SEAM_PUMPS k) p true)
  | .slow =>
    let r := (s.bump (F.SEAM_PUMP_FAULTS_COUNT k) 1).recordFault (.pump k p) false
    .next (if r.1 then r.2.retirePump k p else r.2)
  | .short =>
    let r := (s.bump (F.SEAM_PUMP_FAULTS_COUNT k) 1).recordFault (.pump k p) true
    .next ((r.2.retirePump k p).alarm (F.SEAM_UPKEEP_ALARM_PUMP_SHORT k) p)

/-- PUMP_STOP (R278): 1 ms after its last busy part. -/
def execPumpStop (die : Die) (pump : BitVec 4) (s : State) : Out :=
  let k := die.toNat
  if (s.die k).batches.any (fun b => b.started && b.phys.any (fun q => pumpOf q == pump.toNat)) then .next s
  else .next (s.setRegBit (R.SEAM_PUMPS k) pump.toNat false)

/-- OSC_READ (R286): the slowdown of each ring oscillator. -/
def execOscRead (die : Die) (slowdown : List (BitVec 16)) (s : State) : Out :=
  .next ((slowdown.take 16).zipIdx.foldl (fun a x => a.setFld (F.SEAM_OSC_SLOWDOWN die.toNat x.2) x.1.toNat) s)

/-- SERVICE_DAY_ADVANCE (R284): another whole day of powered time is complete; every die's wear line follows. -/
def execServiceDayAdvance (s : State) : Out :=
  let d := s.fld (F.SEAM_PLAN_INFO_DAYS 0)
  if s.uptime / dayMs ≤ d then .next s
  else .next ((List.range 8).foldl (fun a k => a.setFld (F.SEAM_PLAN_INFO_DAYS k) (min 65535 (d + 1))) s)

/-- The voltage guard band (Table UPKEEP-6): 10 mV + 4 mV per 1 %, rounded up to 5 mV. -/
def guardBand (slow : Nat) : Nat := min 40 ((1000 + 4 * slow + 499) / 500 * 5)

/-- The patrol interval of the plan in hours, before its limits: (F − A) / (2 r). -/
def patrolHours (f a drift : Nat) : Nat := if drift = 0 then 168 else (f - a) * 24000000 / (2048 * drift)

/-- A new plan of a die (R287, R288, Table UPKEEP-6), its rules in the order listed. -/
def State.newPlan (s : State) (k : Nat) (m : Measure) : State :=
  let d := s.die k
  let slow := (List.range 16).foldl (fun a p => max a (s.fld (F.SEAM_OSC_SLOWDOWN k p))) 0
  let v := if 40 * d.batchSum < d.loopSum then 102 else if 10000 < m.drift then 61 else 82
  let f0 := s.fld (F.SEAM_PLAN_MARGIN_F k)
  let f := if m.residueHigh then max 205 (f0 - 20) else f0
  let a0 := max (s.fld (F.SEAM_PLAN_MARGIN_A k)) (v + 82)
  let a1 := if patrolHours f a0 m.drift < 1 then a0 - 20 else a0
  let a := min (max a1 (v + 82)) (f - 41)
  let hrs := min 168 (max 1 (patrolHours f a m.drift))
  let r0 := s.fld (F.SEAM_PLAN_TIME_RECAL_MS k)
  let rc := if 2500 < m.change then max 500 (r0 / 2) else if m.change < 625 then min 8000 (2 * r0) else r0
  let c0 := s.fld (F.SEAM_PLAN_WEAR_COMMIT_CEIL k)
  let c := if m.highDrift then max 6000 (c0 - 500) else c0
  let s1 := ((((((s.setFld (F.SEAM_PLAN_GUARD_GUARD_MV k) (guardBand slow)).setFld (F.SEAM_PLAN_MARGIN_V k) v).setFld (F.SEAM_PLAN_MARGIN_F k) f)
    |>.setFld (F.SEAM_PLAN_MARGIN_A k) a).setFld (F.SEAM_PLAN_TIME_PATROL_H k) hrs).setFld (F.SEAM_PLAN_TIME_RECAL_MS k) rc).setFld (F.SEAM_PLAN_WEAR_COMMIT_CEIL k) c
  let s2 := ((s1.bump (F.SEAM_PLAN_INFO_PLAN k) 1).setDie k { s1.die k with
    loopSum := 0, batchSum := 0, lastPlanDay := s1.fld (F.SEAM_PLAN_INFO_DAYS k), planned := true }).alarm (F.SEAM_UPKEEP_ALARM_PLAN_CHANGED k) k
  -- ceilings: a four-level column with 4 or more top-level give-ups falls to 2; a binary one is remapped
  let mine := (s2.seam.tiles.filter (fun e => e.1 / physTiles == k)).map (fun e => e.1 % physTiles)
  mine.foldl (fun a p =>
    let t := a.tileSt k p
    let hot := (t.giveups.filter (fun g => 4 ≤ g.2)).map Prod.fst
    let a1 := a.setTile k p { t with giveups := [], ceil := if t.fourLevel then hot.foldl (fun z c => tset (fun _ => 3) z c 2) t.ceil else t.ceil }
    if t.fourLevel then a1
    else match a1.logicalTile k p with
      | some l => (hot.filterMap t.nameOf).foldl (fun z e => if e < 1024 then z.remapColumn k l e else z) a1
      | none => a1) s2

/-- PLAN_DUE (R287): thirty service days have passed, or the first start after Off; every die has a new plan. -/
def execPlanDue (measures : List Measure) (s : State) : Out :=
  if !s.upkeepRuns then .next s
  else .next ((measures.take 8).zipIdx.foldl (fun a m =>
    let d := a.die m.2
    if !d.planned || d.lastPlanDay + 30 ≤ a.fld (F.SEAM_PLAN_INFO_DAYS m.2) then a.newPlan m.2 m.1 else a) s)

/-- REPLAN (R287). -/
def execReplan (die : Die) (measure : Measure) (s : State) : Out := gate 4 s (.next (s.newPlan die.toNat measure))

/-- RECAL_NOW (R291): every tile of the die is due for recalibration once. -/
def execRecalNow (die : Die) (s : State) : Out :=
  gate 4 s (.next (s.setDie die.toNat { s.die die.toNat with recalFrom := s.uptime }))

/-- PATROL_NOW (R291): the round in progress is abandoned and a new one begins. -/
def execPatrolNow (die : Die) (s : State) : Out := gate 4 s (.next (s.beginRound die.toNat))

end Sys2Proof.Machine
end

