-- ==== Sys2Proof/Machine/Tunnel.lean ====
section
/-! DEFINITION.  The commands of the cascade (11_cascade): chain states, HELLOs, frames and their replay, forwarded and served requests,
appends and tokens, mirror benches, chain barriers. -/

namespace Sys2Proof.Machine

/-! ### Ports -/

def State.setState (s : State) (st : Nat) : State :=
  (s.setFld F.TUNNEL_STATUS_STATE st).setFld F.TUNNEL_STATUS_READY (if st = tsMEMBER ∨ st = tsBROKEN then 1 else 0)

/-- Lanes a port runs on: all eight, or the four-lane half without a retired lane; none with one retired in each half (R362). -/
def lanesUp (retired : Nat) : Nat :=
  if retired = 0 then 0xFF else if retired % 16 = 0 then 0x0F else if retired / 16 = 0 then 0xF0 else 0

/-- Show a port's lanes and whether it is up. -/
def State.showPort (s : State) (p : Nat) (up : Bool) : State :=
  let l := lanesUp (s.fld (F.TUNNEL_PORT_STATUS_LANE_RETIRED p))
  let on := up && l != 0
  let s1 := ((s.setBit (F.TUNNEL_PORT_STATUS_UP p) on).setFld (F.TUNNEL_PORT_STATUS_LANE_UP p) (if on then l else 0)).setBit
    (F.TUNNEL_PORT_STATUS_HALF p) (on && l != 0xFF)
  s1.setRegBit R.TUNNEL_STATUS (10 + p) on

/-- A port goes down. -/
def State.portFalls (s : State) (p : Nat) : State :=
  if !s.portUp p then s
  else ((s.showPort p false).setBit (F.TUNNEL_PORT_STATUS_HELLO_OK p) false).setTPort p { s.tport p with downAt := some s.now }

/-- A lane fault (R362): a fast retrain, or on the third within 24 h the lane's retirement. -/
def State.laneFault (s : State) (p lane : Nat) : State :=
  let r := s.recordFault (.tunnelLane p lane) false
  if !r.1 then r.2.bump (F.TUNNEL_PORT_RETRAIN_COUNT p) 1
  else
    let s1 := (r.2.setRegBit (R.TUNNEL_PORT_STATUS p) (8 + lane) true).alarm F.TUNNEL_ALARM_LANE_RETIRED p
    if lanesUp (s1.fld (F.TUNNEL_PORT_STATUS_LANE_RETIRED p)) = 0 then s1.portFalls p else s1.showPort p (s1.portUp p)

/-- TUNNEL_LANE_FAULT (R362). -/
def execTunnelLaneFault (port : TPort) (lane : BitVec 3) (s : State) : Out :=
  if s.portUp port.toNat then .next (s.laneFault port.toNat lane.toNat) else .next s

/-! ### Members and HELLO (R368, R369) -/

/-- The generation a device advertises: its token's, or 0 when it holds none. -/
def State.heldGen (s : State) (l : Nat) : Nat := if s.holdsToken l then s.fld (F.TUNNEL_LIB_GEN_GEN l) else 0

/-- The device's own HELLO content (R369). SEED_CHECK is that of Table FLINT-11. -/
def State.ownHello (s : State) : HelloRec :=
  { n := s.chainSize, position := s.position, role := s.fld F.TUNNEL_CFG_ROLE, seedCheck := (keyword s.seed 0 0 0).toNat % 2 ^ 32, dim := s.dim
    libs := (List.range 16).map (fun l => {
      active := s.libActive l, span := s.isSpan l, kind := s.libKind l, pstep := s.pstep l, novelDist := s.fld (F.SUMP_LIB_NOVEL_NOVEL_DIST l)
      recallMask := s.fld (F.SUMP_LIB_NOVEL_RECALL_MASK l), append := s.bit (F.SUMP_LIB_CFG_APPEND l)
      base := s.fld (F.TUNNEL_LIB_RANGE_BASE l), len := s.fld (F.TUNNEL_LIB_RANGE_LEN l), gen := s.heldGen l }) }

/-- Are the settings of R353 equal, where both hold the SPAN library ACTIVE? -/
def sameSettings (a b : HelloLib) : Bool :=
  !(a.span && b.span && a.active && b.active) ||
    (a.kind == b.kind && a.pstep == b.pstep && a.novelDist == b.novelDist && a.recallMask == b.recallMask && a.append == b.append)

/-- Are two SPAN ranges disjoint, and does each end at or below position 16,383 (R352)? -/
def rangesOk (a b : HelloLib) : Bool :=
  !(a.span && b.span) ||
    (decide (a.base + a.len ≤ 16383) && decide (b.base + b.len ≤ 16383) &&
      (a.len == 0 || b.len == 0 || decide (a.base + a.len ≤ b.base) || decide (b.base + b.len ≤ a.base)))

/-- Does a HELLO received on port p agree with this device and with what it has heard (R369)? -/
def State.helloAgrees (s : State) (p : Nat) (h : HelloRec) : Bool :=
  let o := s.ownHello
  let others := s.tunnel.hellos.filterMap Prod.snd
  h.n == o.n && h.dim == o.dim && h.seedCheck == o.seedCheck && h.position != o.position && decide (h.position < o.n) &&
    (if p = 0 then decide (o.position < h.position) else decide (h.position < o.position)) &&
    (o :: others.filter (fun x => x.position != h.position)).all (fun x =>
      (x.libs.zip h.libs).all (fun y => sameSettings y.1 y.2 && rangesOk y.1 y.2))

def helloDefault (_ : Nat) : Option HelloRec := none
def State.helloOf (s : State) (m : Nat) : Option HelloRec := tget helloDefault s.tunnel.hellos m

/-- A HELLO frame of this device. The layout of the compare record is not given; its content travels with the command. -/
def State.helloFrame (s : State) : Frame := s.mkFrame ftHELLO 0xFF 0 (s.chainSize * 256 + s.position) 0 []

/-- Members that hold a share with LEN above 0 (SHARES), this device among them. -/
def State.showShares (s : State) : State :=
  let known := (s.ownHello :: s.tunnel.hellos.filterMap Prod.snd)
  (List.range 16).foldl (fun (a : State) l =>
    a.setFld (F.TUNNEL_LIB_SHARES l) (known.foldl (fun m h => match h.libs[l]? with
      | some x => if x.span && 0 < x.len then m ||| 2 ^ h.position else m
      | none => m) 0)) s

/-- Settle a library's token at bring-up (R361): the member with the highest generation holds it; when none holds it, the member of the
lowest BASE takes it at generation 1. -/
def State.settleToken (s : State) (l : Nat) : State :=
  let known := (s.ownHello :: s.tunnel.hellos.filterMap Prod.snd).filterMap (fun h => (h.libs[l]?).map (fun x => (h.position, x)))
  let best := known.foldl (fun (m : Option (Nat × HelloLib)) x =>
    match m with | none => some x | some y => if y.2.gen < x.2.gen then some x else some y) none
  let low := (known.filter (fun x => 0 < x.2.len)).foldl (fun (m : Option (Nat × HelloLib)) x =>
    match m with | none => some x | some y => if x.2.base < y.2.base then some x else some y) none
  let pick := match best with
    | some x => if 0 < x.2.gen then some (x.1, x.2.gen) else low.map (fun y => (y.1, 1))
    | none => none
  match pick with
  | none => s
  | some (m, g) =>
    let s1 := (s.setBit (F.TUNNEL_LIB_TOKEN l) (m == s.position)).setFld (F.TUNNEL_LIB_GEN_GEN l) (max g (s.fld (F.TUNNEL_LIB_GEN_GEN l)))
    { s1 with tunnel := { s1.tunnel with holder := aset s1.tunnel.holder l m } }

/-- Libraries that have a token: SPAN ARCHIVE libraries that append. -/
def State.tokenLibs (s : State) : List Nat :=
  (List.range 16).filter (fun l => s.isSpan l && s.libKind l == 1 && s.bit (F.SUMP_LIB_CFG_APPEND l))

/-- Mirror benches to reserve (R375). -/
def State.reserveSize (s : State) : Nat := 2112 / (s.dim / 1024) * (s.chainSize - 1)

/-- Reserve the highest-numbered unassigned benches; too few leave the device in CHECKING with MIRROR_SHORT. -/
def State.takeReserve (s : State) : State :=
  if !s.tunnel.reserved.isEmpty then s
  else
    let free := ((List.range (8 * s.perDie)).reverse).filter (fun b => (s.benchOf b).lib.isNone && decide ((s.benchOf b).state ≠ .retired))
    let want := s.reserveSize
    if free.length < want then s.alarm F.TUNNEL_ALARM_MIRROR_SHORT 0
    else { s with tunnel := { s.tunnel with reserved := free.take want } }.setFld F.TUNNEL_MIRROR_RESERVED want

/-- Every position but this device's. -/
def State.otherMembers (s : State) : List Nat := (List.range s.chainSize).filter (fun m => m != s.position)

/-- CHECKING or BROKEN ends once every member has been heard and agrees (Table CASC-5). -/
def State.settleChain (s : State) : State :=
  let all := s.otherMembers.all (fun m => hasBit (s.fld F.TUNNEL_STATUS_RESPONDING) m)
  if !all then s
  else if s.tunnelState = tsCHECKING then
    let s1 := s.takeReserve
    if s1.tunnel.reserved.isEmpty && 0 < s1.reserveSize then s1
    else (s1.tokenLibs.foldl (fun (a : State) l => a.settleToken l) s1).setState tsMEMBER
  else if s.tunnelState = tsBROKEN then (s.tokenLibs.foldl (fun (a : State) l => a.settleToken l) s).setState tsMEMBER
  else s

/-- JOIN (Table CASC-5); the ports' PRBS MODE returns to 0 (R538). -/
def State.joinWrite (s : State) : State :=
  if s.tunnelState = tsOFF ∧ s.fld F.TUNNEL_CFG_ROLE ≠ 0 then { s with tunnel := { s.tunnel with joined := true } }.setState tsTRAINING |>.prbsOff 4 |>.prbsOff 5
  else s.alarm F.TUNNEL_ALARM_CMD_REFUSED 0

def execJoin (s : State) : Out := gate 8 s (.next s.joinWrite)

/-- LEAVE (Table CASC-5, Table CASC-9): refused while a mirror bench serves a peer. -/
def State.leaveWrite (s : State) : State :=
  if s.inChain && s.tunnel.hosted.isEmpty then (s.setState tsLEAVING).settleLeave else s.alarm F.TUNNEL_ALARM_CMD_REFUSED 0

def execLeave (s : State) : Out := gate 8 s (.next s.leaveWrite)

/-- TOKEN_TAKE (R361): this member becomes the holder, at one more than the highest generation it knows. -/
def State.takeToken (s : State) (l : Nat) : State :=
  if !s.inChain then s.alarm F.TUNNEL_ALARM_CMD_REFUSED l
  else
    let known := (s.tunnel.hellos.filterMap Prod.snd).foldl (fun m h => match h.libs[l]? with | some x => max m x.gen | none => m)
      (s.fld (F.TUNNEL_LIB_GEN_GEN l))
    let s1 := (s.setBit (F.TUNNEL_LIB_TOKEN l) true).setFld (F.TUNNEL_LIB_GEN_GEN l) (known + 1)
    { s1 with tunnel := { s1.tunnel with holder := aset s1.tunnel.holder l s.position } }

def execTokenTake (lib : Lib) (s : State) : Out := gate 8 s (.next (s.takeToken lib.toNat))

/-- TUNNEL_PORT_UP (R362, R368): a port of the role has trained. The device enters CHECKING, drives its heartbeat, holds CASC_SYNC low
and sends its HELLO, with those it has heard passed on. -/
def execTunnelPortUp (port : TPort) (s : State) : Out :=
  let p := port.toNat
  if s.tunnelState = tsOFF || !s.rolePorts.contains p || lanesUp (s.fld (F.TUNNEL_PORT_STATUS_LANE_RETIRED p)) = 0 then .next s
  else
    let s1 := (s.showPort p true).setTPort p { lastSent := s.now }
    let s2 := if s1.tunnelState = tsTRAINING then
        State.setState { s1 with tunnel := { s1.tunnel with matchOut := true, syncLow := true } } tsCHECKING
      else s1
    .next (((s2.showShares).takeReserve).sendFrame p s2.helloFrame)

/-! ### Loss of members (R366, R370) -/

/-- End a forwarded request whose last expected answer is in or given up. -/
def State.endIfAnswered (s : State) (tag : Nat) : State :=
  match s.req tag with
  | some r => if r.own.isSome && r.expect.isEmpty && r.record.isNone && !r.kind.isServed then s.verifyStep r [] else s
  | none => s

/-- Members beyond `m` as seen from this device: those whose frames pass through it. -/
def State.beyond (s : State) (m : Nat) : List Nat :=
  (List.range 8).filter (fun x => if s.position < m then m ≤ x else x ≤ m)

/-- Requests stop waiting for a lost member and those behind it. -/
def State.giveUp (s : State) (gone : List Nat) : State :=
  let s1 : State := { s with sump := { s.sump with active := s.sump.active.map (fun r => { r with expect := r.expect.filter (fun m => !gone.contains m) }) } }
  ((s.sump.active.filter (fun r => r.expect.any (fun m => gone.contains m))).map (fun r => r.tag)).foldl (fun (a : State) t => a.endIfAnswered t) s1

/-- Write the record of a request whose filing is not acknowledged (R359). -/
def State.dropAppend (s : State) (w : AppendWait) : State :=
  let s1 : State := { s with tunnel := { s.tunnel with appends := s.tunnel.appends.filter (fun x => x != w) } }
  let s2 := s1.bump F.TUNNEL_APPEND_LOST_COUNT 1
  match s2.req w.tag with
  | none => s2
  | some r =>
    let acks := r.acks.filter (fun l => l != w.lib)
    match r.record with
    | none => s2
    | some rec_ => if acks.isEmpty then s2.putAnswer r rec_ else s2.setReq { r with acks := acks }

/-- Declare a member lost (R366): it leaves RESPONDING, the chain is BROKEN, LOST goes out on the ports, and requests stop waiting. -/
def State.loseMember (s : State) (m : Nat) : State :=
  if !s.inChain || m = s.position || s.chainSize ≤ m || s.tunnel.lost.contains m then s
  else
    let s1 : State := { s with tunnel := { s.tunnel with lost := s.tunnel.lost ++ [m], hellos := tset helloDefault s.tunnel.hellos m none } }
    let s2 := ((s1.setRegBit R.TUNNEL_STATUS (20 + m) false).setState tsBROKEN).alarm F.TUNNEL_ALARM_PEER_LOST m
    let s3 := s2.sendTo (s2.mkFrame ftLOST 0xFF 0 (2 ^ m) s2.position [])
    let mine := s3.tokenLibs.filter (fun l => s3.tokenHolder l == m)
    let s4 := mine.foldl (fun (a : State) l => a.alarm F.TUNNEL_ALARM_TOKEN_LOST l) s3
    let s5 := (s4.tunnel.appends.filter (fun w => mine.contains w.lib)).foldl (fun (a : State) w => a.dropAppend w) s4
    s5.giveUp (s5.beyond m)

/-- MATCH_TIMEOUT (R366): the ring predecessor is lost. -/
def execMatchTimeout (s : State) : Out :=
  if s.inChain && s.tunnel.matchEdge + 400 ≤ s.now then .next (s.loseMember ((s.position + s.chainSize - 1) % s.chainSize)) else .next s

/-- PORT_DOWN_TIMEOUT (R366): the member at the other end of a port down for 1 ms is lost. -/
def execPortDownTimeout (port : TPort) (s : State) : Out :=
  let p := port.toNat
  match (s.tport p).downAt with
  | none => .next s
  | some t => if s.inChain && s.rolePorts.contains p && t + 100000 ≤ s.now then .next (s.loseMember (if p = 0 then s.position + 1 else s.position - 1)) else .next s

/-- CHECKING_TIMEOUT (R368): the members still unheard are lost from the start. -/
def execCheckingTimeout (s : State) : Out :=
  match s.tunnel.helloAt with
  | none => .next s
  | some t =>
    if s.tunnelState ≠ tsCHECKING || s.now < t + 10000000 then .next s
    else
      let s1 := s.takeReserve
      if s1.tunnel.reserved.isEmpty && 0 < s1.reserveSize then .next s1
      else
        let s2 := s1.tokenLibs.foldl (fun (a : State) l => a.settleToken l) s1
        let gone := s2.otherMembers.filter (fun m => !hasBit (s2.fld F.TUNNEL_STATUS_RESPONDING) m)
        .next (if gone.isEmpty then s2.setState tsMEMBER else gone.foldl (fun (a : State) m => a.loseMember m) (s2.setState tsBROKEN))

/-- ANSWER_TIMEOUT (R370). -/
def execAnswerTimeout (tag : Word) (s : State) : Out :=
  match s.req tag.toNat with
  | none => .next s
  | some r =>
    if r.expect.isEmpty || s.now < r.deadline then .next s
    else .next (((s.setReq { r with expect := [] }).alarm F.TUNNEL_ALARM_ANSWER_TIMEOUT 0).endIfAnswered tag.toNat)

/-- APPEND_ACK_TIMEOUT (R359): filings of a request not acknowledged within TUNNEL_ANS_WAIT. -/
def execAppendAckTimeout (tag : Word) (s : State) : Out :=
  let wait := 100 * max 100 (s.fld F.TUNNEL_ANS_WAIT_US)
  .next ((s.tunnel.appends.filter (fun w => w.tag == tag.toNat && w.since + wait ≤ s.now)).foldl (fun (a : State) w => a.dropAppend w) s)

/-! ### Taking a frame (R363 to R365) -/

/-- Frames of the replay buffer that an ACK frees. -/
def acked (ack : Nat) (l : List Frame) : List Frame :=
  if l.any (fun f => f.lseq.toNat == ack) then (l.dropWhile (fun f => f.lseq.toNat != ack)).drop 1 else l

/-- Take a frame of a type at a port: a bad CRC or a gap is answered with a NAK, a frame in order is acted on and passed on. -/
def State.takeTunnelFrame (s : State) (port : TPort) (type : Nat) (f : Frame) (crcOk : Bool) (act : State → State) : State :=
  let p := port.toNat
  let t := s.tport p
  let want := (t.rxSeq + 1) % 65536
  let sendNak := fun (a : State) => a.sendFrame p (a.mkFrame ftNAK (if p = 0 then s.position + 1 else s.position - 1) 0 want 0 [])
  if !s.portUp p || f.type.toNat ≠ type then s
  else if !crcOk then sendNak (s.bump (F.TUNNEL_PORT_CRC_COUNT p) 1)
  else
    let s1 := s.setTPort p { t with replay := acked f.ack.toNat t.replay, replays := if acked f.ack.toNat t.replay = t.replay then t.replays else 0 }
    if type = ftIDLE then s1
    else if f.lseq.toNat = t.rxSeq then s1
    else if f.lseq.toNat ≠ want then sendNak s1
    else
      let s2 := s1.setTPort p { s1.tport p with rxSeq := want }
      let s3 := if s2.addressed f then act s2 else s2
      s3.forward p f

/-- Is a device bench one that this device hosts for a peer, or that the peer hosts for it (R376)? -/
def State.sharedWith (s : State) (m b : Nat) : Bool :=
  s.tunnel.hosted.any (fun h => h.owner == m && h.bench == b) ||
    (match s.benchLib b with
      | some (l, p) => s.tunnel.away.contains (l, p, m)
      | none => false)

/-- HELLO (R369): compared, and passed on. A peer that is back may hold other clean copies of keys (R409). -/
def State.takeHello (s : State) (p : Nat) (h : HelloRec) (copies : List KeyCopy) : State :=
  let peer := decide (h.position = (if p = 0 then s.position + 1 else s.position - 1))
  if s.tunnelState = tsOFF ∨ s.tunnelState = tsTRAINING ∨ s.tunnelState = tsLEAVING then s
  else if !s.helloAgrees p h then
    (if peer then s.setBit (F.TUNNEL_PORT_STATUS_HELLO_OK p) false else s).alarm F.TUNNEL_ALARM_MISMATCH h.position
  else
    let fresh := (s.helloOf h.position).isNone
    let s1 : State := { s with tunnel := { s.tunnel with
      hellos := tset helloDefault s.tunnel.hellos h.position (some h), lost := s.tunnel.lost.filter (fun m => m != h.position)
      helloAt := some (s.tunnel.helloAt.getD s.now) } }
    let s2 := (s1.setRegBit R.TUNNEL_STATUS (20 + h.position) true).setRegBit R.TUNNEL_STATUS (12 + h.position) true
    let s3 := (if peer then s2.setBit (F.TUNNEL_PORT_STATUS_HELLO_OK p) true else s2).showShares
    let s4 := if fresh then s3.sendFrame p s3.helloFrame else s3
    ((copies.filter (fun x => s4.sharedWith h.position x.bench.toNat)).foldl (fun (a : State) x => a.resolveCopy x) s4).settleChain

def execHello (port : TPort) (frame : Frame) (crcOk : Bool) (content : HelloRec) (copies : List KeyCopy) (s : State) : Out :=
  .next (s.takeTunnelFrame port ftHELLO frame crcOk (fun a => a.takeHello port.toNat content copies))

/-- The key and the present mask of a QUERY or APPEND payload. -/
def payloadKey (dim : Nat) (b : List Byte) : Key := BitVec.ofNat 32768 (sliceLE b 0 (dim / 8))
def payloadPresent (dim : Nat) (b : List Byte) : Nat := sliceLE b (dim / 8) 16

/-- QUERY (R355): a served request joins the RECALL queue, or is answered BUSY. -/
def State.takeQuery (s : State) (f : Frame) : State :=
  let a := f.arg0.toNat
  let origin := f.req.toNat / 2 ^ 29
  if !s.inChain || !s.sumpReady || recallCap ≤ s.sump.recallQ.length then s.answerBusy origin f.req.toNat
  else
    let r : Request := {
      kind := .served origin f.req.toNat, start := f.arg1.toNat, key := payloadKey s.dim f.payload, present := payloadPresent s.dim f.payload
      mask := a / 2 ^ 48 % 65536, k := max 1 (a / 2 ^ 42 % 64), q := a / 2 ^ 39 % 8, beta := a % 65536 }
    ({ s with sump := { s.sump with recallQ := s.sump.recallQ ++ [r] } } : State).bump F.TUNNEL_SERVED_COUNT 1

def execQuery (port : TPort) (frame : Frame) (crcOk : Bool) (s : State) : Out :=
  .next (s.takeTunnelFrame port ftQUERY frame crcOk (fun a => a.takeQuery frame))

/-- A candidate of an ANSWER (Table CASC-4); its ranked distance follows from this member's PSTEP, equal on every member. -/
def State.parseCand (s : State) (b : List Byte) : Cand :=
  let l := sliceLE b 3 1 % 16
  let prio := sliceLE b 6 1
  let d := sliceLE b 4 2
  { lib := l, entry := sliceLE b 0 3, dist := d, prio := prio, cls := sliceLE b 8 4, rank := (d : Int) - (s.pstep l * prio : Nat) }

/-- ANSWER (R356, R371): merged once every expected answer is in. -/
def State.takeAnswer (s : State) (f : Frame) : State :=
  let a := f.arg0.toNat
  let m := f.src.toNat
  match s.req (f.req.toNat % 2 ^ 29) with
  | none => s.bump F.TUNNEL_LATE_ANS_COUNT 1
  | some r =>
    if !r.expect.contains m then s.bump F.TUNNEL_LATE_ANS_COUNT 1
    else
      let ans : Answer := {
        from_ := m, errBound := a / 2 ^ 48 % 65536, benchMiss := a / 2 ^ 32 % 65536, nobench := a / 65536 % 65536, flags := f.arg1.toNat % 2 ^ 32
        cands := (List.range (a / 256 % 256)).map (fun i => s.parseCand ((f.payload.drop (16 * i)).take 16)) }
      let r1 := { r with expect := r.expect.filter (fun x => x != m), answers := if a % 256 = 0 then r.answers ++ [ans] else r.answers }
      (s.setReq r1).endIfAnswered r.tag

def execAnswer (port : TPort) (frame : Frame) (crcOk : Bool) (s : State) : Out :=
  .next (s.takeTunnelFrame port ftANSWER frame crcOk (fun a => a.takeAnswer frame))

/-- APPEND (R359, R360): the holder files the query and acknowledges it; a member that has passed the token on sends the frame to the new
holder. -/
def State.takeAppend (s : State) (f : Frame) : State :=
  let l := f.arg0.toNat % 16
  let h := s.tokenHolder l
  let on := fun (a : State) => let m := a.tokenHolder l; if m = a.position then a else a.sendTo { f with dst := BitVec.ofNat 8 m }
  if !s.holdsToken l then if h = s.position then s else on s
  else
    let ack := fun (a : State) e => a.sendTo (a.mkFrame ftACK f.src.toNat f.req.toNat e 0 [])
    match s.fileAppend l (payloadKey s.dim f.payload) f.arg1.toNat with
    | (s1, .filed e) => ack s1 (s1.reportEntry l e)
    | (s1, .refused) => ack s1 0xFFFFFF
    | (s1, .passed) => on s1
    | (_, .waits) => s

/-- Must the filing of an APPEND wait for the entry's validation (Table SUMP-11)? The frame is then not taken yet. -/
def State.appendWaits (s : State) (f : Frame) : Bool :=
  let l := f.arg0.toNat % 16
  s.addressed f && s.holdsToken l && (match (s.fileAppend l (payloadKey s.dim f.payload) f.arg1.toNat).2 with | .waits => true | _ => false)

def execAppend (port : TPort) (frame : Frame) (crcOk : Bool) (s : State) : Out :=
  if crcOk && s.appendWaits frame then .next s
  else .next (s.takeTunnelFrame port ftAPPEND frame crcOk (fun a => a.takeAppend frame))

/-- APPEND_ACK (R359). -/
def State.takeAck (s : State) (f : Frame) : State :=
  match s.tunnel.appends.find? (fun w => w.serial == f.req.toNat % 2 ^ 29) with
  | none => s
  | some w =>
    let s1 : State := { s with tunnel := { s.tunnel with appends := s.tunnel.appends.filter (fun x => x != w) } }
    let e := f.arg0.toNat % 2 ^ 24
    match s1.req w.tag with
    | none => s1
    | some r =>
      match r.record with
      | none => s1
      | some rec_ =>
        let rec1 := if e = 0xFFFFFF then rec_ else rec_.filedAs w.lib e
        let acks := r.acks.filter (fun l => l != w.lib)
        if acks.isEmpty then s1.putAnswer r rec1 else s1.setReq { r with acks := acks, record := some rec1 }

def execAppendAck (port : TPort) (frame : Frame) (crcOk : Bool) (s : State) : Out :=
  .next (s.takeTunnelFrame port ftACK frame crcOk (fun a => a.takeAck frame))

/-- TOKEN (R360, Table CASC-9): the higher generation holds. Every member that takes the frame in order, to pass it on too, learns it. -/
def State.receiveToken (s : State) (f : Frame) : State :=
  let l := f.arg0.toNat % 16
  let g := f.arg1.toNat
  if g < s.fld (F.TUNNEL_LIB_GEN_GEN l) then s
  else
    let mine := decide (f.dst.toNat = s.position)
    let s1 := (s.setBit (F.TUNNEL_LIB_TOKEN l) mine).setFld (F.TUNNEL_LIB_GEN_GEN l) g
    { s1 with tunnel := { s1.tunnel with holder := aset s1.tunnel.holder l f.dst.toNat } }

def execToken (port : TPort) (frame : Frame) (crcOk : Bool) (s : State) : Out :=
  let t := s.takeTunnelFrame port ftTOKEN frame crcOk (fun a => a.receiveToken frame)
  .next (if (t.tport port.toNat).rxSeq ≠ (s.tport port.toNat).rxSeq ∧ !s.addressed frame then t.receiveToken frame else t)

/-- LOST (R366). -/
def execLost (port : TPort) (frame : Frame) (crcOk : Bool) (s : State) : Out :=
  .next (s.takeTunnelFrame port ftLOST frame crcOk (fun a =>
    ((List.range 8).filter (fun m => hasBit (frame.arg0.toNat % 256) m)).foldl (fun (b : State) m => b.loseMember m) a))

/-! ### Mirror benches (R376, R377) -/

/-- Chunks of key mirrors and of side-records of a bench copy. -/
def State.keyChunks (s : State) : Nat := s.dim / 16
def copyChunks (dim : Nat) : Nat := dim / 16 + 16

/-- A side-record from its 32 bytes (Table SUMP-3). -/
def parseEntry (b : List Byte) : Entry :=
  { mirror := sliceLE b 0 4, pop := sliceLE b 4 2, popPre := sliceLE b 6 2, prio := sliceLE b 8 1, state := sliceLE b 9 1 % 4,
    origin := sliceLE b 9 1 / 4 % 4, cls := sliceLE b 12 4, seq := sliceLE b 16 4, crc := sliceLE b 20 4, ts := sliceLE b 24 8 }

/-- The entries of a complete copy, as write items. -/
def copyItems (dim : Nat) (chunks_ : List Chunk) : List WriteItem :=
  let get := fun i => match chunks_.find? (fun c => c.index == i) with | some c => c.bytes | none => []
  let keys := (List.range (dim / 16)).flatMap get
  let recs := (List.range 16).flatMap (fun i => get (dim / 16 + i))
  (List.range 1024).filterMap (fun c =>
    let e := parseEntry ((recs.drop (32 * c)).take 32)
    if e.state = esEMPTY then none
    else some ⟨c, BitVec.ofNat 32768 (sliceLE keys (c * (dim / 8)) (dim / 8)), e.prio, e.cls, e.origin, e.seq, e.ts, false⟩)

/-- A free mirror bench of the reserve. -/
def State.freeMirror (s : State) : Option Nat :=
  s.tunnel.reserved.find? (fun b => !s.tunnel.hosted.any (fun h => h.bench == b) && s.benchReady b && s.benchErased b)

/-- Take a chunk of a bench copy; with the last the entries are written in batches (R315). -/
def State.takeMirror (s : State) (f : Frame) : State :=
  let a := f.arg0.toNat
  let l := a % 16
  let g := a / 65536 % 65536
  let i := a / 2 ^ 32 % 65536
  let mine := fun (x : Copying) => x.owner == f.src.toNat && x.lib == l && x.gpos == g
  let old := match s.tunnel.copying.find? mine with | some x => x.chunks | none => []
  let now_ := old.filter (fun c => c.index != i) ++ [⟨i, f.payload⟩]
  let rest := s.tunnel.copying.filter (fun x => !mine x)
  if now_.length < copyChunks s.dim then { s with tunnel := { s.tunnel with copying := rest ++ [⟨f.src.toNat, l, g, now_⟩] } }
  else
    let s0 : State := { s with tunnel := { s.tunnel with copying := rest } }
    match s0.freeMirror with
    | none => s0
    | some b =>
      let s1 : State := { s0 with tunnel := { s0.tunnel with hosted := s0.tunnel.hosted ++ [⟨f.src.toNat, l, g, b⟩] } }
      let s2 := ((s1.setFld F.TUNNEL_MIRROR_IN_USE s1.tunnel.hosted.length).alarm F.TUNNEL_ALARM_MIRROR_TAKEN b).assignBench b (some l) (s1.libFour l)
      let is := copyItems s.dim now_
      (chunks 64 is.length is).foldl (fun (x : State) c => x.queueBatch l { src := .peer, pos := g + hostedBase, items := c }) s2

def execMirror (port : TPort) (frame : Frame) (crcOk : Bool) (s : State) : Out :=
  .next (s.takeTunnelFrame port ftMIRROR frame crcOk (fun a => a.takeMirror frame))

/-- Apply an operation of the owner to a hosted bench (R377): the payload is COUNT and the items. -/
def State.applyBenchOp (s : State) (f : Frame) : State :=
  let l := f.arg0.toNat % 16
  let g := f.arg0.toNat / 65536 % 65536
  let n := sliceLE f.payload 0 1
  let buf := f.payload.drop 1
  let x : LibDesc := ⟨f.arg1.toNat, 0, 0, buf.length, l, n, 0, 0, 0, 0, 0⟩
  match s.benchAt l (g + hostedBase) with
  | none => s
  | some b =>
    match f.arg1.toNat with
    | 5 => match s.writeItems x buf with
      | none => s
      | some ws => s.queueBatch l { src := .peer, pos := g + hostedBase, items := ws }
    | 6 => match entryItems x buf with
      | none => s
      | some es => es.foldl (fun (a : State) e => (a.dropRepair b (e % 1024)).setEntry b (e % 1024) {}) s
    | 7 => match items x 8 buf with
      | none => s
      | some is => is.foldl (fun (a : State) i =>
          let c := sliceLE i 0 3 % 1024
          a.setEntry b c { a.entry b c with prio := sliceLE i 3 1, cls := sliceLE i 4 4 }) s
    | _ => s

def execBenchOp (port : TPort) (frame : Frame) (crcOk : Bool) (s : State) : Out :=
  .next (s.takeTunnelFrame port ftBENCH_OP frame crcOk (fun a => a.applyBenchOp frame))

/-! ### Chain barriers (R367) -/

/-- CHAIN: the member takes part in the barrier and releases CASC_SYNC at its own device barrier. -/
def execChain (port : TPort) (frame : Frame) (crcOk : Bool) (s : State) : Out :=
  .next (s.takeTunnelFrame port ftCHAIN frame crcOk (fun a =>
    { a with tunnel := { a.tunnel with
      barriers := a.tunnel.barriers ++ [⟨frame.src.toNat, frame.arg0.toNat, frame.arg1.toNat, a.now, true⟩], syncLow := false } }))

/-- Perform a chain barrier's command: 1 reset of every core group, 2 snapshot, 3 epoch boundary. An epoch that differs from the
member's own, or an unaligned one, sets CHAIN_EPOCH, and the close point stays measured from the own boundary (R384). -/
def State.chainCommand (s : State) (b : Barrier) (aligned : Bool) : State :=
  match b.cmd with
  | 1 => (List.range 64).foldl (fun (a : State) g =>
      if (a.groupState g = gsIDLE ∨ a.groupState g = gsFROZEN) ∧ (a.grp g).pend.isNone then a.toTest g else a.galRefuse g) s
  | 2 => ((List.range 8448).filter s.coreRuns).foldl (fun (a : State) c => a.snapCore c) s
  | 3 =>
    if aligned && b.arg + 1 == s.epoch then
      { s with chisel := { s.chisel with closes := s.chisel.closes.map (fun c => if c.1 = b.arg then (c.1, s.now + s.closeWait) else c) } }
    else s.alarm F.CHISEL_ALARM_CHAIN_EPOCH b.from_
  | _ => s

/-- The barrier that completes first: the lowest originator's (Table CASC-9). -/
def State.firstBarrier (s : State) : Option Barrier :=
  s.tunnel.barriers.foldl (fun (m : Option Barrier) b =>
    match m with | none => some b | some x => if b.from_ < x.from_ then some b else some x) none

/-- End a barrier: the line is pulled low again, unless another waits. -/
def State.endBarrier (s : State) (b : Barrier) : State :=
  let left := dropFirst b s.tunnel.barriers
  { s with tunnel := { s.tunnel with barriers := left, syncLow := left.isEmpty } }

/-- CASC_SYNC_HIGH (R367). -/
def execCascSyncHigh (s : State) : Out :=
  match s.firstBarrier with
  | none => .next s
  | some b => .next ((s.endBarrier b).chainCommand b true)

/-- SYNC_TIMEOUT (R367). -/
def execSyncTimeout (s : State) : Out :=
  match s.tunnel.barriers.find? (fun b => b.since + 100000 ≤ s.now) with
  | none => .next s
  | some b => .next (((s.endBarrier b).alarm F.TUNNEL_ALARM_SYNC_TIMEOUT b.from_).chainCommand b false)

/-! ### Link maintenance (R364) -/

/-- NAK: the sender sends again from the named LSEQ; the eighth replay of a frame causes a retrain, charged as a fault of a lane the
specification does not name. -/
def State.takeNak (s : State) (p : Nat) (f : Frame) : State :=
  let t := s.tport p
  let again := t.replay.dropWhile (fun x => x.lseq.toNat != f.arg0.toNat % 65536)
  let s1 : State := { s with tunnel := { s.tunnel with sent := s.tunnel.sent ++ again.map (fun x => (p, x)) } }
  let s2 := (s1.bump (F.TUNNEL_PORT_REPLAY_COUNT p) again.length).setTPort p { t with replays := t.replays + 1, lastSent := s.now }
  if again.isEmpty then s
  else if 8 ≤ t.replays + 1 then
    let d := (s2.setTPort p { s2.tport p with replays := 0 }).draw
    d.2.laneFault p (Config.freeNat d.1 % 8)
  else s2

def execNak (port : TPort) (frame : Frame) (crcOk : Bool) (s : State) : Out :=
  .next (s.takeTunnelFrame port ftNAK frame crcOk (fun a => a.takeNak port.toNat frame))

/-- IDLE: only its acknowledgement counts. -/
def execIdle (port : TPort) (frame : Frame) (crcOk : Bool) (s : State) : Out :=
  .next (s.takeTunnelFrame port ftIDLE frame crcOk (fun a => a))

/-- IDLE_FRAME_SEND: no frame has been sent for 1 µs. -/
def execIdleFrameSend (port : TPort) (s : State) : Out :=
  let p := port.toNat
  if s.portUp p && (s.tport p).lastSent + 100 ≤ s.now then .next (s.sendFrame p (s.mkFrame ftIDLE (if p = 0 then s.position + 1 else s.position - 1) 0 0 0 []))
  else .next s

end Sys2Proof.Machine
end

