-- ==== Sys2Proof/Machine/PowerOps.lean ====
section
/-! DEFINITION.  Shared operations of the power block: what a reset and a loss of power keep, the journal, refusers, entries, exits and
wakes, temperature and readiness (15_power_health R477 to R505). -/

namespace Sys2Proof.Machine

/-! ### What a reset keeps (R19, R543, R547) -/

/-- A register's value after a reset: the bits loaded from non-volatile state stay, the others take their reset values. -/
def resetValue (a : Nat) (v : Word) : Word :=
  let nv := match regRow a with
    | some r => BitVec.ofNat 32 r.nv
    | none => 0#32
  (v &&& nv) ||| (regReset a &&& ~~~nv)

/-- An association list with every value changed, in the canonical form of its default. -/
def remap {α : Type} [DecidableEq α] (d : Nat → α) (f : Nat → α → α) (m : List (Nat × α)) : List (Nat × α) :=
  (m.map (fun e => (e.1, f e.1 e.2))).filter (fun e => !decide (e.2 = d e.1))

/-- A batch in flight when the die stops leaves its cells at levels the specification does not give: free values. -/
def State.spoilBatch (s : State) (k : Nat) (b : Batch) : State :=
  (b.phys.flatMap (fun q => b.cols.map (fun e => (q, e)))).foldl (fun (a : State) x =>
    let d := a.draw
    d.2.setCellCol k x.1 ((a.tileSt k x.1).colOf x.2) (BitVec.ofNat 2048 (Config.freeNat d.1))) s

/-- What a stream, a core, a bench, a tile and a die keep through a reset. -/
def StreamSt.kept (st : StreamSt) : StreamSt := { retired := st.retired, ctx := st.ctx }
def CoreSt.kept (k : CoreSt) : CoreSt := { logical := k.logical, fenced := k.fenced }
def BenchSt.kept (b : BenchSt) : BenchSt :=
  { state := if b.state = .retired then .retired else .checking, fourLevel := b.fourLevel, lib := b.lib }
def TileSt.kept (t : TileSt) : TileSt := { t with acc := [{}, {}, {}, {}], calAt := none }
def TunnelSt.kept (t : TunnelSt) : TunnelSt :=
  { reserved := t.reserved, hosted := t.hosted, away := t.away, holder := t.holder, joined := t.joined }
def LanternSt.kept (l : LanternSt) : LanternSt :=
  { hdrs := l.hdrs, revoked := l.revoked, keys := l.keys, fwJob := l.fwJob, libJob := l.libJob,
    updateLost := l.updateLost, rolledBack := l.rolledBack }
def DieSt.kept (d : DieSt) : DieSt :=
  { temp := d.temp, roundAt := d.roundAt, roundDone := d.roundDone, loopSum := d.loopSum, batchSum := d.batchSum, lastPlanDay := d.lastPlanDay,
    planned := d.planned, badCopies := d.badCopies }

/-- The power block's own volatile state after a reset. -/
def PowerSt.kept (p : PowerSt) : PowerSt :=
  let q := { p with tripping := false, quiet := false, pnr := false, wakePend := none, thermalWait := none, railsOff := 0, hot := [] }
  { q with sumpDead := false, chiselDead := false, grotto := false, hbm := false, offFlushed := false }

/-- Columns of benches without a library that wait to be erased: the erasure survives a reset (Table SUMP-2). -/
def State.keptErase (s : State) (k : Nat) : List RefreshJob :=
  (s.die k).refreshQ.filter (fun j =>
    let b := s.devBench k (j.tile / (s.dim / 1024))
    (s.benchOf b).lib.isNone && !s.sump.held.contains b)

/-- Everything volatile takes its reset value, and an update in progress ends as Table LANTERN-11 states. Kept are what the record areas, the retirement record and Lantern's records hold, the
cells of the arrays, the alarm backlog, and, unless the contents of HBM are lost, the key mirrors (R547). -/
def State.volatileReset (s : State) (hbmLost : Bool) : State :=
  let s1 := (List.range 8).foldl (fun (a : State) k =>
    ((a.die k).batches.filter (fun b => b.started)).foldl (fun (x : State) b => x.spoilBatch k b) a) s
  let s2 : State := { s1 with
    regs := remap regReset resetValue s1.regs
    latchB := [], latchM := [], holdB := [], holdM := []
    streams := remap streamDefault (fun _ x => x.kept) s1.streams
    ports := [], planSet := []
    cores := remap coreDefault (fun _ x => x.kept) s1.cores
    groups := [], nets := [], synBlocks := [], fabric := [], hbm := [], hbmPages := [], prefetched := [], traceLog := [], logDropped := 0, asm := []
    seam := { s1.seam with
      tiles := remap tileDefault (fun _ x => x.kept) s1.seam.tiles
      benches := remap benchDefault (fun _ x => x.kept) s1.seam.benches
      dies := remap dieDefault (fun _ x => x.kept) s1.seam.dies }
    sump := {
      libs := remap libDefault (fun _ x => { benches := x.benches }) s1.sump.libs
      entries := s1.sump.entries, mirrors := if hbmLost then [] else s1.sump.mirrors, held := s1.sump.held, nextTag := s1.sump.nextTag }
    chisel := {}
    tunnel := s1.tunnel.kept
    lantern := s1.lantern.kept
    host := { msix := s1.host.msix, perst := s1.host.perst }
    test := { s1.test with slew := 0, slewSub := 0, ppsAt := 0, start := none, waitRelease := none }
    power := s1.power.kept }
  let s3 := if s2.tunnel.joined then s2.setState tsTRAINING else s2
  let s4 := (List.range 8).foldl (fun (a : State) k => if (s.keptErase k).isEmpty then a else a.setQueue k (s.keptErase k)) s3
  (s4.setFld F.TUNNEL_MIRROR_RESERVED s4.tunnel.reserved.length).resetUpdates

/-! ### The journal (R489, R504) -/

/-- What the journal holds now. -/
def State.journalNow (s : State) (closed : Bool) : Journal :=
  { uptime := s.uptime, faults := s.faults, refuse := (List.range 9).map (fun n => s.reg (R.POWER_REFUSE n)), summary := s.reg R.POWER_SUMMARY,
    alarms := s.alarmQ, patrol := (List.range 8).map (fun k => s.fld (F.SEAM_UPKEEP_STATUS_PATROL_POS k)), aseq := s.aseq, ts := s.now,
    closed := closed, blank := false }

def State.writeJournal (s : State) (closed : Bool) : State := { s with power := { s.power with journal := s.journalNow closed } }

/-- A flush starts, unless one is in progress (R491). -/
def State.startFlush (s : State) : State := s.setBit F.POWER_STATUS_FLUSHING true

/-- Power is lost without a flush: the older copy stands, but while the part is held every change has been written through (R491). -/
def State.journalAtLoss (s : State) : State := if s.bit F.POWER_STATUS_HELD then s.writeJournal true else s

/-- What Off and a loss of power take: HBM, the alarm backlog, the TAP's state, and everything volatile. -/
def State.powerDown (s : State) : State :=
  let s1 := s.volatileReset true
  { s1 with
    alarmQ := [], alarmLost := none
    power := { s1.power with hbmLost := true }
    test := { s1.test with ir := 1, pinsHeld := false, drive := 0, sample := 0 }
    seam := { s1.seam with dies := remap dieDefault (fun _ d => { d with planned := false, temp := 100 }) s1.seam.dies } }

/-! ### Wakes and exits (R480, R485, R486) -/

def psENTERING : Nat := 5
def psEXITING : Nat := 6

/-- POWER_STATUS.STATE. -/
def State.pstate (s : State) : Nat := s.fld F.POWER_STATUS_STATE

def State.setOutcome (s : State) (result refuser : Nat) : State :=
  (s.setFld F.POWER_STATUS_RESULT result).setFld F.POWER_STATUS_REFUSER refuser

/-- A sensor's reading in 0.25 °C (R495). -/
def State.tempOf (s : State) (n : Nat) : Int := (BitVec.ofNat 12 (s.fld (F.POWER_TEMP_TEMP n))).toInt

/-- The hottest sensor's reading. -/
def State.hottest (s : State) : Int := (List.range 9).foldl (fun m n => max m (s.tempOf n)) (s.tempOf 0)

/-- Start an exit to Run, or refuse it with THERMAL from Idle or Sleep (R485); the wake refused first stays pending. -/
def State.startExit (s : State) (src : Nat) : State :=
  let l := s.pstate
  if l ≤ 2 && 416 ≤ s.hottest then
    ({ s with power := { s.power with thermalWait := some (s.power.thermalWait.getD src) } } : State).bump (F.POWER_REFUSE_REFUSED 5) 1
      |>.setOutcome 2 5
  else
    ({ s with power := { s.power with from_ := l, source := src, thermalWait := none, exitAt := s.power.clock } } : State).setFld
      F.POWER_STATUS_STATE psEXITING

/-- A stream that the entry suspended, or was about to, goes on (R484). -/
def State.unsuspend (s : State) (n : Nat) : State :=
  let st := s.stream n
  let src := s.source n
  let on := !isPortSource src || (s.bit (F.ADIT_PORT_CTRL_EN src) && s.bit (F.ADIT_PORT_STATUS_READY src))
  (if st.suspending && on then s.setStream n { st with suspending := false } else s).resumeStream n

/-- An entry ends before its point of no return: back to the state left (Table POWER-3). -/
def State.entryBack (s : State) (refuser : Nat) : State :=
  let s1 := ((s.setFld F.POWER_STATUS_STATE s.power.from_).setFld F.POWER_STATUS_TARGET 0).setOutcome 3 refuser
  if s.power.from_ = 0 then
    let s2 : State := { s1 with power := { s1.power with quiet := false } }
    s2.enabledStreams.foldl (fun (a : State) n => a.unsuspend n) s2
  else s1

/-- The lower of two sources that a wake may carry. -/
def lowerSource (w : Option Nat) (src : Nat) : Nat := min src (w.getD src)

/-- A wake, when its bit of POWER_WAKE_CFG is set (R486, Table POWER-3). A power return wakes from Off alone. -/
def State.wake (s : State) (src bit : Nat) (powerReturn : Bool) : State :=
  let p := s.power
  if !s.regBit R.POWER_WAKE_CFG bit || !p.vstby then s
  else if p.off || p.tripped then
    if p.waking then (if p.exitAt = p.clock then { s with power := { p with source := min p.source src } } else s)
    else if (p.tripped && (p.lockout || powerReturn)) then s
    else { s with power := { p with waking := true, railsOn := 0, source := src, from_ := if p.tripped then 5 else 4, exitAt := p.clock } }
  else if p.inReset || p.tripping then s
  else if s.pstate = psENTERING then
    if p.pnr then
      if powerReturn && s.fld F.POWER_STATUS_TARGET ≠ 4 then s else { s with power := { p with wakePend := some (lowerSource p.wakePend src) } }
    else if powerReturn then s else s.entryBack 0xF
  else if powerReturn || s.pstate = 0 then s
  else if s.pstate = psEXITING then (if p.exitAt = p.clock then { s with power := { p with source := min p.source src } } else s)
  else s.startExit src

/-- POWER_LAST_WAKE at a return to Run (R486). -/
def State.lastWake (s : State) : State :=
  let s1 := ((s.setFld F.POWER_LAST_WAKE_SOURCE s.power.source).setFld F.POWER_LAST_WAKE_FROM s.power.from_).setFld F.POWER_LAST_WAKE_COUNT
    (s.fld F.POWER_LAST_WAKE_COUNT + 1)
  s1.setBit F.POWER_LAST_WAKE_BROWNOUT s.power.brown

/-! ### Refusers (R483, Table POWER-4) -/

/-- Is the chain state one of CHECKING to LEAVING? -/
def State.chainOpen (s : State) : Bool := !(s.tunnelState == tsOFF || s.tunnelState == tsTRAINING)

/-- Is an update in progress (R471)? -/
def State.updateOpen (s : State) : Bool :=
  s.lantern.fwJob.isSome || [0, 1].any (fun b => [fbDOWNLOADING, fbDOWNLOADED, fbVERIFIED, fbTRIAL].contains (s.bankState b)) ||
    s.bit F.LANTERN_STATUS_SWITCHING || s.libState != luNONE

/-- Is a link training? The PCIe link when it is down with PCIE_PERST_N deasserted, a Shaft link not retired and not up, HBM not ready,
an enabled Adit port not READY, or a Tunnel port while the chain trains. Below Idle nothing trains. -/
def State.linkTrains (s : State) : Bool :=
  decide (s.powerLevel ≤ 1) &&
    ((!s.linkUp && !s.host.perst) ||
      (List.range 8).any (fun k => (s.fld (F.SEAM_STATUS_SHAFT_UP k) ||| s.fld (F.SEAM_STATUS_SHAFT_RETIRED k)) != 3) ||
      !s.power.hbm ||
      (List.range 4).any (fun p => s.bit (F.ADIT_PORT_CTRL_EN p) && !s.bit (F.ADIT_PORT_STATUS_READY p)) ||
      s.tunnelState == tsTRAINING)

/-- Is a batch, upkeep write or staging fill in flight or queued? A pending batch of appends counts as queued. -/
def State.seamWriting (s : State) : Bool :=
  (List.range 8).any (fun k =>
    let d := s.die k
    !d.batches.isEmpty || !d.refreshQ.isEmpty || !d.fills.isEmpty) ||
  (List.range 16).any (fun l => !(s.lib l).queue.isEmpty || (s.lib l).pend.isSome)

/-- Does refuser n hold for an entry to `t`? THERMAL and MPORT_ACTIVE are checked elsewhere (R483, R485). -/
def State.refuserHolds (s : State) (t n : Nat) : Bool :=
  match n with
  | 0 => (List.range 64).any (fun r => s.ringState r == ringINIT || s.ringState r == ringSTOPPING) ||
      (t == 4 && ((List.range 64).any (fun r => !(s.ring r).backlog.isEmpty) || !s.host.runs.isEmpty))
  | 1 => decide (2 ≤ t) && s.seamWriting
  | 2 => s.bit F.CHISEL_STATUS_COMMITTING
  | 3 => s.linkTrains
  | 4 => s.updateOpen
  | 6 => decide (2 ≤ t) && s.chainOpen
  | 7 => s.bit F.CHISEL_STATUS_EXPORT_OPEN
  | _ => false

/-- The first refuser in table order. -/
def State.refuser (s : State) (t : Nat) : Option Nat := (List.range 9).find? (fun n => s.refuserHolds t n)

/-! ### Entries (R479) -/

/-- Quiesce one stream: its window in progress closes at its normal end, and the stream is then suspended. -/
def State.quiesce (s : State) (n : Nat) : State :=
  let st := s.stream n
  if st.suspended || st.retired then s
  else match st.nextWin with
  | none => s.setStream n { st with suspended := true }
  | some w =>
    if s.tick < s.winStart n w then s.setStream n { st with suspended := true, nextWin := none }
    else s.setStream n { st with suspending := true }

/-- Begin an entry. From Idle or Sleep it starts at step 5: Off with its journal flush, Sleep and Deep sleep past their point of no
return. -/
def State.startEntry (s : State) (t : Nat) : State :=
  let l := s.pstate
  let s1 := (s.setFld F.POWER_STATUS_STATE psENTERING).setFld F.POWER_STATUS_TARGET t
  let s2 : State := { s1 with power := { s1.power with
    from_ := l, pnr := decide (1 ≤ l ∧ t ≤ 3), wakePend := none, thermalWait := none, offFlushed := false, railsOff := 0 } }
  if l = 0 then s2.enabledStreams.foldl (fun (a : State) n => a.quiesce n) s2
  else if t = 4 then s2.startFlush else s2

/-- A POWER_CMD naming a deeper state (R482, R484). -/
def State.enterCmd (s : State) (t : Nat) : State :=
  let l := s.pstate
  if psENTERING ≤ l || t ≤ l then s.alarm F.POWER_ALARM_CMD_REFUSED 0
  else match s.refuser t with
    | some n => (s.bump (F.POWER_REFUSE_REFUSED n) 1).setOutcome 2 n
    | none => s.startEntry t

/-- POWER_CMD.TARGET = 0: SOURCE 5 through MPORT, 6 through BAR0 (Tables POWER-3, POWER-5, POWER-11). -/
def State.runCmd (s : State) (path : Path) : State :=
  let l := s.pstate
  if l = psENTERING && !s.power.pnr then s.entryBack 0xF
  else if psENTERING ≤ l || l = 0 then s.alarm F.POWER_ALARM_CMD_REFUSED 0
  else s.startExit (match path with | .mport => 5 | .bar0 => 6)

/-- A write of POWER_CMD; targets 5 to 7 are refused. -/
def State.powerCmd (s : State) (path : Path) (t : Nat) : State :=
  if t = 0 then s.runCmd path else if t ≤ 4 then s.enterCmd t else s.alarm F.POWER_ALARM_CMD_REFUSED 0

/-- Does the entry still await the windows and requests of its quiesce? -/
def State.quiescing (s : State) : Bool :=
  s.enabledStreams.any (fun n => !(s.stream n).suspended && !(s.stream n).retired) || s.asm.any (fun a => a.closeBy.isSome) ||
    !s.sump.watchQ.isEmpty || !s.sump.ordQ.isEmpty || !s.sump.active.isEmpty || !s.sump.outOfTurn.isEmpty

/-- The events that the reorder buffer holds for later ticks of a suspended stream are discarded and counted (R479); events of other
sources go uncounted. -/
def State.dropLater (s : State) (n : Nat) : State :=
  let st := s.stream n
  s.setStream n { st with events := [], late := if s.source n = 5 then sat32 (st.late + st.events.length) else st.late }

/-! ### Temperature (R323, R495) -/

/-- Thresholds of Table SUMP-7 in 0.25 °C: level L is entered at the value below. -/
def throttleAt (l : Nat) : Int := 368 + 12 * (l : Int)

/-- The level at a temperature, from the level in force: left 2 °C below its threshold. -/
def throttleStep (t : Int) (l : Nat) : Nat :=
  let up := ((List.range 6).filter (fun n => n = 0 ∨ throttleAt n ≤ t)).foldl max 0
  let down := ((List.range 6).filter (fun n => n = 0 ∨ throttleAt n - 8 < t)).foldl max 0
  if l < up then up else min l down

/-- Slots of a level (Table SUMP-7). -/
def throttleLimit (l : Nat) : Nat :=
  match l with | 0 => 128 | 1 => 112 | 2 => 96 | 3 => 64 | 4 => 32 | _ => 16

/-- A die's throttle level, with its slot limit. -/
def State.setThrottle (s : State) (k l : Nat) : State :=
  let was := s.throttleOf k
  let s1 := (s.setFld ⟨R.SUMP_THROTTLE, 3 * k, 3⟩ l).setFld (F.SEAM_SLOTS_LIMIT k) (throttleLimit l)
  if was = 0 && l ≠ 0 then s1.alarm F.SUMP_ALARM_THROTTLE k else s1

/-- The trip (R495): clocks stop, the journal is flushed, and the rails then go down. -/
def State.trip (s : State) (n : Nat) (reading : BitVec 12) : State :=
  let p := { s.power with tripping := true, tripAt := s.power.clock, tripSensor := n, tripReading := reading, lockout := true }
  let s1 : State := { s with
    tunnel := { s.tunnel with matchOut := false }
    power := { p with pnr := false, wakePend := none, thermalWait := none, railsOff := 0, from_ := s.powerLevel } }
  (s1.setFld F.POWER_SUMMARY_THERMAL 1).startFlush

/-! ### Indications (R500, R505) -/

/-- TUNNEL_STATUS.READY: on an alone device it follows Lantern (R368). -/
def State.tunnelReady (s : State) : Bool :=
  if s.fld F.TUNNEL_CFG_ROLE = 0 then s.bit F.LANTERN_STATUS_READY else s.bit F.TUNNEL_STATUS_READY

/-- LANTERN_STATUS.READY as it reads: 0 in Deep sleep (Table POWER-9). -/
def State.lanternReady (s : State) : Bool := s.bit F.LANTERN_STATUS_READY && s.powerLevel != 3

/-- ADIT_STATUS.PORT_READY: bit p copies ADIT_PORT_STATUS_p.READY. -/
def State.portReadyBits (s : State) : Nat := ((List.range 4).map (fun p => if s.bit (F.ADIT_PORT_STATUS_READY p) then 2 ^ p else 0)).sum

/-- ADIT_STATUS.REPLAY_READY: the replay buffer is planned and HBM is ready. -/
def State.replayReady (s : State) : Bool := s.bit F.ADIT_REPLAY_CTRL_PLANNED && s.power.hbm

/-- POWER_READY (Table POWER-13), by the state that holds (Table POWER-9). -/
def State.powerReady (s : State) : Word :=
  let l := s.powerLevel
  let run := decide (l ≤ 1) && !s.fatal
  let groups := (List.range 64).map (fun g => decide (gsIDLE ≤ s.groupState g))
  let assigned := (List.range 16).flatMap (fun b => (s.lib b).benches)
  let bit := fun (i : Nat) (b : Bool) => if b then 2 ^ i else 0
  BitVec.ofNat 32 (bit 31 s.alive + bit 30 s.linkUp + bit 29 s.lanternReady + bit 28 (run && s.power.grotto) + bit 27 (run && s.power.hbm) +
    bit 26 (run && s.bit F.SUMP_STATUS_READY) + bit 25 (decide (l = 0) && !s.fatal && s.bit F.CHISEL_STATUS_READY) +
    bit 24 (!s.fatal && decide (l ≤ 2) && s.tunnelReady) +
    (if run then s.portReadyBits * 2 ^ 20 + ((List.range 8).map (fun k => bit (12 + k) (s.bit (F.SEAM_STATUS_DIE_READY k)))).sum +
      bit 11 (groups.all id) + bit 10 (groups.any id) + bit 9 (assigned.all s.benchReady) + bit 8 s.replayReady +
      bit 7 (s.bit F.ADIT_STATUS_HOST_INGEST_READY) else 0))

/-- Is ALERT_N asserted (R505)? -/
def State.alertAsserted (s : State) : Bool :=
  s.power.tripped || s.power.tripping || (s.alive && (s.reg R.POWER_SUMMARY &&& s.reg R.POWER_ALERT_EN != 0 || s.fatal))

end Sys2Proof.Machine
end

