-- ==== Sys2Proof/Machine/Power.lean ====
section
/-! DEFINITION.  The commands of the power block: temperature, entries and exits, wakes, the journal, rails, faults, logs, alarms and
the PMBus master (15_power_health, 16_pins_package_test R512 to R519). -/

namespace Sys2Proof.Machine

/-! ### Temperature (R323, R495) -/

/-- Sensors at or above the trip temperature of 110 °C. -/
def hotSensors (readings : List (BitVec 12)) : List Nat := (List.range 9).filter (fun n => 440 ≤ (readings.getD n 0).toInt)

/-- POWER_TEMP_n, POWER_THERMAL and the throttle levels after a sample. -/
def State.takeSample (s : State) (readings : List (BitVec 12)) : State :=
  let t := fun (n : Nat) => (readings.getD n 0).toInt
  let s1 := (List.range 9).foldl (fun (a : State) n => a.setFld (F.POWER_TEMP_TEMP n) (readings.getD n 0).toNat) s
  let s2 := (List.range 8).foldl (fun (a : State) k =>
    (a.setDie k { a.die k with temp := t (1 + k) }).setThrottle k (throttleStep (max (t (1 + k)) (t 0)) (a.throttleOf k))) s1
  let top := s2.hottest
  let sensor := ((List.range 9).find? (fun n => s2.tempOf n == top)).getD 0
  let level := (List.range 8).foldl (fun m k => max m (s2.throttleOf k)) 0
  ((s2.setFld F.POWER_THERMAL_HOTTEST (BitVec.ofInt 8 (top / 4)).toNat).setFld F.POWER_THERMAL_SENSOR sensor).setFld F.POWER_THERMAL_LEVEL level

/-- TEMP_SAMPLE (R495, R485): the hub's reading, then those of dies 0 to 7. A sensor at 110 °C in two samples running trips the part;
an exit refused with THERMAL starts below 100 °C. -/
def execTempSample (readings : List (BitVec 12)) (s : State) : Out :=
  if !s.alive || readings.length ≠ 9 then .next s
  else
    let hot := hotSensors readings
    let s1 := s.takeSample readings
    match hot.find? (fun n => s.power.hot.contains n) with
    | some n => if s.power.railsOff = 0 then .next (s1.trip n (readings.getD n 0)) else .next s1
    | none =>
      let s2 : State := { s1 with power := { s1.power with hot := hot } }
      match s2.power.thermalWait with
      | none => .next s2
      | some src => if s2.hottest < 400 then .next (s2.startExit src) else .next s2

/-- TRIP_LOCKOUT_EXPIRY (R495). -/
def execTripLockoutExpiry (s : State) : Out :=
  if s.power.lockout && decide (s.power.tripAt + 6000000000 ≤ s.power.clock) then .next { s with power := { s.power with lockout := false } }
  else .next s

/-! ### Commands of POWER_CMD (R478, R482) -/

/-- POWER_RUN (Table POWER-3). -/
def execPowerRun (path : Path) (s : State) : Out := gate 7 s (.next (s.powerCmd path 0))
/-- POWER_IDLE (R479). -/
def execPowerIdle (path : Path) (s : State) : Out := gate 7 s (.next (s.powerCmd path 1))
/-- POWER_SLEEP (R479). -/
def execPowerSleep (path : Path) (s : State) : Out := gate 7 s (.next (s.powerCmd path 2))
/-- POWER_DEEP_SLEEP (R479). -/
def execPowerDeepSleep (path : Path) (s : State) : Out := gate 7 s (.next (s.powerCmd path 3))
/-- POWER_OFF (R479). -/
def execPowerOff (path : Path) (s : State) : Out := gate 7 s (.next (s.powerCmd path 4))

/-! ### Entries -/

/-- Is a transition to a lower state in progress? -/
def State.entering (s : State) : Bool := s.alive && s.pstate == psENTERING

/-- The groups halt; an entry to Idle, Sleep or Deep sleep passes its point of no return, one to Off flushes the journal (R479). -/
def State.quiesced (s : State) : State :=
  let t := s.fld F.POWER_STATUS_TARGET
  let s1 := s.enabledStreams.foldl (fun (a : State) n => a.dropLater n) s
  let s2 : State := { s1 with power := { s1.power with quiet := true, pnr := decide (t ≤ 3) } }
  if t = 4 then s2.startFlush else s2

/-- STREAM_QUIESCE_DONE (R479 steps 2 to 4). -/
def execStreamQuiesceDone (s : State) : Out :=
  if !s.entering || s.power.from_ ≠ 0 || s.power.quiet || s.quiescing then .next s else .next s.quiesced

/-- Does the refuser end the entry in progress? MPORT_ACTIVE counts at the point of no return alone, for Off: at the first rail step
(R483). -/
def State.aborts (s : State) (n : Nat) : Bool :=
  let t := s.fld F.POWER_STATUS_TARGET
  s.entering && !s.power.pnr &&
    (if n = 8 then t == 4 && s.power.offFlushed && s.power.railsOff == 0 else s.refuserHolds t n)

/-- ENTRY_ABORT (R484). -/
def execEntryAbort (refuser : BitVec 4) (s : State) : Out :=
  let n := refuser.toNat
  if s.aborts n then .next (((s.bump (F.POWER_REFUSE_ABORTED n) 1).entryBack n).alarm F.POWER_ALARM_ENTRY_ABORTED 0) else .next s

/-- Adit lanes fall to electrical idle: their ports realign on the next SYSREF edge after the return (Table POWER-1, R98). -/
def State.lanesIdle (s : State) : State :=
  let s1 := (List.range 4).foldl (fun (a : State) p => if a.bit (F.ADIT_PORT_CTRL_EN p) then a.unalign p else a) s
  { s1 with prefetched := [] }

/-- The journal is written at an entry to Sleep or Deep sleep, and periodically (R489). -/
def State.journalWrite (s : State) : State :=
  let s1 := s.writeJournal (s.bit F.POWER_STATUS_HELD)
  { s1 with power := { s1.power with journalAt := s1.uptime } }

/-- Idle, Sleep or Deep sleep is reached; a wake that came after the point of no return starts the exit. -/
def State.enterLow (s : State) (t : Nat) : State :=
  let s1 := ((s.setFld F.POWER_STATUS_STATE t).setFld F.POWER_STATUS_TARGET 0).setOutcome 1 0xF
  let s2 := if t = 1 then s1 else (if s.power.from_ ≤ 1 then s1.lanesIdle else s1).journalWrite
  let s3 : State := { s2 with power := { s2.power with pnr := false, wakePend := none, deepAt := if t = 3 then s2.power.clock else s2.power.deepAt } }
  match s.power.wakePend with
  | none => s3
  | some src => s3.startExit src

/-- Off is reached (Table POWER-1); a wake that came after the point of no return turns the rails on. -/
def State.enterOff (s : State) : State :=
  let s1 := s.journalAtLoss.powerDown
  let s2 : State := { s1 with power := { s1.power with off := true, from_ := 4 } }
  match s.power.wakePend with
  | none => s2
  | some src => { s2 with power := { s2.power with waking := true, railsOn := 0, source := src, exitAt := s2.power.clock } }

/-- POWER_ENTRY_DONE (Table POWER-3). -/
def execPowerEntryDone (s : State) : Out :=
  let t := s.fld F.POWER_STATUS_TARGET
  if !s.entering || !s.power.pnr then .next s
  else if t ≤ 3 then .next (s.enterLow t)
  else if s.power.railsOff = 7 then .next s.enterOff
  else .next s

/-! ### Exits -/

/-- Every bench of a die that slept longer than its patrol interval is checked anew (R480). -/
def State.recheckDies (s : State) : State :=
  (s.seam.benches.map Prod.fst).foldl (fun (a : State) key =>
    let k := key / 8192
    let j := key % 8192
    if s.power.clock < s.power.deepAt + 360000000000 * s.fld (F.SEAM_PLAN_TIME_PATROL_H k) || (a.benchSt k j).state = .retired then a
    else a.moveBenchState k j .checking) s

/-- The return to Run (R480). -/
def State.returnToRun (s : State) (lines : List Doorbell) : State :=
  let s1 := if s.power.from_ = 3 then s.recheckDies else s
  let s2 := (List.range 8).foldl (fun (a : State) k => a.setDie k { a.die k with recalFrom := a.uptime }) s1
  let s3 : State := { s2.setFld F.POWER_STATUS_STATE 0 with power := { s2.power with quiet := false } }
  let s4 := s3.enabledStreams.foldl (fun (a : State) n => a.resumeStream n) s3
  let s5 := if s4.lantern.noticesDue then ({ s4 with lantern := { s4.lantern with noticesDue := false } } : State).sendNotices else s4
  let s6 := lines.foldl (fun (a : State) d => if a.ringState d.ring.toNat = ringACTIVE then a.readDoorbell d else a) s5
  let s7 := s6.lastWake
  { s7 with power := { s7.power with brown := false } }

/-- POWER_EXIT_DONE (R480, R486). -/
def execPowerExitDone (lines : List Doorbell) (s : State) : Out :=
  if !s.alive || s.pstate ≠ psEXITING then .next s else .next (s.returnToRun lines)

/-! ### Wakes (Table POWER-5) -/

/-- WAKE_N (R486). -/
def execWakeN (s : State) : Out := .next (s.wake 2 0 false)

/-- WAKE_TIMER_EXPIRY (R487). -/
def execWakeTimerExpiry (s : State) : Out :=
  if !s.power.timerDue then .next s
  else .next (({ s with power := { s.power with timerDue := false } } : State).wake 3 3 false)

/-! ### Power failure and the journal (R489 to R491) -/

/-- PFW_N_FALL (R490): a flush in progress goes on, and no second one starts. -/
def execPfwNFall (s : State) : Out :=
  let s1 : State := { s with power := { s.power with pfwLow := true } }
  if !s.alive then .next s1
  else .next (((s1.setBit F.POWER_STATUS_PFW true).alarm F.POWER_ALARM_PFW 0).startFlush)

/-- PFW_N_RISE (R491): held ends; from Off the part wakes as POWER_RETURN. -/
def execPfwNRise (s : State) : Out :=
  let s1 : State := { s with power := { s.power with pfwLow := false } }
  let s2 := if s1.alive then (s1.setBit F.POWER_STATUS_PFW false).setBit F.POWER_STATUS_HELD false else s1
  .next (s2.wake 4 4 true)

/-- JOURNAL_FLUSH_DONE (R491): the closed copy is written, and the part is held while PFW_N is low. -/
def execJournalFlushDone (s : State) : Out :=
  let p := s.power
  if !s.bit F.POWER_STATUS_FLUSHING || p.off || p.tripped || p.inReset then .next s
  else
    let s1 := ((s.setBit F.POWER_STATUS_FLUSHING false).setBit F.POWER_STATUS_HELD (p.pfwLow && !p.tripping)).writeJournal true
    let done := s.pstate = psENTERING ∧ s.fld F.POWER_STATUS_TARGET = 4 ∧ (p.quiet = true ∨ p.from_ ≠ 0)
    .next { s1 with power := { s1.power with journalAt := s1.uptime, offFlushed := p.offFlushed || decide done } }

/-- JOURNAL_PERIODIC (R489): after 10 minutes of powered time. -/
def execJournalPeriodic (s : State) : Out :=
  if !s.alive || s.bit F.POWER_STATUS_FLUSHING || s.uptime < s.power.journalAt + 600000 then .next s else .next s.journalWrite

/-! ### Rails (R493, R494, R514 to R516) -/

/-- The rails of a step of Table POWER-6, by index of Table PINS-3. -/
def stepRails (k : Nat) : List Nat :=
  match k with
  | 1 => [0] | 2 => [1] | 3 => [2] | 4 => [3] | 5 => [4, 5, 6] | 6 => [7] | 7 => [8] | _ => []

/-- Record a rail that failed its step. -/
def State.seqFault (s : State) (step : Nat) (stuck early : Bool) : State :=
  ((s.setFld F.POWER_SEQ_RAIL step).setBit F.POWER_SEQ_STUCK stuck).setBit F.POWER_SEQ_EARLY early

/-- One step down. `early` names the step of a rail that fell before its turn: every rail still on is turned off at once (R494). -/
def State.railDown (s : State) (stuck : Bool) (early : Option Nat) : State :=
  let k := s.power.railsOff + 1
  let s0 := if k = 1 then s.setReg R.POWER_SEQ 0 else s
  match early.filter (fun e => k ≤ e ∧ e ≤ 7) with
  | some e =>
    let s1 : State := { s0 with power := { s0.power with pnr := true, railsOff := 7, railUp := s0.power.railUp.filter (fun r =>
      !((List.range 7).any (fun i => k ≤ i + 1 && (stepRails (i + 1)).contains r))) } }
    s1.seqFault e false true
  | none =>
    let up := if stuck then s0.power.railUp else s0.power.railUp.filter (fun r => !(stepRails k).contains r)
    let s1 : State := { s0 with power := { s0.power with pnr := true, railsOff := k, railUp := up } }
    if stuck then s1.seqFault k true false else s1

/-- The part is TRIPPED (R495). -/
def State.enterTripped (s : State) : State :=
  let s1 := s.powerDown
  { s1 with power := { s1.power with tripped := true, from_ := 5 } }

/-- RAIL_OFF_STEP (R493): after the flush, in an entry to Off or a trip. The last step of a trip ends it. -/
def execRailOffStep (stuck : Bool) (early : Option (BitVec 3)) (s : State) : Out :=
  let p := s.power
  let due := p.tripping || (s.entering && s.fld F.POWER_STATUS_TARGET == 4 && p.offFlushed)
  if !due || s.bit F.POWER_STATUS_FLUSHING || 7 ≤ p.railsOff then .next s
  else
    let s1 := s.railDown stuck (early.map (fun e => e.toNat))
    .next (if p.tripping && s1.power.railsOff = 7 then s1.enterTripped else s1)

/-- RAIL_ON_STEP (R493, R514): the steps in reverse; after the last, the internal reset holds until RESET_N_RELEASE. -/
def execRailOnStep (s : State) : Out :=
  let p := s.power
  if !p.waking then .next s
  else
    let up := p.railUp ++ (stepRails (7 - p.railsOn)).filter (fun r => !p.railUp.contains r)
    if p.railsOn < 6 then .next { s with power := { p with railsOn := p.railsOn + 1, railUp := up } }
    else
      let q := { p with railsOn := 7, railUp := up, waking := false, off := false, tripped := false }
      .next { s with power := { q with inReset := true, railsOff := 0, lockout := false } }

/-- The standby domain's registers at the first application of VSTBY (Table POWER-13). -/
def State.standbyReset (s : State) : State :=
  ((s.setReg R.POWER_LAST_WAKE (regReset R.POWER_LAST_WAKE)).setReg R.POWER_WAKE_CFG (regReset R.POWER_WAKE_CFG)).setReg R.POWER_WAKE_TIMER 0

/-- POR (R493): VSTBY is applied, and the part powers up with SOURCE POR. -/
def execPor (s : State) : Out :=
  if s.power.vstby then .next s
  else
    let s1 := s.standbyReset
    let p := { s1.power with vstby := true, waking := true, railsOn := 0, source := 1, from_ := 4, timerLeft := 0, timerDue := false }
    .next { s1 with power := { p with exitAt := p.clock } }

/-- BROWNOUT (R488): in Off with the standby regulator in low-power mode. -/
def execBrownout (s : State) : Out :=
  let p := s.power
  if !p.off || !p.vstby || p.waking || s.bit F.POWER_WAKE_CFG_STBY_NORMAL then .next s
  else
    let s1 := ((s.setReg R.POWER_WAKE_CFG (regReset R.POWER_WAKE_CFG)).setReg R.POWER_WAKE_TIMER 0).setFld F.POWER_LAST_WAKE_COUNT 0
    .next { s1 with power := { s1.power with timerLeft := 0, timerDue := false, aseqLost := true, brown := true } }

/-- The rails are gone without a sequence (R515): only what the journal, the record area and the standby domain hold is left. A trip
under way ends in TRIPPED. -/
def State.collapse (s : State) : State :=
  let p := s.power
  if p.off || p.tripped then { s with power := { p with waking := false, railsOn := 0, railUp := [] } }
  else
    let s1 := s.journalAtLoss.powerDown
    { s1 with power := { s1.power with off := !p.tripping, tripped := p.tripping, from_ := if p.tripping then 5 else 4, inReset := false, railUp := [] } }

/-- RAIL_LOW (R516): outside a power-down sequence a rail below 90 % for 2 µs is loss of power. -/
def execRailLow (s : State) : Out :=
  let p := s.power
  if p.off || p.tripped || 0 < p.railsOff then .next s
  else
    let s1 := s.collapse
    .next { s1 with power := { s1.power with railLow := true } }

/-- POWER_LOSS (R515); with VSTBY the standby domain is lost too. -/
def execPowerLoss (vstbyLost : Bool) (s : State) : Out :=
  let s1 := s.collapse
  if !vstbyLost then .next s1
  else
    let p := { s1.power with vstby := false, off := true, tripped := false, lockout := false, brown := false, railLow := false }
    .next { s1 with power := { p with from_ := 4, aseqLost := true, timerLeft := 0, timerDue := false } }

/-! ### Faults of Sump, Chisel and the hub (R497 to R499) -/

/-- A window due a record: stream, first tick, Adit flags and its own flags. -/
abbrev DueWindow := Nat × Nat × Nat × Nat

/-- Windows in assembly, queued or admitted, the earliest first. -/
def insWindow (x : DueWindow) : List DueWindow → List DueWindow
  | [] => [x]
  | y :: t => if x.2.1 < y.2.1 then x :: y :: t else y :: insWindow x t

def State.dueWindows (s : State) : List DueWindow :=
  let a := (s.asm.filter (fun a => a.closeBy.isSome)).map (fun a => (a.stream, a.start, a.aditFlags, a.flags))
  let q := ((s.sump.watchQ ++ s.sump.ordQ ++ s.sump.active).filter (fun r => decide (r.kind = .window))).map (fun r =>
    (r.stream, r.start, r.aditFlags, r.flags))
  (a ++ q).foldl (fun l x => insWindow x l) []

/-- Report one due window SKIPPED with reason SUMP_FAULT. -/
def State.faultWindow (s : State) (x : DueWindow) : State :=
  let keep := fun (r : Request) => !(decide (r.kind = .window) && r.stream == x.1 && r.start == x.2.1)
  let s1 : State := { s with
    asm := s.asm.filter (fun a => !(a.stream == x.1 && a.start == x.2.1))
    sump := { s.sump with watchQ := s.sump.watchQ.filter keep, ordQ := s.sump.ordQ.filter keep, active := s.sump.active.filter keep } }
  s1.windowRecord { status := 1, reason := skSUMP_FAULT, stream := x.1, start := x.2.1, aditFlags := x.2.2.1, flags := x.2.2.2 }

/-- A request of another kind ends as its sender learns of a Sump that is not ready. -/
def State.faultRequest (s : State) (r : Request) : State :=
  match r.kind with
  | .host g i => s.complete g i stNOT_READY 0 0 0
  | .matrix g i => s.complete g i stNOT_READY 0 0 0
  | .served origin req => s.answerBusy origin req
  | _ => s

/-- Sump restarts: what it was working on is lost, and every window due is reported. -/
def State.sumpRestart (s : State) : State :=
  let s1 := s.dueWindows.foldl (fun (a : State) x => a.faultWindow x) s
  let others := s1.sump.active ++ s1.sump.ordQ ++ s1.sump.recallQ
  let s2 : State := { s1 with asm := [], sump := { s1.sump with watchQ := [], ordQ := [], recallQ := [], active := [], syn := [] } }
  others.foldl (fun (a : State) r => a.faultRequest r) s2

/-- SUMP_FAULT (R497). -/
def execSumpFault (s : State) : Out :=
  if !s.alive || s.fatal || s.power.sumpDead || 2 ≤ s.powerLevel then .next s
  else
    let f := s.recordFault .sump false
    let s1 := ((f.2.setBit F.SUMP_STATUS_READY false).setBit F.SUMP_STATUS_FAULT true).sumpRestart
    if f.1 then .next (({ s1 with power := { s1.power with sumpDead := true } } : State).deviceFault 6 0) else .next s1

/-- SUMP_RESTART_DONE (R301, R497): at bring-up it waits for HBM and Lantern. -/
def execSumpRestartDone (s : State) : Out :=
  if !s.alive || s.fatal || !s.power.hbm || s.power.sumpDead || s.bit F.SUMP_STATUS_READY ||
      (!s.bit F.SUMP_STATUS_FAULT && !s.bit F.LANTERN_STATUS_READY) then .next s
  else .next ((s.setBit F.SUMP_STATUS_READY true).setBit F.SUMP_STATUS_FAULT false)

/-- The bank of epoch k of a shadow, emptied; with the updates it held. -/
def Shadow.lose (h : Shadow) (k : Nat) : Nat × Shadow :=
  if k % 2 = 0 then (h.n0, { h with u0 := [], n0 := 0 }) else (h.n1, { h with u1 := [], n1 := 0 })

def BgModel.lose (h : BgModel) (k : Nat) : Nat × BgModel :=
  if k % 2 = 0 then (h.n0, { h with u0 := [], n0 := 0 }) else (h.n1, { h with u1 := [], n1 := 0 })

/-- The current epoch's updates not yet applied are lost and counted (R497). -/
def State.loseUpdates (s : State) : State :=
  let k := s.epoch
  let c := s.chisel
  let sh := c.shadows.map (fun e => (e.1, e.2.map (fun h => h.lose k)))
  let pl := c.pool.map (fun p => (p.shadow.lose k, p))
  let bg := c.bg.map (fun e => (e.1, e.2.lose k))
  let n := (sh.map (fun e => match e.2 with | some x => x.1 | none => 0)).sum + (pl.map (fun x => x.1.1)).sum + (bg.map (fun e => e.2.1)).sum
  let s1 : State := { s with chisel := { c with
    shadows := sh.map (fun e => (e.1, e.2.map Prod.snd)), pool := pl.map (fun x => { x.2 with shadow := x.1.2 }),
    bg := (bg.map (fun e => (e.1, e.2.2))).filter (fun e => !decide (e.2 = bgDefault e.1)) } }
  s1.bump F.CHISEL_LATE_COUNT n

/-- CHISEL_FAULT (R497). -/
def execChiselFault (s : State) : Out :=
  if !s.alive || s.fatal || s.power.chiselDead || 1 ≤ s.powerLevel then .next s
  else
    let f := s.recordFault .chisel false
    let s1 := (f.2.setBit F.CHISEL_STATUS_READY false).loseUpdates
    if f.1 then .next (({ s1 with power := { s1.power with chiselDead := true } } : State).deviceFault 7 0) else .next s1

/-- CHISEL_READY (R497, Table FLOW-12 step 7): after Sump; notices and close points that fell due are made. -/
def execChiselReady (s : State) : Out :=
  if !s.alive || s.fatal || s.power.chiselDead || s.bit F.CHISEL_STATUS_READY || !s.bit F.SUMP_STATUS_READY || !s.lanternRuns then .next s
  else
    let s1 := s.setBit F.CHISEL_STATUS_READY true
    if s1.lantern.noticesDue then .next (({ s1 with lantern := { s1.lantern with noticesDue := false } } : State).sendNotices) else .next s1

/-- Every ready indication except MBX, HOST_LINK and LANTERN falls (R499). -/
def State.allUnready (s : State) : State :=
  let s1 := ((((s.setBit F.SUMP_STATUS_READY false).setBit F.CHISEL_STATUS_READY false).setReg R.GAL_GROUP_READY_LO 0).setReg R.GAL_GROUP_READY_HI 0)
    |>.setBit F.TUNNEL_STATUS_READY false
  let s2 := (s1.setReg R.ADIT_STATUS 0)
  let s3 := (List.range 4).foldl (fun (a : State) p => a.setBit (F.ADIT_PORT_STATUS_READY p) false) s2
  let s4 := (List.range 8).foldl (fun (a : State) k =>
    ((List.range 240).map (R.SEAM_BENCH_READY k)).foldl (fun (b : State) w => b.setReg w 0) (a.setBit (F.SEAM_STATUS_DIE_READY k) false)) s3
  { s4 with power := { s4.power with hbm := false, grotto := false } }

/-- FATAL_DEVICE_FAULT (R498, R499): CAUSE 1 ROUTER, 2 HBM, 3 HUB. -/
def execFatalDeviceFault (cause : Fin 3) (s : State) : Out :=
  if !s.alive || s.fatal then .next s else .next ((s.deviceFault (cause.val + 1) 0).allUnready)

/-- HBM_TRAINED (R547, Table FLOW-12 steps 4 and 5): HBM, Grotto and host ingest become ready; HBM that fails training has lost its
contents. -/
def execHbmTrained (ok : Bool) (s : State) : Out :=
  if !s.lanternRuns || s.fatal || s.power.hbm then .next s
  else if ok then
    .next (({ s with power := { s.power with hbm := true, grotto := true } } : State).setBit F.ADIT_STATUS_HOST_INGEST_READY true)
  else .next { s with power := { s.power with hbmLost := true }, sump := { s.sump with mirrors := [] } }

/-- FAULT_AGE_OUT (R496): faults 24 h of powered time old leave every history. -/
def execFaultAgeOut (s : State) : Out := .next { s with faults := s.faults.filter (fun e => s.uptime < e.2 + dayMs) }

/-! ### Alarms, logs and traces (R501 to R504) -/

/-- The lowest ring of a type that is ACTIVE (R421). -/
def State.activeRing (s : State) (type : Nat) : Option Nat :=
  (List.range 64).find? (fun r => s.ringState r == ringACTIVE && s.ringType r == type)

/-- ALARM_DELIVER (R504): the oldest alarm record goes to the alarm ring; one ALARMS_LOST record then covers alarms not queued. -/
def execAlarmDeliver (ok : Bool) (s : State) : Out :=
  match s.activeRing 6, s.alarmQ with
  | some r, w :: t =>
    if !s.alive || s.fatal || s.asleep || !s.ringRoom r then .next s
    else if !ok then .next (s.ringError r)
    else
      let s1 : State := ({ s with alarmQ := t } : State).putRecord r w
      match s1.alarmLost with
      | none => .next s1
      | some (n, first) => .next (({ s1 with alarmLost := none } : State).queueAlarm 0x0745 7 0 [(16, 4, n), (20, 4, first)])
  | _, _ => .next s

/-- A trace word at the collector: source, tick, code, value. -/
abbrev TraceWord := Nat × Nat × Nat × Word

/-- Words in the order they are written: Lantern's first (R501). -/
def State.traceOrder (s : State) : List TraceWord :=
  s.traceLog.filter (fun e => e.1 == traceLantern) ++ s.traceLog.filter (fun e => e.1 != traceLantern)

/-- Up to `n` leading words within 128 ticks of the first (R440). -/
def traceSpan (first : Nat) : Nat → List TraceWord → List TraceWord
  | 0, _ => []
  | _, [] => []
  | n + 1, e :: t => if first ≤ e.2.1 && e.2.1 < first + 128 then e :: traceSpan first n t else []

/-- Word i of a record (Table HOST-12). -/
def traceField (first : Nat) (e : TraceWord) : Nat :=
  e.2.2.2.toNat + e.2.2.1 % 4096 * 2 ^ 32 + e.1 % 8192 * 2 ^ 44 + (e.2.1 - first) * 2 ^ 57

def traceRecord (dropped : Nat) (ws : List TraceWord) : Slot :=
  let first := match ws with | [] => 0 | e :: _ => e.2.1
  slotOf ([(0, 1, 3), (1, 1, ws.length), (2, 2, dropped), (8, 8, first)] ++ ws.zipIdx.map (fun x => (16 + 8 * x.2, 8, traceField first x.1)))

/-- Timestamp units that RATE asks between records, for each word: RATE is in thousand words a second, 0 acts as 1 and above 2,000
as 2,000. -/
def State.traceGap (s : State) (words : Nat) : Nat := words * 100000 / (min 2000 (max 1 (s.fld F.POWER_LOG_CFG_RATE)))

/-- LOG_RECORD_WRITE (R440, R501): without an ACTIVE log and trace ring the words at the collector are dropped and counted. -/
def execLogRecordWrite (ok : Bool) (s : State) : Out :=
  if !s.alive || s.fatal then .next s
  else match s.activeRing 5 with
  | none =>
    let n := s.traceLog.length
    .next (({ s with traceLog := [], logDropped := min 65535 (s.logDropped + n) } : State).bump F.POWER_LOG_DROP_COUNT n)
  | some r =>
    match s.traceOrder with
    | [] => .next s
    | e :: t =>
      if s.asleep || !s.ringRoom r || s.now < s.host.logNext then .next s
      else if !ok then .next (s.ringError r)
      else
        let ws := traceSpan e.2.1 6 (e :: t)
        let rest := ws.foldl (fun l w => dropFirst w l) s.traceLog
        let s1 := (({ s with traceLog := rest, logDropped := 0 } : State).putRecord r (traceRecord s.logDropped ws))
        .next { s1 with host := { s1.host with logNext := s.now + s.traceGap ws.length } }

/-! ### PMBus (R517 to R519) -/

/-- Is the power-down sequence running, past its first step? -/
def State.seqRuns (s : State) : Bool := 0 < s.power.railsOff

/-- PMB_ALERT (R517): STATUS_WORD of every rail with EN is logged with trace code 0xE20; the log word's upper half is not stated. -/
def execPmbAlert (words : List (BitVec 16)) (s : State) : Out :=
  if !s.alive || s.seqRuns then .next s
  else .next ((((List.range 9).filter (fun n => s.bit (F.TEST_PMB_RAIL_EN n))).zip words).foldl (fun (a : State) x =>
    let d := a.draw
    d.2.traceArrive traceLantern d.2.tick 0xE20 (BitVec.ofNat 32 (Config.freeNat d.1 % 65536 * 65536 + x.2.toNat))) s)

/-- The voltage wanted of a rail in mV (Table PINS-4): `slowdown` is the hub ring oscillators' slowdown in hundredths of a percent. -/
def State.voutTarget (s : State) (core : Bool) (slowdown : Nat) : Nat :=
  if core then min 800 (max 720 (Config.fusedCore + (5 * slowdown + 499) / 500 * 5))
  else min 1140 (max 1110 (1100 + (List.range 8).foldl (fun m k => max m (s.fld (F.SEAM_PLAN_GUARD_GUARD_MV k))) 0))

/-- One step of at most 10 mV from `a` towards `b`. -/
def voutStep (a b : Nat) : Nat := if a ≤ b then min b (a + 10) else max b (a - 10)

/-- VOUT_REQUEST (R518, R519): VDD_CORE (rail 8) or VDD_LODE (rail 1) steps towards its value, at least 1 ms after its last step. -/
def execVoutRequest (core : Bool) (slowdown : BitVec 16) (ok : Bool) (s : State) : Out :=
  let r := if core then 8 else 1
  let nominal := if core then 750 else 1100
  let held := s.fld (F.TEST_PMB_RAIL_VSET_MV r)
  let now := if held = 0 then nominal else held
  let want := s.voutTarget core slowdown.toNat
  let last := aget s.test.voutAt r
  if !s.alive || s.seqRuns || !s.bit (F.TEST_PMB_RAIL_EN r) || (last ≠ 0 && s.power.clock < last + 100000) || held = want then .next s
  else
    let s1 : State := { s with test := { s.test with voutAt := aset s.test.voutAt r s.power.clock } }
    if !ok then .next ((s1.bump F.TEST_PMB_ERR_COUNT 1).alarm F.TEST_ALARM_PMB_FAULT r)
    else .next (s1.setFld (F.TEST_PMB_RAIL_VSET_MV r) (voutStep now want))

end Sys2Proof.Machine
end

