-- ==== Sys2Proof/Machine/Boot.lean ====
section
/-! DEFINITION.  Reset, bring-up, the host link and the boot of Lantern (R448, R431, R489, R504, R547). -/

namespace Sys2Proof.Machine

/-! ### RESET_N -/

/-- Is the part where RESET_N acts: powered, not in Off, TRIPPED, a trip, a rail sequence or reset? -/
def State.resettable (s : State) : Bool :=
  let p := s.power
  s.alive && !p.waking && !(s.pstate == psENTERING && s.fld F.POWER_STATUS_TARGET == 4 && p.pnr)

/-- RESET_N_ASSERT (R547, R19): HBM goes into self-refresh and the part resets; after a fatal HBM fault the contents of HBM count as
lost. -/
def execResetNAssert (s : State) : Out :=
  if !s.resettable then .next s
  else
    let lost := s.fatal && s.fld F.POWER_FAULT_CAUSE == 2
    let s1 := s.volatileReset lost
    .next { s1 with power := { s1.power with inReset := true, from_ := s.powerLevel, source := 7, hbmLost := lost } }

/-- What the newest journal copy restores after Off, TRIPPED or a loss of power (R489, R504). Restored alarm records keep their ASEQ;
JOURNAL_RESTORED takes the next and is delivered first. -/
def State.restoreJournal (s : State) : State :=
  let j := s.power.journal
  let s0 : State := { s with faults := j.faults, alarmQ := [], alarmLost := none, aseq := if s.power.aseqLost then j.aseq else s.aseq }
  let s1 := (List.range 9).foldl (fun (a : State) n => a.setReg (R.POWER_REFUSE n) (j.refuse.getD n 0)) s0
  let s2 := (List.range 8).foldl (fun (a : State) k => a.setFld (F.SEAM_UPKEEP_STATUS_PATROL_POS k) (j.patrol.getD k 0)) s1
  let s3 := (s2.set64 R.POWER_UPTIME_LO j.uptime).setReg R.POWER_SUMMARY j.summary
  let s4 := if j.blank then s3 else
    (s3.queueAlarm 0x0743 7 0 [(16, 4, j.alarms.length), (24, 8, j.ts)]).setRegBit R.POWER_SUMMARY 7 true
  { s4 with alarmQ := s4.alarmQ ++ j.alarms, power := { s4.power with aseqLost := false, journalAt := j.uptime } }

/-- The alarm THERMAL_TRIPPED, of code 0x0742 alone (R503). -/
def State.tripAlarm (s : State) : State :=
  ((s.setFld F.POWER_ALARM_THERMAL_TRIPPED 1).setRegBit R.POWER_SUMMARY 7 true).queueAlarm 0x0742 7 0
    [(16, 1, s.power.tripSensor), (18, 2, s.power.tripReading.toNat)]

/-- Raise an alarm when a condition holds. -/
def State.alarmIf (s : State) (b : Bool) (f : Fld) (unit : Nat) : State := if b then s.alarm f unit else s

/-- What the start after Off, TRIPPED or a loss of power reports (R489, R494, R495, R516, R488). -/
def State.powerAlarms (s : State) : State :=
  let p := s.power
  let s1 := s.alarmIf ((!p.journal.blank && !p.journal.closed) || p.railLow) F.POWER_ALARM_JOURNAL_LOST 0
  let s2 := s1.alarmIf (s1.fld F.POWER_SEQ_RAIL != 0) F.POWER_ALARM_SEQ_FAULT 0
  let s3 := if p.from_ = 5 then s2.tripAlarm else s2
  let s4 := s3.alarmIf p.railLow F.TEST_ALARM_RAIL_LOW 0
  let s5 := s4.alarmIf p.brown F.POWER_ALARM_BROWNOUT 0
  { s5 with power := { s5.power with railLow := false } }

/-- The alarms of updates that the reset ended (Table LANTERN-11). -/
def State.updateAlarms (s : State) : State :=
  let s1 := s.lantern.updateLost.foldl (fun (a : State) u => a.alarm F.LANTERN_ALARM_UPDATE_LOST (u - 1)) s
  s1.lantern.rolledBack.foldl (fun (a : State) u => a.alarmIf (0 < u) F.LANTERN_ALARM_LIB_ROLLBACK (u - 1)) s1

/-- A bank in TRIAL is REJECTED at boot and the FALLBACK bank becomes ACTIVE (R448, R470). -/
def State.rejectTrial (s : State) : State :=
  match s.bankIn fbTRIAL with
  | none => s
  | some n =>
    let s1 := ((s.setBank n fbREJECTED).setBank (1 - n) fbACTIVE).alarm F.LANTERN_ALARM_FW_ROLLBACK n
    { s1 with lantern := { s1.lantern with rolledBack := s1.lantern.rolledBack ++ [0] } }

/-- The release of RESET_N (R448): the mailboxes accept words and the boot ROM chooses a bank, given which banks' signatures hold. -/
def State.release (s : State) (aGood bGood : Bool) : State :=
  let p := s.power
  let s1 : State := { s with power := { p with inReset := false }, test := { s.test with waitRelease := none } }
  let s2 := if 4 ≤ p.from_ then s1.restoreJournal.powerAlarms else s1
  let s3 := s2.updateAlarms.rejectTrial
  let s4 := (s3.setBit F.POWER_STATUS_PFW p.pfwLow).lastWake
  ({ s4 with power := { s4.power with brown := false } } : State).chooseBank aGood bGood 0

/-- RESET_N_RELEASE (R448, R535): the bring-up waits while the TAP holds the pins. -/
def execResetNRelease (aGood bGood : Bool) (s : State) : Out :=
  if !s.power.inReset then .next s
  else if s.test.pinsHeld then .next { s with test := { s.test with waitRelease := some (aGood, bGood) } }
  else .next (s.release aGood bGood)

/-- Lantern places the key mirror area and the background models in HBM: where, the specification does not say. -/
def State.placeAreas (s : State) : State :=
  let d := s.draw
  let e := d.2.draw
  (e.2.setReg R.SUMP_MIRROR_BASE (BitVec.ofNat 32 (Config.freeNat d.1))).setReg R.CHISEL_BG_BASE (BitVec.ofNat 32 (Config.freeNat e.1))

/-- BOOT_DONE (R448 step 4): the firmware sets Lantern ready. `copiesOk` is false when a copy of a two-copy record failed its CRC
(R447). -/
def execBootDone (copiesOk : Bool) (s : State) : Out :=
  match s.lantern.boot with
  | none => .next s
  | some b => if !s.alive || b.switch then .next s else .next ((s.alarmIf (!copiesOk) F.LANTERN_ALARM_RECORD_ERR 0).placeAreas.startBank b)

/-! ### The host link (R414, R431) -/

/-- Every ring becomes DISABLED; taken work ends with its completion discarded, and nothing is written to host memory. -/
def State.linkLost (s : State) : State :=
  let s1 := ((s.setBit F.HOST_STATUS_LINK_READY false).setFld F.HOST_STATUS_SPEED 0).setFld F.HOST_STATUS_WIDTH 0
  (List.range 64).foldl (fun (a : State) r =>
    if a.ringState r = ringDISABLED then a
    else
      let b := (a.setBit (F.HOST_RING_CFG_EN r) false).setRingState r ringDISABLED
      let c := if isSubmission (b.ringType r) then b.endTaken r else b
      c.setRing r { c.ring r with marks := [] }) s1

/-- Registers of the MSI-X table and its pending bits (R19, R416). -/
def isMsix (a : Nat) : Bool := 0x108000 ≤ a && a < 0x10A000

/-- PCIE_PERST (R431, R19). -/
def execPciePerst (s : State) : Out :=
  let s0 : State := { s with host := { s.host with perst := true } }
  if !s.alive then .next s0
  else
    let s1 := s0.linkLost
    .next { s1 with regs := s1.regs.filter (fun e => !isMsix e.1) }

/-- PCIE_LINK_DOWN (R431). -/
def execPcieLinkDown (s : State) : Out := if !s.alive then .next s else .next s.linkLost

/-- PCIE_LINK_UP (R414): PCIE_PERST_N is deasserted and the link has trained. -/
def execPcieLinkUp (speed : BitVec 4) (width : BitVec 5) (s : State) : Out :=
  if !s.alive || s.linkUp then .next s
  else
    let s1 := ((s.setBit F.HOST_STATUS_LINK_READY true).setFld F.HOST_STATUS_SPEED speed.toNat).setFld F.HOST_STATUS_WIDTH width.toNat
    .next { s1 with host := { s1.host with perst := false } }

end Sys2Proof.Machine
end

