-- ==== Sys2Proof/Machine/Pins.lean ====
section
/-! DEFINITION.  The tick boundary, the timestamp inputs, the TAP and the PRBS checkers (R78, R524, R525, R534 to R538). -/

namespace Sys2Proof.Machine

/-! ### The tick counter (R78, R525) -/

/-- The timestamp at which the next tick starts, and that tick: of the running counter, or of one that START has set up. -/
def State.tickAhead (s : State) : Option (Nat × Nat) :=
  if s.ticking then some (s.tickStart (s.tick + 1), s.tick + 1) else s.test.start

/-- The start of a tick counter set up at the present timestamp: tick 0 at T0, or the first later T0 + m × P once T0 has passed. -/
def State.tickSetup (s : State) : Nat × Nat :=
  if s.now ≤ s.t0 then (s.t0, 0) else (s.tickStart (s.tickOf s.now + 1), s.tickOf s.now + 1)

/-- The counters pass the start of tick `t`: cores that halt or start there do so, and the synapse shadow falls due. -/
def State.boundaryPass (s : State) (t : Nat) : State :=
  let s1 := (s.set64 R.TEST_TICK_NOW_LO t).setBit F.TEST_TIME_STATUS_TICKS_STARTED true
  let s2 : State := { s1 with test := { s1.test with start := none } }
  let s3 := (s2.groups.filter (fun e => e.2.halting)).foldl (fun (a : State) e => a.setGrp e.1 { a.grp e.1 with halting := false }) s2
  let s4 := (s3.cores.filter (fun e => e.2.restartPend)).foldl (fun (a : State) e =>
    a.setCore e.1 { a.core e.1 with restartPend := false, started := true }) s3
  s4.takeSynShadow

/-- `n` single units pass, until the timestamp reaches `target`. -/
def State.creep (target : Nat) : Nat → State → State
  | 0, s => s
  | n + 1, s => if target ≤ s.now then s else (s.elapse 1).creep target n

/-- Time passes until the timestamp reaches `target`, a slew in progress being allowed for. -/
def State.reachTime (s : State) (target : Nat) : State :=
  let d := target - s.now
  let n := ((d : Int) - max 0 (slewGain s.test.slew s.test.slewSub d)).toNat
  (if n = 0 then s else s.elapse n).creep target 64

/-- TICK_BOUNDARY (R78): the timestamp reaches the start of the next tick. -/
def execTickBoundary (s : State) : Out :=
  match s.tickAhead with
  | some (target, t) => if !s.alive then .next s else .next ((s.reachTime target).boundaryPass t)
  | none => .next s

/-- One 10 ns unit passes with no command waiting: the tick boundary is passed when the timestamp reaches it, and trace words leave
their cores (R501). -/
def State.idle (s : State) : State :=
  let s1 := s.elapse 1
  let s2 := match s1.tickAhead with
    | some (target, t) => if s1.alive && decide (target ≤ s1.now) then s1.boundaryPass t else s1
    | none => s1
  (s2.cores.filter (fun e => !e.2.traceQ.isEmpty)).foldl (fun (a : State) e => a.traceLeave e.1) s2

/-- TICK_START (R525): refused once START has been written. -/
def execTickStart (s : State) : Out := gate 9 s (
  if s.ticking || s.test.start.isSome then .next (s.alarm F.TEST_ALARM_TICK_REFUSED 0)
  else .next { s with test := { s.test with start := some s.tickSetup } })

/-! ### Timestamp inputs (R524) -/

/-- Units in a second. -/
def second : Nat := 100000000

/-- The signed offset of a timestamp from the nearest whole second. -/
def secondOffset (t : Nat) : Int :=
  let r := t % second
  if second / 2 < r then (r : Int) - second else r

/-- A PPS edge is counted, with its offset and the lock it shows. -/
def State.notePps (s : State) (off : Int) : State :=
  let s1 := ((s.setReg R.TEST_TIME_OFFSET (BitVec.ofInt 32 off)).setFld F.TEST_TIME_STATUS_PPS_COUNT (s.fld F.TEST_TIME_STATUS_PPS_COUNT + 1))
    |>.setBit F.TEST_TIME_STATUS_PPS_LOCK (off.natAbs ≤ 2)
  { s1 with test := { s1.test with ppsAt := s1.now } }

/-- TIME_PPS_EDGE: before the tick counter starts the edge sets the timestamp to TEST_TIME_NEXT; afterwards its offset is slewed away. -/
def execTimePpsEdge (s : State) : Out :=
  if !s.alive || !s.bit F.TEST_TIME_CTRL_PPS_EN then .next s
  else if !s.ticking then
    let next := s.get64 R.TEST_TIME_NEXT_LO
    let s1 := (s.set64 R.TEST_TIME_NOW_LO next).set64 R.TEST_TIME_NEXT_LO (next + second)
    let st := match s1.test.start with
      | some (ts, m) => some (if next ≤ ts then (ts, m) else s1.tickSetup)
      | none => none
    let s2 : State := { s1 with test := { s1.test with start := st } }
    .next (s2.notePps (secondOffset next))
  else
    let off := secondOffset s.now
    let s1 := s.notePps off
    let s2 : State := { s1 with test := { s1.test with slew := if off.natAbs ≤ 2 then 0 else -off, slewSub := 0 } }
    .next (s2.alarmIf (100000 < off.natAbs) F.TEST_ALARM_PPS_JUMP 0)

/-- REF10M_LOST: TIME_10M has shown no edge for 1 µs. -/
def execRef10mLost (s : State) : Out :=
  if !s.alive || !s.bit F.TEST_TIME_CTRL_REF10M_EN then .next s
  else .next ((s.setBit F.TEST_TIME_STATUS_ON_10M false).alarm F.TEST_ALARM_REF10M_LOST 0)

/-- REF10M_RETURN: 1 s of clean TIME_10M edges. -/
def execRef10mReturn (s : State) : Out :=
  if !s.alive || !s.bit F.TEST_TIME_CTRL_REF10M_EN then .next s
  else .next (s.setBit F.TEST_TIME_STATUS_ON_10M true)

/-- PPS_LOST: 1.5 s without a PPS edge. -/
def execPpsLost (s : State) : Out :=
  if !s.alive || !s.bit F.TEST_TIME_CTRL_PPS_EN || s.now < s.test.ppsAt + 150000000 then .next s
  else .next (s.alarm F.TEST_ALARM_PPS_LOST 0)

/-! ### Boundary scan (R534 to R537) -/

/-- The TAP works in every state except Off and TRIPPED. -/
def State.tapWorks (s : State) : Bool := s.power.vstby && !s.power.off && !s.power.tripped

/-- May a TAP instruction take the pins: RESET_N is low and every rail is up (R535)? -/
def State.pinsFree (s : State) : Bool :=
  s.power.inReset && s.test.waitRelease.isNone && (List.range 9).all (fun r => s.power.railUp.contains r)

/-- The identification register (Table PINS-10). -/
def State.idcodeWord (s : State) : Word :=
  BitVec.ofNat 32 (s.fld F.TEST_ID_REV * 2 ^ 28 + 0x0A01 * 2 ^ 12 + Config.jep106.toNat * 2 + 1)

/-- Update-IR: an instruction is in force. One that takes the pins does so where it may; when the pins are with the device again, a
bring-up that waited for them goes on (R535). -/
def State.tapLoad (s : State) (opcode : BitVec 8) (takes : Bool) (dr : Word) : State :=
  let held := takes && s.pinsFree
  let s1 : State := { s with test := { s.test with ir := opcode, pinsHeld := held, dr := dr } }
  match held, s1.test.waitRelease with
  | false, some w => s1.release w.1 w.2
  | _, _ => s1

/-- The instructions that test through the boundary register: where they may not take the pins they act as BYPASS. -/
def State.tapTest (s : State) (opcode : BitVec 8) (shift pins : BitVec 226) : State :=
  let free := s.pinsFree
  let s1 := s.tapLoad opcode true 0
  if free then { s1 with test := { s1.test with drive := shift, sample := pins } } else s1

/-- EXTEST: `shift` is what Update-DR drives, `pins` what Capture-DR sampled. -/
def execExtest (shift pins : BitVec 226) (s : State) : Out := if !s.tapWorks then .next s else .next (s.tapTest 0x00 shift pins)

/-- IDCODE. -/
def execIdcode (s : State) : Out := if !s.tapWorks then .next s else .next (s.tapLoad 0x01 false s.idcodeWord)

/-- SAMPLE/PRELOAD: the pins stay with the device. -/
def execSamplePreload (shift pins : BitVec 226) (s : State) : Out :=
  if !s.tapWorks then .next s
  else
    let s1 := s.tapLoad 0x02 false 0
    .next { s1 with test := { s1.test with drive := shift, sample := pins } }

/-- CLAMP: the outputs are held from the boundary register. -/
def execClamp (s : State) : Out := if !s.tapWorks then .next s else .next (s.tapLoad 0x04 true 0)

/-- HIGHZ. -/
def execHighz (s : State) : Out := if !s.tapWorks then .next s else .next (s.tapLoad 0x05 true 0)

/-- EXTEST_PULSE (R537). -/
def execExtestPulse (shift pins : BitVec 226) (s : State) : Out := if !s.tapWorks then .next s else .next (s.tapTest 0x08 shift pins)

/-- EXTEST_TRAIN (R537). -/
def execExtestTrain (shift pins : BitVec 226) (s : State) : Out := if !s.tapWorks then .next s else .next (s.tapTest 0x09 shift pins)

/-- BYPASS. -/
def execBypass (s : State) : Out := if !s.tapWorks then .next s else .next (s.tapLoad 0xFF false 0)

/-- TEST_LOGIC_RESET (R534, R535): IDCODE is loaded. -/
def execTestLogicReset (s : State) : Out := if !s.tapWorks then .next s else .next (s.tapLoad 0x01 false s.idcodeWord)

/-! ### PRBS checkers (R538) -/

/-- Is a port idle: an Adit port with EN = 0, or a Tunnel port while the chain state is OFF? -/
def State.prbsIdle (s : State) (p : Nat) : Bool :=
  if p < 4 then !s.bit (F.ADIT_PORT_CTRL_EN p) else s.tunnelState == tsOFF

def State.prbsRefuse (s : State) (p : Nat) : State := s.alarm F.TEST_ALARM_PRBS_REFUSED p

/-- PRBS_OFF. -/
def execPrbsOff (p : Fin 6) (s : State) : Out := gate 9 s (.next (if s.prbsIdle p then s.prbsOff p else s.prbsRefuse p))

/-- PRBS_CHECK: checking starts at the first lock. -/
def execPrbsCheck (p : Fin 6) (s : State) : Out := gate 9 s (
  .next (if s.prbsIdle p then (s.prbsOff p).setFld (F.TEST_PRBS_CTRL_MODE p) 1 else s.prbsRefuse p))

/-- PRBS_GENERATE: Tunnel ports only. -/
def execPrbsGenerate (p : Fin 6) (s : State) : Out := gate 9 s (
  .next (if s.prbsIdle p && decide (4 ≤ p.val) then (s.prbsOff p).setFld (F.TEST_PRBS_CTRL_MODE p) 2 else s.prbsRefuse p))

/-- PRBS_LOCK: the checker has locked onto the pattern, and counts `errors` bit errors. -/
def execPrbsLock (p : Fin 6) (errors : BitVec 32) (s : State) : Out :=
  if !s.alive || s.fld (F.TEST_PRBS_CTRL_MODE p) = 0 then .next s
  else
    let s1 := (s.setBit (F.TEST_PRBS_CTRL_LOCK p) true).bump (F.TEST_PRBS_ERR_COUNT p) errors.toNat
    .next (s1.alarmIf (0 < errors.toNat) F.TEST_ALARM_PRBS_ERR p)

end Sys2Proof.Machine
end

