-- ==== Sys2Proof/Machine/Access.lean ====
section
/-! DEFINITION.  Register accesses through BAR0 and MPORT: what each register reads as, what each write does, the latches and holds of
R22, and the MPORT transaction (R14 to R22, R526 to R528). -/

namespace Sys2Proof.Machine

/-- The state after an outcome; the state before where it is not a next state. -/
def after (s : State) : Out → State
  | .next t => t
  | _ => s

/-- A word packed from (place, value) parts. -/
def packWord (parts : List (Nat × Nat)) : Word := BitVec.ofNat 32 ((parts.map (fun p => p.2 * 2 ^ p.1)).sum)

def b1 (b : Bool) : Nat := if b then 1 else 0

/-! ### What registers show

A view answers none where the specification does not say what the register shows. -/

/-- ADIT_SS registers show the stream named by ADIT_SSEL (R128, Table ADIT-17); `o` is the offset in the ADIT block. -/
def State.viewStream (s : State) (o : Nat) : Word :=
  let n := s.fld F.ADIT_SSEL_STREAM
  let st := s.stream n
  let c := st.chain
  let ctx := st.ctx.getD n
  match o with
  | 0x24 => packWord [(31, b1 st.retired), (30, b1 st.suspended), (29, b1 c.noQuiet), (28, b1 (c.warmLeft != 0)), (27, b1 (c.gainLeft != 0)),
      (26, b1 (c.settle != 0)), (24, s.recentFaults (.context ctx)), (23, b1 st.stopWin.isSome), (0, ctx)]
  | 0x28 => BitVec.ofNat 32 st.merge
  | 0x2C => BitVec.ofNat 32 st.unmapped
  | 0x30 => BitVec.ofNat 32 st.late
  | 0x34 => BitVec.ofNat 32 st.badev
  | 0x38 => BitVec.ofNat 32 st.fill
  | _ => BitVec.ofNat 32 st.lastWake

/-- The core named by GAL_CSEL, if the mesh has it. -/
def State.selCore (s : State) : Option Nat :=
  let x := s.fld F.GAL_CSEL_X
  let y := s.fld F.GAL_CSEL_Y
  if x < 96 ∧ y < 88 then some (y * 96 + x) else none

/-- GAL_CS registers show the core named by GAL_CSEL (Table GAL-15). -/
def viewCore (k : CoreSt) (o : Nat) : Word :=
  match o with
  | 0x44 => packWord [(31, b1 k.fenced), (30, b1 k.unusedSpare), (29, b1 k.finished), (28, b1 k.inReset),
      (15, if k.fenced then 0x1FFF else k.logical.getD 0x1FFF), (10, k.held.countP (fun h => !h.1)), (0, k.held.countP (fun h => h.1))]
  | 0x48 => BitVec.ofNat 32 k.sent
  | 0x4C => BitVec.ofNat 32 k.recvd
  | 0x50 => BitVec.ofNat 32 k.sunk
  | 0x54 => BitVec.ofNat 32 k.drop
  | 0x58 => BitVec.ofNat 32 k.ejwait
  | 0x5C => BitVec.ofNat 32 k.ovfPeak
  | 0x60 => BitVec.ofNat 32 k.uninitCount
  | 0x64 => BitVec.ofNat 32 k.codErr
  | _ => packWord [(16, k.eccUncorr), (0, k.eccCorr)]

/-- SEAM_BENCH_STATE (Table SEAM-14). -/
def State.viewBench (s : State) (k : Nat) : Word :=
  let j := s.fld (F.SEAM_BSEL_BENCH k)
  if s.perDie ≤ j then packWord [(29, 7)]
  else
    let b := s.benchSt k j
    let st := match b.state with | .checking => 0 | .ready => 1 | .offline => 2 | .moving => 3 | .retired => 4
    packWord [(29, st), (28, b1 (b.fourLevel.getD false)), (27, b1 b.lib.isSome), (23, b.lib.getD 0),
      (22, b1 ((s.die k).batches.any (fun x => x.bench == some j && x.started)))]

/-- The tile window and tables of the tile named by SEAM_TSEL (Tables SEAM-15 and UPKEEP-11). -/
def State.viewTile (s : State) (k p o : Nat) : Word :=
  let t := s.tileSt k p
  let wear := (List.range 1024).map (fun e => t.wearOf (t.colOf e))
  if o = 0x804 then packWord [(30, s.tileRole k p), (29, b1 t.fourLevel), (25, pumpOf p), (0, (s.logicalTile k p).getD 0)]
  else if o = 0x808 then packWord [(26, t.colmap.length), (17, t.outliers.length), (0, s.recentFaults (.tile k p))]
  else if o = 0x80C then packWord [(16, wear.sum / 1024), (0, wear.foldl max 0)]
  else if o = 0x810 then BitVec.ofNat 32 (s.tileBudget k p)
  else if o = 0x814 then packWord [(16, min t.worst 1023), (0, min 65535 (match t.scanAt with | some a => (s.uptime - a) / 3600000 | none => 0))]
  else if o < 0x2000 then
    match t.colmap.find? (fun m => m.1 == (o - 0x1000) / 4) with
    | some m => packWord [(31, 1), (0, m.2)]
    | none => 0
  else if o < 0x4000 then
    match t.outliers[(o - 0x2000) / 4]? with
    | some x => packWord [(31, 1), (28, (BitVec.ofInt 3 x.delta).toNat), (26, x.kind), (10, x.col), (0, x.row)]
    | none => 0
  else if o < 0x6000 then BitVec.ofNat 32 (t.gainOf ((o - 0x4000) / 4))
  else if o < 0x8000 then packWord [(30, t.ceilOf ((o - 0x6000) / 4)), (0, (BitVec.ofInt 16 (t.offsetOf ((o - 0x6000) / 4))).toNat)]
  else BitVec.ofNat 32 (t.wearOf ((o - 0x8000) / 4))

/-- Is an offset of a SEAM block one of the tile window or its tables? -/
def isTileWindow (o : Nat) : Bool := (0x804 ≤ o && o ≤ 0x814) || 0x1000 ≤ o

def State.viewSeam (s : State) (k o : Nat) : Option Word :=
  let r := s.reg (0x800000 + 0x100000 * k + o)
  if o = 0x4 then some (putField r 0 8 (s.slotLimit k))
  else if o = 0x44 then some (s.viewBench k)
  else if isTileWindow o then
    let p := s.fld (F.SEAM_TSEL_PHYS k)
    if physTiles ≤ p then none else some (s.viewTile k p o)
  else some r

/-- Word w of the side-record named by SUMP_ESEL (Table SUMP-3); zero beyond the library. -/
def State.viewEntry (s : State) (w : Nat) : Word :=
  match s.entryAt (s.fld F.SUMP_ESEL_LIBRARY) (s.fld F.SUMP_ESEL_ENTRY) with
  | some (b, c) => BitVec.ofNat 32 (sliceLE (s.entry b c).bytes (4 * w) 4)
  | none => 0

/-- Slivers reported missing on the device (R156, R181). -/
def State.missingCount (s : State) : Nat := (List.range 8192).countP (fun l => s.sliverMissing l)

def State.viewSump (s : State) (o : Nat) : Word :=
  let r := s.reg (0x1000000 + o)
  if o = 0x4 then putField r 16 8 (min 255 s.missingCount)
  else if o = 0x18 then packWord [(25, min 127 s.sump.recallQ.length), (16, min 511 s.sump.watchQ.length), (0, min 65535 s.sump.ordQ.length)]
  else if o = 0x204 then
    match s.benchLib (s.fld F.SUMP_BSEL_BENCH) with
    | some (l, p) => packWord [(31, 1), (27, l), (0, p % 65536)]
    | none => 0
  else if 0x220 ≤ o ∧ o < 0x240 then s.viewEntry ((o - 0x220) / 4)
  else if 0x2004 ≤ o ∧ o < 0x201C then putField r 16 16 (s.band ((o - 0x2000) / 4))
  else r

/-- HOST_RING_STATUS_r: DEPTH is the descriptors taken and not completed, or the records in the backlog. -/
def State.viewRing (s : State) (r : Nat) : Word :=
  let q := s.ring r
  putField (s.reg (R.HOST_RING_STATUS r)) 0 17 (if isSubmission (s.ringType r) then q.taken.length else q.backlog.length)

/-- Nominal rail voltages in mV, and tolerances in percent (Table PINS-3). -/
def railNominal (n : Nat) : Nat := [2500, 1100, 1200, 900, 400, 1100, 1800, 800, 750, 1800].getD n 0
def railTolerance (n : Nat) : Nat := if n = 0 ∨ n = 6 ∨ n = 9 then 5 else 3

/-- A reading of a rail monitor: within the rail's tolerance and the monitor's 1 % of the set value while the rail is up; otherwise
open. `x` is the free value. -/
def State.railReading (s : State) (n x : Nat) : Word :=
  let held := if n < 9 then s.fld (F.TEST_PMB_RAIL_VSET_MV n) else 0
  let set_ := if held = 0 then railNominal n else held
  let m := set_ * (railTolerance n + 2) / 100
  if n = 9 || s.power.railUp.contains n then BitVec.ofNat 32 (set_ - m + x % (2 * m + 1)) else BitVec.ofNat 32 (x % 65536)

/-- What a register shows now: its live value, the views of Tables POWER-9 and POWER-13 among them. -/
def State.view (s : State) (a : Nat) : Option Word :=
  let (blk, k, o) := blockOf a
  let r := s.reg a
  match blk with
  | 0 => some (if a = R.LANTERN_STATUS then putField r 31 1 (b1 s.lanternReady) else r)
  | 1 => some (if 0x1010 ≤ o ∧ o < 0x2000 ∧ o % 0x40 = 0x10 then s.viewRing ((o - 0x1000) / 0x40) else r)
  | 2 => some (if o = 0x4 then putField (putField r 0 4 s.portReadyBits) 5 1 (b1 s.replayReady)
      else if o = 0xC then BitVec.ofNat 32 (min s.reorderFill (2 ^ 26 - 1))
      else if 0x24 ≤ o ∧ o ≤ 0x3C then s.viewStream o else r)
  | 3 =>
    if 0x44 ≤ o ∧ o ≤ 0x68 then s.selCore.map (fun c => viewCore (s.core c) o)
    else some (if 0x100000 ≤ o ∧ s.power.quiet then putField r 30 1 1 else r)
  | 4 => s.viewSeam k o
  | 5 => some (s.viewSump o)
  | 6 => some (if o = 0x8 ∧ s.powerLevel ≠ 0 then putField r 31 1 0 else r)
  | 7 => some (if o = 0x8 then s.powerReady else r)
  | 8 => some (if o = 0x8 then putField r 28 1 (b1 (s.tunnelReady && !s.fatal)) else r)
  | _ => if 0x60 ≤ o ∧ o < 0x88 then none else some r

/-! ### Reads -/

/-- Registers held in pairs, by the LO offset within their block (R22). -/
def isPairLo (a : Nat) : Bool :=
  let (blk, _, o) := blockOf a
  match blk with
  | 1 => o == 0x8 || o == 0x10 || (decide (0x1000 ≤ o) && decide (o < 0x2000) && o % 0x40 == 4)
  | 3 => o == 0x8 || o == 0x20 || o == 0x28 || o == 0x30
  | 4 => o == 0x10
  | 5 => o == 0x20 || o == 0x28
  | 6 => o == 0x10 || o == 0x60
  | 7 => o == 0x38
  | 9 => o == 0x8 || o == 0x108 || o == 0x110 || o == 0x128 || o == 0x130
  | _ => false

/-- Pairs that software writes. -/
def isPairRw (a : Nat) : Bool :=
  let (blk, _, o) := blockOf a
  match blk with
  | 1 => isPairLo a
  | 3 => o == 0x8
  | 9 => o == 0x108 || o == 0x128
  | _ => false

/-- The latches, or the holds, of a path. -/
def State.latches (s : State) : Path → List (Nat × Word)
  | .bar0 => s.latchB
  | .mport => s.latchM

def State.setLatches (s : State) (p : Path) (m : List (Nat × Word)) : State :=
  match p with
  | .bar0 => { s with latchB := m }
  | .mport => { s with latchM := m }

def State.holds (s : State) : Path → List (Nat × Word)
  | .bar0 => s.holdB
  | .mport => s.holdM

def State.setHolds (s : State) (p : Path) (m : List (Nat × Word)) : State :=
  match p with
  | .bar0 => { s with holdB := m }
  | .mport => { s with holdM := m }

/-- The word listed at a key. -/
def wordAt (m : List (Nat × Word)) (a : Nat) : Option Word := tget (fun _ => none) (m.map (fun e => (e.1, some e.2))) a

/-- What a read takes with it: RC fields clear, and so do the counters that the ADIT_SS and GAL_CS windows show, and a mailbox word read
is taken (R20, R128, R451, R453). -/
def State.readClear (s : State) (a : Nat) : State :=
  let (blk, _, o) := blockOf a
  let n := s.fld F.ADIT_SSEL_STREAM
  let st := s.stream n
  if blk = 2 ∧ 0x28 ≤ o ∧ o ≤ 0x38 then s.setStream n (match o with
    | 0x28 => { st with merge := 0 }
    | 0x2C => { st with unmapped := 0 }
    | 0x30 => { st with late := 0 }
    | 0x34 => { st with badev := 0 }
    | _ => { st with fill := 0 })
  else if blk = 3 ∧ 0x48 ≤ o ∧ o ≤ 0x68 then
    match s.selCore with
    | none => s
    | some c =>
      let k := s.core c
      s.setCore c (match o with
        | 0x48 => { k with sent := 0 }
        | 0x4C => { k with recvd := 0 }
        | 0x50 => { k with sunk := 0 }
        | 0x54 => { k with drop := 0 }
        | 0x58 => { k with ejwait := 0 }
        | 0x5C => { k with ovfPeak := 0 }
        | 0x60 => { k with uninitCount := 0 }
        | 0x64 => { k with codErr := 0 }
        | _ => { k with eccUncorr := 0, eccCorr := 0 })
  else if blk = 0 ∧ 0x180 ≤ o ∧ o < 0x200 then s.outRead ((o - 0x180) / 4)
  else if blk = 0 ∧ 0x300 ≤ o ∧ o < 0x320 then s.gmbxRead ((o - 0x300) / 4)
  else match regRow a with
  | some r => if r.rc = 0 then s else s.setReg a (s.reg a &&& ~~~(BitVec.ofNat 32 r.rc))
  | none => s

/-- The value of a register's readable bits now, and the state with any free value drawn. -/
def State.liveRead (s : State) (a : Nat) : Word × State :=
  match regRow a with
  | none => (0, s)
  | some r =>
    match s.view a with
    | some v => (v &&& BitVec.ofNat 32 r.rd, s)
    | none =>
      let d := s.draw
      let o := (blockOf a).2.2
      let v := if (blockOf a).1 = 9 then s.railReading ((o - 0x60) / 4) (Config.freeNat d.1) else BitVec.ofNat 32 (Config.freeNat d.1)
      (v &&& BitVec.ofNat 32 r.rd, d.2)

/-- An aligned 32-bit read of a reachable register: a LO read latches the high half for its path, and a HI read answers the latch
(R22). -/
def State.readReg (s : State) (path : Path) (a : Nat) : Word × State :=
  if isPairLo a then
    let lo := s.liveRead a
    let hi := lo.2.liveRead (a + 4)
    (lo.1, hi.2.setLatches path (tins (tdel (hi.2.latches path) a) a hi.1))
  else if 4 ≤ a && isPairLo (a - 4) then
    match wordAt (s.latches path) (a - 4) with
    | some w => (w, s)
    | none => s.liveRead a
  else
    let v := s.liveRead a
    (v.1, v.2.readClear a)

/-- Is an offset one of the mailbox registers that Deep sleep leaves (Table POWER-1)? -/
def isMailbox (a : Nat) : Bool := 0x100 ≤ a && a < 0x214

/-- Can an access reach the register? -/
def State.reachable (s : State) (a : Nat) : Bool := s.reaches (blockOf a).1 (isMailbox a)

/-- An access outside what the power state lets a requester reach is counted (R481). -/
def State.countAsleep (s : State) : State := s.bump F.POWER_ASLEEP_ACCESS_COUNT 1

/-- A path that carries accesses: MPORT while the part is alive, BAR0 while the link is up as well. -/
def State.pathOpen (s : State) (path : Path) : Bool := s.alive && (match path with | .bar0 => s.linkUp | .mport => true)

/-- A 32-bit read through BAR0 or MPORT: the data, and the state after. -/
def State.readAccess (s : State) (path : Path) (a : Nat) : Word × State :=
  if !s.pathOpen path then (0, s)
  else if a % 4 ≠ 0 then (0, s.accessError)
  else if !s.reachable a then (0, s.countAsleep)
  else s.readReg path a

/-! ### Writes -/

/-- Bits stored and bits cleared by a write, under the access codes of Table SCOPE-6. -/
def State.store (s : State) (a : Nat) (v : Word) : State :=
  match regRow a with
  | none => s
  | some r =>
    let rw := BitVec.ofNat 32 r.rw
    s.setReg a (((s.reg a &&& ~~~rw) ||| (v &&& rw)) &&& ~~~(v &&& BitVec.ofNat 32 r.w1c))

/-- ADIT_PORT_CTRL_p (R97, R123): fields other than EN take effect only when EN was 0. -/
def State.writePortCtrl (s : State) (p : Nat) (v : Word) : State :=
  let port := BitVec.ofNat 2 p
  let was := s.bit (F.ADIT_PORT_CTRL_EN p)
  let s1 := if v.getLsbD 5 then after s (execResync port s) else s
  let s2 := if was then s1 else
    let a := s1.store (R.ADIT_PORT_CTRL p) v
    after a (execLanesWrite port (v.extractLsb' 2 2) a)
  if v.getLsbD 0 && !was then after s2 (execPortEnable port s2)
  else if !v.getLsbD 0 && was then after s2 (execPortDisable port s2)
  else s2

/-- ADIT_STREAM_CFG_n (R85, R124, R125). -/
def State.writeStreamCfg (s : State) (n : Nat) (v : Word) : State :=
  let stream := BitVec.ofNat 16 n
  if !s.enabled n then
    if v.getLsbD 31 then after s (execStreamEnable stream v s) else s.store (R.ADIT_STREAM_CFG n) (v &&& 0x5FF03FFF#32)
  else if v.getLsbD 29 then after s (execAbort stream s)
  else
    let prof := v.extractLsb' 20 6
    let s1 := if prof.toNat = s.streamProfile n then s.setStream n { s.stream n with profPend := none }
      else after s (execProfileChange stream prof s)
    if v.getLsbD 31 then after s1 (execStreamEnable stream v s1) else after s1 (execStreamStop stream s1)

def State.writeAdit (s : State) (o : Nat) (v : Word) : State :=
  let a := 0x200000 + o
  if o = 0x14 then (if v.getLsbD 0 then after s (execPlan s) else s)
  else if 0x100 ≤ o ∧ o < 0x200 ∧ o % 0x40 = 0 then s.writePortCtrl ((o - 0x100) / 0x40) v
  else if 0x80000 ≤ o ∧ o < 0x100000 then after s (execProfileWrite (BitVec.ofNat 17 ((o - 0x80000) / 4)) v s)
  else if 0x100000 ≤ o then
    let n := (o - 0x100000) / 16
    if o % 16 = 0 then s.writeStreamCfg n v else if s.enabled n then s else s.store a v
  else s.store a v

/-- GAL_GROUP_CTRL_g.CMD (Table GAL-8); 0 and 7 have no effect. -/
def State.groupCmd (s : State) (g cmd : Nat) : State :=
  let group := BitVec.ofNat 6 g
  match cmd with
  | 1 => after s (execStop group s)
  | 2 => after s (execStart group s)
  | 3 => after s (execReset group s)
  | 4 => after s (execSelftest group s)
  | 5 => after s (execFreeze group s)
  | 6 => after s (execThaw group s)
  | _ => s

def State.writeGallery (s : State) (o : Nat) (v : Word) : State :=
  if o = 0 then after s (execGalCfgWrite (.dsel (v.extractLsb' 0 2)) s)
  else if 0x100 ≤ o ∧ o < 0x500 ∧ o % 16 = 0 then s.groupCmd ((o - 0x100) / 16) (v.toNat % 8)
  else if 0x800 ≤ o ∧ o < 0xA00 then
    (if s.bit (F.GAL_PF_CTRL_OWNER ((o - 0x800) / 16)) then s else s.store (0x400000 + o) v)
  else if 0x100000 ≤ o ∧ o < 0x140000 then after s (execStreamMapWrite (BitVec.ofNat 16 ((o - 0x100000) / 4)) v s)
  else s.store (0x400000 + o) v

/-- SEAM_BENCH_CMD (Table SEAM-8). -/
def State.benchCmd (s : State) (k cmd : Nat) : State :=
  let die := BitVec.ofNat 3 k
  match cmd with
  | 1 => after s (execOffline die s)
  | 2 => after s (execOnline die s)
  | 3 => after s (execCheck die s)
  | _ => s

/-- SEAM_UPKEEP_CTRL: what the die measures for a new plan is open here. -/
def State.upkeepCtrl (s : State) (k : Nat) (v : Word) : State :=
  let die := BitVec.ofNat 3 k
  let s1 := if v.getLsbD 2 then
      let d := s.draw
      let e := d.2.draw
      let m : Measure := { drift := Config.freeNat d.1, residueHigh := Config.freeNat e.1 % 2 = 1, change := Config.freeNat e.1 / 4, highDrift := Config.freeNat e.1 / 2 % 2 = 1 }
      after e.2 (execReplan die m e.2)
    else s
  let s2 := if v.getLsbD 1 then after s1 (execRecalNow die s1) else s1
  if v.getLsbD 0 then after s2 (execPatrolNow die s2) else s2

def State.writeSeam (s : State) (k o : Nat) (v : Word) : State :=
  if o = 0x48 then s.benchCmd k (v.toNat % 4)
  else if o = 0xA00 then s.upkeepCtrl k v
  else s.store (0x800000 + 0x100000 * k + o) v

/-- SUMP_LIB_CURSOR_l ignores writes while APPEND is 1. -/
def State.writeSump (s : State) (o : Nat) (v : Word) : State :=
  if 0x100 ≤ o ∧ o < 0x200 ∧ o % 16 = 12 ∧ s.bit (F.SUMP_LIB_CFG_APPEND ((o - 0x100) / 16)) then s
  else s.store (0x1000000 + o) v

/-- CHISEL_CFG (Table CHISEL-8): E and CE change only while EN is 0, and epoch numbers then follow the new length; clearing EN drops the
part of a commit not begun. -/
def State.writeChiselCfg (s : State) (v : Word) : State :=
  let old := s.reg R.CHISEL_CFG
  if s.bit F.CHISEL_CFG_EN then
    let s1 := if (v ^^^ old) &&& 0x07FF03FF#32 = 0 then s else s.alarm F.CHISEL_ALARM_CFG_BUSY 0
    if v.getLsbD 31 then s1 else (s1.setBit F.CHISEL_CFG_EN false).dropCommit
  else
    let s1 := s.store R.CHISEL_CFG v
    if s1.epochLen = s.epochLen then s1 else s1.set64 R.CHISEL_EPOCH_LO (s1.tick / s1.epochLen)

def State.writeChisel (s : State) (o : Nat) (v : Word) : State :=
  if o = 0 then s.writeChiselCfg v
  else if o = 4 then (if v.getLsbD 0 then s.commitNowWrite else s)
  else if o = 0x40 then s.lcapWrite false v
  else if o = 0x44 then s.lcapWrite true v
  else if 0x100 ≤ o ∧ o < 0x200 ∧ o % 16 = 0 then s.libLearnWrite ((o - 0x100) / 16) v
  else s.store (0x1100000 + o) v

/-- POWER_WAKE_TIMER (R487): a nonzero value starts the timer. -/
def State.writeTimer (s : State) (v : Word) : State :=
  let s1 := s.setReg R.POWER_WAKE_TIMER v
  { s1 with power := { s1.power with timerLeft := 100000000 * v.toNat, timerDue := false } }

def State.writePower (s : State) (path : Path) (o : Nat) (v : Word) : State :=
  if o = 0 then s.powerCmd path (v.toNat % 8)
  else if o = 0x20 then s.writeTimer v
  else s.store (0x1200000 + o) v

/-- TUNNEL_LIB_l: SPAN changes only in OFF and never to 1 on a SYNAPSE library; TOKEN_TAKE takes the token. -/
def State.writeTunnelLib (s : State) (l : Nat) (v : Word) : State :=
  let s1 := if s.tunnelState = tsOFF ∧ !(v.getLsbD 31 && s.libActive l && s.libKind l == 2) then s.store (R.TUNNEL_LIB l) v else s
  if v.getLsbD 29 then s1.takeToken l else s1

def State.writeTunnel (s : State) (o : Nat) (v : Word) : State :=
  let off := s.tunnelState = tsOFF
  if o = 0 then (if off then s.store R.TUNNEL_CFG v else s.alarm F.TUNNEL_ALARM_CFG_BUSY 0)
  else if o = 4 then
    let s1 := if v.getLsbD 0 then s.joinWrite else s
    if v.getLsbD 1 then s1.leaveWrite else s1
  else if 0x200 ≤ o ∧ o < 0x300 ∧ o % 16 = 0 then s.writeTunnelLib ((o - 0x200) / 16) v
  else if 0x200 ≤ o ∧ o < 0x300 ∧ o % 16 = 4 then
    (if off then s.store (0x1300000 + o) v else s.alarm F.TUNNEL_ALARM_CFG_BUSY ((o - 0x200) / 16))
  else s.store (0x1300000 + o) v

/-- Is the tick counter's set-up closed: START has been written (R525)? -/
def State.tickLocked (s : State) : Bool := s.ticking || s.test.start.isSome

def State.tickRefuse (s : State) : State := s.alarm F.TEST_ALARM_TICK_REFUSED 0

/-- TEST_PRBS_CTRL_p.MODE (R538). -/
def State.writePrbs (s : State) (p : Fin 6) (mode : Nat) : State :=
  match mode with
  | 0 => after s (execPrbsOff p s)
  | 1 => after s (execPrbsCheck p s)
  | 2 => after s (execPrbsGenerate p s)
  | _ => s.prbsRefuse p

def State.writeTest (s : State) (o : Nat) (v : Word) : State :=
  if o = 0x100 then
    let s1 := s.store R.TEST_TIME_CTRL v
    if v.getLsbD 1 then s1 else s1.setBit F.TEST_TIME_STATUS_ON_10M false
  else if o = 0x120 then (if s.tickLocked then s.tickRefuse else if v.getLsbD 0 then after s (execTickStart s) else s)
  else if o = 0x124 then (if s.tickLocked then s.tickRefuse else s.store R.TEST_TICK_PERIOD v)
  else if 0x200 ≤ o ∧ o < 0x260 ∧ o % 16 = 0 then s.writePrbs (Fin.ofNat 6 ((o - 0x200) / 16)) (v.toNat % 4)
  else s.store (0x1400000 + o) v

def State.writeLantern (s : State) (o : Nat) (v : Word) : State :=
  if 0x100 ≤ o ∧ o < 0x180 then after s (execMbxInWrite (BitVec.ofNat 5 ((o - 0x100) / 4)) v s)
  else if 0x310 ≤ o ∧ o < 0x320 then after s (execGmbxDataWrite (BitVec.ofNat 3 ((o - 0x300) / 4)) v s)
  else s.store o v

/-- HOST_RING_CFG_r (R429): a rise of EN is ENABLE and a fall DISABLE; the other fields change only in DISABLED. The HOST_INDEX that
ENABLE reads is open here. -/
def State.writeRingCfg (s : State) (r : Nat) (v : Word) : State :=
  let ring := BitVec.ofNat 6 r
  let was := s.bit (F.HOST_RING_CFG_EN r)
  if v.getLsbD 31 && !was then
    let d := s.draw
    after d.2 (execRingEnable ring v (some (BitVec.ofNat 32 (Config.freeNat d.1))) d.2)
  else if !v.getLsbD 31 && was then after s (execRingDisable ring s)
  else if s.ringState r = ringDISABLED then s.store (R.HOST_RING_CFG r) v
  else s

/-- An entry of the MSI-X table (R416): clearing a vector's mask sends the message that waits. -/
def State.writeMsix (s : State) (o : Nat) (v : Word) : State :=
  let n := (o - 0x8000) / 16
  let s1 := s.store (0x100000 + o) v
  if o % 16 = 12 ∧ !v.getLsbD 0 ∧ s.regBit (0x109000 + 4 * (n / 32)) (n % 32) then
    (s1.setRegBit (0x109000 + 4 * (n / 32)) (n % 32) false).sendMsi n
  else s1

def State.writeHost (s : State) (o : Nat) (v : Word) : State :=
  if 0x1000 ≤ o ∧ o < 0x2000 ∧ o % 0x40 = 0 then s.writeRingCfg ((o - 0x1000) / 0x40) v
  else if 0x8000 ≤ o ∧ o < 0x9000 then s.writeMsix o v
  else s.store (0x100000 + o) v

/-- Both halves of a pair that software writes take effect together (R22). -/
def State.writePair (s : State) (a : Nat) (v : Nat) : State :=
  if a = R.GAL_SEED_LO then after s (execGalCfgWrite (.seed (BitVec.ofNat 64 v)) s)
  else if 0x101000 ≤ a ∧ a < 0x102000 then (if s.ringState ((a - 0x101000) / 0x40) = ringDISABLED then s.set64 a v else s)
  else s.set64 a v

/-- A write of a LO register is held for its path; the set-up of a started tick counter refuses it (R22, R525). -/
def State.holdLo (s : State) (path : Path) (a : Nat) (v : Word) : State :=
  if a = R.TEST_TICK_T0_LO ∧ s.tickLocked then s.tickRefuse
  else s.setHolds path (tins (tdel (s.holds path) a) a v)

/-- A write of a HI register takes effect with the low half held, which is then cleared, or alone. -/
def State.commitHi (s : State) (path : Path) (lo : Nat) (v : Word) : State :=
  if lo = R.TEST_TICK_T0_LO ∧ s.tickLocked then s.tickRefuse
  else
    let low := ((wordAt (s.holds path) lo).getD (s.reg lo)).toNat
    (s.setHolds path (tdel (s.holds path) lo)).writePair lo (low + 2 ^ 32 * v.toNat)

/-- An aligned 32-bit write of a reachable register. -/
def State.writeReg (s : State) (path : Path) (a : Nat) (v : Word) : State :=
  if isPairRw a then s.holdLo path a v
  else if 4 ≤ a && isPairRw (a - 4) then s.commitHi path (a - 4) v
  else
    let (blk, k, o) := blockOf a
    match blk with
    | 0 => s.writeLantern o v
    | 1 => s.writeHost o v
    | 2 => s.writeAdit o v
    | 3 => s.writeGallery o v
    | 4 => s.writeSeam k o v
    | 5 => s.writeSump o v
    | 6 => s.writeChisel o v
    | 7 => s.writePower path o v
    | 8 => s.writeTunnel o v
    | _ => if regRow a = none then s else s.writeTest o v

/-- One 32-bit write through BAR0 or MPORT. -/
def State.writeOne (s : State) (path : Path) (a : Nat) (v : Word) : State :=
  if !s.pathOpen path then s
  else if a % 4 ≠ 0 then s.accessError
  else if !s.reachable a then s.countAsleep
  else s.writeReg path a v

/-- A write of `bytes` bytes: 4 or 8, naturally aligned, the lower address first (R14); anything else is counted and ignored (R15). -/
def State.writeAccess (s : State) (path : Path) (a bytes : Nat) (v : Word64) : State :=
  if bytes = 4 then s.writeOne path a (v.extractLsb' 0 32)
  else if !s.pathOpen path then s
  else if bytes = 8 ∧ a % 8 = 0 then
    if s.reachable a then (s.writeOne path a (v.extractLsb' 0 32)).writeOne path (a + 4) (v.extractLsb' 32 32) else s.countAsleep
  else s.accessError

/-! ### The commands -/

/-- REGISTER_WRITE (R20). -/
def execRegisterWrite (path : Path) (addr : BitVec 25) (bytes : Nat) (value : Word64) (s : State) : Out :=
  .next (s.writeAccess path addr.toNat bytes value)

/-- The events of the cycle of a read that clears: the field holds them afterwards (R20). `field` numbers the register's RC field from
the low end. -/
def State.afterRead (s : State) (a event : Nat) : State :=
  let (blk, _, o) := blockOf a
  let n := s.fld F.ADIT_SSEL_STREAM
  let st := s.stream n
  if event = 0 || !s.reachable a then s
  else if blk = 2 ∧ 0x28 ≤ o ∧ o ≤ 0x38 then s.setStream n (match o with
    | 0x28 => { st with merge := sat32 (st.merge + event) }
    | 0x2C => { st with unmapped := sat32 (st.unmapped + event) }
    | 0x30 => { st with late := sat32 (st.late + event) }
    | 0x34 => { st with badev := sat32 (st.badev + event) }
    | _ => { st with fill := sat32 (st.fill + event) })
  else if blk = 3 ∧ 0x48 ≤ o ∧ o ≤ 0x68 then
    match s.selCore with
    | none => s
    | some c =>
      let k := s.core c
      s.setCore c (match o with
        | 0x48 => { k with sent := sat32 (k.sent + event) }
        | 0x4C => { k with recvd := sat32 (k.recvd + event) }
        | 0x50 => { k with sunk := sat32 (k.sunk + event) }
        | 0x54 => { k with drop := sat32 (k.drop + event) }
        | 0x58 => { k with ejwait := sat32 (k.ejwait + event) }
        | 0x5C => { k with ovfPeak := max k.ovfPeak (min 1023 event) }
        | 0x60 => { k with uninitCount := sat32 (k.uninitCount + event) }
        | 0x64 => { k with codErr := sat32 (k.codErr + event) }
        | _ => { k with eccCorr := min 65535 (k.eccCorr + event) })
  else if blk = 0 ∧ 0x180 ≤ o ∧ o < 0x320 then s
  else match regRow a with
  | some r =>
    if r.rc = 0 then s
    else if 0x1200040 ≤ a ∧ a < 0x1200064 then s.bump ⟨a, 0, 16⟩ event
    else s.bump ⟨a, 0, 32⟩ event
  | none => s

/-- COUNTER_READ_CLEAR (R20): a read, with what lands on the field in the same cycle. -/
def execCounterReadClear (path : Path) (addr : BitVec 25) (event : Nat) (s : State) : Out :=
  let a := addr.toNat
  let r := s.readAccess path a
  let s1 := if s.alive && a % 4 == 0 then r.2.afterRead a event else r.2
  .next { s1 with rdata := if s.pathOpen path then r.1.setWidth 64 else s1.rdata }

/-- READ_LO_LATCH (R22). -/
def execReadLoLatch (path : Path) (addr : BitVec 25) (s : State) : Out :=
  let r := s.readAccess path addr.toNat
  .next { r.2 with rdata := if s.pathOpen path then r.1.setWidth 64 else r.2.rdata }

/-- WRITE_LO_HOLD (R22). -/
def execWriteLoHold (path : Path) (addr : BitVec 25) (value : Word) (s : State) : Out :=
  .next (s.writeOne path addr.toNat value)

/-- WRITE_HI_COMMIT (R22). -/
def execWriteHiCommit (path : Path) (addr : BitVec 25) (value : Word) (s : State) : Out :=
  .next (s.writeOne path addr.toNat value)

/-! ### MPORT (R526 to R528) -/

def mpOK : BitVec 8 := 0x00
def mpASLEEP : BitVec 8 := 0x01
def mpBAD : BitVec 8 := 0x02

/-- STATUS of a transaction (R527). -/
def State.mportStatus (s : State) (addr : Word) (badOp : Bool) : BitVec 8 :=
  if badOp || addr.toNat % 4 ≠ 0 then mpBAD else if s.reachable addr.toNat then mpOK else mpASLEEP

/-- A transaction's end: DATA and STATUS. -/
def State.mportEnd (s : State) (data : Word) (status : BitVec 8) : State := { s with test := { s.test with mdata := data, mstatus := status } }

/-- The access of a transaction, which BAD leaves out. -/
def State.mportReadAccess (s : State) (addr : Word) (badOp : Bool) : Word × State :=
  if s.mportStatus addr badOp = mpBAD then (0, s) else s.readAccess .mport addr.toNat

def State.mportWriteAccess (s : State) (addr value : Word) (badOp : Bool) : State :=
  if s.mportStatus addr badOp = mpBAD then s else s.writeOne .mport addr.toNat value

/-- MPORT_READ. -/
def execMportRead (addr : Word) (badOp : Bool) (s : State) : Out :=
  if !s.alive then .next s
  else
    let r := s.mportReadAccess addr badOp
    .next (r.2.mportEnd r.1 (s.mportStatus addr badOp))

/-- MPORT_WRITE. -/
def execMportWrite (addr value : Word) (badOp : Bool) (s : State) : Out :=
  if !s.alive then .next s
  else .next ((s.mportWriteAccess addr value badOp).mportEnd 0 (s.mportStatus addr badOp))

/-- MPORT_ABORT (R528): `write` is the data of a write; a write has taken effect once cycle 72 has passed, and a read has taken what it
read once cycle 40 has. A transaction that reached cycle 88 was not aborted. -/
def execMportAbort (addr : Word) (write : Option Word) (cycle : BitVec 7) (s : State) : Out :=
  if !s.alive || 88 ≤ cycle.toNat then .next s
  else
    let s1 := match write with
      | some v => if 72 ≤ cycle.toNat then s.mportWriteAccess addr v false else s
      | none => if 40 ≤ cycle.toNat then (s.mportReadAccess addr false).2 else s
    .next ((s1.bump F.TEST_MPORT_ABORT_COUNT 1).alarm F.TEST_ALARM_MPORT_ABORT 0)

end Sys2Proof.Machine
end

