-- ==== Sys2Proof/Machine/Dispatch.lean ====
section
/-! DEFINITION.  The dispatch: one arm per command, each one direct call of its meaning. -/

namespace Sys2Proof.Machine

def exec (i : Instr) (s : State) : Host.Outcome State Fault Refusal :=
  match i with
  | .registerWrite path addr bytes value => Sys2Proof.Machine.execRegisterWrite path addr bytes value s
  | .counterReadClear path addr event => Sys2Proof.Machine.execCounterReadClear path addr event s
  | .readLoLatch path addr => Sys2Proof.Machine.execReadLoLatch path addr s
  | .writeLoHold path addr value => Sys2Proof.Machine.execWriteLoHold path addr value s
  | .writeHiCommit path addr value => Sys2Proof.Machine.execWriteHiCommit path addr value s
  | .resetNAssert => Sys2Proof.Machine.execResetNAssert s
  | .resetNRelease aGood bGood => Sys2Proof.Machine.execResetNRelease aGood bGood s
  | .bootDone copiesOk => Sys2Proof.Machine.execBootDone copiesOk s
  | .pciePerst => Sys2Proof.Machine.execPciePerst s
  | .pcieLinkDown => Sys2Proof.Machine.execPcieLinkDown s
  | .tickBoundary => Sys2Proof.Machine.execTickBoundary s
  | .tickNotice core => Sys2Proof.Machine.execTickNotice core s
  | .aditRound port header samples crcBad badMultiblocks => Sys2Proof.Machine.execAditRound port header samples crcBad badMultiblocks s
  | .aditIdleUnit port header => Sys2Proof.Machine.execAditIdleUnit port header s
  | .sysrefEdge port onBoundary => Sys2Proof.Machine.execSysrefEdge port onBoundary s
  | .aditLaneFault port lane => Sys2Proof.Machine.execAditLaneFault port lane s
  | .aditTickTimeout port => Sys2Proof.Machine.execAditTickTimeout port s
  | .aditCloseSend stream => Sys2Proof.Machine.execAditCloseSend stream s
  | .aditRelease stream => Sys2Proof.Machine.execAditRelease stream s
  | .bundle ring idx payload dmaOk => Sys2Proof.Machine.execBundle ring idx payload dmaOk s
  | .frame ring idx payload dmaOk => Sys2Proof.Machine.execFrame ring idx payload dmaOk s
  | .replayRead ring idx overrun => Sys2Proof.Machine.execReplayRead ring idx overrun s
  | .plan => Sys2Proof.Machine.execPlan s
  | .planDone => Sys2Proof.Machine.execPlanDone s
  | .streamEnable stream cfg => Sys2Proof.Machine.execStreamEnable stream cfg s
  | .streamStop stream => Sys2Proof.Machine.execStreamStop stream s
  | .streamStopEffect stream => Sys2Proof.Machine.execStreamStopEffect stream s
  | .abort stream => Sys2Proof.Machine.execAbort stream s
  | .profileChange stream profile => Sys2Proof.Machine.execProfileChange stream profile s
  | .profileChangeEffect stream => Sys2Proof.Machine.execProfileChangeEffect stream s
  | .profileWrite offset value => Sys2Proof.Machine.execProfileWrite offset value s
  | .portEnable port => Sys2Proof.Machine.execPortEnable port s
  | .portDisable port => Sys2Proof.Machine.execPortDisable port s
  | .portIntakeStop port => Sys2Proof.Machine.execPortIntakeStop port s
  | .streamResume stream => Sys2Proof.Machine.execStreamResume stream s
  | .resync port => Sys2Proof.Machine.execResync port s
  | .lanesWrite port lanes => Sys2Proof.Machine.execLanesWrite port lanes s
  | .ctxFault stream hard intact => Sys2Proof.Machine.execCtxFault stream hard intact s
  | .ctxMove stream => Sys2Proof.Machine.execCtxMove stream s
  | .msgEject msg => Sys2Proof.Machine.execMsgEject msg s
  | .ejectWaitExpiry core => Sys2Proof.Machine.execEjectWaitExpiry core s
  | .fetchReply core slot => Sys2Proof.Machine.execFetchReply core slot s
  | .stop group => Sys2Proof.Machine.execStop group s
  | .stoppingDone group => Sys2Proof.Machine.execStoppingDone group s
  | .start group => Sys2Proof.Machine.execStart group s
  | .reset group => Sys2Proof.Machine.execReset group s
  | .selftest group => Sys2Proof.Machine.execSelftest group s
  | .freeze group => Sys2Proof.Machine.execFreeze group s
  | .thaw group => Sys2Proof.Machine.execThaw group s
  | .groupCmdEffect group => Sys2Proof.Machine.execGroupCmdEffect group s
  | .selftestDone group failed routerFault => Sys2Proof.Machine.execSelftestDone group failed routerFault s
  | .loadComplete group => Sys2Proof.Machine.execLoadComplete group s
  | .streamMapWrite stream value => Sys2Proof.Machine.execStreamMapWrite stream value s
  | .streamMapEffect stream => Sys2Proof.Machine.execStreamMapEffect stream s
  | .galCfgWrite what => Sys2Proof.Machine.execGalCfgWrite what s
  | .spareSubstitute core readable => Sys2Proof.Machine.execSpareSubstitute core readable s
  | .spareStart core => Sys2Proof.Machine.execSpareStart core s
  | .snapshot cores => Sys2Proof.Machine.execSnapshot cores s
  | .add iss rd ra rb => Sys2Proof.Machine.execAdd iss rd ra rb s
  | .sub iss rd ra rb => Sys2Proof.Machine.execSub iss rd ra rb s
  | .and iss rd ra rb => Sys2Proof.Machine.execAnd iss rd ra rb s
  | .or iss rd ra rb => Sys2Proof.Machine.execOr iss rd ra rb s
  | .xor iss rd ra rb => Sys2Proof.Machine.execXor iss rd ra rb s
  | .sll iss rd ra rb => Sys2Proof.Machine.execSll iss rd ra rb s
  | .srl iss rd ra rb => Sys2Proof.Machine.execSrl iss rd ra rb s
  | .sra iss rd ra rb => Sys2Proof.Machine.execSra iss rd ra rb s
  | .slt iss rd ra rb => Sys2Proof.Machine.execSlt iss rd ra rb s
  | .sltu iss rd ra rb => Sys2Proof.Machine.execSltu iss rd ra rb s
  | .mul iss rd ra rb => Sys2Proof.Machine.execMul iss rd ra rb s
  | .mulh iss rd ra rb => Sys2Proof.Machine.execMulh iss rd ra rb s
  | .adds iss rd ra rb => Sys2Proof.Machine.execAdds iss rd ra rb s
  | .subs iss rd ra rb => Sys2Proof.Machine.execSubs iss rd ra rb s
  | .min iss rd ra rb => Sys2Proof.Machine.execMin iss rd ra rb s
  | .max iss rd ra rb => Sys2Proof.Machine.execMax iss rd ra rb s
  | .popc iss rd ra rb => Sys2Proof.Machine.execPopc iss rd ra rb s
  | .clz iss rd ra rb => Sys2Proof.Machine.execClz iss rd ra rb s
  | .ctz iss rd ra rb => Sys2Proof.Machine.execCtz iss rd ra rb s
  | .fxadd iss rd ra rb => Sys2Proof.Machine.execFxadd iss rd ra rb s
  | .fxsub iss rd ra rb => Sys2Proof.Machine.execFxsub iss rd ra rb s
  | .fxmul iss rd ra rb => Sys2Proof.Machine.execFxmul iss rd ra rb s
  | .addi iss rd ra imm => Sys2Proof.Machine.execAddi iss rd ra imm s
  | .andi iss rd ra imm => Sys2Proof.Machine.execAndi iss rd ra imm s
  | .ori iss rd ra imm => Sys2Proof.Machine.execOri iss rd ra imm s
  | .xori iss rd ra imm => Sys2Proof.Machine.execXori iss rd ra imm s
  | .slti iss rd ra imm => Sys2Proof.Machine.execSlti iss rd ra imm s
  | .shi iss rd ra imm => Sys2Proof.Machine.execShi iss rd ra imm s
  | .lui iss rd ra imm => Sys2Proof.Machine.execLui iss rd ra imm s
  | .lw iss rd ra imm => Sys2Proof.Machine.execLw iss rd ra imm s
  | .lh iss rd ra imm => Sys2Proof.Machine.execLh iss rd ra imm s
  | .lhu iss rd ra imm => Sys2Proof.Machine.execLhu iss rd ra imm s
  | .lb iss rd ra imm => Sys2Proof.Machine.execLb iss rd ra imm s
  | .lbu iss rd ra imm => Sys2Proof.Machine.execLbu iss rd ra imm s
  | .sw iss rb ra imm => Sys2Proof.Machine.execSw iss rb ra imm s
  | .sh iss rb ra imm => Sys2Proof.Machine.execSh iss rb ra imm s
  | .sb iss rb ra imm => Sys2Proof.Machine.execSb iss rb ra imm s
  | .beq iss rb ra imm => Sys2Proof.Machine.execBeq iss rb ra imm s
  | .bne iss rb ra imm => Sys2Proof.Machine.execBne iss rb ra imm s
  | .blt iss rb ra imm => Sys2Proof.Machine.execBlt iss rb ra imm s
  | .bge iss rb ra imm => Sys2Proof.Machine.execBge iss rb ra imm s
  | .bltu iss rb ra imm => Sys2Proof.Machine.execBltu iss rb ra imm s
  | .bgeu iss rb ra imm => Sys2Proof.Machine.execBgeu iss rb ra imm s
  | .jal iss off => Sys2Proof.Machine.execJal iss off s
  | .jalr iss rd ra imm => Sys2Proof.Machine.execJalr iss rd ra imm s
  | .vld iss vd ra imm => Sys2Proof.Machine.execVld iss vd ra imm s
  | .vst iss vd ra imm => Sys2Proof.Machine.execVst iss vd ra imm s
  | .vmov iss vd va vb sx => Sys2Proof.Machine.execVmov iss vd va vb sx s
  | .vnot iss vd va vb sx => Sys2Proof.Machine.execVnot iss vd va vb sx s
  | .vand iss vd va vb sx => Sys2Proof.Machine.execVand iss vd va vb sx s
  | .vor iss vd va vb sx => Sys2Proof.Machine.execVor iss vd va vb sx s
  | .vxor iss vd va vb sx => Sys2Proof.Machine.execVxor iss vd va vb sx s
  | .vandn iss vd va vb sx => Sys2Proof.Machine.execVandn iss vd va vb sx s
  | .vtbind iss vd va vb sx => Sys2Proof.Machine.execVtbind iss vd va vb sx s
  | .vbtbind iss vd va vb sx => Sys2Proof.Machine.execVbtbind iss vd va vb sx s
  | .vrot iss vd va vb sx => Sys2Proof.Machine.execVrot iss vd va vb sx s
  | .vperm iss vd va vb sx => Sys2Proof.Machine.execVperm iss vd va vb sx s
  | .vpop iss vd va vb sx => Sys2Proof.Machine.execVpop iss vd va vb sx s
  | .vpopand iss vd va vb sx => Sys2Proof.Machine.execVpopand iss vd va vb sx s
  | .vpopxor iss vd va vb sx => Sys2Proof.Machine.execVpopxor iss vd va vb sx s
  | .vdott2 iss vd va vb sx => Sys2Proof.Machine.execVdott2 iss vd va vb sx s
  | .vcadd iss vd va vb sx => Sys2Proof.Machine.execVcadd iss vd va vb sx s
  | .vcaddt iss vd va vb sx => Sys2Proof.Machine.execVcaddt iss vd va vb sx s
  | .vsign iss vd va vb sx => Sys2Proof.Machine.execVsign iss vd va vb sx s
  | .vthin iss vd va vb sx => Sys2Proof.Machine.execVthin iss vd va vb sx s
  | .tclr iss vd va vb sx => Sys2Proof.Machine.execTclr iss vd va vb sx s
  | .tsave iss vd ra imm => Sys2Proof.Machine.execTsave iss vd ra imm s
  | .tload iss vd ra imm => Sys2Proof.Machine.execTload iss vd ra imm s
  | .vdot8 iss vd va vb sx => Sys2Proof.Machine.execVdot8 iss vd va vb sx s
  | .vext iss vd va vb sx word => Sys2Proof.Machine.execVext iss vd va vb sx word s
  | .vins iss vd va vb sx word => Sys2Proof.Machine.execVins iss vd va vb sx word s
  | .send iss rd ra imm => Sys2Proof.Machine.execSend iss rd ra imm s
  | .recv iss rd ra imm => Sys2Proof.Machine.execRecv iss rd ra imm s
  | .wait iss rd ra imm => Sys2Proof.Machine.execWait iss rd ra imm s
  | .waitWake core => Sys2Proof.Machine.execWaitWake core s
  | .fetch iss rd ra rb fn => Sys2Proof.Machine.execFetch iss rd ra rb fn s
  | .fwait iss rd ra imm => Sys2Proof.Machine.execFwait iss rd ra imm s
  | .fwaitDone core => Sys2Proof.Machine.execFwaitDone core s
  | .trace iss rd ra imm => Sys2Proof.Machine.execTrace iss rd ra imm s
  | .barrier iss rd ra imm => Sys2Proof.Machine.execBarrier iss rd ra imm s
  | .barrierComplete scope region => Sys2Proof.Machine.execBarrierComplete scope region s
  | .barrierTimeout core => Sys2Proof.Machine.execBarrierTimeout core s
  | .fence iss rd ra imm => Sys2Proof.Machine.execFence iss rd ra imm s
  | .fenceDone core => Sys2Proof.Machine.execFenceDone core s
  | .halt iss off => Sys2Proof.Machine.execHalt iss off s
  | .csrr iss rd ra imm => Sys2Proof.Machine.execCsrr iss rd ra imm s
  | .csrw iss rd ra imm => Sys2Proof.Machine.execCsrw iss rd ra imm s
  | .csrc iss rd ra imm => Sys2Proof.Machine.execCsrc iss rd ra imm s
  | .eret iss off => Sys2Proof.Machine.execEret iss off s
  | .flintTimerMatch core => Sys2Proof.Machine.execFlintTimerMatch core s
  | .coreRestart core => Sys2Proof.Machine.execCoreRestart core s
  | .aditSpikes stream => Sys2Proof.Machine.execAditSpikes stream s
  | .tprocExpiry stream => Sys2Proof.Machine.execTprocExpiry stream s
  | .sliverEncode stream => Sys2Proof.Machine.execSliverEncode stream s
  | .synapseRequest msg => Sys2Proof.Machine.execSynapseRequest msg s
  | .epochHandshake core => Sys2Proof.Machine.execEpochHandshake core s
  | .tilePassStart die bench tag tile pattern => Sys2Proof.Machine.execTilePassStart die bench tag tile pattern s
  | .tilePassComplete die bench tag tile noise => Sys2Proof.Machine.execTilePassComplete die bench tag tile noise s
  | .benchResult die bench tag => Sys2Proof.Machine.execBenchResult die bench tag s
  | .shaftLinkRetire die link => Sys2Proof.Machine.execShaftLinkRetire die link s
  | .shaftLinkDown die link => Sys2Proof.Machine.execShaftLinkDown die link s
  | .batchStart die bench => Sys2Proof.Machine.execBatchStart die bench s
  | .programLoop die target left => Sys2Proof.Machine.execProgramLoop die target left s
  | .offline die => Sys2Proof.Machine.execOffline die s
  | .online die => Sys2Proof.Machine.execOnline die s
  | .check die => Sys2Proof.Machine.execCheck die s
  | .dieReady die links copies => Sys2Proof.Machine.execDieReady die links copies s
  | .benchCheckStart die => Sys2Proof.Machine.execBenchCheckStart die s
  | .benchCheckDone die bench cells copies => Sys2Proof.Machine.execBenchCheckDone die bench cells copies s
  | .fullCalibration die phys cells fits withheld => Sys2Proof.Machine.execFullCalibration die phys cells fits withheld s
  | .recalibrationDue die tile pattern => Sys2Proof.Machine.execRecalibrationDue die tile pattern s
  | .patrolTile die cells fits withheld => Sys2Proof.Machine.execPatrolTile die cells fits withheld s
  | .patrolRound die badSpares => Sys2Proof.Machine.execPatrolRound die badSpares s
  | .refresh die => Sys2Proof.Machine.execRefresh die s
  | .stagingFill die tile stuck fits => Sys2Proof.Machine.execStagingFill die tile stuck fits s
  | .stagingSwap die tile => Sys2Proof.Machine.execStagingSwap die tile s
  | .tileReplace die tile stuck => Sys2Proof.Machine.execTileReplace die tile stuck s
  | .benchMove die bench => Sys2Proof.Machine.execBenchMove die bench s
  | .pumpSoftStart die pump outcome => Sys2Proof.Machine.execPumpSoftStart die pump outcome s
  | .pumpStop die pump => Sys2Proof.Machine.execPumpStop die pump s
  | .oscRead die slowdown => Sys2Proof.Machine.execOscRead die slowdown s
  | .serviceDayAdvance => Sys2Proof.Machine.execServiceDayAdvance s
  | .planDue measures => Sys2Proof.Machine.execPlanDue measures s
  | .replan die measure => Sys2Proof.Machine.execReplan die measure s
  | .recalNow die => Sys2Proof.Machine.execRecalNow die s
  | .patrolNow die => Sys2Proof.Machine.execPatrolNow die s
  | .create ring idx => Sys2Proof.Machine.execCreate ring idx s
  | .deleteLib ring idx => Sys2Proof.Machine.execDeleteLib ring idx s
  | .addBench ring idx => Sys2Proof.Machine.execAddBench ring idx s
  | .removeBench ring idx => Sys2Proof.Machine.execRemoveBench ring idx s
  | .write ring idx buf dmaOk => Sys2Proof.Machine.execWrite ring idx buf dmaOk s
  | .invalidate ring idx buf dmaOk => Sys2Proof.Machine.execInvalidate ring idx buf dmaOk s
  | .setFields ring idx buf dmaOk => Sys2Proof.Machine.execSetFields ring idx buf dmaOk s
  | .read ring idx buf dmaOk => Sys2Proof.Machine.execRead ring idx buf dmaOk s
  | .defineMatrix ring idx => Sys2Proof.Machine.execDefineMatrix ring idx s
  | .writeMatrix ring idx buf dmaOk => Sys2Proof.Machine.execWriteMatrix ring idx buf dmaOk s
  | .repair ring idx => Sys2Proof.Machine.execRepair ring idx s
  | .repairDone lib entry cells => Sys2Proof.Machine.execRepairDone lib entry cells s
  | .sliver msg => Sys2Proof.Machine.execSliver msg s
  | .sliverWaitExpiry stream start => Sys2Proof.Machine.execSliverWaitExpiry stream start s
  | .closeWaitExpiry stream start => Sys2Proof.Machine.execCloseWaitExpiry stream start s
  | .requestAdmit => Sys2Proof.Machine.execRequestAdmit s
  | .verify tag bad => Sys2Proof.Machine.execVerify tag bad s
  | .appendWaitExpiry lib => Sys2Proof.Machine.execAppendWaitExpiry lib s
  | .writeStep lib => Sys2Proof.Machine.execWriteStep lib s
  | .batchResult die bench => Sys2Proof.Machine.execBatchResult die bench s
  | .join => Sys2Proof.Machine.execJoin s
  | .leave => Sys2Proof.Machine.execLeave s
  | .tokenTake lib => Sys2Proof.Machine.execTokenTake lib s
  | .tunnelPortUp port => Sys2Proof.Machine.execTunnelPortUp port s
  | .tunnelLaneFault port lane => Sys2Proof.Machine.execTunnelLaneFault port lane s
  | .hello port frame crcOk content copies => Sys2Proof.Machine.execHello port frame crcOk content copies s
  | .query port frame crcOk => Sys2Proof.Machine.execQuery port frame crcOk s
  | .answer port frame crcOk => Sys2Proof.Machine.execAnswer port frame crcOk s
  | .append port frame crcOk => Sys2Proof.Machine.execAppend port frame crcOk s
  | .appendAck port frame crcOk => Sys2Proof.Machine.execAppendAck port frame crcOk s
  | .token port frame crcOk => Sys2Proof.Machine.execToken port frame crcOk s
  | .lost port frame crcOk => Sys2Proof.Machine.execLost port frame crcOk s
  | .mirror port frame crcOk => Sys2Proof.Machine.execMirror port frame crcOk s
  | .benchOp port frame crcOk => Sys2Proof.Machine.execBenchOp port frame crcOk s
  | .chain port frame crcOk => Sys2Proof.Machine.execChain port frame crcOk s
  | .nak port frame crcOk => Sys2Proof.Machine.execNak port frame crcOk s
  | .idle port frame crcOk => Sys2Proof.Machine.execIdle port frame crcOk s
  | .idleFrameSend port => Sys2Proof.Machine.execIdleFrameSend port s
  | .cascSyncHigh => Sys2Proof.Machine.execCascSyncHigh s
  | .syncTimeout => Sys2Proof.Machine.execSyncTimeout s
  | .matchTimeout => Sys2Proof.Machine.execMatchTimeout s
  | .portDownTimeout port => Sys2Proof.Machine.execPortDownTimeout port s
  | .checkingTimeout => Sys2Proof.Machine.execCheckingTimeout s
  | .answerTimeout tag => Sys2Proof.Machine.execAnswerTimeout tag s
  | .appendAckTimeout tag => Sys2Proof.Machine.execAppendAckTimeout tag s
  | .epochBoundary => Sys2Proof.Machine.execEpochBoundary s
  | .hsDone msg => Sys2Proof.Machine.execHsDone msg s
  | .hsWaitExpiry => Sys2Proof.Machine.execHsWaitExpiry s
  | .closePoint => Sys2Proof.Machine.execClosePoint s
  | .commitNow => Sys2Proof.Machine.execCommitNow s
  | .confirm ring idx => Sys2Proof.Machine.execConfirm ring idx s
  | .exportOp ring idx => Sys2Proof.Machine.execExportOp ring idx s
  | .loadShadow ring idx buf dmaOk => Sys2Proof.Machine.execLoadShadow ring idx buf dmaOk s
  | .chiselLcapWrite hold value => Sys2Proof.Machine.execChiselLcapWrite hold value s
  | .chiselLibLearnWrite lib value => Sys2Proof.Machine.execChiselLibLearnWrite lib value s
  | .kick line => Sys2Proof.Machine.execKick line s
  | .doorbellPoll lines => Sys2Proof.Machine.execDoorbellPoll lines s
  | .cancel ring value => Sys2Proof.Machine.execCancel ring value s
  | .ringEnable ring cfg host => Sys2Proof.Machine.execRingEnable ring cfg host s
  | .ringZeroFillDone ring ok => Sys2Proof.Machine.execRingZeroFillDone ring ok s
  | .ringDisable ring => Sys2Proof.Machine.execRingDisable ring s
  | .ringStopped ring => Sys2Proof.Machine.execRingStopped ring s
  | .search ring idx buf dmaOk => Sys2Proof.Machine.execSearch ring idx buf dmaOk s
  | .matrix ring idx buf dmaOk => Sys2Proof.Machine.execMatrix ring idx buf dmaOk s
  | .exportBuffer ring idx dmaOk => Sys2Proof.Machine.execExportBuffer ring idx dmaOk s
  | .irqTimer ring => Sys2Proof.Machine.execIrqTimer ring s
  | .backlogDrain ring ok => Sys2Proof.Machine.execBacklogDrain ring ok s
  | .watchdogExpiry aGood bGood => Sys2Proof.Machine.execWatchdogExpiry aGood bGood s
  | .mbxInWrite chan word => Sys2Proof.Machine.execMbxInWrite chan word s
  | .mbxOutRead chan => Sys2Proof.Machine.execMbxOutRead chan s
  | .mbxWordTake chan => Sys2Proof.Machine.execMbxWordTake chan s
  | .replyWrite chan => Sys2Proof.Machine.execReplyWrite chan s
  | .sync chan => Sys2Proof.Machine.execSync chan s
  | .version chan => Sys2Proof.Machine.execVersion chan s
  | .loadProgram chan image nets dmaOk => Sys2Proof.Machine.execLoadProgram chan image nets dmaOk s
  | .inspect chan bad dmaOk => Sys2Proof.Machine.execInspect chan bad dmaOk s
  | .fwDownload chan image dmaOk => Sys2Proof.Machine.execFwDownload chan image dmaOk s
  | .fwVerify chan sigOk => Sys2Proof.Machine.execFwVerify chan sigOk s
  | .fwActivate chan => Sys2Proof.Machine.execFwActivate chan s
  | .bankSwitchDone aGood bGood => Sys2Proof.Machine.execBankSwitchDone aGood bGood s
  | .fwConfirm chan => Sys2Proof.Machine.execFwConfirm chan s
  | .fwRollback chan => Sys2Proof.Machine.execFwRollback chan s
  | .trialExpiry => Sys2Proof.Machine.execTrialExpiry s
  | .libDownload chan image dmaOk => Sys2Proof.Machine.execLibDownload chan image dmaOk s
  | .libDownloadDone => Sys2Proof.Machine.execLibDownloadDone s
  | .libVerify chan sigOk => Sys2Proof.Machine.execLibVerify chan sigOk s
  | .libActivate chan => Sys2Proof.Machine.execLibActivate chan s
  | .libConfirm chan => Sys2Proof.Machine.execLibConfirm chan s
  | .libRollback chan => Sys2Proof.Machine.execLibRollback chan s
  | .libAbort chan => Sys2Proof.Machine.execLibAbort chan s
  | .keyEnrol chan image sigOk dmaOk => Sys2Proof.Machine.execKeyEnrol chan image sigOk dmaOk s
  | .updateStatus chan => Sys2Proof.Machine.execUpdateStatus chan s
  | .gmbxCoreWrite msg => Sys2Proof.Machine.execGmbxCoreWrite msg s
  | .gmbxCoreRequest msg => Sys2Proof.Machine.execGmbxCoreRequest msg s
  | .gmbxDataWrite box word => Sys2Proof.Machine.execGmbxDataWrite box word s
  | .gmbxDataRead box => Sys2Proof.Machine.execGmbxDataRead box s
  | .tempSample readings => Sys2Proof.Machine.execTempSample readings s
  | .tripLockoutExpiry => Sys2Proof.Machine.execTripLockoutExpiry s
  | .powerRun path => Sys2Proof.Machine.execPowerRun path s
  | .powerIdle path => Sys2Proof.Machine.execPowerIdle path s
  | .powerSleep path => Sys2Proof.Machine.execPowerSleep path s
  | .powerDeepSleep path => Sys2Proof.Machine.execPowerDeepSleep path s
  | .powerOff path => Sys2Proof.Machine.execPowerOff path s
  | .streamQuiesceDone => Sys2Proof.Machine.execStreamQuiesceDone s
  | .entryAbort refuser => Sys2Proof.Machine.execEntryAbort refuser s
  | .powerEntryDone => Sys2Proof.Machine.execPowerEntryDone s
  | .powerExitDone lines => Sys2Proof.Machine.execPowerExitDone lines s
  | .wakeN => Sys2Proof.Machine.execWakeN s
  | .wakeTimerExpiry => Sys2Proof.Machine.execWakeTimerExpiry s
  | .pfwNFall => Sys2Proof.Machine.execPfwNFall s
  | .pfwNRise => Sys2Proof.Machine.execPfwNRise s
  | .journalFlushDone => Sys2Proof.Machine.execJournalFlushDone s
  | .journalPeriodic => Sys2Proof.Machine.execJournalPeriodic s
  | .railOffStep stuck early => Sys2Proof.Machine.execRailOffStep stuck early s
  | .railOnStep => Sys2Proof.Machine.execRailOnStep s
  | .por => Sys2Proof.Machine.execPor s
  | .brownout => Sys2Proof.Machine.execBrownout s
  | .railLow => Sys2Proof.Machine.execRailLow s
  | .powerLoss vstbyLost => Sys2Proof.Machine.execPowerLoss vstbyLost s
  | .sumpFault => Sys2Proof.Machine.execSumpFault s
  | .sumpRestartDone => Sys2Proof.Machine.execSumpRestartDone s
  | .chiselFault => Sys2Proof.Machine.execChiselFault s
  | .alarmDeliver ok => Sys2Proof.Machine.execAlarmDeliver ok s
  | .logRecordWrite ok => Sys2Proof.Machine.execLogRecordWrite ok s
  | .pmbAlert words => Sys2Proof.Machine.execPmbAlert words s
  | .voutRequest core slowdown ok => Sys2Proof.Machine.execVoutRequest core slowdown ok s
  | .mportRead addr badOp => Sys2Proof.Machine.execMportRead addr badOp s
  | .mportWrite addr value badOp => Sys2Proof.Machine.execMportWrite addr value badOp s
  | .mportAbort addr write cycle => Sys2Proof.Machine.execMportAbort addr write cycle s
  | .timePpsEdge => Sys2Proof.Machine.execTimePpsEdge s
  | .ref10mLost => Sys2Proof.Machine.execRef10mLost s
  | .ref10mReturn => Sys2Proof.Machine.execRef10mReturn s
  | .ppsLost => Sys2Proof.Machine.execPpsLost s
  | .tickStart => Sys2Proof.Machine.execTickStart s
  | .extest shift pins => Sys2Proof.Machine.execExtest shift pins s
  | .idcode => Sys2Proof.Machine.execIdcode s
  | .samplePreload shift pins => Sys2Proof.Machine.execSamplePreload shift pins s
  | .clamp => Sys2Proof.Machine.execClamp s
  | .highz => Sys2Proof.Machine.execHighz s
  | .extestPulse shift pins => Sys2Proof.Machine.execExtestPulse shift pins s
  | .extestTrain shift pins => Sys2Proof.Machine.execExtestTrain shift pins s
  | .bypass => Sys2Proof.Machine.execBypass s
  | .prbsOff p => Sys2Proof.Machine.execPrbsOff p s
  | .prbsCheck p => Sys2Proof.Machine.execPrbsCheck p s
  | .prbsGenerate p => Sys2Proof.Machine.execPrbsGenerate p s
  | .pcieLinkUp speed width => Sys2Proof.Machine.execPcieLinkUp speed width s
  | .illegalInstruction iss word => Sys2Proof.Machine.execIllegalInstruction iss word s
  | .flintMFault sram aGood bGood => Sys2Proof.Machine.execFlintMFault sram aGood bGood s
  | .fatalDeviceFault cause => Sys2Proof.Machine.execFatalDeviceFault cause s
  | .chiselReady => Sys2Proof.Machine.execChiselReady s
  | .hbmTrained ok => Sys2Proof.Machine.execHbmTrained ok s
  | .fwDownloadDone ok => Sys2Proof.Machine.execFwDownloadDone ok s
  | .testLogicReset => Sys2Proof.Machine.execTestLogicReset s
  | .prbsLock p errors => Sys2Proof.Machine.execPrbsLock p errors s
  | .faultAgeOut => Sys2Proof.Machine.execFaultAgeOut s

end Sys2Proof.Machine
end

