-- ==== Sys2Proof/Safety.lean ====
section
/-! DEFINITION.  What the statements speak of: a command that answers a next state, a run that never stops, and the key store. -/

namespace Sys2Proof.Machine

/-- The command answers a next state that has the property. -/
def Answers (i : Instr) (s : State) (P : State → Prop) : Prop := ∃ t, exec i s = .next t ∧ P t

/-- The key store (R466): the owner keys in slots 4 to 7, and the Farwin slots revoked by fuses. -/
def LanternSt.secret (l : LanternSt) : List OwnerKey × List Nat := (l.keys, l.revoked)

/-- The key store of a command's next state; nothing when the command stops. -/
def secretOf (o : Host.Outcome State Fault Refusal) : Option (List OwnerKey × List Nat) :=
  match o with
  | .next t => some t.lantern.secret
  | _ => none

/-- A sound key store (R466): an owner key stands in a slot from 4 to 7, one key a slot, and only Farwin slots 0 to 3 are revoked. -/
def KeyStoreSound (k : List OwnerKey × List Nat) : Prop :=
  (∀ x ∈ k.1, 4 ≤ x.slot ∧ x.slot ≤ 7) ∧ (k.1.map OwnerKey.slot).Nodup ∧ ∀ n ∈ k.2, n ≤ 3

/-- A run is safe when no step of it stops in a fault or a refusal. -/
def SafeRun (n : Nat) (s : State) : Prop := ∃ t, Host.Core.run { State := State, Fault := Fault, Refusal := Refusal, step := step, reset := State.reset } n s = .next t

/-! ### Memory -/

/-- The canonical form of the bytes written to host memory: addresses strictly rising. -/
def cellsWf (m : List Host.Cell) : Bool := tableWf (fun _ => none) (m.map (fun c => (c.1, some c.2)))

/-- The byte of HBM at an address, as a read returns it: zero in a page nothing has written (R443). -/
def State.hbmByte (s : State) (a : Nat) : Byte := if tget (fun _ => false) s.hbmPages (a / 4096) then tget (fun _ => 0#8) s.hbm a else 0

/-- The byte the part has written at a host address, if it wrote one. -/
def State.hostByte (s : State) (a : Nat) : Option Byte := cellGet s.hostMem a

/-- A core's SRAM and the marks of its written words are in canonical form. -/
def CoreSt.memWf (k : CoreSt) : Bool := tableWf (fun _ => 0#8) k.sram && tableWf (fun _ => false) k.written

/-- Every addressed memory is in its canonical form: host memory as written, HBM and its pages, each core's SRAM, the registers. -/
def Memory.wf (s : State) : Bool :=
  cellsWf s.hostMem && tableWf (fun _ => 0#8) s.hbm && tableWf (fun _ => false) s.hbmPages && tableWf regReset s.regs &&
    s.cores.all (fun c => c.2.memWf)

/-! ### Flint: the issue of one instruction -/

/-- A core issues an instruction with a clean fetch (R164 to R166, R182): its program runs and it waits for nothing, its pc lies where a
program may read, the word there has been written, and the fetch's reads end clean: after them the core is `k`, `w` cycles later. -/
def Fetches (s : State) (i : Issue) (k : CoreSt) (w : Nat) : Prop :=
  s.canIssue i.core.val = true ∧ (s.core i.core.val).byteOk (s.core i.core.val).pc.toNat = true ∧
  (s.core i.core.val).byteOk ((s.core i.core.val).pc.toNat + 3) = true ∧
  (s.core i.core.val).unwritten (s.core i.core.val).pc.toNat 4 = 0 ∧ (s.core i.core.val).eccRead i.fetch = some (k, w)

/-- `t` differs from `s` in nothing but core `c`. -/
def OnlyCore (s t : State) (c : Nat) : Prop := t = { s with cores := t.cores } ∧ ∀ d, d ≠ c → t.core d = s.core d

/-- The cycle at which an instruction that reads the registers `reads` completes, after `w` cycles of re-reads (R170). -/
def retireCycle (s : State) (i : Issue) (reads : List Nat) (w cycles : Nat) : Nat :=
  s.coreCycle i.core.val + (s.core i.core.val).interlock reads + w + cycles

/-- An instruction completes on its core and changes nothing else: the core is `k` with the pc at `pc`, its issue stage free at cycle
`busy`, and the registers `late` to be waited for `n` cycles by the next instruction. -/
def Retires (s t : State) (i : Issue) (k : CoreSt) (pc : Word) (busy : Nat) (late : List Nat) (n : Nat) : Prop :=
  OnlyCore s t i.core.val ∧ t.core i.core.val = { k with pc := pc, busy := busy, haz := late, hazWait := n }

/-- The instruction completes on every core that fetches it clean and meets `ok`: it reads the registers `reads`, holds the issue stage
`cycles` cycles, and leaves the core `f k`, the pc `pc k`, and its results `late` to be waited for `n` cycles. -/
def Completes (mk : Issue → Instr) (reads : List Nat) (ok : CoreSt → Prop) (cycles : Nat) (f : CoreSt → CoreSt) (pc : CoreSt → Word)
    (late : List Nat) (n : Nat) : Prop :=
  ∀ i s k w, Fetches s i k w → ok k → Answers (mk i) s (fun t => Retires s t i (f k) (pc k) (retireCycle s i reads w cycles) late n)

/-- An instruction that always completes and goes on at the next word. -/
def CompletesOn (mk : Issue → Instr) (reads : List Nat) (cycles : Nat) (f : CoreSt → CoreSt) (late : List Nat) (n : Nat) : Prop :=
  Completes mk reads (fun _ => True) cycles f (fun k => k.pc + 4) late n

/-- An access of `n` bytes at `a` that takes no exception (R165, Table FLINT-8): aligned, and every byte one a program may touch. -/
def Accessible (k : CoreSt) (a n align : Nat) : Prop := a % align = 0 ∧ ∀ j, j < n → k.byteOk (a + j) = true

/-- A load completes: the access takes no exception, the words read have been written, and the read ends clean, leaving the core `k2` after
`w2` cycles of re-reads. -/
def Loads (mk : Issue → Instr) (reads : List Nat) (cycles : Nat) (addr : CoreSt → Nat) (n : Nat) (f : CoreSt → CoreSt) (late : List Nat) (m : Nat) : Prop :=
  ∀ i s k w k2 w2, Fetches s i k w → Accessible k (addr k) n n → k.unwritten (addr k) n = 0 → (f k).eccRead i.data = some (k2, w2) →
    Answers (mk i) s (fun t => Retires s t i k2 (k2.pc + 4) (retireCycle s i reads (w + w2) cycles) late m)

/-- A store that first reads the 64-bit word it lies in completes (R192). -/
def StoresInWord (mk : Issue → Instr) (reads : List Nat) (addr : CoreSt → Nat) (n : Nat) (value : CoreSt → List Byte) : Prop :=
  ∀ i s k w k2 w2, Fetches s i k w → Accessible k (addr k) n n → (k.store (addr k) (value k)).eccRead i.data = some (k2, w2) →
    Answers (mk i) s (fun t => Retires s t i k2 (k2.pc + 4) (retireCycle s i reads (w + w2) 1) [] 0)

/-- The byte a core's SRAM holds at `x`. -/
def CoreSt.byte (k : CoreSt) (x : Nat) : Byte := tget (fun _ => 0#8) k.sram x

/-- The core after it takes an exception and enters its handler at cycle `busy` (R179). -/
def CoreSt.entered (k : CoreSt) (cause : Nat) (addr : Word) (busy : Nat) : CoreSt :=
  { k with epc := k.pc, cause := cause, badaddr := addr, inHandler := true, pc := k.excVec &&& 0xFFFFFFFC#32, wait := .none, haz := [], hazWait := 0,
           busy := busy }

/-- The instruction takes an exception on every core that fetches it clean, meets `bad`, has a handler and is not in it: the core enters the
handler 3 cycles later and nothing else changes. -/
def Traps (mk : Issue → Instr) (bad : CoreSt → Prop) (cause : Nat) (addr : CoreSt → Word) : Prop :=
  ∀ i s k w, Fetches s i k w → bad k → k.excVec ≠ 0 → k.inHandler = false →
    Answers (mk i) s (fun t => OnlyCore s t i.core.val ∧ t.core i.core.val = k.entered cause (addr k) (s.coreCycle i.core.val + 3))

/-! ### Registers, groups and streams -/

/-- A register command reaches its block (R481): the part is alive and its power state leaves the block reachable. -/
def Reached (s : State) (b : Nat) : Prop := s.alive = true ∧ s.reaches b false = true

/-- `t` differs from `s` in nothing but the registers at the addresses `l`. -/
def OnlyRegs (s t : State) (l : List Nat) : Prop := t = { s with regs := t.regs } ∧ ∀ a, a ∉ l → t.reg a = s.reg a

/-- `t` differs from `s` in nothing but group `g`, which is `v`. -/
def OnlyGroup (s t : State) (g : Nat) (v : GroupSt) : Prop := t = { s with groups := t.groups } ∧ t.grp g = v ∧ ∀ h, h ≠ g → t.grp h = s.grp h

/-- `t` differs from `s` in nothing but stream `n`, which is `v`. -/
def OnlyStream (s t : State) (n : Nat) (v : StreamSt) : Prop := t = { s with streams := t.streams } ∧ t.stream n = v ∧ ∀ m, m ≠ n → t.stream m = s.stream m

/-- The registers an alarm may change: its own, POWER_SUMMARY, and the reports of alarms that found the backlog full (R504). -/
def alarmRegs (f : Fld) : List Nat := [f.addr, R.POWER_SUMMARY, F.POWER_ALARM_LOST_COUNT.addr, F.POWER_ALARM_ALARM_LOST.addr]

/-- The command raises the alarm and does nothing else: its bit stands, no other register but those an alarm may change differs, and
nothing but registers and the alarm backlog does. -/
def OnlyAlarm (s t : State) (f : Fld) : Prop :=
  t = { s with regs := t.regs, alarmQ := t.alarmQ, aseq := t.aseq, alarmLost := t.alarmLost } ∧ t.bit f = true ∧ ∀ a, a ∉ alarmRegs f → t.reg a = s.reg a

/-! ### Library descriptors -/

/-- The descriptor of a library operation is taken and good, and Sump is ready: its fields are `x` (R422 to R424, Table HOST-8). -/
def LibTaken (s : State) (ring : Ring) (idx : Word) (op : Nat) (hasBuf : Bool) (x : LibDesc) : Prop :=
  ∃ d, s.takenDesc ring.toNat idx.toNat 2 = some d ∧ libDesc d = x ∧ x.op = op ∧ libDescBad d hasBuf = false ∧ s.fatal = false ∧ s.sumpReady = true

/-- A library command completes its descriptor with a status, AUX and RESULT over the state `a`, and does nothing else. -/
def LibEnds (c : Instr) (s : State) (ring : Ring) (idx : Word) (a : State) (status aux result : Nat) : Prop :=
  exec c s = .next (a.complete ring.toNat idx.toNat status 0 aux result)

/-- The library operations that Sump serves: code, whether a buffer is read, and the command. -/
def libCommands (r : Ring) (i : Word) (buf : List Byte) (ok : Bool) : List (Nat × Bool × Instr) :=
  [(1, false, .create r i), (2, false, .deleteLib r i), (3, false, .addBench r i), (4, false, .removeBench r i), (5, true, .write r i buf ok),
   (6, true, .invalidate r i buf ok), (7, true, .setFields r i buf ok), (8, true, .read r i buf ok), (9, false, .defineMatrix r i),
   (10, true, .writeMatrix r i buf ok), (11, false, .repair r i)]

/-- The descriptor of a library operation of Chisel is taken and good, and Chisel is ready: its fields are `x`. -/
def LearnTaken (s : State) (ring : Ring) (idx : Word) (op : Nat) (hasBuf : Bool) (x : LibDesc) : Prop :=
  ∃ d, s.takenDesc ring.toNat idx.toNat 2 = some d ∧ libDesc d = x ∧ x.op = op ∧ libDescBad d hasBuf = false ∧ s.fatal = false ∧ s.chiselReady = true

/-! ### Frames of the Tunnel -/

/-- The member that a port leads to. -/
def State.peerOf (s : State) (p : Nat) : Nat := if p = 0 then s.position + 1 else s.position - 1

/-- The NAK that asks the peer of port `p` for the frame after the last received in order (R364). -/
def State.nakSent (s : State) (p : Nat) (a : State) : State := a.sendFrame p (a.mkFrame ftNAK (s.peerOf p) 0 (((s.tport p).rxSeq + 1) % 65536) 0 [])

/-- The state after a frame's ACK has freed frames of the replay buffer (R364). -/
def State.ackTaken (s : State) (p : Nat) (f : Frame) : State :=
  s.setTPort p { s.tport p with replay := acked f.ack.toNat (s.tport p).replay, replays := if acked f.ack.toNat (s.tport p).replay = (s.tport p).replay then (s.tport p).replays else 0 }

/-- The state after a frame has been taken in order: its LSEQ is the last received, and its ACK is taken. -/
def State.frameTaken (s : State) (p : Nat) (f : Frame) : State :=
  (s.ackTaken p f).setTPort p { (s.ackTaken p f).tport p with rxSeq := ((s.tport p).rxSeq + 1) % 65536 }

/-- The frames that a member acts on in order: type, command by whether the CRC is good, and effect at a member it is for. -/
def frameCommands (q : TPort) (f : Frame) (h : HelloRec) (k : List KeyCopy) : List (Nat × (Bool → Instr) × (State → State)) :=
  [(ftHELLO, (fun ok => .hello q f ok h k), (fun a => a.takeHello q.toNat h k)), (ftQUERY, (fun ok => .query q f ok), (fun a => a.takeQuery f)),
   (ftANSWER, (fun ok => .answer q f ok), (fun a => a.takeAnswer f)), (ftAPPEND, (fun ok => .append q f ok), (fun a => a.takeAppend f)),
   (ftACK, (fun ok => .appendAck q f ok), (fun a => a.takeAck f)), (ftTOKEN, (fun ok => .token q f ok), (fun a => a.receiveToken f)),
   (ftLOST, (fun ok => .lost q f ok), (fun a => ((List.range 8).filter (fun m => hasBit (f.arg0.toNat % 256) m)).foldl (fun (b : State) m => b.loseMember m) a)),
   (ftMIRROR, (fun ok => .mirror q f ok), (fun a => a.takeMirror f)), (ftBENCH_OP, (fun ok => .benchOp q f ok), (fun a => a.applyBenchOp f)),
   (ftCHAIN, (fun ok => .chain q f ok), (fun a => { a with tunnel := { a.tunnel with
      barriers := a.tunnel.barriers ++ [⟨f.src.toNat, f.arg0.toNat, f.arg1.toNat, a.now, true⟩], syncLow := false } })),
   (ftNAK, (fun ok => .nak q f ok), (fun a => a.takeNak q.toNat f))]

/-! ### Lantern's channels -/

/-- A complete command stands first on the channel and Lantern executes it (R449, R455, R460): its OP, TAG and arguments. -/
def CommandFirst (s : State) (c : Chan) (op tag : Nat) (args : List Nat) : Prop :=
  ∃ h l, s.front c.toNat = some (h, l) ∧ cmdOp h = op ∧ s.turnedAway h = none ∧ cmdTag h = tag ∧ l.map (fun w => w.toNat) = args

/-- The channel's first command is executed (R455): it leaves the queue, its effect is `f`, and those behind it that Lantern turns away
are answered. -/
def Executes (i : Instr) (s : State) (c : Chan) (f : State → State) : Prop := exec i s = .next ((f (s.popFront c.toNat)).settle c.toNat 16)

/-- A command executed with a reply and no other effect (R461). -/
def RepliesOnly (i : Instr) (s : State) (c : Chan) (status tag : Nat) (res : List Nat) : Prop := Executes i s c (fun a => a.reply c.toNat status tag res)

/-- The mailbox registers of one direction and channel, in which alone a word's arrival or reading shows. -/
def OnlyMailbox (s t : State) (data full coll n : Nat) : Prop :=
  t = { s with regs := t.regs, rdata := t.rdata } ∧ (∀ a, a ∉ [data, full, coll] → t.reg a = s.reg a) ∧
    ∀ m, m < 32 → m ≠ n → t.regBit full m = s.regBit full m ∧ t.regBit coll m = s.regBit coll m

/-- The commands on a library update in progress (Table LANTERN-10): OP, the update states they act in, and the command. -/
inductive UpdateCommand (c : Chan) (sig : Bool) : Nat → List Nat → Instr → Prop where
  | verify : UpdateCommand c sig 0x31 [luDOWNLOADED] (.libVerify c sig)
  | activate : UpdateCommand c sig 0x32 [luVERIFIED] (.libActivate c)
  | confirm : UpdateCommand c sig 0x33 [luTRIAL] (.libConfirm c)
  | rollback : UpdateCommand c sig 0x34 [luTRIAL] (.libRollback c)
  | abort : UpdateCommand c sig 0x35 [luDOWNLOADING, luDOWNLOADED, luVERIFIED] (.libAbort c)

/-- No batch of the updated library is in flight, so that its bench lists may be exchanged (R473). -/
def UpdateQuiet (s : State) : Prop := ∀ j, s.lantern.libJob = some j → s.swapReady j.lib = true

/-! ### Power -/

/-- The commands that ask for a lower power state, with the state (R478, R482). -/
inductive EntryCommand (p : Path) : Nat → Instr → Prop where
  | idle : EntryCommand p 1 (.powerIdle p)
  | sleep : EntryCommand p 2 (.powerSleep p)
  | deep : EntryCommand p 3 (.powerDeepSleep p)
  | off : EntryCommand p 4 (.powerOff p)

/-- `t` differs from `s` in nothing but the power block's own state and the registers at the addresses `l`. -/
def OnlyPower (s t : State) (l : List Nat) : Prop := t = { s with regs := t.regs, power := t.power } ∧ ∀ a, a ∉ l → t.reg a = s.reg a

end Sys2Proof.Machine
end

