-- ==== Sys2Proof/WellFormed.lean ====
section
/-! DEFINITION.  Which commands can happen: what an operand's type does not already rule out. -/

namespace Sys2Proof.WellFormed

/-- A register access names 1 to 64 bytes; the value of one narrower than 8 bytes fits it (R14, R15). -/
def access (bytes : Nat) (value : Word64) : Bool := 1 ≤ bytes && bytes ≤ 64 && (8 ≤ bytes || decide (value.toNat < 2 ^ (8 * bytes)))

/-- A message holds at most 8 payload flits (R134). -/
def msg (m : Msg) : Bool := m.payload.length ≤ 8

/-- The slots named as failed are slots the round carries (R89, R95). -/
def round (samples : List (BitVec 24)) (crcBad : List Nat) : Bool := crcBad.all (fun n => n < samples.length)

/-- A frame of the type its row names (Table CASC-4), with at most 4,112 payload bytes (Table CASC-3). -/
def frame (f : Frame) (type : Nat) : Bool := f.type.toNat == type && f.payload.length ≤ 4112

/-- A physical tile number of a die (R219). -/
def tile (p : Nat) : Bool := p < 34816

/-- A cell's physical column lies in its tile (R220): 1,064 columns. -/
def cells (l : List CellRead) : Bool := l.all (fun c => c.col.toNat < 1064)

/-- The fits of one tile: one a physical column at most. -/
def fits (l : List ColFit) : Bool := l.all (fun c => c.col.toNat < 1064) && decide (l.map ColFit.col).Nodup

/-- At most 64 pattern passes precede a recalibration (R263). -/
def pattern (l : List RefRead) : Bool := l.length ≤ 64

/-- A core group has 132 positions (R130, R131). -/
def positions (l : List (BitVec 8)) : Bool := l.all (fun p => p.toNat < 132)

/-- One reading for the hub and each of the eight dies (R495). -/
def readings (l : List (BitVec 12)) : Bool := l.length == 9

/-- One word for each of at most nine rails (Table PINS-14). -/
def rails (l : List (BitVec 16)) : Bool := l.length ≤ 9

/-- One slowdown for each of 16 ring oscillators (R286). -/
def oscillators (l : List (BitVec 16)) : Bool := l.length == 16

/-- One measurement for each of the eight dies (R287). -/
def dies (l : List Measure) : Bool := l.length == 8

/-- The doorbell lines read at once: each ring at most once (R419). -/
def lines (l : List Doorbell) : Bool := decide (l.map Doorbell.ring).Nodup

/-- A PCIe speed of generation 1 to 5 and a width of 1, 2, 4, 8 or 16 lanes (R414). -/
def link (speed width : Nat) : Bool := 1 ≤ speed && speed ≤ 5 && [1, 2, 4, 8, 16].contains width

/-- An MPORT transaction is cut before its 88 cycles are over (R528). -/
def cut (cycle : Nat) : Bool := cycle < 88

/-- A refuser of Table POWER-4 that ends an entry: every one but THERMAL. -/
def refuser (n : Nat) : Bool := n ≤ 8 && n != 5

/-- A step of Table POWER-6. -/
def railStep (e : Option (BitVec 3)) : Bool := e != some 0

/-- The cores of a snapshot: each once. -/
def cores (l : List CoreId) : Bool := decide l.Nodup

/-- A barrier region of its scope: at most 512 sliver groups, 64 core groups, one device (R152, R153, Table FLINT-6). -/
def region (scope : Scope) (n : Nat) : Bool :=
  match scope with
  | .sliver => n < 512
  | .group => n < 64
  | .device => n == 0

/-- The entries of a verification result, each once. -/
def entries (l : List (Lib × BitVec 24)) : Bool := decide l.Nodup

end Sys2Proof.WellFormed

namespace Sys2Proof

/-- A command that can happen. -/
def Instr.wellFormed (i : Instr) : Bool :=
  match i with
  | .registerWrite _ _ bytes value => WellFormed.access bytes value
  | .aditRound _ _ samples crcBad _ => WellFormed.round samples crcBad
  | .msgEject m => WellFormed.msg m
  | .synapseRequest m => WellFormed.msg m
  | .sliver m => WellFormed.msg m
  | .hsDone m => WellFormed.msg m
  | .gmbxCoreWrite m => WellFormed.msg m
  | .gmbxCoreRequest m => WellFormed.msg m
  | .selftestDone _ failed _ => WellFormed.positions failed
  | .snapshot cs => WellFormed.cores cs
  | .barrierComplete scope n => WellFormed.region scope n.toNat
  | .tilePassStart _ _ _ _ p => WellFormed.pattern p
  | .recalibrationDue _ _ p => WellFormed.pattern p
  | .programLoop _ _ left => WellFormed.cells (left.map LoopCell.cell)
  | .benchCheckDone _ _ cs _ => WellFormed.cells cs
  | .fullCalibration _ p cs fs _ => WellFormed.tile p.toNat && WellFormed.cells cs && WellFormed.fits fs
  | .patrolTile _ cs fs _ => WellFormed.cells cs && WellFormed.fits fs
  | .patrolRound _ bad => bad.all (fun p => WellFormed.tile p.toNat)
  | .stagingFill _ _ stuck fs => WellFormed.cells stuck && WellFormed.fits fs
  | .tileReplace _ _ stuck => WellFormed.cells stuck
  | .oscRead _ l => WellFormed.oscillators l
  | .planDue l => WellFormed.dies l
  | .verify _ bad => WellFormed.entries bad
  | .repairDone _ _ cs => WellFormed.cells cs
  | .hello _ f _ _ _ => WellFormed.frame f 1
  | .query _ f _ => WellFormed.frame f 2
  | .answer _ f _ => WellFormed.frame f 3
  | .append _ f _ => WellFormed.frame f 4
  | .appendAck _ f _ => WellFormed.frame f 5
  | .token _ f _ => WellFormed.frame f 6
  | .lost _ f _ => WellFormed.frame f 7
  | .mirror _ f _ => WellFormed.frame f 8
  | .benchOp _ f _ => WellFormed.frame f 9
  | .chain _ f _ => WellFormed.frame f 10
  | .nak _ f _ => WellFormed.frame f 11
  | .idle _ f _ => WellFormed.frame f 0
  | .doorbellPoll l => WellFormed.lines l
  | .powerExitDone l => WellFormed.lines l
  | .tempSample l => WellFormed.readings l
  | .entryAbort r => WellFormed.refuser r.toNat
  | .railOffStep _ e => WellFormed.railStep e
  | .pmbAlert l => WellFormed.rails l
  | .mportAbort _ _ cycle => WellFormed.cut cycle.toNat
  | .pcieLinkUp speed width => WellFormed.link speed.toNat width.toNat
  | _ => true

end Sys2Proof
end

