-- ==== Sys2Proof/Certificates/Slice0/Obligations.lean ====
section
/-! DEFINITION.  The statements for the provers. -/

open Sys2Proof Sys2Proof.Machine

/-- Each scalar register instruction of Table FLINT-3 completes, writing its result to RD and nothing else (05_flint_instructions Table FLINT-3; 05_flint_instructions R170, R171). -/
def Obligations.ScalarInstructionsWriteTheirResult : Prop :=
  (∀ rd ra rb, CompletesOn (.add · rd ra rb) (hazS ra ++ hazS rb) 1 (fun k => k.setS rd (k.s ra + k.s rb)) [] 0) ∧
  (∀ rd ra rb, CompletesOn (.sub · rd ra rb) (hazS ra ++ hazS rb) 1 (fun k => k.setS rd (k.s ra - k.s rb)) [] 0) ∧
  (∀ rd ra rb, CompletesOn (.and · rd ra rb) (hazS ra ++ hazS rb) 1 (fun k => k.setS rd (k.s ra &&& k.s rb)) [] 0) ∧
  (∀ rd ra rb, CompletesOn (.or · rd ra rb) (hazS ra ++ hazS rb) 1 (fun k => k.setS rd (k.s ra ||| k.s rb)) [] 0) ∧
  (∀ rd ra rb, CompletesOn (.xor · rd ra rb) (hazS ra ++ hazS rb) 1 (fun k => k.setS rd (k.s ra ^^^ k.s rb)) [] 0) ∧
  (∀ rd ra rb, CompletesOn (.sll · rd ra rb) (hazS ra ++ hazS rb) 1 (fun k => k.setS rd (k.s ra <<< ((k.s rb).toNat % 32))) [] 0) ∧
  (∀ rd ra rb, CompletesOn (.srl · rd ra rb) (hazS ra ++ hazS rb) 1 (fun k => k.setS rd (k.s ra >>> ((k.s rb).toNat % 32))) [] 0) ∧
  (∀ rd ra rb, CompletesOn (.sra · rd ra rb) (hazS ra ++ hazS rb) 1 (fun k => k.setS rd (BitVec.ofInt 32 ((k.s ra).toInt / 2 ^ ((k.s rb).toNat % 32)))) [] 0) ∧
  (∀ rd ra rb, CompletesOn (.slt · rd ra rb) (hazS ra ++ hazS rb) 1 (fun k => k.setS rd (if (k.s ra).toInt < (k.s rb).toInt then 1 else 0)) [] 0) ∧
  (∀ rd ra rb, CompletesOn (.sltu · rd ra rb) (hazS ra ++ hazS rb) 1 (fun k => k.setS rd (if (k.s ra).toNat < (k.s rb).toNat then 1 else 0)) [] 0) ∧
  (∀ rd ra rb, CompletesOn (.mul · rd ra rb) (hazS ra ++ hazS rb) 1 (fun k => k.setS rd (BitVec.ofNat 32 ((k.s ra).toNat * (k.s rb).toNat))) (hazS rd) 2) ∧
  (∀ rd ra rb, CompletesOn (.mulh · rd ra rb) (hazS ra ++ hazS rb) 1 (fun k => k.setS rd (BitVec.ofInt 32 ((k.s ra).toInt * (k.s rb).toInt / 2 ^ 32))) (hazS rd) 2) ∧
  (∀ rd ra rb, CompletesOn (.adds · rd ra rb) (hazS ra ++ hazS rb) 1
    (fun k => k.setS rd (BitVec.ofInt 32 (max (-2147483648) (min 2147483647 ((k.s ra).toInt + (k.s rb).toInt))))) [] 0) ∧
  (∀ rd ra rb, CompletesOn (.subs · rd ra rb) (hazS ra ++ hazS rb) 1
    (fun k => k.setS rd (BitVec.ofInt 32 (max (-2147483648) (min 2147483647 ((k.s ra).toInt - (k.s rb).toInt))))) [] 0) ∧
  (∀ rd ra rb, CompletesOn (.min · rd ra rb) (hazS ra ++ hazS rb) 1 (fun k => k.setS rd (BitVec.ofInt 32 (min (k.s ra).toInt (k.s rb).toInt))) [] 0) ∧
  (∀ rd ra rb, CompletesOn (.max · rd ra rb) (hazS ra ++ hazS rb) 1 (fun k => k.setS rd (BitVec.ofInt 32 (max (k.s ra).toInt (k.s rb).toInt))) [] 0) ∧
  (∀ rd ra rb, CompletesOn (.popc · rd ra rb) (hazS ra) 1 (fun k => k.setS rd (BitVec.ofNat 32 (popc (k.s ra)))) [] 0) ∧
  (∀ rd ra rb, CompletesOn (.clz · rd ra rb) (hazS ra) 1 (fun k => k.setS rd (BitVec.ofNat 32 (clz32 (k.s ra)))) [] 0) ∧
  (∀ rd ra rb, CompletesOn (.ctz · rd ra rb) (hazS ra) 1 (fun k => k.setS rd (BitVec.ofNat 32 (ctz32 (k.s ra)))) [] 0) ∧
  (∀ rd ra rb, CompletesOn (.fxadd · rd ra rb) (hazS ra ++ hazS rb) 1
    (fun k => k.setS rd (BitVec.ofInt 32 (max (-32768) (min 32767 (lowFx (k.s ra) + lowFx (k.s rb)))))) [] 0) ∧
  (∀ rd ra rb, CompletesOn (.fxsub · rd ra rb) (hazS ra ++ hazS rb) 1
    (fun k => k.setS rd (BitVec.ofInt 32 (max (-32768) (min 32767 (lowFx (k.s ra) - lowFx (k.s rb)))))) [] 0) ∧
  (∀ rd ra rb, CompletesOn (.fxmul · rd ra rb) (hazS ra ++ hazS rb) 1
    (fun k => k.setS rd (BitVec.ofInt 32 (max (-32768) (min 32767 (roundAway (lowFx (k.s ra) * lowFx (k.s rb)) 256))))) (hazS rd) 2)

/-- The register-immediate instructions of Table FLINT-4 complete, or take ILLEGAL for a reserved field that is not zero (05_flint_instructions Table FLINT-4, Table FLINT-8). -/
def Obligations.ImmediateInstructionsWriteTheirResult : Prop :=
  (∀ rd ra imm, CompletesOn (.addi · rd ra imm) (hazS ra) 1 (fun k => k.setS rd (k.s ra + imm.signExtend 32)) [] 0) ∧
  (∀ rd ra imm, CompletesOn (.andi · rd ra imm) (hazS ra) 1 (fun k => k.setS rd (k.s ra &&& imm.zeroExtend 32)) [] 0) ∧
  (∀ rd ra imm, CompletesOn (.ori · rd ra imm) (hazS ra) 1 (fun k => k.setS rd (k.s ra ||| imm.zeroExtend 32)) [] 0) ∧
  (∀ rd ra imm, CompletesOn (.xori · rd ra imm) (hazS ra) 1 (fun k => k.setS rd (k.s ra ^^^ imm.zeroExtend 32)) [] 0) ∧
  (∀ rd ra imm, CompletesOn (.slti · rd ra imm) (hazS ra) 1 (fun k => k.setS rd (if (k.s ra).toInt < imm.toInt then 1 else 0)) [] 0) ∧
  (∀ rd ra imm, Completes (.shi · rd ra imm) (hazS ra) (fun _ => imm.extractLsb' 5 9 = 0) 1
    (fun k => k.setS rd (match imm.extractLsb' 14 2 with
      | 0#2 => k.s ra <<< (imm.toNat % 32)
      | 1#2 => k.s ra >>> (imm.toNat % 32)
      | 2#2 => (k.s ra).sshiftRight (imm.toNat % 32)
      | _ => (k.s ra).rotateRight (imm.toNat % 32))) (fun k => k.pc + 4) [] 0) ∧
  (∀ rd ra imm, Traps (.shi · rd ra imm) (fun _ => imm.extractLsb' 5 9 ≠ 0) excILLEGAL (fun _ => 0)) ∧
  (∀ rd imm, CompletesOn (.lui · rd 0 imm) [] 1 (fun k => k.setS rd (imm.zeroExtend 32 <<< 16)) [] 0) ∧
  (∀ rd ra imm, Traps (.lui · rd ra imm) (fun _ => ra ≠ 0) excILLEGAL (fun _ => 0))

/-- LW, LH, LHU, LB, LBU, VLD and TLOAD complete with the bytes at their address, extended as the table says (05_flint_instructions R165, R170; 06_spiking_execution R192). -/
def Obligations.LoadsBringMemoryToTheirRegister : Prop :=
  (∀ rd ra imm, Loads (.lw · rd ra imm) (hazS ra) 1 (fun k => (k.s ra + imm.signExtend 32).toNat) 4
    (fun k => k.setS rd (BitVec.ofNat 32 (leValue (k.bytes (k.s ra + imm.signExtend 32).toNat 4)))) (hazS rd) 1) ∧
  (∀ rd ra imm, Loads (.lh · rd ra imm) (hazS ra) 1 (fun k => (k.s ra + imm.signExtend 32).toNat) 2
    (fun k => k.setS rd ((BitVec.ofNat 16 (leValue (k.bytes (k.s ra + imm.signExtend 32).toNat 2))).signExtend 32)) (hazS rd) 1) ∧
  (∀ rd ra imm, Loads (.lhu · rd ra imm) (hazS ra) 1 (fun k => (k.s ra + imm.signExtend 32).toNat) 2
    (fun k => k.setS rd (BitVec.ofNat 32 (leValue (k.bytes (k.s ra + imm.signExtend 32).toNat 2)))) (hazS rd) 1) ∧
  (∀ rd ra imm, Loads (.lb · rd ra imm) (hazS ra) 1 (fun k => (k.s ra + imm.signExtend 32).toNat) 1
    (fun k => k.setS rd ((k.byte (k.s ra + imm.signExtend 32).toNat).signExtend 32)) (hazS rd) 1) ∧
  (∀ rd ra imm, Loads (.lbu · rd ra imm) (hazS ra) 1 (fun k => (k.s ra + imm.signExtend 32).toNat) 1
    (fun k => k.setS rd ((k.byte (k.s ra + imm.signExtend 32).toNat).zeroExtend 32)) (hazS rd) 1) ∧
  (∀ vd ra imm, Loads (.vld · vd ra imm) (hazS ra) 1 (fun k => k.addrL ra imm 32) 32
    (fun k => k.setV vd (BitVec.ofNat 256 (leValue (k.bytes (k.addrL ra imm 32) 32)))) (hazV vd) 1) ∧
  (∀ ra imm, Loads (.tload · 0 ra imm) (hazS ra) 8 (fun k => k.addrL ra imm 256) 256
    (fun k => { k with tally := tallyOf 256 (fun j => (k.byte (k.addrL ra imm 256 + j)).toInt) }) [] 0)

/-- SW, SH, SB, VST and TSAVE complete, storing their bytes at their address (05_flint_instructions R165; 06_spiking_execution R192). -/
def Obligations.StoresWriteTheirBytes : Prop :=
  (∀ rb ra imm, Completes (.sw · rb ra imm) (hazS rb ++ hazS ra) (fun k => Accessible k (k.s ra + imm.signExtend 32).toNat 4 4) 1
    (fun k => k.store (k.s ra + imm.signExtend 32).toNat (bytesLE 4 (k.s rb).toNat)) (fun k => k.pc + 4) [] 0) ∧
  (∀ rb ra imm, StoresInWord (.sh · rb ra imm) (hazS rb ++ hazS ra) (fun k => (k.s ra + imm.signExtend 32).toNat) 2 (fun k => bytesLE 2 (k.s rb).toNat)) ∧
  (∀ rb ra imm, StoresInWord (.sb · rb ra imm) (hazS rb ++ hazS ra) (fun k => (k.s ra + imm.signExtend 32).toNat) 1 (fun k => bytesLE 1 (k.s rb).toNat)) ∧
  (∀ vd ra imm, Completes (.vst · vd ra imm) (hazS ra ++ hazV vd) (fun k => Accessible k (k.addrL ra imm 32) 32 32) 1
    (fun k => k.store (k.addrL ra imm 32) (bytesLE 32 (k.v vd).toNat)) (fun k => k.pc + 4) [] 0) ∧
  (∀ ra imm, Completes (.tsave · 0 ra imm) (hazS ra) (fun k => Accessible k (k.addrL ra imm 256) 256 256) 8
    (fun k => k.store (k.addrL ra imm 256) (tallyBytes k.tally)) (fun k => k.pc + 4) [] 0)

/-- A store changes the bytes it stores and no other, marks their words written and no other, and touches no other part of its core (04_gallery_fabric R147; 05_flint_instructions R164; 06_spiking_execution R192). -/
def Obligations.StoredBytesReadBackAndOthersStand : Prop :=
  (∀ (k : CoreSt) (a : Nat) (bs : List Byte) (x : Nat),
    (k.store a bs).byte x = if a ≤ x ∧ x < a + bs.length then bs.getD (x - a) 0 else k.byte x) ∧
  (∀ (k : CoreSt) (a : Nat) (bs : List Byte) (w : Nat),
    (k.store a bs).isWritten w = true ↔ k.isWritten w = true ∨ ∃ x, a ≤ x ∧ x < a + bs.length ∧ x / 8 = w) ∧
  (∀ (k : CoreSt) (a : Nat) (bs : List Byte), k.store a bs = { k with sram := (k.store a bs).sram, written := (k.store a bs).written }) ∧
  (∀ (k : CoreSt) (a : Nat) (bs : List Byte), (k.store a bs).bytes a bs.length = bs) ∧
  (∀ (k : CoreSt) (r q : SReg) (v : Word), (k.setS r v).s q = if q = r ∧ r ≠ 0 then v else k.s q) ∧
  (∀ k : CoreSt, k.s 0 = 0) ∧
  (∀ (k : CoreSt) (r q : VReg) (x : Sliver), (k.setV r x).v q = if q = r then x else k.v q) ∧
  (∀ (k : CoreSt) (r : SReg) (v : Word), k.setS r v = { k with sregs := (k.setS r v).sregs }) ∧
  (∀ (k : CoreSt) (r : VReg) (x : Sliver), k.setV r x = { k with vregs := (k.setV r x).vregs })

/-- Branches, JAL, JALR and ERET complete and send the pc where the table says (05_flint_instructions R170, R179). -/
def Obligations.BranchesAndJumpsSetThePc : Prop :=
  (∀ rb ra imm, Completes (.beq · rb ra imm) (hazS rb ++ hazS ra) (fun k => k.s ra = k.s rb) 2 id (fun k => k.pc + 4 + 4 * imm.signExtend 32) [] 0) ∧
  (∀ rb ra imm, Completes (.beq · rb ra imm) (hazS rb ++ hazS ra) (fun k => k.s ra ≠ k.s rb) 1 id (fun k => k.pc + 4) [] 0) ∧
  (∀ rb ra imm, Completes (.bne · rb ra imm) (hazS rb ++ hazS ra) (fun k => k.s ra ≠ k.s rb) 2 id (fun k => k.pc + 4 + 4 * imm.signExtend 32) [] 0) ∧
  (∀ rb ra imm, Completes (.bne · rb ra imm) (hazS rb ++ hazS ra) (fun k => k.s ra = k.s rb) 1 id (fun k => k.pc + 4) [] 0) ∧
  (∀ rb ra imm, Completes (.blt · rb ra imm) (hazS rb ++ hazS ra) (fun k => (k.s ra).toInt < (k.s rb).toInt) 2 id (fun k => k.pc + 4 + 4 * imm.signExtend 32) [] 0) ∧
  (∀ rb ra imm, Completes (.blt · rb ra imm) (hazS rb ++ hazS ra) (fun k => ¬ (k.s ra).toInt < (k.s rb).toInt) 1 id (fun k => k.pc + 4) [] 0) ∧
  (∀ rb ra imm, Completes (.bge · rb ra imm) (hazS rb ++ hazS ra) (fun k => (k.s rb).toInt ≤ (k.s ra).toInt) 2 id (fun k => k.pc + 4 + 4 * imm.signExtend 32) [] 0) ∧
  (∀ rb ra imm, Completes (.bge · rb ra imm) (hazS rb ++ hazS ra) (fun k => ¬ (k.s rb).toInt ≤ (k.s ra).toInt) 1 id (fun k => k.pc + 4) [] 0) ∧
  (∀ rb ra imm, Completes (.bltu · rb ra imm) (hazS rb ++ hazS ra) (fun k => (k.s ra).toNat < (k.s rb).toNat) 2 id (fun k => k.pc + 4 + 4 * imm.signExtend 32) [] 0) ∧
  (∀ rb ra imm, Completes (.bltu · rb ra imm) (hazS rb ++ hazS ra) (fun k => ¬ (k.s ra).toNat < (k.s rb).toNat) 1 id (fun k => k.pc + 4) [] 0) ∧
  (∀ rb ra imm, Completes (.bgeu · rb ra imm) (hazS rb ++ hazS ra) (fun k => (k.s rb).toNat ≤ (k.s ra).toNat) 2 id (fun k => k.pc + 4 + 4 * imm.signExtend 32) [] 0) ∧
  (∀ rb ra imm, Completes (.bgeu · rb ra imm) (hazS rb ++ hazS ra) (fun k => ¬ (k.s rb).toNat ≤ (k.s ra).toNat) 1 id (fun k => k.pc + 4) [] 0) ∧
  (∀ off, Completes (.jal · off) [] (fun _ => True) 2 (fun k => k.setS 31 (k.pc + 4)) (fun k => k.pc + 4 + 4 * off.signExtend 32) [] 0) ∧
  (∀ rd ra imm, Completes (.jalr · rd ra imm) (hazS ra) (fun _ => True) 2 (fun k => k.setS rd (k.pc + 4))
    (fun k => (k.s ra + imm.signExtend 32) &&& 0xFFFFFFFC#32) [] 0) ∧
  Completes (.eret · 0) [] (fun _ => True) 2 (fun k => { k with inHandler := false }) (fun k => k.epc) [] 0 ∧
  (∀ off, Traps (.eret · off) (fun _ => off ≠ 0) excILLEGAL (fun _ => 0))

/-- The sliver logic, rotate, permute and word instructions of Table FLINT-5 complete with their result in VD or SX (05_flint_instructions Table FLINT-5; 02_hypervector_algebra R68, R70). -/
def Obligations.SliverLogicWritesItsRegister : Prop :=
  (∀ vd va vb sx, CompletesOn (.vmov · vd va vb sx) (hazV va) 1 (fun k => k.setV vd (k.v va)) [] 0) ∧
  (∀ vd va vb sx, CompletesOn (.vnot · vd va vb sx) (hazV va) 1 (fun k => k.setV vd (~~~k.v va)) [] 0) ∧
  (∀ vd va vb sx, CompletesOn (.vand · vd va vb sx) (hazV va ++ hazV vb) 1 (fun k => k.setV vd (k.v va &&& k.v vb)) [] 0) ∧
  (∀ vd va vb sx, CompletesOn (.vor · vd va vb sx) (hazV va ++ hazV vb) 1 (fun k => k.setV vd (k.v va ||| k.v vb)) [] 0) ∧
  (∀ vd va vb sx, CompletesOn (.vxor · vd va vb sx) (hazV va ++ hazV vb) 1 (fun k => k.setV vd (k.v va ^^^ k.v vb)) [] 0) ∧
  (∀ vd va vb sx, CompletesOn (.vandn · vd va vb sx) (hazV va ++ hazV vb) 1 (fun k => k.setV vd (k.v va &&& ~~~k.v vb)) [] 0) ∧
  (∀ vd va vb sx, CompletesOn (.vrot · vd va vb sx) (hazV va ++ hazS sx) 1 (fun k => k.setV vd ((k.v va).rotateLeft ((k.s sx).toNat % 256))) [] 0) ∧
  (∀ vd va vb sx, CompletesOn (.vperm · vd va vb sx) (hazV va ++ hazV vb ++ hazS sx) 1
    (fun k => k.setV vd ((k.v va <<< ((k.s sx).toNat % 256)) ||| (k.v vb >>> (256 - (k.s sx).toNat % 256)))) [] 0) ∧
  (∀ vd va vb sx n, CompletesOn (.vext · vd va vb sx n) (hazV va) 1 (fun k => k.setS sx ((k.v va).extractLsb' (32 * n.toNat) 32)) (hazS sx) 1) ∧
  (∀ vd va vb sx n, CompletesOn (.vins · vd va vb sx n) (hazV vd ++ hazS sx) 1 (fun k => k.setV vd (insWord (k.v vd) n.toNat (k.s sx))) [] 0) ∧
  (∀ (a : Sliver) (n m : Nat) (w : Word), n < 8 → m < 8 → (insWord a n w).extractLsb' (32 * m) 32 = if m = n then w else a.extractLsb' (32 * m) 32) ∧
  (∀ (a : Sliver) (n j : Nat), j < 256 → (a.rotateLeft (n % 256)).getLsbD j = a.getLsbD ((j + 256 - n % 256) % 256))

/-- The T2 instructions complete on even registers and take ILLEGAL on odd ones, and the counting instructions write their count to SX (05_flint_instructions Table FLINT-5; 02_hypervector_algebra R60, R68, R74). -/
def Obligations.TernaryAndCountingSliverInstructions : Prop :=
  (∀ vd va vb sx, CompletesOn (.vpop · vd va vb sx) (hazV va) 1 (fun k => k.setS sx (BitVec.ofNat 32 (popc (k.v va)))) (hazS sx) 1) ∧
  (∀ vd va vb sx, CompletesOn (.vpopand · vd va vb sx) (hazV va ++ hazV vb) 1 (fun k => k.setS sx (BitVec.ofNat 32 (popc (k.v va &&& k.v vb)))) [] 0) ∧
  (∀ vd va vb sx, CompletesOn (.vpopxor · vd va vb sx) (hazV va ++ hazV vb) 1 (fun k => k.setS sx (BitVec.ofNat 32 (popc (k.v va ^^^ k.v vb)))) [] 0) ∧
  (∀ vd va vb sx, CompletesOn (.vdot8 · vd va vb sx) (hazV va ++ hazV vb ++ hazS sx) 4
    (fun k => k.setS sx (BitVec.ofInt 32 (max (-2147483648) (min 2147483647 ((k.s sx).toInt +
      ((List.range 32).map (fun j => ((k.v va).extractLsb' (8 * j) 8).toInt * ((k.v vb).extractLsb' (8 * j) 8).toInt)).sum))))) [] 0) ∧
  (∀ vd va vb sx, Completes (.vtbind · vd va vb sx) (hazPair va ++ hazPair vb) (fun _ => vd.getLsbD 0 = false ∧ va.getLsbD 0 = false ∧ vb.getLsbD 0 = false) 2
    (fun k => (({ k with t2 := k.t2 || (~~~k.v va &&& k.v (va + 1)) != 0 || (~~~k.v vb &&& k.v (vb + 1)) != 0 } : CoreSt).setV vd (k.v va &&& k.v vb)).setV (vd + 1)
      ((k.v (va + 1) ^^^ k.v (vb + 1)) &&& (k.v va &&& k.v vb))) (fun k => k.pc + 4) [] 0) ∧
  (∀ vd va vb sx, Traps (.vtbind · vd va vb sx) (fun _ => vd.getLsbD 0 = true ∨ va.getLsbD 0 = true ∨ vb.getLsbD 0 = true) excILLEGAL (fun _ => 0)) ∧
  (∀ vd va vb sx, Completes (.vbtbind · vd va vb sx) (hazV va ++ hazPair vb) (fun _ => vd.getLsbD 0 = false ∧ vb.getLsbD 0 = false) 2
    (fun k => (({ k with t2 := k.t2 || (~~~k.v vb &&& k.v (vb + 1)) != 0 } : CoreSt).setV vd (k.v vb)).setV (vd + 1)
      ((k.v va ^^^ k.v (vb + 1)) &&& k.v vb)) (fun k => k.pc + 4) [] 0) ∧
  (∀ vd va vb sx, Traps (.vbtbind · vd va vb sx) (fun _ => vd.getLsbD 0 = true ∨ vb.getLsbD 0 = true) excILLEGAL (fun _ => 0)) ∧
  (∀ vd va vb sx, Completes (.vdott2 · vd va vb sx) (hazPair va ++ hazPair vb) (fun _ => va.getLsbD 0 = false ∧ vb.getLsbD 0 = false) 2
    (fun k => ({ k with t2 := k.t2 || (~~~k.v va &&& k.v (va + 1)) != 0 || (~~~k.v vb &&& k.v (vb + 1)) != 0 } : CoreSt).setS sx
      (BitVec.ofInt 32 ((popc (k.v va &&& k.v vb) : Int) - 2 * popc ((k.v (va + 1) ^^^ k.v (vb + 1)) &&& (k.v va &&& k.v vb))))) (fun k => k.pc + 4) [] 0) ∧
  (∀ vd va vb sx, Traps (.vdott2 · vd va vb sx) (fun _ => va.getLsbD 0 = true ∨ vb.getLsbD 0 = true) excILLEGAL (fun _ => 0))

/-- VCADD, VCADDT, VSIGN, VTHIN and TCLR complete and act on the 256 counters as the algebra says (05_flint_instructions Table FLINT-5; 05_flint_instructions R172; 02_hypervector_algebra R69, R72, R73). -/
def Obligations.TallyInstructionsBundleSignAndThin : Prop :=
  (∀ (t : List (Nat × Int)) (w : Int) (val : Nat → Int) (j : Nat), j < 256 →
    tallyGet (bundleTally t w val).1 j = max (-128) (min 127 (tallyGet t j + w * val j))) ∧
  (∀ (t : List (Nat × Int)) (w : Int) (val : Nat → Int),
    ((bundleTally t w val).2 = true ↔ ∃ j, j < 256 ∧ (tallyGet t j + w * val j < -128 ∨ 127 < tallyGet t j + w * val j))) ∧
  (∀ vd va vb sx, CompletesOn (.vcadd · vd va vb sx) (hazV va ++ hazS sx) 1
    (fun k => { k with
      tally := (bundleTally k.tally ((k.s sx).setWidth 8).toInt (fun d => if (k.v va).getLsbD d then -1 else 1)).1
      tlsat := k.tlsat || (bundleTally k.tally ((k.s sx).setWidth 8).toInt (fun d => if (k.v va).getLsbD d then -1 else 1)).2 }) [] 0) ∧
  (∀ vd va vb sx, Completes (.vcaddt · vd va vb sx) (hazPair va ++ hazS sx) (fun _ => va.getLsbD 0 = false) 1
    (fun k => (k.readT2 (k.pair va)).bundle ((k.s sx).setWidth 8).toInt (fun d => t2val ((k.v va).getLsbD d) ((k.v (va + 1)).getLsbD d)))
    (fun k => k.pc + 4) [] 0) ∧
  (∀ vd va vb sx, Traps (.vcaddt · vd va vb sx) (fun _ => va.getLsbD 0 = true) excILLEGAL (fun _ => 0)) ∧
  (∀ vd va vb sx, CompletesOn (.vsign · vd va vb sx) (hazV vb) 1
    (fun k => (k.setV vd (binariseTally k.tally (k.v vb))).setS sx (BitVec.ofNat 32 (popc (binariseTally k.tally (k.v vb)) +
      (if k.tlsat then 512 else 0) + (if (List.range 256).all (fun j => tallyGet k.tally j == 0) then 2048 else 0)))) (hazV vd ++ hazS sx) 1) ∧
  (∀ (t : List (Nat × Int)) (tie : Sliver) (j : Nat), j < 256 →
    (binariseTally t tie).getLsbD j = if tallyGet t j = 0 then tie.getLsbD j else decide (tallyGet t j < 0)) ∧
  (∀ vd va vb sx, Completes (.vthin · vd va vb sx) (hazS sx) (fun _ => vd.getLsbD 0 = false) 2
    (fun k => (k.setV vd (thinTally k.tally (min 127 (k.s sx).toNat)).1).setV (vd + 1) (thinTally k.tally (min 127 (k.s sx).toNat)).2) (fun k => k.pc + 4) [] 0) ∧
  (∀ (t : List (Nat × Int)) (th j : Nat), j < 256 → (thinTally t th).1.getLsbD j = decide ((th : Int) < (tallyGet t j).natAbs) ∧
    (thinTally t th).2.getLsbD j = decide (tallyGet t j < -(th : Int))) ∧
  (∀ vd va vb sx, Traps (.vthin · vd va vb sx) (fun _ => vd.getLsbD 0 = true) excILLEGAL (fun _ => 0)) ∧
  CompletesOn (.tclr · 0 0 0 0) [] 1 (fun k => { k with tally := [], tlsat := false }) [] 0 ∧
  (∀ vd va vb sx, Traps (.tclr · vd va vb sx) (fun _ => vd ≠ 0 ∨ va ≠ 0 ∨ vb ≠ 0 ∨ sx ≠ 0) excILLEGAL (fun _ => 0))

/-- SEND puts its message on the fabric, RECV takes the oldest held message into SRAM, TRACE queues one trace word (05_flint_instructions Table FLINT-6; 05_flint_instructions R174, R177; 04_gallery_fabric R133, R142, R145). -/
def Obligations.MessageInstructionsSendReceiveAndTrace : Prop :=
  (∀ rd ra imm i s k w k2 w2, Fetches s i k w → immHi imm ≤ 8 → (immLo imm < 0xF00 ∨ immLo imm = 0xF10) →
    Accessible k (k.s ra).toNat (8 * immHi imm) 8 → k.unwritten (k.s ra).toNat (8 * immHi imm) = 0 →
    ({ k with sent := min (k.sent + 1) 0xFFFFFFFF } : CoreSt).eccRead i.data = some (k2, w2) →
    endpoint ((k.s rd).toNat % 16384) ≠ .adit → endpoint ((k.s rd).toNat % 16384) ≠ .unassigned →
    Answers (.send i rd ra imm) s (fun t =>
      t = { s with cores := t.cores, fabric := s.fabric ++ [k.sendMsg ((k.s rd).toNat % 16384) (immLo imm) (immHi imm) (k.s ra).toNat] } ∧
      (∀ d, d ≠ i.core.val → t.core d = s.core d) ∧
      t.core i.core.val = { k2 with pc := k2.pc + 4, busy := retireCycle s i (hazS rd ++ hazS ra) (w + w2) (2 + immHi imm), haz := [], hazWait := 0 })) ∧
  (∀ rd ra imm i s k w k2 w2, Fetches s i k w → immHi imm ≤ 8 → (immLo imm < 0xF00 ∨ immLo imm = 0xF10) →
    Accessible k (k.s ra).toNat (8 * immHi imm) 8 → k.unwritten (k.s ra).toNat (8 * immHi imm) = 0 →
    ({ k with sent := min (k.sent + 1) 0xFFFFFFFF } : CoreSt).eccRead i.data = some (k2, w2) →
    (endpoint ((k.s rd).toNat % 16384) = .adit ∨ endpoint ((k.s rd).toNat % 16384) = .unassigned) →
    Answers (.send i rd ra imm) s (fun t => t = { s with cores := t.cores, regs := t.regs } ∧
      t.fld F.GAL_EDGE_BADDEST_COUNT = min (s.fld F.GAL_EDGE_BADDEST_COUNT + 1) (2 ^ 32 - 1) ∧
      (∀ a, a ≠ F.GAL_EDGE_BADDEST_COUNT.addr → t.reg a = s.reg a))) ∧
  (∀ rd ra imm, Traps (.send · rd ra imm) (fun _ => 8 < immHi imm ∨ (0xF00 ≤ immLo imm ∧ immLo imm ≠ 0xF10)) excILLSEND (fun _ => 0)) ∧
  (∀ rd ra, Completes (.recv · rd ra 0) (hazS ra) (fun k => (k.s ra).toNat % 8 = 0 ∧ k.held = []) 1 (fun k => k.setS rd 0) (fun k => k.pc + 4) [] 0) ∧
  (∀ rd ra i s k w o m rest, Fetches s i k w → k.held = (o, m) :: rest → Accessible k (k.s ra).toNat (8 + 8 * m.payload.length) 8 →
    m.tag ≠ 0xF00#12 → m.tag ≠ 0xF01#12 → m.tag ≠ 0xF80#12 →
    Answers (.recv i rd ra 0) s (fun t => Retires s t i
      (((k.store (k.s ra).toNat (flitBytes (msgHeader m :: m.payload))).setS rd (BitVec.ofNat 32 (2 ^ 31 + m.payload.length * 4096 + m.tag.toNat))).takeHeld rest)
      (k.pc + 4) (retireCycle s i (hazS ra) w (2 + m.payload.length)) [] 0)) ∧
  (∀ rd ra imm, Traps (.recv · rd ra imm) (fun _ => imm ≠ 0) excILLEGAL (fun _ => 0)) ∧
  (∀ rd ra imm, Completes (.trace · rd ra imm) (hazS ra) (fun k => imm.toNat < 4096 ∧ k.traceQ.length < 4) 1
    (fun k => { k with traceQ := k.traceQ ++ [(k.tick, imm.toNat, k.s ra)] }) (fun k => k.pc + 4) [] 0) ∧
  (∀ rd ra imm, Completes (.trace · rd ra imm) (hazS ra) (fun k => imm.toNat < 4096 ∧ 4 ≤ k.traceQ.length) 1
    (fun k => { k with traceDrop := min (k.traceDrop + 1) 0xFFFFFFFF }) (fun k => k.pc + 4) [] 0) ∧
  (∀ rd ra imm, Traps (.trace · rd ra imm) (fun _ => 4096 ≤ imm.toNat) excILLEGAL (fun _ => 0))

/-- WAIT, FWAIT and FENCE complete at once when their condition holds, else hold the core until their wake command (05_flint_instructions Table FLINT-6; 05_flint_instructions R174, R175, R184; 04_gallery_fabric R149). -/
def Obligations.WaitingInstructionsHoldAndWake : Prop :=
  (∀ rd imm, Completes (.wait · rd 0 imm) [] (fun k => 0 < imm.toNat ∧ imm.toNat < 16 ∧ k.waitBits &&& imm.toNat ≠ 0) 1
    (fun k => k.wake rd (k.waitBits &&& imm.toNat)) (fun k => k.pc + 4) [] 0) ∧
  (∀ rd imm, Completes (.wait · rd 0 imm) [] (fun k => 0 < imm.toNat ∧ imm.toNat < 16 ∧ k.waitBits &&& imm.toNat = 0) 1
    (fun k => { k with wait := .wait rd.toNat imm.toNat }) (fun k => k.pc) [] 0) ∧
  (∀ (k : CoreSt) (j : Nat), k.waitBits.testBit j = match j with
    | 0 => !k.held.isEmpty
    | 1 => k.tickev
    | 2 => k.tmrev
    | 3 => k.fetchDone != 0
    | _ => false) ∧
  (∀ (k : CoreSt) (rd : SReg) (b : Nat), k.wake rd b = ({ k with tickev := k.tickev && !b.testBit 1, tmrev := k.tmrev && !b.testBit 2 } : CoreSt).setS rd (BitVec.ofNat 32 b)) ∧
  (∀ (c : CoreId) (s : State) (rd mask : Nat), (s.core c).wait = .wait rd mask → s.coreRuns c = true → (s.core c).waitBits &&& mask ≠ 0 →
    Answers (.waitWake c) s (fun t => OnlyCore s t c ∧
      t.core c = { (s.core c).wake (BitVec.ofNat 5 rd) ((s.core c).waitBits &&& mask) with wait := .none, pc := (s.core c).pc + 4, busy := s.coreCycle c + 2 })) ∧
  (∀ rd ra imm, Completes (.fwait · rd ra imm) [] (fun k => imm.toNat % 16 ≠ 0 ∧ k.fetchDone &&& (imm.toNat % 16) = imm.toNat % 16) 1 id (fun k => k.pc + 4) [] 0) ∧
  (∀ rd ra imm, Completes (.fwait · rd ra imm) [] (fun k => imm.toNat % 16 ≠ 0 ∧ k.fetchDone &&& (imm.toNat % 16) ≠ imm.toNat % 16) 1
    (fun k => { k with wait := .fwait (imm.toNat % 16) }) (fun k => k.pc) [] 0) ∧
  (∀ rd ra imm, Traps (.fwait · rd ra imm) (fun _ => imm.toNat % 16 = 0) excILLEGAL (fun _ => 0)) ∧
  (∀ (c : CoreId) (s : State) (mask : Nat), (s.core c).wait = .fwait mask → s.coreRuns c = true → (s.core c).fetchDone &&& mask = mask →
    Answers (.fwaitDone c) s (fun t => OnlyCore s t c ∧ t.core c = { s.core c with wait := .none, pc := (s.core c).pc + 4, busy := s.coreCycle c + 2 })) ∧
  (∀ rd ra imm, Completes (.fence · rd ra imm) [] (fun k => imm.toNat % 8 ≠ 0 ∧ (imm.toNat.testBit 1 = true → k.fetches = []) ∧ (imm.toNat.testBit 2 = true → k.traceQ = [])) 1
    id (fun k => k.pc + 4) [] 0) ∧
  (∀ rd ra imm, Completes (.fence · rd ra imm) [] (fun k => imm.toNat % 8 ≠ 0 ∧ ((imm.toNat.testBit 1 = true ∧ k.fetches ≠ []) ∨ (imm.toNat.testBit 2 = true ∧ k.traceQ ≠ []))) 1
    (fun k => { k with wait := .fence (imm.toNat % 8) }) (fun k => k.pc) [] 0) ∧
  (∀ rd ra imm, Traps (.fence · rd ra imm) (fun _ => imm.toNat % 8 = 0) excILLEGAL (fun _ => 0)) ∧
  (∀ (c : CoreId) (s : State) (mask : Nat), (s.core c).wait = .fence mask → s.coreRuns c = true →
    (mask.testBit 1 = true → (s.core c).fetches = []) → (mask.testBit 2 = true → (s.core c).traceQ = []) →
    Answers (.fenceDone c) s (fun t => OnlyCore s t c ∧ t.core c = { s.core c with wait := .none, pc := (s.core c).pc + 4, busy := s.coreCycle c }))

/-- A barrier holds its core until every running core of its scope has reached it, or until its timeout raises BARTIMEOUT (05_flint_instructions R176; 05_flint_instructions Table FLINT-6). -/
def Obligations.BarriersReleaseTogetherOrTimeOut : Prop :=
  (∀ rd ra, ∀ imm : Imm16, imm.toNat ≤ 2 → ∀ i s k w, Fetches s i k w → Answers (.barrier i rd ra imm) s (fun t => Retires s t i
    { k with wait := .barrier (if imm = 0 then .sliver else if imm = 1 then .group else .device) (if k.barTimeout = 0 then none else some (s.coreCycle i.core.val + k.barTimeout.toNat)) } k.pc (retireCycle s i [] w 1) [] 0)) ∧
  (∀ rd ra imm, Traps (.barrier · rd ra imm) (fun _ => 2 < imm.toNat) excILLEGAL (fun _ => 0)) ∧
  (∀ (sc : Scope) (region : BitVec 9) (s : State), (∀ c ∈ s.barrierCores sc region.toNat, (s.core c).atBarrier sc = true) →
    Answers (.barrierComplete sc region) s (fun t => t = { s with cores := t.cores } ∧
      ∀ d, t.core d = if d ∈ s.barrierCores sc region.toNat then { s.core d with wait := .none, pc := (s.core d).pc + 4, busy := s.coreCycle d } else s.core d)) ∧
  (∀ (c : CoreId) (s : State) (sc : Scope) (x : Nat), (s.core c).wait = .barrier sc (some x) → s.coreRuns c = true → x ≤ s.cycleNow →
    (∃ d ∈ s.barrierCores sc (s.regionOf sc c), (s.core d).atBarrier sc = false) → (s.core c).excVec ≠ 0 → (s.core c).inHandler = false →
    Answers (.barrierTimeout c) s (fun t => OnlyCore s t c ∧ t.core c = (s.core c).entered excBARTIMEOUT 0 (s.coreCycle c + 3))) ∧
  (∀ (c : CoreId) (s : State) (sc : Scope) (x : Nat), (s.core c).wait = .barrier sc (some x) → s.coreRuns c = true → x ≤ s.cycleNow →
    (∀ d ∈ s.barrierCores sc (s.regionOf sc c), (s.core d).atBarrier sc = true) →
    Answers (.barrierTimeout c) s (fun t => t = { s with cores := t.cores } ∧
      ∀ d, t.core d = if d ∈ s.barrierCores sc (s.regionOf sc c) then { s.core d with wait := .none, pc := (s.core d).pc + 4, busy := s.coreCycle d } else s.core d))

/-- CSRR reads the CSR it names, CSRW and CSRC change the fields the table lets a program change and no other (05_flint_instructions Table FLINT-1; 05_flint_instructions R167, R168; 02_hypervector_algebra R82). -/
def Obligations.ControlRegistersReadAndWrite : Prop :=
  (∀ rd ra imm i s k w v k1, Fetches s i k w → s.csrRead (s.coreCycle i.core.val) k (immLo imm) = some (v, k1) →
    Answers (.csrr i rd ra imm) s (fun t => Retires s t i (k1.setS rd v) (k.pc + 4) (retireCycle s i [] w 1) (hazS rd) 1)) ∧
  (∀ (s : State) (t : Nat) (k : CoreSt), s.csrRead t k 0x02 = some (BitVec.ofNat 32 (t - k.cycleBase), { k with cycleLatch := BitVec.ofNat 32 ((t - k.cycleBase) / 2 ^ 32) }) ∧
    s.csrRead t k 0x03 = some (k.cycleLatch, k) ∧ s.csrRead t k 0x04 = some (BitVec.ofNat 32 k.tick, k) ∧ s.csrRead t k 0x05 = some (BitVec.ofNat 32 (k.tick / 2 ^ 32), k) ∧
    s.csrRead t k 0x06 = some (BitVec.ofNat 32 (t - k.tickCycle), k) ∧ s.csrRead t k 0x07 = some (k.tmr, k) ∧ s.csrRead t k 0x08 = some (k.flags, k) ∧
    s.csrRead t k 0x20 = some (k.excVec, k) ∧ s.csrRead t k 0x21 = some (k.epc, k) ∧ s.csrRead t k 0x22 = some (k.causeWord, k) ∧
    s.csrRead t k 0x23 = some (k.badaddr, k) ∧ s.csrRead t k 0x24 = some (k.scratch, k) ∧
    s.csrRead t k 0x30 = some (BitVec.ofNat 32 k.traceDrop, { k with traceDrop := 0 }) ∧ s.csrRead t k 0x31 = some (0, k)) ∧
  (∀ (s : State) (t : Nat) (k : CoreSt) (n : Nat), (s.csrRead t k n).isSome = isCsr n) ∧
  (∀ rd ra imm, Traps (.csrr · rd ra imm) (fun _ => isCsr (immLo imm) = false) excILLEGAL (fun _ => 0)) ∧
  (∀ rd ra imm, Traps (.csrw · rd ra imm) (fun _ => isCsr (immLo imm) = false) excILLEGAL (fun _ => 0)) ∧
  (∀ rd ra imm, Traps (.csrc · rd ra imm) (fun _ => isCsr (immLo imm) = false) excILLEGAL (fun _ => 0)) ∧
  (∀ rd ra imm i s k w, Fetches s i k w → immLo imm = 0x07 → Answers (.csrw i rd ra imm) s (fun t => Retires s t i
    { k with tmr := k.s ra, tmrDone := decide ((k.s ra).toNat < s.coreCycle i.core.val - k.tickCycle) } (k.pc + 4) (retireCycle s i (hazS ra) w 1) [] 0)) ∧
  (∀ rd ra imm, Completes (.csrw · rd ra imm) (hazS ra) (fun _ => immLo imm = 0x08) 1 (fun k => k.clearFlags (k.s ra)) (fun k => k.pc + 4) [] 0) ∧
  (∀ rd ra imm, Completes (.csrc · rd ra imm) (hazS ra) (fun _ => immLo imm = 0x08) 1 (fun k => k.clearFlags (k.s ra)) (fun k => k.pc + 4) [] 0) ∧
  (∀ rd ra imm, Completes (.csrw · rd ra imm) (hazS ra) (fun k => immLo imm = 0x09 ∧ k.ovfUse = 0) 1
    (fun k => { k with ovfBase := (k.s ra).toNat % 2 ^ 17, ovfNext := 0 }) (fun k => k.pc + 4) [] 0) ∧
  (∀ rd ra imm, Completes (.csrw · rd ra imm) (hazS ra) (fun k => immLo imm = 0x0A ∧ k.ovfUse = 0) 1
    (fun k => { k with ovfSize := (k.s ra).toNat % 1024, ovfNext := 0 }) (fun k => k.pc + 4) [] 0) ∧
  (∀ rd ra imm, Completes (.csrw · rd ra imm) (hazS ra) (fun k => (immLo imm = 0x09 ∨ immLo imm = 0x0A) ∧ 0 < k.ovfUse) 1 id (fun k => k.pc + 4) [] 0) ∧
  (∀ rd ra imm, Completes (.csrw · rd ra imm) (hazS ra) (fun _ => immLo imm = 0x0E) 1 (fun k => { k with barTimeout := k.s ra }) (fun k => k.pc + 4) [] 0) ∧
  (∀ rd ra imm, Completes (.csrw · rd ra imm) (hazS ra) (fun _ => immLo imm = 0x20) 1 (fun k => { k with excVec := k.s ra }) (fun k => k.pc + 4) [] 0) ∧
  (∀ rd ra imm, Completes (.csrw · rd ra imm) (hazS ra) (fun _ => immLo imm = 0x21) 1 (fun k => { k with epc := k.s ra &&& 0xFFFFFFFC#32 }) (fun k => k.pc + 4) [] 0) ∧
  (∀ rd ra imm, Completes (.csrw · rd ra imm) (hazS ra) (fun _ => immLo imm = 0x24) 1 (fun k => { k with scratch := k.s ra }) (fun k => k.pc + 4) [] 0) ∧
  (∀ rd ra imm, Completes (.csrc · rd ra imm) (hazS ra) (fun _ => immLo imm = 0x24) 1 (fun k => { k with scratch := k.scratch &&& ~~~k.s ra }) (fun k => k.pc + 4) [] 0) ∧
  (∀ rd ra imm, Completes (.csrw · rd ra imm) (hazS ra) (fun _ => immLo imm = 0x31) 1
    (fun k => { k with codErr := min (k.codErr + (k.s ra).toNat % 2) 0xFFFFFFFF }) (fun k => k.pc + 4) [] 0) ∧
  (∀ rd ra imm, Completes (.csrw · rd ra imm) (hazS ra)
    (fun _ => immLo imm ≤ 0x06 ∨ (0x0B ≤ immLo imm ∧ immLo imm ≤ 0x0D) ∨ immLo imm = 0x22 ∨ immLo imm = 0x23 ∨ immLo imm = 0x30) 1 id (fun k => k.pc + 4) [] 0)

/-- FETCH, HALT, undefined words, timer matches, tick notices and restarts do to their core what the rules say (05_flint_instructions Table FLINT-6, Table FLINT-8; 05_flint_instructions R167, R169, R178, R179, R181, R182; 04_gallery_fabric R149, R150). -/
def Obligations.FetchHaltAndTheCoreEvents : Prop :=
  (∀ rd ra rb (fn : BitVec 6) i s k w n, Fetches s i k w → fn.toNat < 8 → (k.s rb).toNat % 32 = 0 → k.fwinLo.toNat ≤ (k.s ra).toNat →
    (k.s ra).toNat + (fn.toNat + 1) ≤ k.fwinHi.toNat → (∀ j, j < 32 * (fn.toNat + 1) → k.byteOk ((k.s rb).toNat + j) = true) → k.freeSlot = some n →
    Answers (.fetch i rd ra rb fn) s (fun t => t = { s with cores := t.cores, regs := t.regs, prefetched := t.prefetched } ∧
      (∀ a, (∀ q, q < 32 → a ≠ (F.GAL_PF_HITS_COUNT q).addr) → t.reg a = s.reg a) ∧ (∀ d, d ≠ i.core.val → t.core d = s.core d) ∧
      t.core i.core.val = { k.setS rd (BitVec.ofNat 32 n) with
        fetches := k.fetches ++ [(n, ⟨32 * (k.s ra).toNat, (k.s rb).toNat, 32 * (fn.toNat + 1)⟩)],
        fetchDone := (if k.fetchDone.testBit n then k.fetchDone - 2 ^ n else k.fetchDone), pc := k.pc + 4,
        busy := retireCycle s i (hazS ra ++ hazS rb) w 1, haz := [], hazWait := 0 })) ∧
  (∀ rd ra rb (fn : BitVec 6) i s k w, Fetches s i k w → fn.toNat < 8 → (k.s rb).toNat % 32 = 0 → k.fwinLo.toNat ≤ (k.s ra).toNat →
    (k.s ra).toNat + (fn.toNat + 1) ≤ k.fwinHi.toNat → (∀ j, j < 32 * (fn.toNat + 1) → k.byteOk ((k.s rb).toNat + j) = true) → k.freeSlot = none →
    exec (.fetch i rd ra rb fn) s = .next s) ∧
  (∀ rd ra rb (fn : BitVec 6), Traps (.fetch · rd ra rb fn) (fun _ => 8 ≤ fn.toNat) excILLEGAL (fun _ => 0)) ∧
  (∀ i s k w, Fetches s i k w → Answers (.halt i 0) s (fun t => t = { s with cores := t.cores, streams := t.streams } ∧
    (∀ d, d ≠ i.core.val → t.core d = s.core d) ∧
    t.core i.core.val = { k with finished := true, busy := retireCycle s i [] w 1, haz := [], hazWait := 0 } ∧
    ∀ n, t.stream n = if n ∈ s.sliverStreams (k.logical.getD 0) then { s.stream n with gapNow := true } else s.stream n)) ∧
  (∀ off, Traps (.halt · off) (fun _ => off ≠ 0) excILLEGAL (fun _ => 0)) ∧
  (∀ word, Traps (.illegalInstruction · word) (fun _ => flintLegal word = false) excILLEGAL (fun _ => 0)) ∧
  (∀ (c : CoreId) (s : State), (s.core c).tmr ≠ 0 → (s.core c).tmrDone = false → (s.core c).fenced = false → (s.core c).inReset = false →
    (s.core c).tmr.toNat ≤ s.coreCycle c - (s.core c).tickCycle →
    Answers (.flintTimerMatch c) s (fun t => OnlyCore s t c ∧ t.core c = { s.core c with tmrev := true, tmrDone := true })) ∧
  (∀ (c : CoreId) (s : State), (s.core c).fenced = false → (s.core c).inReset = false →
    Answers (.tickNotice c) s (fun t => OnlyCore s t c ∧ t.core c = { s.core c with tick := s.tick, tickCycle := s.cycleNow, tickev := true, tmrDone := false })) ∧
  (∀ (c : CoreId) (s : State) (l : Nat), (s.core c).faulted = true → (s.core c).fenced = false → (s.core c).logical = some l →
    Answers (.coreRestart c) s (fun t =>
      t = { s with cores := t.cores, streams := t.streams, nets := t.nets, regs := t.regs, chisel := t.chisel } ∧ (∀ d, d ≠ c.val → t.core d = s.core d) ∧
      t.core c = { ((s.core c).resetCore s.cycleNow false).begin_ (s.grp (l / 128)).image (l % s.groupCores) with restartPend := true }))

/-- A misaligned or forbidden access takes MISALIGN or ADDR with its address, and an exception with no handler stops the program (05_flint_instructions Table FLINT-8; 05_flint_instructions R165, R166, R169, R179, R180). -/
def Obligations.MemoryAccessExceptions : Prop :=
  (∀ rd ra imm, Traps (.lw · rd ra imm) (fun k => (k.s ra + imm.signExtend 32).toNat % 4 ≠ 0) excMISALIGN (fun k => k.s ra + imm.signExtend 32)) ∧
  (∀ rd ra imm, Traps (.lh · rd ra imm) (fun k => (k.s ra + imm.signExtend 32).toNat % 2 ≠ 0) excMISALIGN (fun k => k.s ra + imm.signExtend 32)) ∧
  (∀ rd ra imm, Traps (.lhu · rd ra imm) (fun k => (k.s ra + imm.signExtend 32).toNat % 2 ≠ 0) excMISALIGN (fun k => k.s ra + imm.signExtend 32)) ∧
  (∀ rb ra imm, Traps (.sw · rb ra imm) (fun k => (k.s ra + imm.signExtend 32).toNat % 4 ≠ 0) excMISALIGN (fun k => k.s ra + imm.signExtend 32)) ∧
  (∀ rb ra imm, Traps (.sh · rb ra imm) (fun k => (k.s ra + imm.signExtend 32).toNat % 2 ≠ 0) excMISALIGN (fun k => k.s ra + imm.signExtend 32)) ∧
  (∀ vd ra imm, Traps (.vld · vd ra imm) (fun k => k.addrL ra imm 32 % 32 ≠ 0) excMISALIGN (fun k => BitVec.ofNat 32 (k.addrL ra imm 32))) ∧
  (∀ vd ra imm, Traps (.vst · vd ra imm) (fun k => k.addrL ra imm 32 % 32 ≠ 0) excMISALIGN (fun k => BitVec.ofNat 32 (k.addrL ra imm 32))) ∧
  (∀ rd ra imm, Traps (.lb · rd ra imm) (fun k => k.byteOk (k.s ra + imm.signExtend 32).toNat = false) excADDR (fun k => k.s ra + imm.signExtend 32)) ∧
  (∀ rd ra imm, Traps (.lbu · rd ra imm) (fun k => k.byteOk (k.s ra + imm.signExtend 32).toNat = false) excADDR (fun k => k.s ra + imm.signExtend 32)) ∧
  (∀ rb ra imm, Traps (.sb · rb ra imm) (fun k => k.byteOk (k.s ra + imm.signExtend 32).toNat = false) excADDR (fun k => k.s ra + imm.signExtend 32)) ∧
  (∀ rd ra imm, Traps (.lw · rd ra imm) (fun k => (k.s ra + imm.signExtend 32).toNat % 4 = 0 ∧ k.byteOk (k.s ra + imm.signExtend 32).toNat = false) excADDR
    (fun k => k.s ra + imm.signExtend 32)) ∧
  (∀ rb ra imm, Traps (.sw · rb ra imm) (fun k => (k.s ra + imm.signExtend 32).toNat % 4 = 0 ∧ k.byteOk (k.s ra + imm.signExtend 32).toNat = false) excADDR
    (fun k => k.s ra + imm.signExtend 32)) ∧
  (∀ word i s k w, Fetches s i k w → flintLegal word = false → (k.inHandler = true ∨ k.excVec = 0) → s.alarmQ.length < 1024 →
    Answers (.illegalInstruction i word) s (fun t => (t.core i.core.val).finished = true ∧ (t.core i.core.val).epc = k.pc ∧
      (t.core i.core.val).cause = 1 ∧ (t.core i.core.val).inHandler = true ∧ (t.core i.core.val).pc = k.pc ∧ (t.core i.core.val).sram = k.sram ∧
      (t.core i.core.val).sregs = k.sregs ∧ t.aseq = s.aseq + 1 ∧ (∃ rec, t.alarmQ = s.alarmQ ++ [rec] ∧ slotField rec 2 2 = 0x0340 ∧ slotField rec 20 4 = k.pc.toNat) ∧
      (∀ d, d ≠ i.core.val → t.core d = s.core d)))

/-- Each command of an Adit port has the effect its rule gives it: enables and disables, realignment, lanes, rounds and framing errors (03_adit_ingest R90, R91, R92, R93, R96, R97; 03_adit_ingest R98, R123; 03_adit_ingest Table ADIT-19; 16_pins_package_test R538). -/
def Obligations.AditPortCommandsAct : Prop :=
  (∀ (p : Port) (s : State), Reached s 2 → s.lanesSpent p.toNat = false → Answers (.portEnable p) s (fun t =>
    t = { s with regs := t.regs, ports := t.ports } ∧ t.bit (F.ADIT_PORT_CTRL_EN p.toNat) = true ∧ t.fld (F.TEST_PRBS_CTRL_MODE p.toNat) = 0 ∧
    t.port p.toNat = { s.port p.toNat with stopping := false } ∧ (∀ q, q ≠ p.toNat → t.port q = s.port q) ∧
    ∀ a, a ≠ R.ADIT_PORT_CTRL p.toNat → a ≠ (F.TEST_PRBS_CTRL_MODE p.toNat).addr → t.reg a = s.reg a)) ∧
  (∀ (p : Port) (s : State), Reached s 2 → s.lanesSpent p.toNat = true → Answers (.portEnable p) s (fun t => OnlyAlarm s t F.ADIT_ALARM_RATE_REFUSED)) ∧
  (∀ (p : Port) (s : State), Reached s 2 → s.bit (F.ADIT_PORT_CTRL_EN p.toNat) = true → Answers (.portDisable p) s (fun t =>
    t = { s with regs := t.regs, ports := t.ports } ∧ t.bit (F.ADIT_PORT_CTRL_EN p.toNat) = false ∧ t.port p.toNat = { s.port p.toNat with stopping := true } ∧
    (∀ q, q ≠ p.toNat → t.port q = s.port q) ∧ ∀ a, a ≠ R.ADIT_PORT_CTRL p.toNat → t.reg a = s.reg a)) ∧
  (∀ (p : Port) (s : State), (s.port p.toNat).stopping = true →
    exec (.portIntakeStop p) s = .next ((s.setPort p.toNat { s.port p.toNat with stopping := false }).suspendPort p.toNat)) ∧
  (∀ (p : Port) (s : State), Reached s 2 → Answers (.resync p) s (fun t => t = { s with regs := t.regs, ports := t.ports } ∧
    t.bit (F.ADIT_PORT_STATUS_ALIGNED p.toNat) = false ∧ t.bit (F.ADIT_PORT_STATUS_READY p.toNat) = false ∧
    t.port p.toNat = { s.port p.toNat with waitSysref := true, roundSeen := false } ∧ (∀ q, q ≠ p.toNat → t.port q = s.port q) ∧
    ∀ a, a ≠ R.ADIT_PORT_STATUS p.toNat → a ≠ R.ADIT_STATUS → t.reg a = s.reg a)) ∧
  (∀ (p : Port) (l : BitVec 2) (s : State), Reached s 2 → laneMask l.toNat &&& s.fld (F.ADIT_PORT_STATUS_LANE_RETIRED p.toNat) = 0 →
    s.bit (F.ADIT_PORT_CTRL_EN p.toNat) = false → Answers (.lanesWrite p l) s (fun t =>
      OnlyRegs s t [R.ADIT_PORT_CTRL p.toNat, R.ADIT_PORT_STATUS p.toNat, R.ADIT_STATUS] ∧ t.fld (F.ADIT_PORT_CTRL_LANES p.toNat) = l.toNat)) ∧
  (∀ (p : Port) (s : State), s.alive = true → s.powerLevel < 2 → s.bit (F.ADIT_PORT_CTRL_EN p.toNat) = true → laneMask (s.fld (F.ADIT_PORT_CTRL_LANES p.toNat)) ≠ 0 →
    laneMask (s.fld (F.ADIT_PORT_CTRL_LANES p.toNat)) &&& s.fld (F.ADIT_PORT_STATUS_LANE_RETIRED p.toNat) = 0 →
    s.bit (F.ADIT_PORT_STATUS_ALIGNED p.toNat) = false → (s.port p.toNat).waitSysref = false → ∀ b, Answers (.sysrefEdge p b) s (fun t =>
      t = { s with regs := t.regs, ports := t.ports } ∧ t.bit (F.ADIT_PORT_STATUS_ALIGNED p.toNat) = true ∧ t.bit (F.ADIT_PORT_STATUS_SYSREF_CAPTURED p.toNat) = true ∧
      t.port p.toNat = { s.port p.toNat with waitSysref := false, prevRound := none, roundIdx := 0, errs := [], roundSeen := false })) ∧
  (∀ (p : Port) (s : State), s.alive = true → s.powerLevel < 2 → s.bit (F.ADIT_PORT_CTRL_EN p.toNat) = true → laneMask (s.fld (F.ADIT_PORT_CTRL_LANES p.toNat)) ≠ 0 →
    laneMask (s.fld (F.ADIT_PORT_CTRL_LANES p.toNat)) &&& s.fld (F.ADIT_PORT_STATUS_LANE_RETIRED p.toNat) = 0 →
    s.bit (F.ADIT_PORT_STATUS_ALIGNED p.toNat) = true → (s.port p.toNat).waitSysref = false →
    exec (.sysrefEdge p true) s = .next (s.setFld (F.ADIT_PORT_STATUS_LANE_UP p.toNat) (laneMask (s.fld (F.ADIT_PORT_CTRL_LANES p.toNat)))) ∧
    exec (.sysrefEdge p false) s = .next ((((((s.setFld (F.ADIT_PORT_STATUS_LANE_UP p.toNat) (laneMask (s.fld (F.ADIT_PORT_CTRL_LANES p.toNat)))).bump
      (F.ADIT_PORT_SLIP_COUNT p.toNat) 1).alarm F.ADIT_ALARM_SYSREF_SLIP p.toNat).unalign p.toNat).align p.toNat).syncResetPort p.toNat)) ∧
  (∀ (p : Port) (l : BitVec 3) (s : State), s.recentFaults (.aditLane p.toNat l.toNat) < 2 → Answers (.aditLaneFault p l) s (fun t =>
    t = { s with regs := t.regs, ports := t.ports, faults := keepTwo ((.aditLane p.toNat l.toNat, s.uptime) :: s.faults) (.aditLane p.toNat l.toNat) } ∧
    t.bit (F.ADIT_PORT_STATUS_ALIGNED p.toNat) = false ∧ t.bit (F.ADIT_PORT_STATUS_READY p.toNat) = false)) ∧
  (∀ (p : Port) (l : BitVec 3) (s : State), 2 ≤ s.recentFaults (.aditLane p.toNat l.toNat) → Answers (.aditLaneFault p l) s (fun t =>
    t.regBit (R.ADIT_PORT_STATUS p.toNat) (8 + l.toNat) = true ∧ t.regBit (R.ADIT_PORT_STATUS p.toNat) (16 + l.toNat) = false ∧
    t.bit (F.ADIT_PORT_STATUS_READY p.toNat) = false ∧ t.bit F.ADIT_ALARM_LANE_RETIRED = true)) ∧
  (∀ (p : Port) (h : Word64) (x : List (BitVec 24)) (bad : List Nat) (n : Nat) (s : State), s.portOpen p.toNat = true → hdrMark h = 0xAD17 →
    exec (.aditRound p h x bad n) s = .next ((s.bump (F.ADIT_PORT_CRC_COUNT p.toNat) n).takeRound p.toNat h x bad)) ∧
  (∀ (p : Nat) (h : Word64) (x : List (BitVec 24)) (bad : List Nat) (s : State) (r0 : Nat), (s.port p).prevRound = some r0 →
    ((hdrRound h + 2 ^ 24 - r0) % 2 ^ 24 = 0 ∨ 2 ^ 23 ≤ (hdrRound h + 2 ^ 24 - r0) % 2 ^ 24) →
    s.takeRound p h x bad = (s.bump (F.ADIT_PORT_LATE_COUNT p) 1).noteErr p) ∧
  (∀ (p : Port) (h : Word64) (x : List (BitVec 24)) (bad : List Nat) (n : Nat) (s : State), s.portOpen p.toNat = true → hdrMark h ≠ 0xAD17 → hdrMark h ≠ 0xAD00 →
    exec (.aditRound p h x bad n) s = .next ((((s.bump (F.ADIT_PORT_CRC_COUNT p.toNat) n).bump (F.ADIT_PORT_FRAME_COUNT p.toNat) 1).alarm F.ADIT_ALARM_FRAME_ERR p.toNat).noteErr p.toNat)) ∧
  (∀ (p : Port) (h : Word64) (s : State), s.portOpen p.toNat = true → hdrMark h ≠ 0xAD17 → hdrMark h ≠ 0xAD00 →
    exec (.aditIdleUnit p h) s = .next (((s.bump (F.ADIT_PORT_FRAME_COUNT p.toNat) 1).alarm F.ADIT_ALARM_FRAME_ERR p.toNat).noteErr p.toNat)) ∧
  (∀ (p : Port) (h : Word64) (s : State), hdrMark h = 0xAD00 → exec (.aditIdleUnit p h) s = .next s) ∧
  (∀ (p : Port) (s : State), s.ticking = true → s.t0 + s.aditTimeout ≤ s.now → Answers (.aditTickTimeout p) s (fun t =>
    (t.port p.toNat).complete = max (s.port p.toNat).complete ((s.now - s.aditTimeout - s.t0) / s.tickPeriod) ∧
    t = { s with regs := t.regs, ports := t.ports, streams := t.streams, fabric := t.fabric }))

/-- Each command of an Adit stream has the effect its rule gives it: enable, stop, abort, profile change, resume, close, release, context faults (03_adit_ingest R86, R87, R102, R118, R123, R124; 03_adit_ingest R125, R126; 01_window_to_result R32, R33). -/
def Obligations.AditStreamCommandsAct : Prop :=
  (∀ (n : Stream) (cfg : Word) (s : State), Reached s 2 → s.enabled n.toNat = false → (s.stream n.toNat).retired = false →
    (s.setReg (R.ADIT_STREAM_CFG n.toNat) (cfg &&& 0x5FF03FFF#32)).enableBroken n.toNat = false → Answers (.streamEnable n cfg) s (fun t =>
      t = { s with regs := t.regs, streams := t.streams } ∧ t.reg (R.ADIT_STREAM_CFG n.toNat) = putField (cfg &&& 0x5FF03FFF#32) 31 1 1 ∧
      (∀ a, a ≠ R.ADIT_STREAM_CFG n.toNat → t.reg a = s.reg a) ∧ (∀ m, m ≠ n.toNat → t.stream m = s.stream m) ∧ (t.stream n.toNat).stopWin = none ∧
      (t.stream n.toNat).nextWin = none ∧ (t.stream n.toNat).suspended = decide (s.fld F.POWER_STATUS_STATE ≠ 0) ∧ (t.stream n.toNat).events = (s.stream n.toNat).events)) ∧
  (∀ (n : Stream) (cfg : Word) (s : State), Reached s 2 → s.enabled n.toNat = false →
    ((s.stream n.toNat).retired = true ∨ (s.setReg (R.ADIT_STREAM_CFG n.toNat) (cfg &&& 0x5FF03FFF#32)).enableBroken n.toNat = true) →
    Answers (.streamEnable n cfg) s (fun t => OnlyAlarm (s.setReg (R.ADIT_STREAM_CFG n.toNat) (cfg &&& 0x5FF03FFF#32)) t F.ADIT_ALARM_RATE_REFUSED)) ∧
  (∀ (n : Stream) (cfg : Word) (s : State), Reached s 2 → s.enabled n.toNat = true →
    Answers (.streamEnable n cfg) s (fun t => OnlyStream s t n.toNat { s.stream n.toNat with stopWin := none })) ∧
  (∀ (n : Stream) (s : State), Reached s 2 → s.enabled n.toNat = true → (s.stream n.toNat).stopWin = none →
    Answers (.streamStop n) s (fun t => OnlyStream s t n.toNat { s.stream n.toNat with stopWin := some (s.winOf n.toNat s.tick) })) ∧
  (∀ (n : Stream) (s : State) (w nw : Nat), (s.stream n.toNat).stopWin = some w → (s.stream n.toNat).nextWin = some nw → w < nw → s.winEnd n.toNat w ≤ s.tick →
    Answers (.streamStopEffect n) s (fun t => t = { s with regs := t.regs, streams := t.streams } ∧ t.enabled n.toNat = false ∧ (t.stream n.toNat).stopWin = none ∧
      (t.stream n.toNat).events = [] ∧ (t.stream n.toNat).nextWin = none ∧ (∀ m, m ≠ n.toNat → t.stream m = s.stream m) ∧
      ∀ a, a ≠ R.ADIT_STREAM_CFG n.toNat → t.reg a = s.reg a)) ∧
  (∀ (n : Stream) (s : State), Reached s 2 → s.enabled n.toNat = true → Answers (.abort n) s (fun t => t.enabled n.toNat = false ∧ (t.stream n.toNat).events = [] ∧
    (t.stream n.toNat).stopWin = none ∧ (t.stream n.toNat).nextWin = none)) ∧
  (∀ (n : Stream) (p : BitVec 6) (s : State), Reached s 2 → s.enabled n.toNat = true →
    Answers (.profileChange n p) s (fun t => OnlyStream s t n.toNat { s.stream n.toNat with profPend := some (p.toNat, s.winOf n.toNat s.tick) })) ∧
  (∀ (n : Stream) (p : BitVec 6) (s : State), Reached s 2 → s.enabled n.toNat = false →
    Answers (.profileChange n p) s (fun t => OnlyRegs s t [R.ADIT_STREAM_CFG n.toNat] ∧ t.streamProfile n.toNat = p.toNat)) ∧
  (∀ (n : Stream) (s : State) (q w : Nat), (s.stream n.toNat).profPend = some (q, w) → w < s.winOf n.toNat s.tick →
    Answers (.profileChangeEffect n) s (fun t => t = { s with regs := t.regs, streams := t.streams } ∧ t.streamProfile n.toNat = q % 64 ∧
      (t.stream n.toNat).profPend = none ∧ (∀ m, m ≠ n.toNat → t.stream m = s.stream m) ∧ ∀ a, a ≠ R.ADIT_STREAM_CFG n.toNat → t.reg a = s.reg a)) ∧
  (∀ (o : BitVec 17) (v : Word) (s : State), Reached s 2 → o.toNat % 2048 < 1040 →
    (∀ n ∈ s.enabledStreams, s.streamProfile n ≠ o.toNat / 2048 ∨ s.source n = 5) →
    Answers (.profileWrite o v) s (fun t => OnlyRegs s t [0x280000 + 4 * o.toNat] ∧ t.reg (0x280000 + 4 * o.toNat) = v)) ∧
  (∀ (o : BitVec 17) (v : Word) (s : State), Reached s 2 → (∃ n ∈ s.enabledStreams, s.streamProfile n = o.toNat / 2048 ∧ s.source n ≠ 5) →
    Answers (.profileWrite o v) s (fun t => OnlyAlarm s t F.ADIT_ALARM_PROFILE_BUSY)) ∧
  (∀ (n : Stream) (s : State), s.fld F.POWER_STATUS_STATE = 0 → exec (.streamResume n) s = .next (s.resumeStream n.toNat)) ∧
  (∀ (n : Nat) (s : State), (s.stream n).suspended = true →
    (isPortSource (s.source n) = true → s.bit (F.ADIT_PORT_CTRL_EN (s.source n)) = true ∧ s.bit (F.ADIT_PORT_STATUS_READY (s.source n)) = true) →
    s.resumeStream n = { s with streams := (s.resumeStream n).streams } ∧ ((s.resumeStream n).stream n).suspended = false ∧ ((s.resumeStream n).stream n).events = [] ∧
    ((s.resumeStream n).stream n).nextWin = none) ∧
  (∀ (n : Stream) (s : State) (w : Nat), (s.stream n.toNat).nextWin = some w → s.enabled n.toNat = true → (s.stream n.toNat).suspended = false →
    (s.stream n.toNat).retired = false → s.ticking = true → s.fatal = false → s.closeDue n.toNat w = true →
    exec (.aditCloseSend n) s = .next (s.closeWindow n.toNat w)) ∧
  (∀ (n : Stream) (s : State), s.enabled n.toNat = true → isPortSource (s.source n.toNat) = false → s.ticking = true →
    exec (.aditRelease n) s = .next (((s.replayAdvance n.toNat).dropBadNeurons n.toNat ((s.replayAdvance n.toNat).tick + 1 - (s.replayAdvance n.toNat).delay n.toNat)).sendEvents
      n.toNat ((s.replayAdvance n.toNat).tick + 1 - (s.replayAdvance n.toNat).delay n.toNat))) ∧
  (∀ (n bound : Nat) (s : State), s.mapped n = false → ((s.sendEvents n bound).stream n).events = (s.stream n).events.filter (fun e => !decide (e.1 < bound)) ∧
    s.sendEvents n bound = { s with streams := (s.sendEvents n bound).streams }) ∧
  (∀ (n : Stream) (s : State), s.recentFaults (.context ((s.stream n.toNat).ctx.getD n.toNat)) < 2 → Answers (.ctxFault n false true) s (fun t =>
    t = { s with streams := t.streams, faults := t.faults } ∧ (∀ m, m ≠ n.toNat → t.stream m = s.stream m) ∧
    (t.stream n.toNat).chain = (s.stream n.toNat).chain.syncReset (s.chainCfg n.toNat).1 false)) ∧
  (∀ (n : Stream) (i : Bool) (s : State), 0 < s.fld F.ADIT_SPARE_CTX_SPARES → Answers (.ctxFault n true i) s (fun t =>
    t.fld F.ADIT_SPARE_CTX_SPARES = s.fld F.ADIT_SPARE_CTX_SPARES - 1 ∧ (t.stream n.toNat).movePend = some (66560 - s.fld F.ADIT_SPARE_CTX_SPARES, s.winOf n.toNat s.tick) ∧
    t.bit F.ADIT_ALARM_CTX_RETIRED = true ∧ ∀ m, m ≠ n.toNat → t.stream m = s.stream m)) ∧
  (∀ (n : Stream) (i : Bool) (s : State), s.fld F.ADIT_SPARE_CTX_SPARES = 0 → Answers (.ctxFault n true i) s (fun t =>
    (t.stream n.toNat).retired = true ∧ (t.stream n.toNat).events = [] ∧ t.bit F.ADIT_ALARM_STREAM_RETIRED = true)) ∧
  (∀ (n : Stream) (s : State) (c w : Nat), (s.stream n.toNat).movePend = some (c, w) → w < s.winOf n.toNat s.tick → Answers (.ctxMove n) s (fun t =>
    t = { s with streams := t.streams } ∧ (t.stream n.toNat).ctx = some c ∧ (t.stream n.toNat).movePend = none ∧ ∀ m, m ≠ n.toNat → t.stream m = s.stream m))

/-- BUNDLE, FRAME and REPLAY_READ complete their descriptor with the status the rules give, and PLAN divides the replay buffer (03_adit_ingest R99, R100, R103, R105, R119, R121; 13_host_rings R422, R424, R432; 13_host_rings Table HOST-5). -/
def Obligations.HostIngestCompletesItsDescriptors : Prop :=
  (∀ (r : Ring) (i : Word) (pl : List Byte) (ok : Bool) (s : State) (d : Slot), s.takenDesc r.toNat i.toNat 0 = some d → ingestBad d 1 32 65560 = true →
    exec (.bundle r i pl ok) s = .next (s.complete r.toNat i.toNat 0x03 0 0 0)) ∧
  (∀ (r : Ring) (i : Word) (pl : List Byte) (ok : Bool) (s : State) (d : Slot), s.takenDesc r.toNat i.toNat 0 = some d → ingestBad d 1 32 65560 = false →
    s.bit F.ADIT_STATUS_HOST_INGEST_READY = false → exec (.bundle r i pl ok) s = .next (s.complete r.toNat i.toNat 0x0A 0 0 0)) ∧
  (∀ (r : Ring) (i : Word) (pl : List Byte) (s : State) (d : Slot), s.takenDesc r.toNat i.toNat 0 = some d → ingestBad d 1 32 65560 = false →
    s.bit F.ADIT_STATUS_HOST_INGEST_READY = true → exec (.bundle r i pl false) s = .next (s.dmaError.complete r.toNat i.toNat 0x04 0 0 0) ∧
    exec (.bundle r i pl true) s = .next ((s.takeBundle (slotField d 20 2) (slotField d 16 4) pl).2.2.complete r.toNat i.toNat
      (s.takeBundle (slotField d 20 2) (slotField d 16 4) pl).1 0 0 (s.takeBundle (slotField d 20 2) (slotField d 16 4) pl).2.1)) ∧
  (∀ (s : State) (n len : Nat) (pl : List Byte), (sliceLE pl 0 2 ≠ 0x7D01 ∨ (sliceLE pl 2 1 ≠ 2 ∧ sliceLE pl 2 1 ≠ 3) ∨ sliceLE pl 3 1 = 0 ∨ 4 < sliceLE pl 3 1 ∨
    len ≠ 32 + 8 * sliceLE pl 16 2 ∨ 8191 < sliceLE pl 16 2 ∨ (sliceLE pl 2 1 = 3 ∧ crc32 (pl.take 28 ++ [0, 0, 0, 0] ++ pl.drop 32) ≠ sliceLE pl 28 4)) →
    s.takeBundle n len pl = (0x05, 0, s)) ∧
  (∀ (s : State) (n len : Nat) (pl : List Byte), (s.stream n).seq = some (sliceLE pl 24 4) → (s.takeBundle n len pl).1 = 0x06 ∨ (s.takeBundle n len pl).1 = 0x05) ∧
  (∀ (s : State) (n len : Nat) (pl : List Byte), (s.stream n).seq = some (sliceLE pl 24 4) → (s.takeBundle n len pl).2 = (0, s)) ∧
  (∀ (r : Ring) (i : Word) (pl : List Byte) (ok : Bool) (s : State) (d : Slot), s.takenDesc r.toNat i.toNat 0 = some d →
    (ingestBad d 2 32 12320 || !slotZero d 20 22) = true → exec (.frame r i pl ok) s = .next (s.complete r.toNat i.toNat 0x03 0 0 0)) ∧
  (∀ (r : Ring) (i : Word) (pl : List Byte) (s : State) (d : Slot), s.takenDesc r.toNat i.toNat 0 = some d → (ingestBad d 2 32 12320 || !slotZero d 20 22) = false →
    s.bit F.ADIT_STATUS_HOST_INGEST_READY = true → exec (.frame r i pl false) s = .next (s.dmaError.complete r.toNat i.toNat 0x04 0 0 0) ∧
    exec (.frame r i pl true) s = .next ((s.takeFrame (slotField d 16 4) pl).2.2.complete r.toNat i.toNat (s.takeFrame (slotField d 16 4) pl).1 0 0 (s.takeFrame (slotField d 16 4) pl).2.1)) ∧
  (∀ (r : Ring) (i : Word) (o : Nat) (s : State) (d : Slot), s.takenDesc r.toNat i.toNat 0 = some d → slotField d 0 1 ≠ 3 →
    exec (.replayRead r i o) s = .next (s.complete r.toNat i.toNat 0x03 0 0 0)) ∧
  (∀ (r : Ring) (i : Word) (o : Nat) (s : State) (d : Slot), s.takenDesc r.toNat i.toNat 0 = some d → slotField d 0 1 = 3 → slotZero d 1 4 = true → slotZero d 8 20 = true →
    slotZero d 23 24 = true → slotZero d 40 56 = true → s.isExportRing (slotField d 22 1) = true → s.bit F.ADIT_REPLAY_CTRL_PLANNING = true →
    exec (.replayRead r i o) s = .next (s.complete r.toNat i.toNat 0x00 4 0 0)) ∧
  (∀ (r : Ring) (i : Word) (s : State) (d : Slot), s.takenDesc r.toNat i.toNat 0 = some d → slotField d 0 1 = 3 → slotZero d 1 4 = true → slotZero d 8 20 = true →
    slotZero d 23 24 = true → slotZero d 40 56 = true → s.isExportRing (slotField d 22 1) = true → s.bit F.ADIT_REPLAY_CTRL_PLANNING = false →
    (s.stream (slotField d 20 2)).blocks = [] → slotField d 32 8 = 0 → exec (.replayRead r i 0) s = .next (s.complete r.toNat i.toNat 0x00 0 0 0)) ∧
  (∀ (r : Ring) (i : Word) (s : State) (d : Slot) (b : Block), s.takenDesc r.toNat i.toNat 0 = some d → slotField d 0 1 = 3 → slotZero d 1 4 = true → slotZero d 8 20 = true →
    slotZero d 23 24 = true → slotZero d 40 56 = true → s.isExportRing (slotField d 22 1) = true → s.bit F.ADIT_REPLAY_CTRL_PLANNING = false →
    (s.stream (slotField d 20 2)).blocks = [b] → b.ts < slotField d 32 8 → slotField d 24 8 < b.ts + 16 * s.procPeriod (slotField d 20 2) →
    exec (.replayRead r i 0) s = .next (s.exportOut (slotField d 22 1) { ring := r.toNat, idx := i.toNat, tag := slotField d 4 4, bytes := bytesLE 8 b.ts ++ bytesLE 18 b.bytes.toNat ++ [0, 0, 0, 0, 0, 0], cflags := (if b.ts + 16 * s.procPeriod (slotField d 20 2) < slotField d 32 8 then 8 else 0), aux := 0, result := 1 })) ∧
  (∀ s : State, Reached s 2 → Answers .plan s (fun t => t = { s with regs := t.regs, streams := t.streams, planSet := t.planSet } ∧
    t.bit F.ADIT_REPLAY_CTRL_PLANNING = true ∧ t.bit F.ADIT_REPLAY_CTRL_PLANNED = false ∧ t.bit F.ADIT_STATUS_REPLAY_READY = false ∧
    t.planSet = s.enabledStreams.filter (fun n => s.source n ≤ 4) ∧ ∀ n ∈ s.streams.map Prod.fst, (t.stream n).cap = 0 ∧ (t.stream n).blocks = [])) ∧
  (∀ s : State, s.bit F.ADIT_REPLAY_CTRL_PLANNING = true → Answers .planDone s (fun t => t = { s with regs := t.regs, streams := t.streams, planSet := [] } ∧
    t.bit F.ADIT_REPLAY_CTRL_PLANNING = false ∧ t.bit F.ADIT_REPLAY_CTRL_PLANNED = true ∧ t.bit F.ADIT_STATUS_REPLAY_READY = s.power.hbm ∧
    ∀ n ∈ s.planSet, ((t.stream n).blocks = (s.stream n).blocks)))

/-- Each core group command is taken in the states it is legal in, with the effect its rule gives it, and refused with CMD_REFUSED elsewhere (04_gallery_fabric R151; 05_flint_instructions R186, R188; 04_gallery_fabric Table GAL-8, Table GAL-16; 15_power_health R479, R498). -/
def Obligations.GroupCommandsChangeTheirCoreGroup : Prop :=
  (∀ (g : Group) (s : State), Reached s 3 → s.power.quiet = false → s.groupState g.toNat = 4 → (s.grp g.toNat).pend = none →
    exec (.stop g) s = .next (((s.groupStreams g.toNat).filter (fun n => !(s.enabled n && (s.stream n).nextWin.isSome))).foldl
      (fun a n => a.setBit (F.GAL_STREAM_MAP_PARKED n) true) (s.setGroupState g.toNat 5))) ∧
  (∀ (g st : Nat) (s : State), g < 64 → st < 8 → (s.setGroupState g st).groupState g = st ∧
    (s.setGroupState g st).regBit (if g < 32 then R.GAL_GROUP_READY_LO else R.GAL_GROUP_READY_HI) (g % 32) = (decide (2 ≤ st) && decide (st ≤ 6)) ∧
    OnlyRegs s (s.setGroupState g st) [R.GAL_GROUP_STATUS g, R.GAL_GROUP_READY_LO, R.GAL_GROUP_READY_HI]) ∧
  (∀ (g : Group) (s : State), Reached s 3 → s.power.quiet = false → s.bit (F.GAL_GROUP_STATUS_LOADED g.toNat) = true → s.groupState g.toNat = 2 → (s.grp g.toNat).pend = none →
    Answers (.start g) s (fun t => OnlyGroup s t g.toNat { s.grp g.toNat with pend := some 2 })) ∧
  (∀ (g : Group) (s : State), Reached s 3 → s.power.quiet = false → s.groupState g.toNat = 4 → (s.grp g.toNat).pend = none →
    Answers (.freeze g) s (fun t => OnlyGroup s t g.toNat { s.grp g.toNat with pend := some 5 })) ∧
  (∀ (g : Group) (s : State), Reached s 3 → s.power.quiet = false → s.groupState g.toNat = 6 → (s.grp g.toNat).pend = none →
    Answers (.thaw g) s (fun t => OnlyGroup s t g.toNat { s.grp g.toNat with pend := some 6 })) ∧
  (∀ (g : Group) (s : State), Reached s 3 → s.power.quiet = false → (s.groupState g.toNat = 2 ∨ s.groupState g.toNat = 6) → (s.grp g.toNat).pend = none →
    exec (.reset g) s = .next (s.toTest g.toNat)) ∧
  (∀ (g : Group) (s : State), Reached s 3 → s.power.quiet = false → s.groupState g.toNat = 2 → (s.grp g.toNat).pend = none →
    exec (.selftest g) s = .next (s.toTest g.toNat)) ∧
  (∀ (g : Group) (s : State), (s.toTest g.toNat).groupState g.toNat = 0 ∧ (s.toTest g.toNat).bit (F.GAL_GROUP_STATUS_LOADED g.toNat) = false ∧
    (s.toTest g.toNat).grp g.toNat = { s.grp g.toNat with halting := false, image := [], nets := [] } ∧
    ∀ c, (s.toTest g.toNat).core c = if c ∈ groupCoresAt g.toNat then (s.core c).resetCore s.cycleNow true else s.core c) ∧
  (∀ (g : Group) (s : State), Reached s 3 → (s.power.quiet = true ∨ (s.grp g.toNat).pend ≠ none) → ∀ i ∈ [Instr.stop g, .start g, .reset g, .selftest g, .freeze g, .thaw g],
    Answers i s (fun t => OnlyAlarm s t F.GAL_ALARM_CMD_REFUSED)) ∧
  (∀ (g : Group) (s : State), Reached s 3 →
    (s.groupState g.toNat ≠ 4 → Answers (.stop g) s (fun t => OnlyAlarm s t F.GAL_ALARM_CMD_REFUSED) ∧ Answers (.freeze g) s (fun t => OnlyAlarm s t F.GAL_ALARM_CMD_REFUSED)) ∧
    (s.groupState g.toNat ≠ 6 → Answers (.thaw g) s (fun t => OnlyAlarm s t F.GAL_ALARM_CMD_REFUSED)) ∧
    (s.groupState g.toNat ≠ 2 → Answers (.selftest g) s (fun t => OnlyAlarm s t F.GAL_ALARM_CMD_REFUSED) ∧ Answers (.start g) s (fun t => OnlyAlarm s t F.GAL_ALARM_CMD_REFUSED)) ∧
    (s.bit (F.GAL_GROUP_STATUS_LOADED g.toNat) = false → Answers (.start g) s (fun t => OnlyAlarm s t F.GAL_ALARM_CMD_REFUSED)) ∧
    (s.groupState g.toNat ≠ 2 → s.groupState g.toNat ≠ 6 → Answers (.reset g) s (fun t => OnlyAlarm s t F.GAL_ALARM_CMD_REFUSED))) ∧
  (∀ (g : Group) (s : State), s.groupState g.toNat = 5 → (∀ n ∈ s.groupStreams g.toNat, s.bit (F.GAL_STREAM_MAP_PARKED n) = true) →
    exec (.stoppingDone g) s = .next ((s.setGroupState g.toNat 2).setGrp g.toNat { s.grp g.toNat with halting := true })) ∧
  (∀ (g : Group) (s : State), (s.grp g.toNat).pend = some 2 → Answers (.groupCmdEffect g) s (fun t =>
    ∃ a : State, a = (List.range 128).foldl (fun a i => a.startCore (a.physOf (128 * g.toNat + i)))
        ((s.setGroupState g.toNat 4).setGrp g.toNat { s.grp g.toNat with pend := none, halting := false }) ∧
      t = (a.groupStreams g.toNat).foldl (fun a n => a.unparkLater n true) a)) ∧
  (∀ (g : Group) (s : State), (s.grp g.toNat).pend = some 5 → Answers (.groupCmdEffect g) s (fun t =>
    ∃ a : State, a = (s.groupStreams g.toNat).foldl (fun a n => (a.skipOpen n 5).setBit (F.GAL_STREAM_MAP_PARKED n) true) s ∧
      t = (a.setGroupState g.toNat 6).setGrp g.toNat { a.grp g.toNat with pend := none })) ∧
  (∀ (g : Group) (s : State), (s.grp g.toNat).pend = some 6 → s.bit F.CHISEL_STATUS_READY = false → Answers (.groupCmdEffect g) s (fun t =>
    ∃ a : State, a = (s.setGroupState g.toNat 4).setGrp g.toNat { s.grp g.toNat with pend := none } ∧
      t = (a.groupStreams g.toNat).foldl (fun a n => a.unparkLater n false) a)) ∧
  (∀ (g : Group) (failed : List (BitVec 8)) (s : State), s.groupState g.toNat = 0 →
    exec (.selftestDone g failed true) s = .next ((s.setGroupState g.toNat 1).deviceFault 5 g.toNat)) ∧
  (∀ (g : Group) (s : State), s.groupState g.toNat = 0 → Answers (.selftestDone g [] false) s (fun t => t.groupState g.toNat = 2 ∧
    ∀ c, t.core c = if c ∈ groupCoresAt g.toNat then { s.core c with inReset := false } else s.core c)) ∧
  (∀ (g : Group) (p : BitVec 8) (s : State), s.groupState g.toNat = 0 → p.toNat < 132 → Answers (.selftestDone g [p] false) s (fun t =>
    (t.core (coreAt g.toNat p.toNat)).fenced = true)) ∧
  (∀ (g : Group) (s : State) (img : List Byte) (nets : List NetDef), (s.grp g.toNat).loading = some (img, nets) → s.groupState g.toNat = 3 → s.lantern.load = none →
    Answers (.loadComplete g) s (fun t => ∃ a : State,
      a = ((s.setGroupState g.toNat 2).setBit (F.GAL_GROUP_STATUS_LOADED g.toNat) true).setGrp g.toNat { s.grp g.toNat with loading := none, image := img, nets := nets, halting := false } ∧
      t = (List.range 128).foldl (fun a i => a.loadCore (a.physOf (128 * g.toNat + i))) a))

/-- Messages eject in order or are dropped, fetch replies land, the stream map and D change as the rules say, spares replace fenced cores, snapshots read (04_gallery_fabric R142, R143, R146, R149, R152, R153; 04_gallery_fabric R154, R155, R156, R157, R160; 04_gallery_fabric Table GAL-5; 13_host_rings R443). -/
def Obligations.FabricMessagesStreamMapAndSpares : Prop :=
  (∀ (m : Msg) (s : State) (l : Nat), s.oldest m = true → endpoint m.dest.toNat = .core l →
    exec (.msgEject m) s = .next (State.arrive { s with fabric := dropFirst m s.fabric } (s.physOf l) m)) ∧
  (∀ (m : Msg) (s : State), s.oldest m = false → exec (.msgEject m) s = .next s) ∧
  (∀ (c : Nat) (m : Msg) (s : State), s.coreTakes c = true → (s.core c).portQ = [] → (s.core c).hasPlace = true → s.arrive c m = s.setCore c ((s.core c).place m)) ∧
  (∀ (c : Nat) (m : Msg) (s : State), s.coreTakes c = true → (s.core c).hasPlace = false →
    s.arrive c m = s.setCore c { s.core c with portQ := (s.core c).portQ ++ [(s.now, m)], ejwait := sat32 ((s.core c).ejwait + 1) }) ∧
  (∀ (c : Nat) (m : Msg) (s : State), s.coreTakes c = false →
    s.arrive c m = (s.setCore c { s.core c with sunk := sat32 ((s.core c).sunk + 1) }).bump64 R.GAL_TOTAL_SUNK_LO 1) ∧
  (∀ (c : CoreId) (s : State) (x : Nat) (m : Msg), (s.core c.val).portQ = [(x, m)] → x + s.ejectWait ≤ s.now → Answers (.ejectWaitExpiry c) s (fun t =>
    t.core c.val = { s.core c.val with portQ := [], drop := sat32 ((s.core c.val).drop + 1), loss := true } ∧ (∀ d, d ≠ c.val → t.core d = s.core d) ∧
    t.bit F.GAL_ALARM_EVENT_DROP = true ∧ t.fabric = s.fabric ∧ t.streams = s.streams)) ∧
  (∀ (c : CoreId) (k : BitVec 2) (s : State) (e : Nat) (f : FetchReq), (s.core c.val).fetches.find? (fun f => f.1 == k.toNat) = some (e, f) → (s.core c.val).fenced = false →
    s.hbmUninit f.hbm f.len = false → Answers (.fetchReply c k) s (fun t =>
      OnlyCore s t c.val ∧ t.core c.val = CoreSt.store { s.core c.val with fetches := (s.core c.val).fetches.filter (fun g => g.1 != k.toNat), fetchDone := (s.core c.val).fetchDone ||| 2 ^ k.toNat } f.land (s.hbmBytes f.hbm f.len))) ∧
  (∀ (c : CoreId) (k : BitVec 2) (s : State) (e : Nat) (f : FetchReq), (s.core c.val).fetches.find? (fun f => f.1 == k.toNat) = some (e, f) → (s.core c.val).fenced = true →
    exec (.fetchReply c k) s = .next ((s.setCore c.val { s.core c.val with fetches := (s.core c.val).fetches.filter (fun g => g.1 != k.toNat), sunk := sat32 ((s.core c.val).sunk + 1) }).bump64 R.GAL_TOTAL_SUNK_LO 1)) ∧
  (∀ (n : Stream) (v : Word) (s : State), Reached s 3 → s.mapFits v = false → Answers (.streamMapWrite n v) s (fun t => OnlyAlarm s t F.GAL_ALARM_CMD_REFUSED)) ∧
  (∀ (n : Stream) (v : Word) (s : State), Reached s 3 → s.mapFits v = true → s.enabled n.toNat = true → Answers (.streamMapWrite n v) s (fun t =>
    t = { s with regs := t.regs, streams := t.streams } ∧ t.bit (F.GAL_STREAM_MAP_PENDING n.toNat) = true ∧ (∀ a, a ≠ R.GAL_STREAM_MAP n.toNat → t.reg a = s.reg a) ∧
    t.stream n.toNat = { s.stream n.toNat with mapPend := some (v, s.winOf n.toNat s.tick) } ∧ ∀ m, m ≠ n.toNat → t.stream m = s.stream m)) ∧
  (∀ (n : Stream) (v : Word) (s : State), Reached s 3 → s.mapFits v = true → s.enabled n.toNat = false → exec (.streamMapWrite n v) s = .next (s.applyMap n.toNat v none)) ∧
  (∀ (n : Stream) (s : State) (v : Word) (w nw : Nat), (s.stream n.toNat).mapPend = some (v, w) → (s.stream n.toNat).nextWin = some nw → w < nw → s.winStart n.toNat nw ≤ s.tick →
    exec (.streamMapEffect n) s = .next (s.applyMap n.toNat v (some (s.winStart n.toNat nw)))) ∧
  (∀ (n : Nat) (v : Word) (f : Option Nat) (s : State), v.getLsbD 31 = false →
    s.applyMap n v f = (s.setReg (R.GAL_STREAM_MAP n) (v &&& 0x81FF007F#32)).setStream n { s.stream n with mapPend := none }) ∧
  (∀ (what : GalCfg) (s : State), Reached s 3 → (s.librariesEmpty = false ∨ ∃ g, g < 64 ∧ 3 ≤ s.groupState g) → Answers (.galCfgWrite what) s (fun t => OnlyAlarm s t F.GAL_ALARM_CFG_BUSY)) ∧
  (∀ (v : BitVec 2) (s : State), Reached s 3 → s.librariesEmpty = true → (∀ g, g < 64 → s.groupState g < 3) → s.fld F.GAL_CFG_DSEL ≠ v.toNat →
    exec (.galCfgWrite (.dsel v)) s = .next ((s.setFld F.GAL_CFG_DSEL v.toNat).trimMaps.discardPrograms)) ∧
  (∀ (v : Word64) (s : State), Reached s 3 → s.librariesEmpty = true → (∀ g, g < 64 → s.groupState g < 3) → s.seed ≠ v →
    exec (.galCfgWrite (.seed v)) s = .next ((s.set64 R.GAL_SEED_LO v.toNat).discardPrograms)) ∧
  (∀ s : State, ∀ g, g < 64 → s.discardPrograms.bit (F.GAL_GROUP_STATUS_LOADED g) = false ∧ (s.discardPrograms.grp g).image = [] ∧ (s.discardPrograms.grp g).nets = []) ∧
  (∀ (c : CoreId) (b : Bool) (s : State) (l p : Nat), (s.core c.val).fenced = true → (s.core c.val).logical = some l → s.spareOf (l / 128) = some p →
    exec (.spareSubstitute c b) s = .next (s.substitute c.val p l b)) ∧
  (∀ (c : CoreId) (b : Bool) (s : State) (l p : Nat), (s.core c.val).fenced = true → (s.core c.val).logical = some l → s.spareOf (l / 128) = none →
    (neighbours (l / 128)).findSome? s.spareOf = some p → exec (.spareSubstitute c b) s = .next ((s.alarm F.GAL_ALARM_SPARE_BORROWED l).substitute c.val p l b)) ∧
  (∀ (c : CoreId) (s : State) (l : Nat), (s.core c.val).fenced = true → (s.core c.val).logical = some l → s.spareOf (l / 128) = none →
    (neighbours (l / 128)).findSome? s.spareOf = none → Answers (.spareSubstitute c true) s (fun t => OnlyAlarm s t F.GAL_ALARM_NO_SPARE)) ∧
  (∀ (c : CoreId) (s : State), (s.core c.val).startPend = true → (s.core c.val).fenced = false → Answers (.spareStart c) s (fun t =>
    t = { s with cores := t.cores, streams := t.streams } ∧ t.core c.val = { s.core c.val with startPend := false, started := true } ∧ ∀ d, d ≠ c.val → t.core d = s.core d)) ∧
  (∀ (l : List CoreId) (s : State), exec (.snapshot l) s = .next ((l.filter (fun c => s.coreRuns c.val)).foldl (fun a c => a.snapCore c.val) s)) ∧
  (∀ (c : Nat) (s : State), ((s.core c).snapRanges.map (fun r => (s.core c).unwritten r.1 r.2)).sum = 0 →
    s.snapCore c = s.setCore c { s.core c with snapBuf := (s.core c).snapRanges.flatMap (fun r => (s.core c).bytes r.1 r.2), snapTick := some s.tick })

/-- Home cores take their spikes, process a tick when it is due, encode broadcast records, and apply an epoch notice once (06_spiking_execution R197, R198, R201, R214; 02_hypervector_algebra R76, R77; 12_chisel_learning R395; 04_gallery_fabric Table GAL-4). -/
def Obligations.HomeCoresRunTheirNetworks : Prop :=
  (∀ (n : Stream) (s : State) (e : Bool × Msg), (s.core (s.homeCore n.toNat)).held.find? (spikesOf n.toNat) = some e → s.coreRuns (s.homeCore n.toNat) = true →
    exec (.aditSpikes n) s = .next ((s.setCore (s.homeCore n.toNat) (CoreSt.drain { s.core (s.homeCore n.toNat) with
      held := dropFirst e (s.core (s.homeCore n.toNat)).held, recvd := sat32 ((s.core (s.homeCore n.toNat)).recvd + 1) } (s.core (s.homeCore n.toNat)).portQ)).took (s.homeCore n.toNat) e.2)) ∧
  (∀ (n : Stream) (s : State), (s.core (s.homeCore n.toNat)).held.find? (spikesOf n.toNat) = none → exec (.aditSpikes n) s = .next s) ∧
  (∀ (n : Stream) (s : State) (d : NetDef) (t : Nat), (s.net n.toNat).net = some d → (s.net n.toNat).next = some t → s.coreRuns (s.homeCore n.toNat) = true → s.mapped n.toNat = true →
    s.ticking = true → 8 * s.tickStart (t + s.delay n.toNat + 1) + d.tproc.toNat ≤ s.cycleNow →
    exec (.tprocExpiry n) s = .next ((s.setNet n.toNat { s.net n.toNat with first := some ((s.net n.toNat).first.getD t), next := some t }).processTick n.toNat t)) ∧
  (∀ (n : Stream) (s : State) (d : NetDef) (t : Nat), (s.net n.toNat).net = some d → (s.net n.toNat).next = some t → s.cycleNow < 8 * s.tickStart (t + s.delay n.toNat + 1) + d.tproc.toNat →
    exec (.tprocExpiry n) s = .next s) ∧
  (∀ (n : Stream) (s : State) (b : Broadcast) (r : List Broadcast), (s.net n.toNat).outbox = b :: r →
    exec (.sliverEncode n) s = .next ((List.range s.groupCores).foldl (fun a j => a.encodeCore n.toNat b j) (s.setNet n.toNat { s.net n.toNat with outbox := r }))) ∧
  (∀ (n j : Nat) (b : Broadcast) (s : State), (s.sliverMissing (s.sgroup n * s.groupCores + j) = true ∨ s.coreRuns (s.physOf (s.sgroup n * s.groupCores + j)) = false) → s.encodeCore n b j = s) ∧
  (∀ (n j c : Nat) (b : Broadcast) (s : State) (x : List (Nat × Int)) (sat : Bool), s.sliverMissing (s.sgroup n * s.groupCores + j) = false → s.physOf (s.sgroup n * s.groupCores + j) = c →
    s.coreRuns c = true → encodeSliver s.seed (s.bin n) j b.spikes = (x, sat) → s.encodeCore n b j =
      (s.setCore c { s.core c with loss := false }).sendFrom c (0x2000 + coreX c) 0xF10
        [sliverWord n j (popc (binariseTally x (tieSliver s.seed j))) sat ((s.core c).loss || (b.loss && s.sgroup n * s.groupCores + j == s.homeLogical n)) (tallyZero x), BitVec.ofNat 64 b.start,
         (binariseTally x (tieSliver s.seed j)).extractLsb' 0 64, (binariseTally x (tieSliver s.seed j)).extractLsb' 64 64,
         (binariseTally x (tieSliver s.seed j)).extractLsb' 128 64, (binariseTally x (tieSliver s.seed j)).extractLsb' 192 64]) ∧
  (∀ (c : CoreId) (s : State), s.coreRuns c.val = true → exec (.epochHandshake c) s = .next (s.handshake c.val)) ∧
  (∀ (c : Nat) (s : State) (e : EpochCfg), (s.core c).notice = some e → e.number = (s.core c).epoch.number → s.handshake c = s.setCore c { s.core c with notice := none }) ∧
  (∀ (c : Nat) (s : State), (s.core c).notice = none → s.handshake c = s)

/-- A tile pass latches, converts within its range, is checked and repeated up to three times; lost links and due calibrations act as the rules say (07_seam_arrays R224, R225, R226, R227, R229, R240; 07_seam_arrays R247, R248; 08_seam_upkeep R264, R260, R262, R272; 01_window_to_result R30, R38, R39). -/
def Obligations.TilePassesConvertCheckAndRetry : Prop :=
  (∀ (k : Die) (j : BitVec 13) (tag : Word) (r : BitVec 5) (pat : List RefRead) (s : State) (e : Eval) (q : PassJob),
    s.waitingEval k.toNat j.toNat tag.toNat r.toNat = some e →
    s.dieReady k.toNat = true → e.waitingJob r.toNat = some q → rowsDriven (passInput e.input e.kind q) = 0 →
    exec (.tilePassStart k j tag r pat) s = .next (s.setEval k.toNat e { e with passes := e.passes.map (fun y => if y = q then { q with st := .done (List.replicate 1024 0) 0 0 0 } else y) })) ∧
  (∀ (k : Die) (j : BitVec 13) (tag : Word) (r : BitVec 5) (pat : List RefRead) (s : State) (e : Eval) (q : PassJob) (p : Nat),
    s.waitingEval k.toNat j.toNat tag.toNat r.toNat = some e →
    s.dieReady k.toNat = true → e.waitingJob r.toNat = some q → rowsDriven (passInput e.input e.kind q) ≠ 0 →
    s.passRunning k.toNat j.toNat q.tile = false →
    s.slotFree k.toNat e.cls = true → s.physTile k.toNat (j.toNat * (s.dim / 1024) + q.tile) = p → Answers (.tilePassStart k j tag r pat) s (fun t => ∃ a : State,
      a = (if s.calCurrent k.toNat p then s else s.recalibrate k.toNat p pat) ∧
      t = (a.takeSlots k.toNat 1 false).setEval k.toNat e { e with passes := e.passes.map (fun y => if y = q then { q with st := .running { phys := p, tile := a.tileSt k.toNat p, input := passInput e.input e.kind q } } else y) })) ∧
  (∀ (k : Die) (j : BitVec 13) (tag : Word) (r : BitVec 5) (noise : List (BitVec 11 × Int)) (s : State) (e : Eval) (q : PassJob) (l : Latch) (put : State → PassSt → Nat → State),
    s.runningEval k.toNat j.toNat tag.toNat r.toNat = some e →
    e.runningJob r.toNat = some q → q.st = .running l →
    put = (fun a st n => a.setEval k.toNat e { e with retries := min 255 (e.retries + n), passes := e.passes.map (fun y => if y = q then { q with st := st } else y) }) →
    Answers (.tilePassComplete k j tag r noise) s (fun t => ∃ a : State,
      a = (s.bump64 (R.SEAM_EVALS_LO k.toNat) 1).bump (F.SEAM_TRUNC_COUNT k.toNat) (if passTrunc (fullRange l.tile.levels l.input.sum) = 0 then 0 else 1) ∧
      (s.checkPasses k.toNat l noise = false → l.tries < 3 → t = put (a.bump (F.SEAM_RETRY_COUNT k.toNat) 1) (.running { l with tries := l.tries + 1 }) 1) ∧
      (s.checkPasses k.toNat l noise = false → 3 ≤ l.tries → t = put (((((a.bump (F.SEAM_CHECK_FAIL_COUNT k.toNat) 1).alarm (F.SEAM_ALARM_CHECK_FAIL k.toNat) l.phys).tileFault k.toNat l.phys false)).giveSlots k.toNat 1 false) .withheld 0) ∧
      (s.checkPasses k.toNat l noise = true → t = put ((a.setTile k.toNat l.phys ((a.tileSt k.toNat l.phys).accumulate (refCols.map (fun c => (s.columnRaw k.toNat l noise c : Int)))
        ((refExact l.tile.levels l.input).map Int.ofNat))).giveSlots k.toNat 1 false)
        (.done (s.passCounts k.toNat l q.digits noise) l.input.sum (passTrunc (fullRange l.tile.levels l.input.sum)) (corrections l)) 0))) ∧
  (∀ (q : Int) (b t : Nat), converted q b t < 2 ^ b) ∧
  (∀ (g : Nat) (o : Int) (t raw S : Nat), 0 ≤ calibrated g o t raw S ∧ calibrated g o t raw S ≤ S) ∧
  (∀ S : Nat, passBits S ≤ 12 ∧ (S < 4096 → passTrunc S = 0)) ∧
  (∀ (k : Die) (l : BitVec 1) (s : State), Answers (.shaftLinkDown k l) s (fun t => t.regBit (R.SEAM_STATUS k.toNat) (28 + l.toNat) = false ∧
    (t.fld (F.SEAM_STATUS_SHAFT_UP k.toNat) = 0 → t.fld (F.SEAM_STATUS_DIE_READY k.toNat) = 0) ∧
    t = { s with regs := t.regs, seam := t.seam } ∧ ∀ a, a ≠ R.SEAM_STATUS k.toNat → t.reg a = s.reg a)) ∧
  (∀ (k : Die) (l : BitVec 1) (s : State), Answers (.shaftLinkRetire k l) s (fun t => t.regBit (R.SEAM_STATUS k.toNat) (28 + l.toNat) = false ∧
    t.regBit (R.SEAM_STATUS k.toNat) (26 + l.toNat) = true ∧ (t.fld (F.SEAM_STATUS_SHAFT_UP k.toNat) = 0 → t.fld (F.SEAM_STATUS_DIE_READY k.toNat) = 0) ∧
    t = { s with regs := t.regs, seam := t.seam } ∧ ∀ a, a ≠ R.SEAM_STATUS k.toNat → t.reg a = s.reg a)) ∧
  (∀ (k : Die) (l : BitVec 15) (pat : List RefRead) (s : State), s.dieReady k.toNat = true → (s.tileSt k.toNat (s.physTile k.toNat l.toNat)).calAt = none →
    exec (.recalibrationDue k l pat) s = .next (s.recalibrate k.toNat (s.physTile k.toNat l.toNat) pat)) ∧
  (∀ (k : Die) (l : BitVec 15) (pat : List RefRead) (s : State) (x : Nat) (c : Int), s.dieReady k.toNat = true → (s.tileSt k.toNat (s.physTile k.toNat l.toNat)).calAt = some (x, c) →
    x + s.fld (F.SEAM_PLAN_TIME_RECAL_MS k.toNat) ≤ s.uptime → exec (.recalibrationDue k l pat) s = .next (s.recalibrate k.toNat (s.physTile k.toNat l.toNat) pat)) ∧
  (∀ (k p : Nat) (pat : List RefRead) (s : State), ((s.recalibrate k p pat).tileSt k p).calAt = some (s.uptime, (s.die k).temp)) ∧
  (∀ (k : Die) (p : BitVec 16) (cells : List CellRead) (fits : List ColFit) (w : Bool) (s : State), s.dieReady k.toNat = true → p.toNat < physTiles → s.tileRole k.toNat p.toNat ≠ 3 →
    Answers (.fullCalibration k p cells fits w) s (fun t => ∃ a : State, a = s.afterCalibration k.toNat p.toNat cells fits w ∧
      t = a.setDie k.toNat { a.die k.toNat with calDue := (a.die k.toNat).calDue.filter (fun l => s.physTile k.toNat l != p.toNat) }))

/-- Bench commands, die bring-up, bench checks, batches, program loops, refresh, fills, swaps, replacements and moves act as their rules say (07_seam_arrays Table SEAM-8; 07_seam_arrays R239, R251, R252, R255; 08_seam_upkeep R268, R269, R270, R271, R272, R276; 08_seam_upkeep R277, R282; 01_window_to_result R50). -/
def Obligations.BenchesMoveBetweenTheirStatesAndBatchesRun : Prop :=
  (∀ (k : Die) (s : State), Reached s 4 → s.selBench k.toNat < s.perDie → (s.benchSt k.toNat (s.selBench k.toNat)).state = .ready →
    (s.die k.toNat).batches.any (fun b => b.bench == some (s.selBench k.toNat) && b.started) = false → Answers (.offline k) s (fun t =>
      (t.benchSt k.toNat (s.selBench k.toNat)).state = .offline ∧ t = { s with regs := t.regs, seam := t.seam })) ∧
  (∀ (k : Die) (s : State), Reached s 4 → s.selBench k.toNat < s.perDie → (s.benchSt k.toNat (s.selBench k.toNat)).state = .ready →
    (s.die k.toNat).batches.any (fun b => b.bench == some (s.selBench k.toNat) && b.started) = true →
    exec (.offline k) s = .next (s.putBench k.toNat (s.selBench k.toNat) { s.benchSt k.toNat (s.selBench k.toNat) with offlinePend := true })) ∧
  (∀ (k : Die) (s : State), Reached s 4 → s.selBench k.toNat < s.perDie → (s.benchSt k.toNat (s.selBench k.toNat)).state = .offline →
    (∀ p ∈ s.benchPhys k.toNat (s.selBench k.toNat), s.calCurrent k.toNat p = true) → Answers (.online k) s (fun t =>
      (t.benchSt k.toNat (s.selBench k.toNat)).state = .ready ∧ t = { s with regs := t.regs, seam := t.seam })) ∧
  (∀ (k : Die) (s : State), Reached s 4 → s.selBench k.toNat < s.perDie → (s.benchSt k.toNat (s.selBench k.toNat)).state = .offline → Answers (.check k) s (fun t =>
      (t.benchSt k.toNat (s.selBench k.toNat)).state = .checking ∧ (t.benchSt k.toNat (s.selBench k.toNat)).check = none ∧ t = { s with regs := t.regs, seam := t.seam })) ∧
  (∀ (k : Die) (s : State), Reached s 4 → ((s.perDie ≤ s.selBench k.toNat ∨ (s.benchSt k.toNat (s.selBench k.toNat)).state ≠ .ready) → Answers (.offline k) s (fun t => OnlyAlarm s t (F.SEAM_ALARM_CMD_REFUSED k.toNat))) ∧
    ((s.perDie ≤ s.selBench k.toNat ∨ (s.benchSt k.toNat (s.selBench k.toNat)).state ≠ .offline) → Answers (.check k) s (fun t => OnlyAlarm s t (F.SEAM_ALARM_CMD_REFUSED k.toNat)) ∧
      Answers (.online k) s (fun t => OnlyAlarm s t (F.SEAM_ALARM_CMD_REFUSED k.toNat))) ∧
    ((∃ p ∈ s.benchPhys k.toNat (s.selBench k.toNat), s.calCurrent k.toNat p = false) → Answers (.online k) s (fun t => OnlyAlarm s t (F.SEAM_ALARM_CMD_REFUSED k.toNat)))) ∧
  (∀ (k : Die) (l : BitVec 2) (s : State), s.lanternRuns = true → l.toNat &&& (3 - s.fld (F.SEAM_STATUS_SHAFT_RETIRED k.toNat)) ≠ 0 → s.dieReady k.toNat = false →
    exec (.dieReady k l 0) s = .next (s.deviceFault 4 k.toNat)) ∧
  (∀ (k : Die) (l : BitVec 2) (s : State) (up : Nat), s.lanternRuns = true → up = l.toNat &&& (3 - s.fld (F.SEAM_STATUS_SHAFT_RETIRED k.toNat)) → up ≠ 0 → s.dieReady k.toNat = false →
    (∀ p, p < 16 → s.regBit (R.SEAM_PUMPS k.toNat) (16 + p) = true ∨ p ∈ (s.die k.toNat).tested) → (∀ e ∈ s.seam.benches, e.1 / 8192 ≠ k.toNat ∨ e.2.state = .retired) →
    exec (.dieReady k l 3) s = .next ((((s.setFld (F.SEAM_STATUS_DIE_READY k.toNat) 1).setFld (F.SEAM_STATUS_RECORD_OK k.toNat) 1).setFld (F.SEAM_STATUS_SHAFT_UP k.toNat) up).countSpares k.toNat)) ∧
  (∀ (k : Die) (s : State) (j : Nat) (r : List Nat), s.checkOrder k.toNat = j :: r → s.dieReady k.toNat = true → s.upkeepRuns = true →
    (s.seam.benches.filter (fun e => e.1 / 8192 == k.toNat && e.2.check.isSome)).length < s.slotLimit k.toNat / (s.dim / 1024) →
    s.slotsActive k.toNat + s.dim / 1024 ≤ s.slotLimit k.toNat →
    exec (.benchCheckStart k) s = .next ((s.putBench k.toNat j { s.benchSt k.toNat j with check := some {} }).takeSlots k.toNat (s.dim / 1024) true)) ∧
  (∀ (k : Die) (j : BitVec 13) (s : State) (ck : BenchCheck), (s.benchSt k.toNat j.toNat).check = some ck → (s.benchSt k.toNat j.toNat).state = .checking → (s.benchSt k.toNat j.toNat).lib = none →
    (∀ r, r < s.dim / 1024 → r ∈ ck.done) → s.sumpReady = true → (s.die k.toNat).batches.any (fun b => b.bench == some j.toNat) = false →
    (s.die k.toNat).replaceDue.any (fun l => l / (s.dim / 1024) == j.toNat) = false → s.entriesIn (s.devBench k.toNat j.toNat) [esVALID, esINVALID, esQUARANTINED] = [] →
    exec (.benchCheckDone k j [] []) s = .next ((((s.putBench k.toNat j.toNat { s.benchSt k.toNat j.toNat with check := none }).giveSlots k.toNat (ck.cols.map Prod.fst).eraseDups.length true).moveBenchState
      k.toNat j.toNat .ready).countUsed)) ∧
  (∀ (k : Die) (j : BitVec 13) (s : State) (b : Batch), (s.die k.toNat).batches.find? (fun b => decide (b.target = .bench j) && !b.started) = some b → s.dieReady k.toNat = true →
    s.writesHeld = false → (s.die k.toNat).batches.any (fun x => decide (x.target = .bench j) && x.started) = false → b.phys.any (s.unwritable k.toNat) = false →
    s.slotsActive k.toNat + b.phys.length ≤ s.slotLimit k.toNat → Answers (.batchStart k j) s (fun t => ∃ a : State, a = s.takeSlots k.toNat b.phys.length true ∧
      t = a.setDie k.toNat { a.die k.toNat with batches := (a.die k.toNat).batches.map (fun x => if x = b then { b with started := true } else x) })) ∧
  (∀ (k : Die) (g : ProgTarget) (left : List LoopCell) (s : State) (b : Batch), (s.die k.toNat).batches.find? (fun b => decide (b.target = g) && (b.started || b.upkeep)) = some b →
    b.started = true → 0 < b.erase → exec (.programLoop k g left) s = .next (s.setDie k.toNat { s.die k.toNat with
      batches := (s.die k.toNat).batches.map (fun y => if y = b then { b with erase := b.erase - 1 } else y) })) ∧
  (∀ (k : Die) (g : ProgTarget) (s : State) (b : Batch), (s.die k.toNat).batches.find? (fun b => decide (b.target = g) && (b.started || b.upkeep)) = some b →
    b.started = true → b.erase = 0 → exec (.programLoop k g []) s = .next ((s.setDie k.toNat { s.die k.toNat with
      batches := (s.die k.toNat).batches.map (fun y => if y = b then { b with loops := b.loops + 1, stuck := [] } else y) }).finishBatch k.toNat { b with loops := b.loops + 1, stuck := [] })) ∧
  (∀ (k : Die) (s : State) (f : RefreshJob), s.firstJob k.toNat ((s.die k.toNat).refreshQ.filter (fun j => !s.byFill k.toNat j.tile j.col)) = some f → s.dieReady k.toNat = true →
    s.upkeepRuns = true → s.writesHeld = false → s.slotsActive k.toNat < s.slotLimit k.toNat → s.unwritable k.toNat (s.physTile k.toNat f.tile) = true →
    exec (.refresh k) s = .next (s.replaceTile k.toNat f.tile)) ∧
  (∀ (k : Die) (s : State), (s.die k.toNat).refreshQ = [] → exec (.refresh k) s = .next s) ∧
  (∀ (k : Die) (s : State) (f : RefreshJob), (s.die k.toNat).refreshQ = [f] → s.byFill k.toNat f.tile f.col = false → s.benchOfTile f.tile = none → s.dieReady k.toNat = true →
    s.upkeepRuns = true → s.writesHeld = false → s.slotsActive k.toNat < s.slotLimit k.toNat → s.unwritable k.toNat (s.physTile k.toNat f.tile) = false →
    Answers (.refresh k) s (fun t => ∃ a : State, a = (s.setQueue k.toNat []).upkeepWrite k.toNat f.tile [f.col] ∧ t = (a.setDie k.toNat { a.die k.toNat with
      batches := (a.die k.toNat).batches.dropLast ++ ((a.die k.toNat).batches.drop ((a.die k.toNat).batches.length - 1)).map (fun b => { b with started := true }) }).takeSlots k.toNat 1 true)) ∧
  (∀ (k : Die) (l : BitVec 15) (stuck : List CellRead) (s : State) (m : Nat) (r : List Nat), s.freeStaging k.toNat = m :: r → s.dieReady k.toNat = true → s.writesHeld = false →
    s.fillDue k.toNat l.toNat = true → (s.die k.toNat).fills.any (fun f => f.1 == l.toNat) = false → s.unwritable k.toNat (s.physTile k.toNat m) = false → (s.die k.toNat).remapDue = [] →
    Answers (.stagingFill k l stuck []) s (fun t => ∃ a : State,
      a = (s.fillTile k.toNat (s.physTile k.toNat m) (s.tileSt k.toNat (s.physTile k.toNat l.toNat)).fourLevel (s.tileSt k.toNat (s.physTile k.toNat l.toNat)).colmap (s.fillLevels k.toNat l.toNat) stuck).calibrate
        k.toNat (s.physTile k.toNat m) [] [] ∧
      (tileFails [] false = false → (a.tileSt k.toNat (s.physTile k.toNat m)).failingCols [] = [] → t = a.setDie k.toNat { a.die k.toNat with fills := (a.die k.toNat).fills ++ [(l.toNat, m)] }))) ∧
  (∀ (k : Die) (l : BitVec 15) (s : State) (f : Nat × Nat), (s.die k.toNat).fills.find? (fun f => f.1 == l.toNat) = some f → (s.die k.toNat).remapDue = [] →
    Answers (.stagingSwap k l) s (fun t => ∃ a : State, a = (s.swapTiles k.toNat l.toNat f.2).setDie k.toNat { s.die k.toNat with fills := (s.die k.toNat).fills.filter (fun x => x.1 != l.toNat), remapDue := [] } ∧
      t = (a.setQueue k.toNat ((s.die k.toNat).refreshQ.filter (fun q => q.tile != l.toNat))).bump (F.SEAM_REFRESH_COLS_COUNT k.toNat) (((s.die k.toNat).refreshQ.filter (fun q => q.tile == l.toNat)).length))) ∧
  (∀ (k l m : Nat) (s : State), k * logicalTiles + l ≠ k * logicalTiles + m → (s.swapTiles k l m).physTile k l = s.physTile k m ∧ (s.swapTiles k l m).physTile k m = s.physTile k l) ∧
  (∀ (k : Die) (l : BitVec 15) (stuck : List CellRead) (s : State) (q : Nat), s.pickSpare k.toNat (s.physTile k.toNat l.toNat) = some q → s.dieReady k.toNat = true →
    l.toNat ∈ (s.die k.toNat).replaceDue → s.benchOfTile l.toNat = none → Answers (.tileReplace k l stuck) s (fun t => ∃ a : State,
      a = ((s.setMap k.toNat l.toNat q).fillTile k.toNat q (s.tileSt k.toNat (s.physTile k.toNat l.toNat)).fourLevel [] (s.fillLevels k.toNat l.toNat) stuck).retireTile k.toNat (s.physTile k.toNat l.toNat) ∧
      t = (a.setDie k.toNat { a.die k.toNat with replaceDue := (a.die k.toNat).replaceDue.filter (· != l.toNat), remapDue := (a.die k.toNat).remapDue.filter (fun r => r.1 != l.toNat) }).countSpares k.toNat)) ∧
  (∀ (k : Die) (j : BitVec 13) (s : State), j.toNat < s.perDie → (s.die k.toNat).replaceDue.filter (fun l => l / (s.dim / 1024) == j.toNat && l < s.perDie * (s.dim / 1024)) ≠ [] → s.spareTiles k.toNat = [] →
    (s.benchSt k.toNat j.toNat).state = .ready → s.benchLib (s.devBench k.toNat j.toNat) = none → (s.benchSt k.toNat j.toNat).lib = none → Answers (.benchMove k j) s (fun t =>
      (t.benchSt k.toNat j.toNat).state = .moving ∧ t.bit (F.SEAM_UPKEEP_ALARM_NO_SPARE_TILE k.toNat) = true))

/-- Pumps start, stop and are retired; patrol visits, rounds, service days, oscillators and plans act as their rules say (08_seam_upkeep R265, R266, R267, R278, R280, R281; 08_seam_upkeep R282, R284, R286, R287, R288, R291; 08_seam_upkeep Table UPKEEP-6). -/
def Obligations.PumpsPatrolAndPlansAct : Prop :=
  (∀ (k : Die) (p : BitVec 4) (s : State), s.alive = true → s.regBit (R.SEAM_PUMPS k.toNat) (16 + p.toNat) = false → Answers (.pumpSoftStart k p .ok) s (fun t =>
    t.regBit (R.SEAM_PUMPS k.toNat) p.toNat = true ∧ p.toNat ∈ (t.die k.toNat).tested ∧ t = { s with regs := t.regs, seam := t.seam } ∧ ∀ a, a ≠ R.SEAM_PUMPS k.toNat → t.reg a = s.reg a)) ∧
  (∀ (k : Die) (p : BitVec 4) (s : State), s.alive = true → s.regBit (R.SEAM_PUMPS k.toNat) (16 + p.toNat) = false → s.recentFaults (.pump k.toNat p.toNat) < 2 →
    Answers (.pumpSoftStart k p .slow) s (fun t => t = { s with regs := t.regs, faults := t.faults } ∧ (∀ a, a ≠ (F.SEAM_PUMP_FAULTS_COUNT k.toNat).addr → t.reg a = s.reg a) ∧
      t.fld (F.SEAM_PUMP_FAULTS_COUNT k.toNat) = min (s.fld (F.SEAM_PUMP_FAULTS_COUNT k.toNat) + 1) (2 ^ (F.SEAM_PUMP_FAULTS_COUNT k.toNat).w - 1))) ∧
  (∀ (k : Die) (p : BitVec 4) (s : State), s.alive = true → s.regBit (R.SEAM_PUMPS k.toNat) (16 + p.toNat) = false → Answers (.pumpSoftStart k p .short) s (fun t =>
    t.bit (F.SEAM_UPKEEP_ALARM_PUMP_SHORT k.toNat) = true)) ∧
  (∀ (k : Die) (p : BitVec 4) (o : PumpStart) (s : State), s.regBit (R.SEAM_PUMPS k.toNat) (16 + p.toNat) = true → exec (.pumpSoftStart k p o) s = .next s) ∧
  (∀ (k : Die) (p : BitVec 4) (s : State), (s.die k.toNat).batches.any (fun b => b.started && b.phys.any (fun q => pumpOf q == p.toNat)) = false → Answers (.pumpStop k p) s (fun t =>
    OnlyRegs s t [R.SEAM_PUMPS k.toNat] ∧ t.regBit (R.SEAM_PUMPS k.toNat) p.toNat = false)) ∧
  (∀ (k : Die) (x : BitVec 16) (s : State), Answers (.oscRead k [x]) s (fun t => OnlyRegs s t [(F.SEAM_OSC_SLOWDOWN k.toNat 0).addr] ∧ t.fld (F.SEAM_OSC_SLOWDOWN k.toNat 0) = x.toNat)) ∧
  (∀ (k : Die) (l : List (BitVec 16)) (s : State), exec (.oscRead k l) s = .next ((l.take 16).zipIdx.foldl (fun a x => a.setFld (F.SEAM_OSC_SLOWDOWN k.toNat x.2) x.1.toNat) s)) ∧
  (∀ s : State, s.fld (F.SEAM_PLAN_INFO_DAYS 0) < s.uptime / 86400000 → Answers .serviceDayAdvance s (fun t => t = { s with regs := t.regs } ∧
    ∀ k, k < 8 → t.fld (F.SEAM_PLAN_INFO_DAYS k) = min 65535 (s.fld (F.SEAM_PLAN_INFO_DAYS 0) + 1))) ∧
  (∀ s : State, s.uptime / 86400000 ≤ s.fld (F.SEAM_PLAN_INFO_DAYS 0) → exec .serviceDayAdvance s = .next s) ∧
  (∀ (k : Die) (m : Measure) (s : State), Reached s 4 → exec (.replan k m) s = .next (s.newPlan k.toNat m)) ∧
  (∀ (ms : List Measure) (s : State), s.upkeepRuns = true → exec (.planDue ms) s = .next ((ms.take 8).zipIdx.foldl (fun a m =>
    if !(a.die m.2).planned || (a.die m.2).lastPlanDay + 30 ≤ a.fld (F.SEAM_PLAN_INFO_DAYS m.2) then a.newPlan m.2 m.1 else a) s)) ∧
  (∀ x : Nat, guardBand x ≤ 40 ∧ guardBand x % 5 = 0 ∧ (10 ≤ guardBand x) ∧ (guardBand x < 40 → 1000 + 4 * x ≤ 100 * guardBand x)) ∧
  (∀ (k : Die) (s : State), Reached s 4 → exec (.recalNow k) s = .next (s.setDie k.toNat { s.die k.toNat with recalFrom := s.uptime })) ∧
  (∀ (k : Die) (s : State), Reached s 4 → Answers (.patrolNow k) s (fun t => t = { s with regs := t.regs, seam := t.seam } ∧ t.fld (F.SEAM_UPKEEP_STATUS_PATROL_POS k.toNat) = 0 ∧
    t.die k.toNat = { s.die k.toNat with roundAt := s.uptime, roundDone := false } ∧ ∀ a, a ≠ R.SEAM_UPKEEP_STATUS k.toNat → t.reg a = s.reg a)) ∧
  (∀ (k : Die) (s : State), s.dieReady k.toNat = true → s.upkeepRuns = true → (s.die k.toNat).roundAt + 3600000 * s.fld (F.SEAM_PLAN_TIME_PATROL_H k.toNat) ≤ s.uptime →
    exec (.patrolRound k []) s = .next ((s.beginRound k.toNat).countSpares k.toNat)) ∧
  (∀ (k : Die) (b : List (BitVec 16)) (s : State), s.uptime < (s.die k.toNat).roundAt + 3600000 * s.fld (F.SEAM_PLAN_TIME_PATROL_H k.toNat) → exec (.patrolRound k b) s = .next s) ∧
  (∀ (k : Die) (fits : List ColFit) (w : Bool) (s : State) (l : Nat), s.fld (F.SEAM_UPKEEP_STATUS_PATROL_POS k.toNat) = l → l + 1 ≠ logicalTiles → s.dieReady k.toNat = true → s.upkeepRuns = true →
    (s.die k.toNat).roundDone = false → (s.die k.toNat).batches.any (fun b => b.started && b.phys.contains (s.physTile k.toNat l)) = false →
    exec (.patrolTile k [] fits w) s = .next ((s.afterCalibration k.toNat (s.physTile k.toNat l) [] fits w).setFld (F.SEAM_UPKEEP_STATUS_PATROL_POS k.toNat) ((l + 1) % 32768)))

/-- Every library operation completes its descriptor with the status its rules give, and with OK has the effect of its operation (09_associative_search Table SUMP-2; 09_associative_search R294, R295, R311, R317, R318; 13_host_rings R422, R423, R424, R434; 13_host_rings Table HOST-5, Table HOST-8; 06_spiking_execution R213). -/
def Obligations.LibraryOperationsCompleteTheirDescriptor : Prop :=
  (∀ (r : Ring) (i : Word) (buf : List Byte) (ok : Bool) (s : State) (d : Slot), s.takenDesc r.toNat i.toNat 2 = some d → s.fatal = false → ∀ c ∈ libCommands r i buf ok,
    (libDesc d).op = c.1 → (libDescBad d c.2.1 = true → LibEnds c.2.2 s r i s 0x03 0 0) ∧
      (libDescBad d c.2.1 = false → c.2.1 = true → ok = false → LibEnds c.2.2 s r i s.dmaError 0x04 0 0) ∧
      (libDescBad d c.2.1 = false → (c.2.1 = true → ok = true) → s.sumpReady = false → LibEnds c.2.2 s r i s 0x0A 0 0)) ∧
  (∀ (r : Ring) (i : Word) (s : State) (x : LibDesc), LibTaken s r i 1 false x →
    (3 < x.arg0 → LibEnds (.create r i) s r i s 0x03 0 0) ∧ (x.arg0 ≤ 3 → (s.libActive x.lib = true ∨ x.arg0 = 3) → LibEnds (.create r i) s r i s 0x08 0 0) ∧
    (x.arg0 < 3 → s.libActive x.lib = false → LibEnds (.create r i) s r i
      (((s.setFld (F.SUMP_LIB_CFG_ACTIVE x.lib) 1).setFld (F.SUMP_LIB_CFG_KIND x.lib) x.arg0).setBenches x.lib []) 0x00 0 0)) ∧
  (∀ (r : Ring) (i : Word) (s : State) (x : LibDesc), LibTaken s r i 2 false x →
    ((s.libActive x.lib = false ∨ s.updating x.lib = true ∨ (s.lib x.lib).queue ≠ []) → LibEnds (.deleteLib r i) s r i s 0x08 0 0) ∧
    (s.libActive x.lib = true → s.updating x.lib = false → (s.lib x.lib).queue = [] → (∀ m, m < 256 → s.bit (F.SUMP_MTX_VALID m) = true → s.fld (F.SUMP_MTX_LIBRARY m) ≠ x.lib) →
      (∀ b ∈ (s.lib x.lib).benches, s.benchReady b = true) → LibEnds (.deleteLib r i) s r i (s.freeLib x.lib) 0x00 0 0)) ∧
  (∀ (r : Ring) (i : Word) (s : State) (x : LibDesc), LibTaken s r i 3 false x → s.libActive x.lib = true → s.updating x.lib = false → x.arg0 < 8 * s.perDie →
    ((s.benchErased x.arg0 = false ∨ s.isReserved x.arg0 = true ∨ x.arg0 ∈ s.sump.held) → LibEnds (.addBench r i) s r i s 0x08 0 0) ∧
    ((s.benchOf x.arg0).lib = none → (s.benchOf x.arg0).fourLevel = none → s.benchErased x.arg0 = true → s.isReserved x.arg0 = false → x.arg0 ∉ s.sump.held → s.isSpan x.lib = false → s.benchReady x.arg0 = true →
      LibEnds (.addBench r i) s r i ((s.setBenches x.lib ((s.lib x.lib).benches ++ [x.arg0])).assignBench x.arg0 (some x.lib) (s.libFour x.lib)) 0x00 0 (s.lib x.lib).benches.length)) ∧
  (∀ (r : Ring) (i : Word) (s : State) (x : LibDesc), LibTaken s r i 4 false x →
    ((s.lib x.lib).benches = [] → LibEnds (.removeBench r i) s r i s 0x08 0 0) ∧
    (∀ (l : List Nat) (b : Nat), (s.lib x.lib).benches = l ++ [b] → s.libActive x.lib = true → s.updating x.lib = false → s.entriesIn b [esVALID, esINVALID, esQUARANTINED] = [] →
      LibEnds (.removeBench r i) s r i (((s.setBenches x.lib l).assignBench b none false).queueErase b) 0x00 0 0)) ∧
  (∀ (r : Ring) (i : Word) (buf : List Byte) (s : State) (x : LibDesc), LibTaken s r i 5 true x →
    (s.writeItems x buf = none → LibEnds (.write r i buf true) s r i s 0x03 0 0) ∧
    (∀ ws, s.writeItems x buf = some ws → (s.libActive x.lib = false ∨ s.libKind x.lib = 2) → LibEnds (.write r i buf true) s r i s 0x08 0 0) ∧
    (∀ ws b, s.writeItems x buf = some ws → s.libActive x.lib = true → s.libKind x.lib ≠ 2 → (s.lib x.lib).benches[x.arg0]? = some b → (ws.map (fun w => w.col)).eraseDups.length = (ws.map (fun w => w.col)).length →
      s.writable b (ws.map (fun w => w.col)) = true → s.kindCount (s.libKind x.lib) + ws.length ≤ kindLimit (s.libKind x.lib) → s.awayPeer x.lib x.arg0 = none → s.benchReady b = true →
      exec (.write r i buf true) s = .next ((s.queueBatch x.lib { src := .host r.toNat i.toNat, pos := x.arg0, items := ws }).beginDesc r.toNat i.toNat))) ∧
  (∀ (r : Ring) (i : Word) (buf : List Byte) (s : State) (x : LibDesc), LibTaken s r i 6 true x →
    (entryItems x buf = none → LibEnds (.invalidate r i buf true) s r i s 0x03 0 0) ∧
    (∀ es, entryItems x buf = some es → s.named x.lib es = none → LibEnds (.invalidate r i buf true) s r i s 0x08 0 0) ∧
    (∀ e b c l, entryItems x buf = some [e] → s.named x.lib [e] = some l → s.awayPeer x.lib (e / 1024) = none → s.entryAt x.lib e = some (b, c) → s.benchReady b = true → (s.entry b c).state ≠ esEMPTY →
      LibEnds (.invalidate r i buf true) s r i (s.invalidateEntry x.lib e) 0x00 0 1)) ∧
  (∀ (r : Ring) (i : Word) (buf : List Byte) (s : State) (x : LibDesc), LibTaken s r i 7 true x →
    (items x 8 buf = none → LibEnds (.setFields r i buf true) s r i s 0x03 0 0) ∧
    (∀ it b c l, items x 8 buf = some [it] → s.named x.lib [sliceLE it 0 3] = some l → s.awayPeer x.lib (sliceLE it 0 3 / 1024) = none → s.entryAt x.lib (sliceLE it 0 3) = some (b, c) →
      (s.entry b c).state ≠ esEMPTY → s.benchReady b = true →
      LibEnds (.setFields r i buf true) s r i (s.setEntry b c { s.entry b c with prio := sliceLE it 3 1, cls := sliceLE it 4 4 }) 0x00 0 1)) ∧
  (∀ (r : Ring) (i : Word) (buf : List Byte) (s : State) (x : LibDesc), LibTaken s r i 8 true x →
    (s.isExportRing x.export_ = false → LibEnds (.read r i buf true) s r i s 0x03 0 0) ∧
    (∀ es b c key, entryItems x buf = some es → s.isExportRing x.export_ = true → s.named x.lib es = some [(b, c)] → s.benchReady b = true → s.mirror b c = some key →
      exec (.read r i buf true) s = .next ((s.exportOut x.export_ { ring := r.toNat, idx := i.toNat, tag := x.tag, bytes := (s.entry b c).bytes ++ keyBytes s.dim key, uninit := false, status := 0, result := 1 }).beginDesc r.toNat i.toNat))) ∧
  (∀ (r : Ring) (i : Word) (s : State) (x : LibDesc), LibTaken s r i 9 false x → x.arg0 / 512 % 128 = 0 → 1 ≤ x.arg1 % 65536 → x.arg1 % 65536 ≤ 1024 → x.arg2 < 2 ^ 32 →
    (s.bit (F.SUMP_MTX_VALID (x.arg0 % 256)) = true → LibEnds (.defineMatrix r i) s r i s 0x08 0 0) ∧
    (∀ b, s.libActive x.lib = true → s.libKind x.lib = 2 → s.bit (F.SUMP_MTX_VALID (x.arg0 % 256)) = false → hasBit x.arg0 8 = false → x.arg1 / 65536 ≤ s.dim / 1024 * 256 →
      (s.lib x.lib).benches[x.arg0 / 65536]? = some b → s.benchReady b = true → x.arg2 ≠ 0 → LibEnds (.defineMatrix r i) s r i
        (((((((s.setFld (F.SUMP_MTX_VALID (x.arg0 % 256)) 1).setFld (F.SUMP_MTX_FORMAT (x.arg0 % 256)) 0).setFld (F.SUMP_MTX_LIBRARY (x.arg0 % 256)) x.lib).setFld (F.SUMP_MTX_POS (x.arg0 % 256)) (x.arg0 / 65536)).setFld
          (F.SUMP_MTX_SHAPE_COLS (x.arg0 % 256)) (x.arg1 / 65536)).setFld (F.SUMP_MTX_SHAPE_ROWS (x.arg0 % 256)) (x.arg1 % 65536)).setFld (F.SUMP_MTX_AREA_BASE (x.arg0 % 256)) x.arg2) 0x00 0 x.arg2)) ∧
  (∀ (r : Ring) (i : Word) (buf : List Byte) (s : State) (x : LibDesc), LibTaken s r i 10 true x → x.arg0 / 256 = 0 →
    (s.bit (F.SUMP_MTX_VALID (x.arg0 % 256)) = false → LibEnds (.writeMatrix r i buf true) s r i s 0x08 0 0) ∧
    (∀ b rows n size, s.bit (F.SUMP_MTX_VALID (x.arg0 % 256)) = true → s.fld (F.SUMP_MTX_LIBRARY (x.arg0 % 256)) = x.lib → s.mtxI4 (x.arg0 % 256) = false → rows = s.fld (F.SUMP_MTX_SHAPE_ROWS (x.arg0 % 256)) →
      size = rows → n = x.arg1 / 65536 → x.arg1 % 65536 + n ≤ s.fld (F.SUMP_MTX_SHAPE_COLS (x.arg0 % 256)) → n * size ≤ x.len → n * size ≤ buf.length → s.matrixBench (x.arg0 % 256) = some b → s.benchReady b = true →
      exec (.writeMatrix r i buf true) s = .next ((s.queueBatch x.lib { src := .host r.toNat i.toNat, pos := s.fld (F.SUMP_MTX_POS (x.arg0 % 256)), items := [], matrix := some (x.arg0 % 256, x.arg1 % 65536, (List.range n).map (fun c => weightsOf false rows ((buf.drop (c * size)).take size))) }).beginDesc r.toNat i.toNat))) ∧
  (∀ (r : Ring) (i : Word) (s : State) (x : LibDesc), LibTaken s r i 11 false x →
    (s.named x.lib [x.arg0] = none → LibEnds (.repair r i) s r i s 0x08 0 0) ∧
    (∀ b c, s.named x.lib [x.arg0] = some [(b, c)] → (s.entry b c).state ≠ esQUARANTINED → LibEnds (.repair r i) s r i s 0x08 0 0) ∧
    (∀ b c, s.named x.lib [x.arg0] = some [(b, c)] → (s.entry b c).state = esQUARANTINED → s.repairing b c = false → s.benchReady b = true →
      exec (.repair r i) s = .next ((s.startRepair b c (some (r.toNat, i.toNat))).beginDesc r.toNat i.toNat)))

/-- The later steps of an update: a begun batch is written and sent once nothing waits for it, and its result makes sound entries VALID (09_associative_search R311, R315, R316, R322, R300; 09_associative_search Table SUMP-4; 13_host_rings R422; 12_chisel_learning R404). -/
def Obligations.WritesAreSentAndTheirResultsTaken : Prop :=
  (∀ (l : Lib) (s : State) (q : LibBatch) (rest : List LibBatch) (b : Nat), (s.lib l.toNat).queue = q :: rest → s.benchAt l.toNat q.pos = some b → q.begun = true → q.sent = false → s.sumpReady = true →
    s.benchReady b = true → s.sump.active.any (fun r => q.waits.contains r.tag && r.owed b) = false → q.matrix = none → q.written = false → Answers (.writeStep l) s (fun t => ∃ a : State,
      a = q.items.foldl (fun a i => a.writeEntry b i) s ∧ t = (a.setLib l.toNat { a.lib l.toNat with queue := { q with sent := true, waits := [] } :: rest }).sendEntries l.toNat b q.items)) ∧
  (∀ (l : Lib) (s : State) (q : LibBatch) (rest : List LibBatch), (s.lib l.toNat).queue = q :: rest → (q.begun = false ∨ q.sent = true) → exec (.writeStep l) s = .next s) ∧
  (∀ (k : Die) (j : BitVec 13) (s : State) (r : BatchRes), (s.die k.toNat).results.find? (fun r => r.bench == j.toNat) = some r → s.fld (F.SEAM_STATUS_SHAFT_UP k.toNat) ≠ 0 → s.sumpReady = true →
    s.lantern.libJob = none → exec (.batchResult k j) s = .next ((s.setDie k.toNat { s.die k.toNat with results := dropFirst r (s.die k.toNat).results }).takeBatch k.toNat r)) ∧
  (∀ (k : Die) (j : BitVec 13) (s : State), (s.die k.toNat).results.find? (fun r => r.bench == j.toNat) = none → exec (.batchResult k j) s = .next s) ∧
  (∀ (s : State) (k : Nat) (r : BatchRes) (b l p ri ii : Nat) (q : LibBatch) (rest : List LibBatch) (w : WriteItem), s.devBench k r.bench = b → s.benchLib b = some (l, p) → (s.lib l).queue = q :: rest →
    q.sent = true → q.pos = p → q.matrix = none → q.items = [w] → r.cols = [w.col] → r.failing = [] → q.src = .host ri ii → (s.entry b w.col).state = esINVALID → s.learningLib l = false →
    (s.setEntryState b w.col esVALID).learningLib l = false → (∀ x ∈ rest, x.src ≠ .chisel) →
    s.takeBatch k r = (((s.setEntryState b w.col esVALID).setLib l { (s.setEntryState b w.col esVALID).lib l with queue := rest }).beginBatch l).complete ri ii 0x00 0 0 1) ∧
  (∀ (s : State) (k : Nat) (r : BatchRes) (b l p ri ii : Nat) (q : LibBatch) (rest : List LibBatch) (w : WriteItem), s.devBench k r.bench = b → s.benchLib b = some (l, p) → (s.lib l).queue = q :: rest →
    q.sent = true → q.pos = p → q.matrix = none → q.items = [w] → r.cols = [w.col] → r.failing = [w.col] → q.src = .host ri ii → (s.entry b w.col).state = esINVALID → s.learningLib l = false →
    ((s.bump F.SUMP_WRITE_FAILS_COUNT 1).alarm F.SUMP_ALARM_WRITE_FAIL l).learningLib l = false → (∀ x ∈ rest, x.src ≠ .chisel) → 
    s.takeBatch k r = ((((s.bump F.SUMP_WRITE_FAILS_COUNT 1).alarm F.SUMP_ALARM_WRITE_FAIL l).setLib l { ((s.bump F.SUMP_WRITE_FAILS_COUNT 1).alarm F.SUMP_ALARM_WRITE_FAIL l).lib l with queue := rest }).beginBatch l).complete ri ii 0x00 0 1 0) ∧
  (∀ (l : Lib) (e : BitVec 24) (cells : List CellRead) (s : State) (b c : Nat) (j : RepairJob) (s0 : State), s.entryAt l.toNat e.toNat = some (b, c) → s.sump.repairs.find? (fun j => j.at_ == b * 1024 + c) = some j →
    s0 = { s with sump := { s.sump with repairs := s.sump.repairs.filter (fun x => x.at_ != b * 1024 + c) } } → j.dropped = false → j.host = none →
    ((s0.entry b c).state = esQUARANTINED → (s0.entry b c).agrees s.dim (s0.readBack b c cells) = true →
      exec (.repairDone l e cells) s = .next ((s0.setMirror (s0.entry b c).mirror (some (s0.readBack b c cells))).setEntryState b c esVALID)) ∧
    ((s0.entry b c).agrees s.dim (s0.readBack b c cells) = false → exec (.repairDone l e cells) s = .next (s0.alarm F.SUMP_ALARM_QUARANTINE (b * 1024 + c)))) ∧
  (∀ (l : Lib) (s : State) (p t : Nat) (is : List WriteItem), (s.lib l.toNat).pend = some (p, t, is) →
    (t + 100000 * s.appendWait ≤ s.now → exec (.appendWaitExpiry l) s = .next (s.sendPending l.toNat)) ∧ (s.now < t + 100000 * s.appendWait → exec (.appendWaitExpiry l) s = .next s)) ∧
  (∀ s : State, 1 ≤ s.appendWait ∧ s.appendWait ≤ 60000)

/-- Slivers gather into queries, requests are admitted WATCH before ORDINARY before RECALL, results are taken, ready requests verified and ended (09_associative_search R302, R303, R305, R306, R307, R308; 09_associative_search R311; 06_spiking_execution R209, R211; 10_approximate_modes R333; 07_seam_arrays R238). -/
def Obligations.SearchRunsFromSliversToRecords : Prop :=
  (∀ (m : Msg) (s : State), s.atSump m = true → m.tag.toNat = tagSLIVER → exec (.sliver m) s = .next ((s.unlist m).takeSliver m)) ∧
  (∀ (m : Msg) (s : State), s.atSump m = true → m.tag.toNat ≠ tagSLIVER → m.tag.toNat ≠ tagSYNAPSE → exec (.sliver m) s = .next ((s.unlist m).bump F.SUMP_BADTAG_COUNT 1)) ∧
  (∀ (m : Msg) (s : State), s.atSump m = false → exec (.sliver m) s = .next s) ∧
  (∀ (m : Msg) (s : State), s.asm.find? (fun a => a.stream == ((msgWord m 0).extractLsb' 0 16).toNat && a.start == (msgWord m 1).toNat) = none → s.takeSliver m = s.bump F.SUMP_LATE_SLIVERS_COUNT 1) ∧
  (∀ (n : Stream) (w : Word64) (s : State) (a : Assembly) (t : Nat), s.asmOf n.toNat w.toNat = some a → a.sliverBy = some t →
    ((t ≤ s.now ∨ s.asmComplete a = true) → exec (.sliverWaitExpiry n w) s = .next (s.assemble a)) ∧ (s.now < t → s.asmComplete a = false → exec (.sliverWaitExpiry n w) s = .next s)) ∧
  (∀ (n : Stream) (w : Word64) (s : State) (a : Assembly) (t : Nat), s.asmOf n.toNat w.toNat = some a → a.closeBy = some t →
    (t ≤ s.now → exec (.closeWaitExpiry n w) s = .next (s.assemble a)) ∧ (s.now < t → exec (.closeWaitExpiry n w) s = .next s)) ∧
  (∀ (s : State) (a : Assembly), a.slivers = [] → s.assemble a = State.skipWindow { s with asm := dropFirst a s.asm } a.stream skNO_QUERY a.start a.aditFlags) ∧
  (∀ (m : Msg) (s : State), s.atSump m = true → m.tag.toNat = tagSYNAPSE → s.sumpReady = false → exec (.synapseRequest m) s = .next (s.unlist m)) ∧
  (∀ (m : Msg) (s : State), s.atSump m = true → m.tag.toNat = tagSYNAPSE → s.sumpReady = true → (msgWord m 0).getLsbD 24 = true → s.sump.syn = [] →
    s.sump.ordQ.filter (fun r => decide (r.kind = .synapse)) = [] → Answers (.synapseRequest m) s (fun t =>
      t = { s.unlist m with sump := { s.sump with ordQ := s.sump.ordQ ++ [{ kind := .synapse, stream := ((msgWord m 0).extractLsb' 0 16).toNat, start := (msgWord m 1).toNat, matrix := ((msgWord m 0).extractLsb' 16 8).toNat, rows := rowVector (synRows m) }] } })) ∧
  (∀ (s : State) (r : Request) (q : List Request), s.sumpReady = true → s.sump.watchQ = r :: q → exec .requestAdmit s = .next (State.admitSearch { s with sump := { s.sump with watchQ := q } } r)) ∧
  (∀ (s : State) (r : Request) (q : List Request), s.sumpReady = true → s.sump.watchQ = [] → s.sump.ordQ = r :: q → r.kind ≠ .synapse →
    exec .requestAdmit s = .next (State.admitSearch { s with sump := { s.sump with ordQ := q } } r)) ∧
  (∀ (s : State) (r : Request) (q : List Request), s.sumpReady = true → s.sump.watchQ = [] → s.sump.ordQ = r :: q → r.kind = .synapse →
    exec .requestAdmit s = .next (State.admitMatrix { s with sump := { s.sump with ordQ := q } } r)) ∧
  (∀ (s : State) (r : Request) (q : List Request), s.sumpReady = true → s.sump.watchQ = [] → s.sump.ordQ = [] → s.sump.recallQ = r :: q → r.kind = .rcall →
    exec .requestAdmit s = .next (if s.backlogFull r.ring then s else State.admitSearch { s with sump := { s.sump with recallQ := q } } r)) ∧
  (∀ (k : Die) (j : BitVec 13) (tag : Word) (s : State) (e : Eval), (s.die k.toNat).evals.find? (fun e => e.bench == j.toNat && e.tag == tag.toNat && (e.finished || s.shaftGone k.toNat)) = some e →
    s.fld (F.SEAM_STATUS_SHAFT_UP k.toNat) ≠ 0 → Answers (.benchResult k j tag) s (fun t => ∃ a : State, a = s.setDie k.toNat { s.die k.toNat with evals := dropFirst e (s.die k.toNat).evals } ∧
      (a.req tag.toNat = none → t = a) ∧ ∀ r, a.req tag.toNat = some r → t = a.takeEval r (s.devBench k.toNat j.toNat) e)) ∧
  (∀ (tag : Word) (bad : List (Lib × BitVec 24)) (s : State) (r : Request), s.req tag.toNat = some r → r.ready = true → s.sumpReady = true →
    exec (.verify tag bad) s = .next (s.verifyStep r (bad.map (fun e => (e.1.toNat, e.2.toNat))))) ∧
  (∀ (tag : Word) (bad : List (Lib × BitVec 24)) (s : State), s.req tag.toNat = none → exec (.verify tag bad) s = .next s) ∧
  (∀ (dim present counted : Nat) (q : Key) (e : Entry) (c : Nat), 0 < dim → eDims dim present counted = dim → presentDims dim present = dim →
    approx16 dim present counted q e c = (16 * ((qBits dim counted q : Int) - 2 * c + e.pop), false))

/-- Ranked entries stand in the order of R309: distance, then higher PRIO, then lower library, then lower entry number, none lost (09_associative_search R309). -/
def Obligations.RankedCandidatesStandInOrder : Prop :=
  (∀ l : List Rank, (sortRanks l).Perm l ∧ (sortRanks l).Pairwise (fun a b => b.before a = false)) ∧
  (∀ a b : Rank, a.before b = true ↔ (a.rank < b.rank ∨ (a.rank = b.rank ∧ (b.prio < a.prio ∨ (b.prio = a.prio ∧ (a.lib < b.lib ∨ (a.lib = b.lib ∧ a.entry < b.entry))))))) ∧
  (∀ a : Rank, a.before a = false) ∧ (∀ a b c : Rank, a.before b = true → b.before c = true → a.before c = true) ∧
  (∀ a b : Rank, (a.rank, a.prio, a.lib, a.entry) ≠ (b.rank, b.prio, b.lib, b.entry) → a.before b = true ∨ b.before a = true)

/-- A frame with a bad CRC or out of order is answered with a NAK and not acted on; one in order is acted on where it is addressed and passed on (11_cascade R363, R364, R365, R359, R360; 11_cascade Table CASC-3, Table CASC-4). -/
def Obligations.FramesAreTakenInOrderAndPassedOn : Prop :=
  (∀ (q : TPort) (f : Frame) (h : HelloRec) (k : List KeyCopy) (s : State), ∀ c ∈ frameCommands q f h k, f.type.toNat = c.1 → s.portUp q.toNat = true →
    exec (c.2.1 false) s = .next (s.nakSent q.toNat (s.bump (F.TUNNEL_PORT_CRC_COUNT q.toNat) 1)) ∧
    (f.lseq.toNat = (s.tport q.toNat).rxSeq → (c.1 = ftAPPEND → s.appendWaits f = false) → exec (c.2.1 true) s = .next (s.ackTaken q.toNat f)) ∧
    (f.lseq.toNat ≠ (s.tport q.toNat).rxSeq → f.lseq.toNat ≠ ((s.tport q.toNat).rxSeq + 1) % 65536 → (c.1 = ftAPPEND → s.appendWaits f = false) →
      exec (c.2.1 true) s = .next (s.nakSent q.toNat (s.ackTaken q.toNat f))) ∧
    (f.lseq.toNat = ((s.tport q.toNat).rxSeq + 1) % 65536 → s.addressed f = true → (c.1 = ftAPPEND → s.appendWaits f = false) →
      exec (c.2.1 true) s = .next ((c.2.2 (s.frameTaken q.toNat f)).forward q.toNat f)) ∧
    (f.lseq.toNat = ((s.tport q.toNat).rxSeq + 1) % 65536 → s.addressed f = false → (c.1 = ftAPPEND → s.appendWaits f = false) → c.1 ≠ ftTOKEN →
      exec (c.2.1 true) s = .next ((s.frameTaken q.toNat f).forward q.toNat f))) ∧
  (∀ (q : TPort) (f : Frame) (h : HelloRec) (k : List KeyCopy) (ok : Bool) (s : State), ∀ c ∈ frameCommands q f h k, s.portUp q.toNat = false → exec (c.2.1 ok) s = .next s) ∧
  (∀ (q : TPort) (f : Frame) (s : State), s.appendWaits f = true → exec (.append q f true) s = .next s) ∧
  (∀ (q : TPort) (f : Frame) (s : State), f.type.toNat = ftIDLE → s.portUp q.toNat = true → exec (.idle q f true) s = .next (s.ackTaken q.toNat f) ∧
    exec (.idle q f false) s = .next (s.nakSent q.toNat (s.bump (F.TUNNEL_PORT_CRC_COUNT q.toNat) 1))) ∧
  (∀ (s : State) (p : Nat) (f : Frame), s.portUp p = false → s.sendFrame p f = s) ∧
  (∀ (s : State) (p : Nat) (f g : Frame), s.portUp p = true → f.type.toNat ≠ ftIDLE → g = { f with lseq := BitVec.ofNat 16 ((s.tport p).txSeq + 1), ack := BitVec.ofNat 16 (s.tport p).rxSeq } →
    (s.sendFrame p f).tunnel.sent = s.tunnel.sent ++ [(p, g)] ∧
    (s.sendFrame p f).tport p = { s.tport p with txSeq := ((s.tport p).txSeq + 1) % 65536, replay := (s.tport p).replay ++ [g], lastSent := s.now } ∧
    (∀ q, q ≠ p → (s.sendFrame p f).tport q = s.tport q) ∧ s.sendFrame p f = { s with tunnel := { s.tunnel with sent := (s.sendFrame p f).tunnel.sent, ports := (s.sendFrame p f).tunnel.ports } }) ∧
  (∀ (s : State) (p : Nat) (f : Frame) (l l2 : List Frame), (s.tport p).replay = l ++ l2 → (∀ x ∈ l, x.lseq.toNat ≠ f.arg0.toNat % 65536) → (∃ x r, l2 = x :: r ∧ x.lseq.toNat = f.arg0.toNat % 65536) →
    (s.tport p).replays < 7 → (s.takeNak p f).tunnel.sent = s.tunnel.sent ++ l2.map (fun x => (p, x)) ∧ (s.takeNak p f).fld (F.TUNNEL_PORT_REPLAY_COUNT p) = min (s.fld (F.TUNNEL_PORT_REPLAY_COUNT p) + l2.length) (2 ^ 32 - 1) ∧
    (s.takeNak p f).tport p = { s.tport p with replays := (s.tport p).replays + 1, lastSent := s.now }) ∧
  (∀ (q : TPort) (s : State), exec (.idleFrameSend q) s = .next (if s.portUp q.toNat = true ∧ (s.tport q.toNat).lastSent + 100 ≤ s.now then
    s.sendFrame q.toNat (s.mkFrame ftIDLE (s.peerOf q.toNat) 0 0 0 []) else s))

/-- What HELLO, QUERY, ANSWER, APPEND, APPEND_ACK, TOKEN, LOST, MIRROR, BENCH_OP and CHAIN do at a member, and how the chain settles (11_cascade R355, R356, R359, R360, R361, R366; 11_cascade R367, R369, R376, R377; 11_cascade Table CASC-5, Table CASC-9). -/
def Obligations.FramesActOnTheMemberTheyReach : Prop :=
  (∀ (s : State) (p : Nat) (h : HelloRec) (k : List KeyCopy), (s.tunnelState = tsOFF ∨ s.tunnelState = tsTRAINING ∨ s.tunnelState = tsLEAVING) → s.takeHello p h k = s) ∧
  (∀ (s : State) (p : Nat) (h : HelloRec) (k : List KeyCopy), s.tunnelState ≠ tsOFF → s.tunnelState ≠ tsTRAINING → s.tunnelState ≠ tsLEAVING → s.helloAgrees p h = false →
    h.position ≠ s.peerOf p → OnlyAlarm s (s.takeHello p h k) F.TUNNEL_ALARM_MISMATCH) ∧
  (∀ (s : State), s.otherMembers.all (fun m => hasBit (s.fld F.TUNNEL_STATUS_RESPONDING) m) = true → s.tunnelState = tsCHECKING → s.tunnel.reserved ≠ [] →
    s.settleChain = (s.tokenLibs.foldl (fun (a : State) l => a.settleToken l) s).setState tsMEMBER) ∧
  (∀ (s : State), s.otherMembers.all (fun m => hasBit (s.fld F.TUNNEL_STATUS_RESPONDING) m) = false → s.settleChain = s) ∧
  (∀ (s : State) (st : Nat), st < 8 → (s.setState st).tunnelState = st ∧ ((s.setState st).inChain = true ↔ st = tsMEMBER ∨ st = tsBROKEN)) ∧
  (∀ (s : State) (f : Frame), (s.inChain = false ∨ s.sumpReady = false ∨ 64 ≤ s.sump.recallQ.length) → s.takeQuery f = s.answerBusy (f.req.toNat / 2 ^ 29) f.req.toNat) ∧
  (∀ (s : State) (f : Frame), s.inChain = true → s.sumpReady = true → s.sump.recallQ.length < 64 → ∃ r : Request, r.kind = .served (f.req.toNat / 2 ^ 29) f.req.toNat ∧ r.start = f.arg1.toNat ∧
    r.key = payloadKey s.dim f.payload ∧ r.present = payloadPresent s.dim f.payload ∧ r.mask = f.arg0.toNat / 2 ^ 48 % 65536 ∧ r.k = max 1 (f.arg0.toNat / 2 ^ 42 % 64) ∧ r.q = f.arg0.toNat / 2 ^ 39 % 8 ∧
    s.takeQuery f = State.bump { s with sump := { s.sump with recallQ := s.sump.recallQ ++ [r] } } F.TUNNEL_SERVED_COUNT 1) ∧
  (∀ (s : State) (f : Frame), (s.req (f.req.toNat % 2 ^ 29) = none ∨ ∃ r, s.req (f.req.toNat % 2 ^ 29) = some r ∧ r.expect.contains f.src.toNat = false) → s.takeAnswer f = s.bump F.TUNNEL_LATE_ANS_COUNT 1) ∧
  (∀ (s : State) (f : Frame) (r : Request), s.req (f.req.toNat % 2 ^ 29) = some r → r.expect.contains f.src.toNat = true → ∃ r1 : Request, s.takeAnswer f = (s.setReq r1).endIfAnswered r.tag ∧
    f.src.toNat ∉ r1.expect ∧ (∀ m, m ≠ f.src.toNat → (m ∈ r1.expect ↔ m ∈ r.expect)) ∧ (f.arg0.toNat % 256 ≠ 0 → r1.answers = r.answers) ∧
    (f.arg0.toNat % 256 = 0 → ∃ a : Answer, r1.answers = r.answers ++ [a] ∧ a.from_ = f.src.toNat ∧ a.errBound = f.arg0.toNat / 2 ^ 48 % 65536 ∧ a.benchMiss = f.arg0.toNat / 2 ^ 32 % 65536 ∧ a.cands.length = f.arg0.toNat / 256 % 256)) ∧
  (∀ (s a : State) (f : Frame) (l e : Nat), l = f.arg0.toNat % 16 → s.holdsToken l = true → s.fileAppend l (payloadKey s.dim f.payload) f.arg1.toNat = (a, .filed e) →
    s.takeAppend f = a.sendTo (a.mkFrame ftACK f.src.toNat f.req.toNat (a.reportEntry l e) 0 [])) ∧
  (∀ (s a : State) (f : Frame) (l : Nat), l = f.arg0.toNat % 16 → s.holdsToken l = true → s.fileAppend l (payloadKey s.dim f.payload) f.arg1.toNat = (a, .refused) →
    s.takeAppend f = a.sendTo (a.mkFrame ftACK f.src.toNat f.req.toNat 0xFFFFFF 0 [])) ∧
  (∀ (s : State) (f : Frame) (l : Nat), l = f.arg0.toNat % 16 → s.holdsToken l = false → s.tokenHolder l ≠ s.position → s.takeAppend f = s.sendTo { f with dst := BitVec.ofNat 8 (s.tokenHolder l) }) ∧
  (∀ (s : State) (f : Frame), s.tunnel.appends.find? (fun w => w.serial == f.req.toNat % 2 ^ 29) = none → s.takeAck f = s) ∧
  (∀ (s a : State) (f : Frame) (w : AppendWait) (r : Request) (x : Result), s.tunnel.appends.find? (fun w => w.serial == f.req.toNat % 2 ^ 29) = some w → s.req w.tag = some r → r.record = some x → r.acks = [w.lib] →
    a = { s with tunnel := { s.tunnel with appends := s.tunnel.appends.filter (fun y => y != w) } } → f.arg0.toNat % 2 ^ 24 ≠ 0xFFFFFF → s.takeAck f = a.putAnswer r (x.filedAs w.lib (f.arg0.toNat % 2 ^ 24))) ∧
  (∀ (s : State) (f : Frame), f.arg1.toNat < s.fld (F.TUNNEL_LIB_GEN_GEN (f.arg0.toNat % 16)) → s.receiveToken f = s) ∧
  (∀ (s : State) (f : Frame) (l : Nat), l = f.arg0.toNat % 16 → f.arg1.toNat < 2 ^ 32 → s.fld (F.TUNNEL_LIB_GEN_GEN l) ≤ f.arg1.toNat → (s.receiveToken f).fld (F.TUNNEL_LIB_GEN_GEN l) = f.arg1.toNat ∧
    (s.receiveToken f).tokenHolder l = f.dst.toNat ∧ ((s.receiveToken f).holdsToken l = true ↔ f.dst.toNat = s.position) ∧
    s.receiveToken f = { s with regs := (s.receiveToken f).regs, tunnel := { s.tunnel with holder := (s.receiveToken f).tunnel.holder } }) ∧
  (∀ (s : State) (m : Nat), (s.inChain = false ∨ m = s.position ∨ s.chainSize ≤ m ∨ m ∈ s.tunnel.lost) → s.loseMember m = s) ∧
  (∀ (s : State) (f : Frame), s.tunnel.copying = [] → 1 < copyChunks s.dim → s.takeMirror f = { s with tunnel := { s.tunnel with copying := [⟨f.src.toNat, f.arg0.toNat % 16, f.arg0.toNat / 65536 % 65536, [⟨f.arg0.toNat / 2 ^ 32 % 65536, f.payload⟩]⟩] } }) ∧
  (∀ (s : State) (f : Frame), s.benchAt (f.arg0.toNat % 16) (f.arg0.toNat / 65536 % 65536 + hostedBase) = none → s.applyBenchOp f = s)

/-- JOIN, LEAVE, TOKEN_TAKE, port events and the cascade's timeouts act as their rules say, and before their time do nothing (11_cascade R361, R362, R366, R367, R368, R370; 11_cascade R359; 11_cascade Table CASC-5, Table CASC-9; 16_pins_package_test R508, R538). -/
def Obligations.ChainCommandsAndTimeoutsMoveTheTunnel : Prop :=
  (∀ s : State, Reached s 8 → s.tunnelState = tsOFF → s.fld F.TUNNEL_CFG_ROLE ≠ 0 → Answers .join s (fun t => t.tunnelState = tsTRAINING ∧ t.tunnel.joined = true ∧ t.fld (F.TEST_PRBS_CTRL_MODE 4) = 0 ∧ t.fld (F.TEST_PRBS_CTRL_MODE 5) = 0 ∧
    t.fld F.TUNNEL_CFG_ROLE = s.fld F.TUNNEL_CFG_ROLE ∧ t = { s with regs := t.regs, tunnel := { s.tunnel with joined := true } })) ∧
  (∀ s : State, Reached s 8 → (s.tunnelState ≠ tsOFF ∨ s.fld F.TUNNEL_CFG_ROLE = 0) → Answers .join s (fun t => OnlyAlarm s t F.TUNNEL_ALARM_CMD_REFUSED)) ∧
  (∀ s : State, Reached s 8 → s.inChain = true → s.tunnel.hosted = [] → exec .leave s = .next (s.setState tsLEAVING).settleLeave) ∧
  (∀ s : State, Reached s 8 → (s.inChain = false ∨ s.tunnel.hosted ≠ []) → Answers .leave s (fun t => OnlyAlarm s t F.TUNNEL_ALARM_CMD_REFUSED)) ∧
  (∀ (s : State), s.tunnelState = tsLEAVING → (s.serving = true → s.settleLeave = s) ∧ (s.serving = false → s.settleLeave = s.chainOff)) ∧
  (∀ (l : Lib) (s : State), Reached s 8 → s.inChain = true → (∀ h ∈ s.tunnel.hellos.filterMap Prod.snd, ∀ x, h.libs[l.toNat]? = some x → x.gen < 2 ^ 32 - 1) → s.fld (F.TUNNEL_LIB_GEN_GEN l.toNat) < 2 ^ 32 - 1 → Answers (.tokenTake l) s (fun t =>
    t.holdsToken l.toNat = true ∧ t.tokenHolder l.toNat = s.position ∧ s.fld (F.TUNNEL_LIB_GEN_GEN l.toNat) < t.fld (F.TUNNEL_LIB_GEN_GEN l.toNat) ∧
    (∀ h ∈ s.tunnel.hellos.filterMap Prod.snd, ∀ x, h.libs[l.toNat]? = some x → x.gen < t.fld (F.TUNNEL_LIB_GEN_GEN l.toNat)) ∧ t = { s with regs := t.regs, tunnel := { s.tunnel with holder := t.tunnel.holder } })) ∧
  (∀ (l : Lib) (s : State), Reached s 8 → s.inChain = false → Answers (.tokenTake l) s (fun t => OnlyAlarm s t F.TUNNEL_ALARM_CMD_REFUSED)) ∧
  (∀ (q : TPort) (n : BitVec 3) (s : State), exec (.tunnelLaneFault q n) s = .next (if s.portUp q.toNat = true then s.laneFault q.toNat n.toNat else s)) ∧
  (∀ (s : State) (p n : Nat), (s.recordFault (.tunnelLane p n) false).1 = false → s.laneFault p n = (s.recordFault (.tunnelLane p n) false).2.bump (F.TUNNEL_PORT_RETRAIN_COUNT p) 1) ∧
  (∀ (q : TPort) (s : State), (s.tunnelState = tsOFF ∨ s.rolePorts.contains q.toNat = false) → exec (.tunnelPortUp q) s = .next s) ∧
  (∀ (q : TPort) (s : State), s.tunnelState = tsTRAINING → s.rolePorts.contains q.toNat = true → lanesUp (s.fld (F.TUNNEL_PORT_STATUS_LANE_RETIRED q.toNat)) ≠ 0 → Answers (.tunnelPortUp q) s (fun t => ∃ a : State,
    a = (s.showPort q.toNat true).setTPort q.toNat { lastSent := s.now } ∧ a.portUp q.toNat = true ∧
    t = ((State.setState { a with tunnel := { a.tunnel with matchOut := true, syncLow := true } } tsCHECKING).showShares.takeReserve).sendFrame q.toNat (State.setState { a with tunnel := { a.tunnel with matchOut := true, syncLow := true } } tsCHECKING).helloFrame)) ∧
  (∀ s : State, exec .matchTimeout s = .next (if s.inChain = true ∧ s.tunnel.matchEdge + 400 ≤ s.now then s.loseMember ((s.position + s.chainSize - 1) % s.chainSize) else s)) ∧
  (∀ (q : TPort) (s : State) (x : Nat), (s.tport q.toNat).downAt = some x → exec (.portDownTimeout q) s = .next (if s.inChain = true ∧ s.rolePorts.contains q.toNat = true ∧ x + 100000 ≤ s.now then s.loseMember (s.peerOf q.toNat) else s)) ∧
  (∀ (s : State) (x : Nat), s.tunnel.helloAt = some x → (s.tunnelState ≠ tsCHECKING ∨ s.now < x + 10000000) → exec .checkingTimeout s = .next s) ∧
  (∀ (s : State) (x : Nat), s.tunnel.helloAt = some x → s.tunnelState = tsCHECKING → x + 10000000 ≤ s.now → s.tunnel.reserved ≠ [] → Answers .checkingTimeout s (fun t => ∃ a : State, ∃ gone : List Nat,
    a = s.tokenLibs.foldl (fun (a : State) l => a.settleToken l) s ∧ gone = a.otherMembers.filter (fun m => !hasBit (a.fld F.TUNNEL_STATUS_RESPONDING) m) ∧ (gone = [] → t = a.setState tsMEMBER) ∧
    (gone ≠ [] → t = gone.foldl (fun (b : State) m => b.loseMember m) (a.setState tsBROKEN)))) ∧
  (∀ (g : Word) (s : State) (r : Request), s.req g.toNat = some r → ((r.expect = [] ∨ s.now < r.deadline) → exec (.answerTimeout g) s = .next s) ∧
    (r.expect ≠ [] → r.deadline ≤ s.now → exec (.answerTimeout g) s = .next (((s.setReq { r with expect := [] }).alarm F.TUNNEL_ALARM_ANSWER_TIMEOUT 0).endIfAnswered g.toNat))) ∧
  (∀ (g : Word) (s : State), (∀ w ∈ s.tunnel.appends, w.tag = g.toNat → s.now < w.since + 100 * max 100 (s.fld F.TUNNEL_ANS_WAIT_US)) → exec (.appendAckTimeout g) s = .next s) ∧
  (∀ (g : Word) (s : State) (w : AppendWait), s.tunnel.appends = [w] → w.tag = g.toNat → w.since + 100 * max 100 (s.fld F.TUNNEL_ANS_WAIT_US) ≤ s.now → exec (.appendAckTimeout g) s = .next (s.dropAppend w)) ∧
  (∀ (s : State) (b : Barrier), s.firstBarrier = some b → exec .cascSyncHigh s = .next ((s.endBarrier b).chainCommand b true)) ∧ (∀ s : State, s.tunnel.barriers = [] → exec .cascSyncHigh s = .next s) ∧
  (∀ (s : State) (b : Barrier), s.tunnel.barriers.find? (fun b => b.since + 100000 ≤ s.now) = some b → exec .syncTimeout s = .next (((s.endBarrier b).alarm F.TUNNEL_ALARM_SYNC_TIMEOUT b.from_).chainCommand b false)) ∧
  (∀ s : State, (∀ b ∈ s.tunnel.barriers, s.now < b.since + 100000) → exec .syncTimeout s = .next s) ∧
  (∀ (s : State) (b : Barrier), (s.endBarrier b).tunnel.barriers = dropFirst b s.tunnel.barriers ∧ ((s.endBarrier b).tunnel.syncLow = true ↔ dropFirst b s.tunnel.barriers = []))

/-- Epoch boundaries, handshake reports and waits, close points, COMMIT_NOW and the accepted writes of CHISEL_LCAP, CHISEL_HOLD and CHISEL_LIB act as ruled (12_chisel_learning R380, R381, R382, R383, R385, R386; 12_chisel_learning R390, R391, R404, R407; 12_chisel_learning Table CHISEL-9). -/
def Obligations.EpochsEndHandshakesRunAndClosePointsFollow : Prop :=
  (∀ s : State, 100 ≤ s.epochLen ∧ s.epochLen ≤ 65500 ∧ 1 ≤ s.commitEvery) ∧
  (∀ s : State, (s.ticking = false ∨ s.tick < (s.epoch + 1) * s.epochLen) → exec .epochBoundary s = .next s) ∧
  (∀ s : State, s.ticking = true → (s.epoch + 1) * s.epochLen ≤ s.tick → Answers .epochBoundary s (fun t => ∃ a : State, t = (a.sendNotices).startEpochBarrier s.epoch ∧ (s.epoch + 1 < 2 ^ 64 → a.epoch = s.epoch + 1) ∧
    a.chisel = { s.chisel with enLast := s.chisel.en, en := s.bit F.CHISEL_CFG_EN, closes := s.chisel.closes ++ [(s.epoch, s.now + s.closeWait)] } ∧
    a = { s with regs := a.regs, chisel := a.chisel } ∧ ∀ x, x ≠ R.CHISEL_EPOCH_LO → x ≠ R.CHISEL_EPOCH_HI → a.reg x = s.reg x)) ∧
  (∀ (m : Msg) (s : State), s.oldest m = false → exec (.hsDone m) s = .next s) ∧
  (∀ (m : Msg) (i : Nat) (s : State), s.oldest m = true → endpoint m.dest.toNat = .chisel i → m.tag.toNat ≠ tagHS_DONE → exec (.hsDone m) s = .next ((s.unlist m).bump F.CHISEL_BADTAG_COUNT 1)) ∧
  (∀ (m : Msg) (i : Nat) (s : State) (x : Nat), s.oldest m = true → endpoint m.dest.toNat = .chisel i → m.tag.toNat = tagHS_DONE → (msgWord m 0).toNat = s.epoch → s.chisel.hsAt = some x → s.chisel.pendingCores = [m.src.toNat] →
    Answers (.hsDone m) s (fun t => t.chisel = { s.chisel with pendingCores := [], hsAt := none, snapDue := true } ∧ t.fld F.CHISEL_STATUS_HS_PENDING = 0)) ∧
  (∀ (m : Msg) (i : Nat) (s : State) (l : List Nat), s.oldest m = true → endpoint m.dest.toNat = .chisel i → m.tag.toNat = tagHS_DONE → (msgWord m 0).toNat = s.epoch → m.src.toNat ∈ s.chisel.pendingCores →
    l = s.chisel.pendingCores.filter (fun c => c != m.src.toNat) → l ≠ [] → exec (.hsDone m) s = .next ((s.unlist m).setPendingCores l)) ∧
  (∀ (s : State) (x : Nat), s.chisel.hsAt = some x → s.now < x → exec .hsWaitExpiry s = .next s) ∧
  (∀ (s : State) (x : Nat), s.chisel.hsAt = some x → x ≤ s.now → s.chisel.pendingCores = [] → Answers .hsWaitExpiry s (fun t => t.chisel = { s.chisel with hsAt := none, snapDue := true } ∧ t.bit F.CHISEL_ALARM_HS_LATE = true)) ∧
  (∀ (s : State) (k x : Nat) (r : List (Nat × Nat)), s.chisel.closes = (k, x) :: r → (s.now < x ∨ s.chiselReady = false ∨ s.lanternRuns = false ∨ s.chisel.exportSt ≠ none) → exec .closePoint s = .next s) ∧
  (∀ (s : State) (k x : Nat) (r : List (Nat × Nat)), s.chisel.closes = (k, x) :: r → x ≤ s.now → s.chiselReady = true → s.lanternRuns = true → s.chisel.exportSt = none → s.chisel.loads = [] → s.learnOn k = false → Answers .closePoint s (fun t =>
    t = { s with chisel := { s.chisel with closes := r, closed := some k, hold := s.chisel.hold.filter (fun h => h.epoch != k), commitNow := s.chisel.commitNow.filter (fun j => j != k) } })) ∧
  (∀ (s : State) (k x : Nat) (r : List (Nat × Nat)), s.chisel.closes = (k, x) :: r → x ≤ s.now → s.chiselReady = true → s.lanternRuns = true → s.chisel.exportSt = none → exec .closePoint s = .next (s.closePoint k)) ∧
  (∀ s : State, Reached s 6 → Answers .commitNow s (fun t => t = { s with chisel := t.chisel } ∧ t.isCommitEpoch s.epoch = true ∧ t.chisel.commitNow = s.chisel.commitNow.filter (fun j => j != s.epoch) ++ [s.epoch])) ∧
  (∀ (h : Bool) (v : Word) (s : State), Reached s 6 → s.bit F.CHISEL_CFG_EN = true → Answers (.chiselLcapWrite h v) s (fun t => OnlyAlarm s t F.CHISEL_ALARM_CFG_BUSY)) ∧
  (∀ (v : Word) (s : State), Reached s 6 → s.bit F.CHISEL_CFG_EN = false → v.toNat % 2 ^ 20 ≤ s.fld F.CHISEL_LCAP_ENTRIES → Answers (.chiselLcapWrite false v) s (fun t => OnlyRegs s t [R.CHISEL_LCAP] ∧ t.fld F.CHISEL_LCAP_ENTRIES = v.toNat % 2 ^ 20)) ∧
  (∀ (v : Word) (s : State), Reached s 6 → s.bit F.CHISEL_CFG_EN = false → v.toNat % 2 ^ 20 ≤ s.fld F.CHISEL_HOLD_SLOTS → Answers (.chiselLcapWrite true v) s (fun t => OnlyRegs s t [R.CHISEL_HOLD] ∧ t.fld F.CHISEL_HOLD_SLOTS = v.toNat % 2 ^ 20)) ∧
  (∀ (l : Lib) (v : Word) (s : State), Reached s 6 → s.learningLib l.toNat = false → v.getLsbD 31 = true → (s.libActive l.toNat = false ∨ s.libKind l.toNat ≠ 0 ∨ s.isSpan l.toNat = true ∨ s.fld F.CHISEL_LCAP_ENTRIES < s.learnRoom l.toNat) →
    Answers (.chiselLibLearnWrite l v) s (fun t => t.learningLib l.toNat = false ∧ t.bit F.CHISEL_ALARM_CFG_BUSY = true ∧ t.reg (R.CHISEL_LIB l.toNat) = v &&& 0x600000FF#32)) ∧
  (∀ (l : Lib) (v : Word) (s : State), Reached s 6 → s.learningLib l.toNat = false → v.getLsbD 31 = true → s.libActive l.toNat = true → s.libKind l.toNat = 0 → s.isSpan l.toNat = false → s.learnRoom l.toNat ≤ s.fld F.CHISEL_LCAP_ENTRIES →
    exec (.chiselLibLearnWrite l v) s = .next (((s.setReg (R.CHISEL_LIB l.toNat) (v &&& 0x600000FF#32)).setFld (F.CHISEL_LIB_LEARN l.toNat) 1).seedLib l.toNat true))

/-- CONFIRM completes with the first status of R393 that applies, or applies its verdict; EXPORT opens one export at a time; LOAD_SHADOW keeps its records (12_chisel_learning R393, R392, R400, R405, R406, R407; 12_chisel_learning Table CHISEL-2; 13_host_rings Table HOST-5; 13_host_rings R422, R424). -/
def Obligations.ConfirmationsExportsAndLoadsComplete : Prop :=
  (∀ (r : Ring) (i : Word) (s : State) (x : LibDesc) (n v k : Nat), LearnTaken s r i 14 false x → n = x.arg0 % 65536 → v = x.arg0 / 65536 % 256 → k = s.windowEpoch n x.arg2 →
    ((x.arg0 / 2 ^ 24 % 16 ≠ x.lib ∨ v < 1 ∨ 4 < v) → LibEnds (.confirm r i) s r i s 0x03 0 0) ∧
    (x.arg0 / 2 ^ 24 % 16 = x.lib → 1 ≤ v → v ≤ 4 →
      ((s.learnOn k = false ∨ s.bit (F.CHISEL_STREAM_LEARN n) = false) → LibEnds (.confirm r i) s r i (s.bump F.CHISEL_CONF_DROPS_COUNT 1) stLEARN_OFF 0 0) ∧
      (s.learnOn k = true → s.bit (F.CHISEL_STREAM_LEARN n) = true →
        (s.epochClosed k = true → LibEnds (.confirm r i) s r i ((s.bump F.CHISEL_LATE_COUNT 1).bump F.CHISEL_CONF_DROPS_COUNT 1) stEPOCH_CLOSED 0 0) ∧
        (s.epochClosed k = false → s.chisel.hold.find? (fun h => h.stream == n && h.start == x.arg2) = none → LibEnds (.confirm r i) s r i (s.bump F.CHISEL_CONF_DROPS_COUNT 1) stNOT_HELD 0 0) ∧
        (∀ (h : HoldSlot) (w : Nat × Nat × Nat), s.epochClosed k = false → s.chisel.hold.find? (fun h => h.stream == n && h.start == x.arg2) = some h → w = (if v ≤ 2 then (v, x.lib, x.arg1 % 2 ^ 24) else (v, 0, 0)) →
          (w ∈ h.applied → LibEnds (.confirm r i) s r i (s.bump F.CHISEL_CONF_DROPS_COUNT 1) stDUPLICATE 0 0) ∧
          (w ∉ h.applied → v = 3 → s.poolFull = true → LibEnds (.confirm r i) s r i ((s.alarm F.CHISEL_ALARM_POOL_FULL x.lib).bump F.CHISEL_CONF_DROPS_COUNT 1) stPOOL_FULL 0 0) ∧
          (w ∉ h.applied → v = 3 → s.poolFull = false → LibEnds (.confirm r i) s r i ((s.newProto x.lib k h.key (s.fld F.CHISEL_POOL_MIN_HITS) x.arg3).tookUpdate.noteVerdict h w) stAPPLIED 0 0) ∧
          (w ∉ h.applied → v = 4 → LibEnds (.confirm r i) s r i ((s.learnBg n k h.key (presentMask s.dim h.present) s.wSup).noteVerdict h w) stAPPLIED 0 0) ∧
          (w ∉ h.applied → v ≤ 2 → s.entryAt x.lib (x.arg1 % 2 ^ 24) = none → LibEnds (.confirm r i) s r i (s.bump F.CHISEL_CONF_DROPS_COUNT 1) stENTRY_GONE 0 0) ∧
          (∀ b c, w ∉ h.applied → v ≤ 2 → s.entryAt x.lib (x.arg1 % 2 ^ 24) = some (b, c) → ((s.entry b c).state = esEMPTY ∨ (s.entry b c).state = esQUARANTINED ∨ (s.benchOf b).state = .retired ∨ s.learningLib x.lib = false) →
            LibEnds (.confirm r i) s r i (s.bump F.CHISEL_CONF_DROPS_COUNT 1) stENTRY_GONE 0 0) ∧
          (∀ b c q, w ∉ h.applied → v ≤ 2 → s.entryAt x.lib (x.arg1 % 2 ^ 24) = some (b, c) → (s.entry b c).state ≠ esEMPTY → (s.entry b c).state ≠ esQUARANTINED → (s.benchOf b).state ≠ .retired → s.learningLib x.lib = true → s.shadow b c = some q →
            LibEnds (.confirm r i) s r i (((s.setShadow b c (some (q.add s.dim k h.key (presentMask s.dim h.present) (if v = 1 then s.wSup else -s.wSup)))).tookUpdate).noteVerdict h w) stAPPLIED 0 0))))) ∧
  (∀ (r : Ring) (i : Word) (s : State) (x : LibDesc) (kind : Nat), LearnTaken s r i 12 false x → kind = x.arg0 % 8 →
    ((kind < 1 ∨ 4 < kind ∨ s.isExportRing x.export_ = false ∨ (kind = 2 ∧ x.arg1 / 65536 < x.arg1 % 65536) ∨ (kind = 3 ∧ x.arg1 / 65536 < x.arg1 % 65536)) → LibEnds (.exportOp r i) s r i s 0x03 0 0) ∧
    (1 ≤ kind → kind ≤ 4 → s.isExportRing x.export_ = true → x.arg1 % 65536 ≤ x.arg1 / 65536 → s.chisel.exportSt ≠ none → LibEnds (.exportOp r i) s r i s 0x0B 0 0) ∧
    (∀ recs k, 1 ≤ kind → kind ≤ 4 → s.isExportRing x.export_ = true → x.arg1 % 65536 ≤ x.arg1 / 65536 → s.chisel.exportSt = none → k = s.chisel.closed.getD 0 → recs = s.exportRecords kind k x.lib (x.arg1 % 65536) (x.arg1 / 65536) →
      exec (.exportOp r i) s = .next (((State.setFld { s with chisel := { s.chisel with exportSt := some ⟨r.toNat, i.toNat, kind⟩ } } F.CHISEL_STATUS_EXPORT_OPEN 1).exportOut x.export_
        { ring := r.toNat, idx := i.toNat, tag := x.tag, bytes := recs.flatMap id ++ exportRecord 0xFF 0 k 0 0 (recs.length % 65536) 0 [], result := recs.length, learn := true }).beginDesc r.toNat i.toNat))) ∧
  (∀ (r : Ring) (i : Word) (buf : List Byte) (s : State) (x : LibDesc), LearnTaken s r i 13 true x →
    (items x (48 + s.dim) buf = none → LibEnds (.loadShadow r i buf true) s r i s 0x03 0 0) ∧
    (∀ l, items x (48 + s.dim) buf = some l → LibEnds (.loadShadow r i buf true) s r i
      (State.bump { s with chisel := { s.chisel with loads := s.chisel.loads ++ l.filterMap s.parseProto } } F.CHISEL_SHADOW_DISCARDS_COUNT (l.length - (l.filterMap s.parseProto).length)) 0x00 0 (l.filterMap s.parseProto).length))

/-- Bundling and closing keep every learning counter in [-128, 127], follow R389 and R390 in every dimension, and due entries stand in the order of R402 (12_chisel_learning R389, R390, R387, R401; 02_hypervector_algebra R68). -/
def Obligations.LearningCountersCloseWithinTheirRange : Prop :=
  (∀ (dim : Nat) (u : List Int) (q m : Key) (w : Int), (addKey dim u q m w).length = dim ∧
    (∀ d, d < dim → (addKey dim u q m w).getD d 0 = if m.getLsbD d = true then sat8 (u.getD d 0 + w * (if q.getLsbD d = true then -1 else 1)) else u.getD d 0) ∧
    ((∀ x ∈ u, -128 ≤ x ∧ x ≤ 127) → ∀ x ∈ addKey dim u q m w, -128 ≤ x ∧ x ≤ 127)) ∧
  (∀ (dim k : Nat) (p u : List Int), (closeCounters dim k p u).length = dim ∧
    (∀ d, d < dim → (closeCounters dim k p u).getD d 0 = sat8 (p.getD d 0 - (if k = 0 then 0 else p.getD d 0 >>> k) + u.getD d 0)) ∧ ∀ x ∈ closeCounters dim k p u, -128 ≤ x ∧ x ≤ 127) ∧
  (∀ (h : Shadow) (dim decay k : Nat), k % 2 = 0 → h.close dim decay k = { h with p := closeCounters dim decay h.p h.u0, u0 := [], hits := h.hits + h.n0, n0 := 0 }) ∧
  (∀ (h : Shadow) (dim decay k : Nat), k % 2 = 1 → h.close dim decay k = { h with p := closeCounters dim decay h.p h.u1, u1 := [], hits := h.hits + h.n1, n1 := 0 }) ∧
  (∀ (h : Shadow) (dim k : Nat) (q m : Key) (w : Int), k % 2 = 0 → h.add dim k q m w = { h with u0 := addKey dim h.u0 q m w, n0 := h.n0 + 1 }) ∧
  (∀ (h : Shadow) (dim k : Nat) (q m : Key) (w : Int), k % 2 = 1 → h.add dim k q m w = { h with u1 := addKey dim h.u1 q m w, n1 := h.n1 + 1 }) ∧
  (∀ l : List DueEntry, (l.foldl (fun a x => insDue x a) []).Perm l ∧ (l.foldl (fun a x => insDue x a) []).Pairwise (fun a b => b.delta < a.delta ∨ (b.delta = a.delta ∧ a.entry ≤ b.entry)))

/-- A completion writes bytes 56 to 63 of its descriptor's slot, its index is no longer taken, DEV_INDEX covers the leading run, and no other byte changes (13_host_rings R417, R418, R422, R426, R431; 13_host_rings Table HOST-2, Table HOST-4). -/
def Obligations.CompletionsWriteTheirEightBytes : Prop :=
  (∀ (s : State) (r i st cf aux res : Nat), r < 64 → s.ringState r ≠ ringDISABLED → i ∉ (s.ring r).orphans →
    (∀ k, k < 8 → (s.slotAddr r i + 64 ≤ s.get64 R.HOST_SP_LO / 4096 * 4096 + 64 * r ∨ s.get64 R.HOST_SP_LO / 4096 * 4096 + 64 * r + 8 ≤ s.slotAddr r i + 56) →
      (s.complete r i st cf aux res).hostByte (s.slotAddr r i + 56 + k) = some ((bytesLE 1 st ++ bytesLE 1 (cf ||| 1) ++ bytesLE 2 aux ++ bytesLE 4 res).getD k 0)) ∧
    (∀ x, (x < s.slotAddr r i + 56 ∨ s.slotAddr r i + 64 ≤ x) → (x < s.get64 R.HOST_SP_LO / 4096 * 4096 + 64 * r ∨ s.get64 R.HOST_SP_LO / 4096 * 4096 + 64 * r + 8 ≤ x) →
      (s.complete r i st cf aux res).hostByte x = s.hostByte x) ∧
    ((s.complete r i st cf aux res).ring r).taken = (s.ring r).taken.filter (fun e => e.1 != i) ∧
    (s.complete r i st cf aux res).devIndex r = idxAdd (s.devIndex r) (runFrom (i :: (s.ring r).doneIdx) ((s.ring r).doneIdx.length + 1) (s.devIndex r))) ∧
  (∀ (s : State) (r i st cf aux res : Nat), (s.ringState r = ringDISABLED ∨ i ∈ (s.ring r).orphans) → (s.complete r i st cf aux res).hostMem = s.hostMem ∧
    (s.complete r i st cf aux res).fld (F.HOST_RING_FLUSHED_COUNT r) = min (s.fld (F.HOST_RING_FLUSHED_COUNT r) + 1) (2 ^ (F.HOST_RING_FLUSHED_COUNT r).w - 1))

/-- Host memory, HBM and SRAM read back what was written, keep every other byte, and keep their canonical form; a new HBM page reads as zero around a write (13_host_rings R443, R417; 00_scope R10; 05_flint_instructions R165; 04_gallery_fabric R147). -/
def Obligations.MemoriesReadBackAndKeepTheirForm : Prop :=
  (∀ (s : State) (a : Nat) (bs : List Byte) (x : Nat), (s.hostWrite a bs).hostByte x = if a ≤ x ∧ x < a + bs.length then some (bs.getD (x - a) 0) else s.hostByte x) ∧
  (∀ (k : CoreSt) (a : Nat) (bs : List Byte) (x : Nat), (k.store a bs).byte x = if a ≤ x ∧ x < a + bs.length then bs.getD (x - a) 0 else k.byte x) ∧
  (∀ (s : State) (a : Nat) (bs : List Byte) (x : Nat), (s.hbmWrite a bs).hbmByte x = if a ≤ x ∧ x < a + bs.length then bs.getD (x - a) 0 else s.hbmByte x) ∧
  (∀ (s : State) (x : Nat), tget (fun _ => false) s.hbmPages (x / 4096) = false → s.hbmByte x = 0) ∧
  (∀ (s : State) (a : Nat) (bs : List Byte), Memory.wf s = true → Memory.wf (s.hostWrite a bs) = true ∧ Memory.wf (s.hbmWrite a bs) = true) ∧
  (∀ (s : State) (c : Nat) (k : CoreSt) (a : Nat) (bs : List Byte), Memory.wf s = true → k.memWf = true → Memory.wf (s.setCore c (k.store a bs)) = true) ∧
  (∀ (s : State) (a : Nat) (v : Word), Memory.wf s = true → Memory.wf (s.setReg a v) = true) ∧ Memory.wf State.reset = true

/-- Rings are enabled, filled, disabled and stopped as Table HOST-9 says, and doorbells release descriptors in index order; CANCEL marks those not yet taken (13_host_rings R425, R429, R430, R422, R424, R428; 13_host_rings R419, R420, R432; 13_host_rings Table HOST-9; 15_power_health R481). -/
def Obligations.RingsMoveThroughTheStatesOfTheirTable : Prop :=
  (∀ (r : Ring) (cfg : Word) (h : Option Word) (s : State), Reached s 1 → s.ringState r.toNat ≠ ringDISABLED → Answers (.ringEnable r cfg h) s (fun t => OnlyAlarm s t F.HOST_ALARM_CMD_REFUSED)) ∧
  (∀ (r : Ring) (cfg : Word) (h : Option Word) (s : State), Reached s 1 → s.ringState r.toNat = ringDISABLED →
    exec (.ringEnable r cfg h) s = .next ((s.setReg (R.HOST_RING_CFG r.toNat) (cfg &&& 0x7FFFBF00#32)).enableRing r.toNat (h.map (fun h => h.toNat)))) ∧
  (∀ (s : State) (r : Nat) (h : Option Nat), s.ringValid r = false → OnlyAlarm s (s.enableRing r h) F.HOST_ALARM_CMD_REFUSED) ∧
  (∀ (s : State) (r h : Nat), r < 64 → h < 2 ^ 32 → s.ringValid r = true → isSubmission (s.ringType r) = true → (s.enableRing r (some h)).ringState r = ringACTIVE ∧ (s.enableRing r (some h)).hostIndex r = h ∧
    (s.enableRing r (some h)).devIndex r = h ∧ ((s.enableRing r (some h)).ring r).next = h ∧ ((s.enableRing r (some h)).ring r).taken = [] ∧ ((s.enableRing r (some h)).ring r).marks = [] ∧ ∀ q, q ≠ r → (s.enableRing r (some h)).ring q = s.ring q) ∧
  (∀ (s : State) (r : Nat) (h : Option Nat), r < 64 → s.ringValid r = true → isSubmission (s.ringType r) = false → (s.enableRing r h).ringState r = ringINIT ∧ (s.enableRing r h).devIndex r = 0) ∧
  (∀ (r : Ring) (ok : Bool) (s : State), (s.ringState r.toNat ≠ ringINIT ∨ isSubmission (s.ringType r.toNat) = true) → exec (.ringZeroFillDone r ok) s = .next s) ∧
  (∀ (r : Ring) (s : State), s.ringState r.toNat = ringINIT → isSubmission (s.ringType r.toNat) = false → exec (.ringZeroFillDone r false) s = .next (s.ringError r.toNat) ∧
    exec (.ringZeroFillDone r true) s = .next ((s.hostWrite (s.get64 (R.HOST_RING_BASE_LO r.toNat)) (List.replicate (64 * s.ringSize r.toNat) 0)).setRingState r.toNat ringACTIVE)) ∧
  (∀ (s : State) (r st : Nat), r < 64 → st < 8 → (s.setRingState r st).ringState r = st ∧ (s.linkUp = true → (∀ x, x < 4 → (s.setRingState r st).hostByte (s.get64 R.HOST_SP_LO / 4096 * 4096 + 64 * r + 4 + x) = some ((bytesLE 4 st).getD x 0)))) ∧
  (∀ (r : Ring) (s : State), Reached s 1 → (s.ringState r.toNat = ringACTIVE ∨ s.ringState r.toNat = ringERROR) → exec (.ringDisable r) s = .next (s.disableRing r.toNat)) ∧
  (∀ (r : Ring) (s : State), Reached s 1 → s.ringState r.toNat ≠ ringACTIVE → s.ringState r.toNat ≠ ringERROR → Answers (.ringDisable r) s (fun t => OnlyAlarm s t F.HOST_ALARM_CMD_REFUSED)) ∧
  (∀ (s : State) (r : Nat), isSubmission (s.ringType r) = false → s.disableRing r = (s.setBit (F.HOST_RING_CFG_EN r) false).setRingState r ringSTOPPING) ∧
  (∀ (r : Ring) (s : State), (s.ringState r.toNat ≠ ringSTOPPING ∨ (s.ring r.toNat).taken ≠ []) → exec (.ringStopped r) s = .next s) ∧
  (∀ (r : Ring) (s : State), s.ringState r.toNat = ringSTOPPING → (s.ring r.toNat).taken = [] → Answers (.ringStopped r) s (fun t => t.ringState r.toNat = ringDISABLED ∧ (t.ring r.toNat).marks = [])) ∧
  (∀ (d : Doorbell) (s : State), (s.alive = false ∨ s.linkUp = false) → exec (.kick d) s = .next s) ∧
  (∀ (d : Doorbell) (s : State), s.alive = true → s.linkUp = true → exec (.kick d) s = .next (if s.asleep = true then s.bump F.POWER_ASLEEP_ACCESS_COUNT 1 else s.readDoorbell d)) ∧
  (∀ (l : List Doorbell) (s : State), (s.alive = false ∨ s.linkUp = false ∨ s.asleep = true ∨ s.fld F.HOST_POLL_US = 0 ∨ s.now < s.host.polledAt + s.pollEvery) → exec (.doorbellPoll l) s = .next s) ∧
  (∀ (d : Doorbell) (s a : State), s.alive = true → s.linkUp = true → s.asleep = false → s.fld F.HOST_POLL_US ≠ 0 → s.host.polledAt + s.pollEvery ≤ s.now → a = { s with host := { s.host with polledAt := s.now } } →
    exec (.doorbellPoll [d]) s = .next (if s.ringState d.ring.toNat = ringACTIVE ∨ s.ringState d.ring.toNat = ringSTOPPING then a.readDoorbell d else a)) ∧
  (∀ (d : Doorbell) (s : State), d.host = none → s.readDoorbell d = s.ringError d.ring.toNat) ∧
  (∀ (d : Doorbell) (s : State) (h : Word), d.host = some h → s.readDoorbell d = if isSubmission (s.ringType d.ring.toNat) = true then (s.setFld (F.HOST_RING_HOST_INDEX d.ring.toNat) h.toNat).takeDescs d.ring.toNat d.descs
    else s.setFld (F.HOST_RING_HOST_INDEX d.ring.toNat) h.toNat) ∧
  (∀ (s : State) (r : Nat) (d : Option Slot) (l : List (Option Slot)), ((s.ring r).next = s.hostIndex r ∨ s.mayTake r = false) → s.takeDescs r (d :: l) = s) ∧
  (∀ (s : State) (r : Nat) (d : Option Slot) (l : List (Option Slot)), (s.ring r).next ≠ s.hostIndex r → s.mayTake r = true → marked (s.ring r).marks (s.ring r).next = true → s.takeDescs r (d :: l) =
    ((s.setRing r { s.ring r with next := idxAdd (s.ring r).next 1, marks := unmark (s.ring r).marks (s.ring r).next }).complete r (s.ring r).next 0x02 0 0 0).takeDescs r l) ∧
  (∀ (s : State) (r : Nat) (w : Slot) (l : List (Option Slot)), (s.ring r).next ≠ s.hostIndex r → s.mayTake r = true → marked (s.ring r).marks (s.ring r).next = false → s.takeDescs r (some w :: l) =
    (if opListed (s.ringType r) (slotField w 0 1) = true then s.setRing r { s.ring r with next := idxAdd (s.ring r).next 1, taken := (s.ring r).taken ++ [((s.ring r).next, w)] } else
      (s.setRing r { s.ring r with next := idxAdd (s.ring r).next 1, taken := (s.ring r).taken ++ [((s.ring r).next, w)] }).complete r (s.ring r).next 0x03 0 0 0).takeDescs r l) ∧
  (∀ (r : Ring) (v : Word64) (s : State), s.alive = true → s.linkUp = true → s.asleep = false → (v.toNat / 2 ^ 48 ≠ 0 ∨ isSubmission (s.ringType r.toNat) = false ∨ s.ringState r.toNat ≠ ringACTIVE) → exec (.cancel r v) s = .next s.accessError) ∧
  (∀ (r : Ring) (v : Word64) (s : State) (c n : Nat), s.alive = true → s.linkUp = true → s.asleep = false → v.toNat / 2 ^ 48 = 0 → isSubmission (s.ringType r.toNat) = true → s.ringState r.toNat = ringACTIVE →
    c = v.toNat % 2 ^ 32 → n = v.toNat / 2 ^ 32 % 65536 → n ≠ 0 → (s.ring r.toNat).next = c → Answers (.cancel r v) s (fun t => (t.ring r.toNat).marks = (s.ring r.toNat).marks ++ [(c, n)])) ∧
  (∀ (c n i : Nat), n ≤ 65536 → c < 2 ^ 32 → i < n → marked (unmark [(c, n)] (idxAdd c i)) (idxAdd c i) = false ∧ ∀ j, j < n → j ≠ i → marked (unmark [(c, n)] (idxAdd c i)) (idxAdd c j) = true)

/-- Host queries join RECALL or complete with their status, export buffers take the oldest output, IRQ timers send messages, backlogs drain in order (13_host_rings R427, R434, R436, R438, R432; 13_host_rings Table HOST-7, Table HOST-5; 09_associative_search R302). -/
def Obligations.QueriesExportsMessagesAndBacklogsRun : Prop :=
  (∀ (r : Ring) (i : Word) (buf : List Byte) (ok : Bool) (s : State) (d : Slot), s.takenDesc r.toNat i.toNat 1 = some d → s.fatal = false → slotField d 0 1 = 1 →
    ((queryReserved d = true ∨ 32 < slotField d 18 1) → LibEnds (.search r i buf ok) s r i s 0x03 0 0) ∧
    (queryReserved d = false → slotField d 18 1 ≤ 32 → s.sumpReady = false → LibEnds (.search r i buf ok) s r i s 0x0A 0 0) ∧
    (queryReserved d = false → slotField d 18 1 ≤ 32 → s.sumpReady = true → ok = false → LibEnds (.search r i buf ok) s r i s.dmaError 0x04 0 0) ∧
    (queryReserved d = false → slotField d 18 1 ≤ 32 → s.sumpReady = true → ok = true → 64 ≤ s.sump.recallQ.length → exec (.search r i buf ok) s = .next s) ∧
    (queryReserved d = false → slotField d 18 1 ≤ 32 → s.sumpReady = true → ok = true → s.sump.recallQ.length < 64 → ∃ q : Request, exec (.search r i buf ok) s = .next (s.queueRecall r.toNat i.toNat q) ∧ q.kind = .host r.toNat i.toNat ∧
      q.stream = slotField d 4 2 ∧ q.start = slotField d 24 8 ∧ q.mask = slotField d 16 2 ∧ q.k = slotField d 18 1 ∧ q.q = slotField d 19 1 % 16 ∧ q.append = hasBit (slotField d 19 1) 4 ∧ q.ring = s.fld (F.HOST_RING_CFG_RESULT_RING r.toNat))) ∧
  (∀ (r : Ring) (i : Word) (buf : List Byte) (ok : Bool) (s : State) (d : Slot), s.takenDesc r.toNat i.toNat 1 = some d → s.fatal = false → slotField d 0 1 = 2 →
    ((queryReserved d = true ∨ 2 < slotField d 21 1 ∨ s.isExportRing (slotField d 22 1) = false) → LibEnds (.matrix r i buf ok) s r i s 0x03 0 0) ∧
    (queryReserved d = false → slotField d 21 1 ≤ 2 → s.isExportRing (slotField d 22 1) = true →
      (s.sumpReady = false → LibEnds (.matrix r i buf ok) s r i s 0x0A 0 0) ∧ (s.sumpReady = true → s.bit (F.SUMP_MTX_VALID (slotField d 20 1)) = false → LibEnds (.matrix r i buf ok) s r i s 0x08 0 0) ∧
      (s.sumpReady = true → s.bit (F.SUMP_MTX_VALID (slotField d 20 1)) = true → ok = true → s.sump.recallQ.length < 64 → ∃ q : Request, exec (.matrix r i buf ok) s = .next (s.queueRecall r.toNat i.toNat q) ∧ q.kind = .matrix r.toNat i.toNat ∧
        q.matrix = slotField d 20 1 ∧ q.inkind = slotField d 21 1 ∧ q.export_ = slotField d 22 1 ∧ q.rows = matrixInput (slotField d 21 1) (s.fld (F.SUMP_MTX_SHAPE_ROWS (slotField d 20 1))) buf))) ∧
  (∀ (r : Ring) (i : Word) (ok : Bool) (s : State) (d : Slot), s.takenDesc r.toNat i.toNat 3 = some d → s.fatal = false → (s.ring r.toNat).taken.head?.map Prod.fst = some i.toNat →
    ((slotField d 1 3 ≠ 0 ∨ slotField d 8 8 % 64 ≠ 0 ∨ slotField d 16 4 % 64 ≠ 0 ∨ slotField d 16 4 < 4096 ∨ 16777216 < slotField d 16 4 ∨ slotField d 20 36 ≠ 0) → LibEnds (.exportBuffer r i ok) s r i s 0x03 0 0) ∧
    (slotField d 1 3 = 0 → slotField d 8 8 % 64 = 0 → slotField d 16 4 % 64 = 0 → 4096 ≤ slotField d 16 4 → slotField d 16 4 ≤ 16777216 → slotField d 20 36 = 0 →
      ((s.ring r.toNat).exports = [] → exec (.exportBuffer r i ok) s = .next s) ∧
      (∀ q rest, (s.ring r.toNat).exports = q :: rest → slotField d 16 4 < q.bytes.length → ok = true → exec (.exportBuffer r i ok) s = .next (((((s.setRing r.toNat { s.ring r.toNat with exports := { q with bytes := q.bytes.drop (slotField d 16 4), first := false } :: rest }).hostWrite (slotField d 8 8) (q.bytes.take (slotField d 16 4))).hostWrite
        (s.slotAddr r.toNat i.toNat + 48) (bytesLE 4 q.tag ++ bytesLE 1 q.ring ++ bytesLE 3 0)).complete r.toNat i.toNat 0x00 ((if q.first = true then 16 else 0) + (if q.uninit = true then 2 else 0)) 0 (slotField d 16 4)))) ∧
      (∀ q rest, (s.ring r.toNat).exports = q :: rest → q.bytes.length ≤ slotField d 16 4 → q.closed = true → ok = true → exec (.exportBuffer r i ok) s = .next ((((((s.setRing r.toNat { s.ring r.toNat with exports := rest }).hostWrite (slotField d 8 8) q.bytes).hostWrite
        (s.slotAddr r.toNat i.toNat + 48) (bytesLE 4 q.tag ++ bytesLE 1 q.ring ++ bytesLE 3 0)).complete r.toNat i.toNat 0x00 ((if q.first = true then 16 else 0) + 32 + (if q.uninit = true then 2 else 0)) 0 q.bytes.length).endExport q q.status q.result))))) ∧
  (∀ (r : Ring) (s : State), (s.fld (F.HOST_RING_IRQ_TIME_US r.toNat) = 0 ∨ s.fld (F.HOST_RING_IRQ_COUNT r.toNat) = 0 ∨ (s.ring r.toNat).irqCount = 0 ∨ s.now < (s.ring r.toNat).irqAt + 100 * s.fld (F.HOST_RING_IRQ_TIME_US r.toNat)) → exec (.irqTimer r) s = .next s) ∧
  (∀ (r : Ring) (s : State), s.fld (F.HOST_RING_IRQ_TIME_US r.toNat) ≠ 0 → s.fld (F.HOST_RING_IRQ_COUNT r.toNat) ≠ 0 → (s.ring r.toNat).irqCount ≠ 0 → (s.ring r.toNat).irqAt + 100 * s.fld (F.HOST_RING_IRQ_TIME_US r.toNat) ≤ s.now →
    exec (.irqTimer r) s = .next ((s.setRing r.toNat { s.ring r.toNat with irqCount := 0 }).sendMsi (s.fld (F.HOST_RING_CFG_VECTOR r.toNat)))) ∧
  (∀ (s : State) (v : Nat), s.regBit (0x10800C + 16 * v) 0 = false → s.sendMsi v = { s with host := { s.host with msix := v :: s.host.msix } }) ∧
  (∀ (s : State) (v : Nat), v < 256 → s.regBit (0x10800C + 16 * v) 0 = true → (s.sendMsi v).regBit (0x109000 + 4 * (v / 32)) (v % 32) = true ∧ (s.sendMsi v).host = s.host) ∧
  (∀ (r : Ring) (ok : Bool) (s : State), (s.alive = false ∨ s.fatal = true ∨ s.asleep = true ∨ s.ringState r.toNat ≠ ringACTIVE ∨ s.ringType r.toNat ≠ 4 ∨ s.ringRoom r.toNat = false) → exec (.backlogDrain r ok) s = .next s) ∧
  (∀ (r : Ring) (s : State), s.alive = true → s.fatal = false → s.asleep = false → s.ringState r.toNat = ringACTIVE → s.ringType r.toNat = 4 → s.ringRoom r.toNat = true →
    exec (.backlogDrain r false) s = .next (if (s.ring r.toNat).backlog = [] then s else s.ringError r.toNat)) ∧
  (∀ (r : Ring) (s : State), s.alive = true → s.fatal = false → s.asleep = false → s.ringState r.toNat = ringACTIVE → s.ringType r.toNat = 4 → s.ringRoom r.toNat = true → s.host.runs = [] → Answers (.backlogDrain r true) s (fun t => ∃ a : State,
    a = s.enterRuns r.toNat 65536 ∧ t = a.drainRing r.toNat (a.ringSize r.toNat))) ∧
  (∀ (s : State) (r n : Nat) (w : RingRec) (l : List RingRec), s.ringRoom r = true → (s.ring r).backlog = w :: l → s.drainRing r (n + 1) = (((s.setRing r { s.ring r with backlog := l }).putRec r w).enterRuns r s.host.runs.length).drainRing r n)

/-- A mailbox write stores its word and sets FULL, COLLISION over an unread word; a read returns and clears; Gallery mailboxes act the same (14_lantern_mailboxes_updates R451, R452, R453, R454; 14_lantern_mailboxes_updates Table LANTERN-2). -/
def Obligations.MailboxesHoldWordsUntilTheyAreRead : Prop :=
  (∀ (c : Chan) (w : Word) (s : State), s.alive = true → Answers (.mbxInWrite c w) s (fun t => OnlyMailbox s t (R.MBX_IN_DATA c.toNat) R.MBX_IN_FULL R.MBX_IN_COLLISION c.toNat ∧ t.rdata = s.rdata ∧
    t.reg (R.MBX_IN_DATA c.toNat) = w ∧ t.regBit R.MBX_IN_FULL c.toNat = true ∧ t.regBit R.MBX_IN_COLLISION c.toNat = (s.regBit R.MBX_IN_COLLISION c.toNat || s.regBit R.MBX_IN_FULL c.toNat))) ∧
  (∀ (c : Chan) (s : State), s.alive = true → Answers (.mbxOutRead c) s (fun t => OnlyMailbox s t (R.MBX_OUT_DATA c.toNat) R.MBX_OUT_FULL R.MBX_OUT_COLLISION c.toNat ∧
    t.rdata.toNat = (s.reg (R.MBX_OUT_DATA c.toNat)).toNat ∧ t.reg (R.MBX_OUT_DATA c.toNat) = 0 ∧ t.regBit R.MBX_OUT_FULL c.toNat = false ∧ t.regBit R.MBX_OUT_COLLISION c.toNat = s.regBit R.MBX_OUT_COLLISION c.toNat)) ∧
  (∀ (b : BitVec 3) (w : Word) (s : State), Reached s 0 → b.toNat < 4 → exec (.gmbxDataWrite b w) s = .next s) ∧
  (∀ (b : BitVec 3) (w : Word) (s : State), Reached s 0 → 4 ≤ b.toNat → Answers (.gmbxDataWrite b w) s (fun t => OnlyRegs s t [R.LANTERN_GMBX_DATA b.toNat, R.LANTERN_GMBX_STATUS] ∧
    t.reg (R.LANTERN_GMBX_DATA b.toNat) = w ∧ t.regBit R.LANTERN_GMBX_STATUS b.toNat = true ∧ t.regBit R.LANTERN_GMBX_STATUS (8 + b.toNat) = (s.regBit R.LANTERN_GMBX_STATUS (8 + b.toNat) || s.regBit R.LANTERN_GMBX_STATUS b.toNat) ∧
    ∀ m, m < 32 → m ≠ b.toNat → m ≠ 8 + b.toNat → t.regBit R.LANTERN_GMBX_STATUS m = s.regBit R.LANTERN_GMBX_STATUS m)) ∧
  (∀ (b : BitVec 3) (s : State), Reached s 0 → 4 ≤ b.toNat → exec (.gmbxDataRead b) s = .next { s with rdata := (s.reg (R.LANTERN_GMBX_DATA b.toNat)).setWidth 64 }) ∧
  (∀ (b : BitVec 3) (s : State), Reached s 0 → b.toNat < 4 → Answers (.gmbxDataRead b) s (fun t => t = { s with regs := t.regs, rdata := t.rdata } ∧ (∀ a, a ∉ [R.LANTERN_GMBX_DATA b.toNat, R.LANTERN_GMBX_STATUS] → t.reg a = s.reg a) ∧
    t.rdata.toNat = (s.reg (R.LANTERN_GMBX_DATA b.toNat)).toNat ∧ t.reg (R.LANTERN_GMBX_DATA b.toNat) = 0 ∧ t.regBit R.LANTERN_GMBX_STATUS b.toNat = false ∧
    ∀ m, m < 32 → m ≠ b.toNat → t.regBit R.LANTERN_GMBX_STATUS m = s.regBit R.LANTERN_GMBX_STATUS m)) ∧
  (∀ (m : Msg) (s : State), s.atLantern m = false → exec (.gmbxCoreWrite m) s = .next s ∧ exec (.gmbxCoreRequest m) s = .next s) ∧
  (∀ (m : Msg) (s : State) (n : Nat), s.atLantern m = true → m.tag.toNat = 0xEF2 → m.payload.length = 1 → n < 4 → (msgWord m 0).toNat % 2 ^ 32 = n →
    Answers (.gmbxCoreWrite m) s (fun t => t = { s with regs := t.regs, fabric := dropFirst m s.fabric } ∧ (∀ a, a ∉ [R.LANTERN_GMBX_DATA n, R.LANTERN_GMBX_STATUS, R.LANTERN_GMBX_SRC n] → t.reg a = s.reg a) ∧
      t.reg (R.LANTERN_GMBX_DATA n) = (msgWord m 0).extractLsb' 32 32 ∧ t.regBit R.LANTERN_GMBX_STATUS n = true ∧ t.fld (F.LANTERN_GMBX_SRC_LOGICAL n) = m.src.toNat % 2 ^ 13 ∧
      t.regBit R.LANTERN_GMBX_STATUS (8 + n) = (s.regBit R.LANTERN_GMBX_STATUS (8 + n) || s.regBit R.LANTERN_GMBX_STATUS n))) ∧
  (∀ (m : Msg) (s : State) (n : Nat), s.atLantern m = true → m.tag.toNat = 0xEF3 → m.payload.length = 1 → 4 ≤ n → n < 8 → (msgWord m 0).toNat = n →
    ((s.regBit R.LANTERN_GMBX_STATUS n = false ∨ ((s.core (s.physOf m.src.toNat)).fenced = false ∧ (s.core (s.physOf m.src.toNat)).inReset = false)) → Answers (.gmbxCoreRequest m) s (fun t => ∃ a : State, OnlyRegs (s.unlist m) a [R.LANTERN_GMBX_STATUS] ∧
      a.regBit R.LANTERN_GMBX_STATUS n = false ∧ (∀ i, i < 32 → i ≠ n → a.regBit R.LANTERN_GMBX_STATUS i = s.regBit R.LANTERN_GMBX_STATUS i) ∧
      t = a.inject { tick := BitVec.ofNat 16 s.tick, tag := 0xFC0#12, src := m.dest, dest := m.src, payload := [s.reg (R.LANTERN_GMBX_DATA n) ++ (if s.regBit R.LANTERN_GMBX_STATUS n = true then 1#32 else 0#32)] })) ∧
    (s.regBit R.LANTERN_GMBX_STATUS n = true → ((s.core (s.physOf m.src.toNat)).fenced = true ∨ (s.core (s.physOf m.src.toNat)).inReset = true) → Answers (.gmbxCoreRequest m) s (fun t => ∃ a : State, OnlyRegs (s.unlist m) a [R.LANTERN_GMBX_STATUS] ∧ a.regBit R.LANTERN_GMBX_STATUS n = false ∧
      t = ((a.inject { tick := BitVec.ofNat 16 s.tick, tag := 0xFC0#12, src := m.dest, dest := m.src, payload := [s.reg (R.LANTERN_GMBX_DATA n) ++ 1#32] }).bump F.LANTERN_MBX_DROP_COUNT 1).alarm F.LANTERN_ALARM_MBX_DROP n))) ∧
  (∀ (m : Msg) (s : State), s.atLantern m = true → m.tag.toNat ≠ 0xEF3 → (m.tag.toNat ≠ 0xEF2 ∨ m.payload.length ≠ 1 ∨ 4 ≤ (msgWord m 0).toNat % 2 ^ 32) →
    exec (.gmbxCoreWrite m) s = .next (((s.unlist m).bump F.LANTERN_BADTAG_COUNT 1).alarm F.LANTERN_ALARM_BADTAG m.src.toNat)) ∧
  (∀ (m : Msg) (s : State), s.atLantern m = true → m.tag.toNat = 0xEF3 → (m.payload.length ≠ 1 ∨ (msgWord m 0).toNat < 4 ∨ 8 ≤ (msgWord m 0).toNat) →
    exec (.gmbxCoreRequest m) s = .next (((s.unlist m).bump F.LANTERN_BADTAG_COUNT 1).alarm F.LANTERN_ALARM_BADTAG m.src.toNat))

/-- Words queue, collide or resync; replies are written into an empty mailbox; SYNC, VERSION, UPDATE_STATUS, LOAD_PROGRAM and INSPECT execute with their reply (14_lantern_mailboxes_updates R455, R456, R457, R459, R460, R462; 14_lantern_mailboxes_updates R463; 14_lantern_mailboxes_updates Table LANTERN-3, Table LANTERN-4, Table LANTERN-5). -/
def Obligations.ChannelsQueueExecuteAndReply : Prop :=
  (∀ (c : Chan) (s : State), (s.served = false ∨ s.regBit R.MBX_IN_FULL c.toNat = false) → exec (.mbxWordTake c) s = .next s) ∧
  (∀ (c : Chan) (s : State), s.served = true → s.regBit R.MBX_IN_FULL c.toNat = true → ∃ a : State, OnlyRegs s a [R.MBX_IN_FULL] ∧ a.regBit R.MBX_IN_FULL c.toNat = false ∧ (∀ m, m < 32 → m ≠ c.toNat → a.regBit R.MBX_IN_FULL m = s.regBit R.MBX_IN_FULL m) ∧
    (s.regBit R.MBX_IN_COLLISION c.toNat = true → exec (.mbxWordTake c) s = .next (((a.setRegBit R.MBX_IN_COLLISION c.toNat false).enterResync c.toNat).reply c.toNat 0x0D 0 [])) ∧
    (s.regBit R.MBX_IN_COLLISION c.toNat = false → (s.chan c.toNat).resync = true → (s.chan c.toNat).queue = [] → s.reg (R.MBX_IN_DATA c.toNat) ≠ 0 → exec (.mbxWordTake c) s = .next a) ∧
    (s.regBit R.MBX_IN_COLLISION c.toNat = false → (s.chan c.toNat).resync = true → (s.chan c.toNat).queue = [] → s.reg (R.MBX_IN_DATA c.toNat) = 0 → exec (.mbxWordTake c) s = .next (a.setChan c.toNat { s.chan c.toNat with queue := [0] })) ∧
    (s.regBit R.MBX_IN_COLLISION c.toNat = false → 16 ≤ (s.chan c.toNat).queue.length → exec (.mbxWordTake c) s = .next (a.enterResync c.toNat)) ∧
    (s.regBit R.MBX_IN_COLLISION c.toNat = false → ((s.chan c.toNat).resync = false ∨ (s.chan c.toNat).queue ≠ []) → (s.chan c.toNat).queue.length < 16 →
      exec (.mbxWordTake c) s = .next ((a.setChan c.toNat { s.chan c.toNat with queue := (s.chan c.toNat).queue ++ [s.reg (R.MBX_IN_DATA c.toNat)] }).settle c.toNat 16))) ∧
  (∀ (s : State) (n : Nat), s.enterResync n = ((s.setChan n { s.chan n with queue := [], resync := true }).bump F.LANTERN_MBX_DROP_COUNT 1).alarm F.LANTERN_ALARM_MBX_DROP n) ∧
  (∀ (c : Chan) (s : State), (s.served = false ∨ s.regBit R.MBX_OUT_FULL c.toNat = true ∨ (s.chan c.toNat).replies = []) → exec (.replyWrite c) s = .next s) ∧
  (∀ (c : Chan) (s : State) (w : Word) (l : List Word), s.served = true → s.regBit R.MBX_OUT_FULL c.toNat = false → (s.chan c.toNat).replies = w :: l → ∃ a : State,
    OnlyMailbox (s.setChan c.toNat { s.chan c.toNat with replies := l }) a (R.MBX_OUT_DATA c.toNat) R.MBX_OUT_FULL R.MBX_OUT_COLLISION c.toNat ∧ a.reg (R.MBX_OUT_DATA c.toNat) = w ∧ a.regBit R.MBX_OUT_FULL c.toNat = true ∧ a.regBit R.MBX_OUT_COLLISION c.toNat = s.regBit R.MBX_OUT_COLLISION c.toNat ∧
    (s.bit F.MBX_IRQ_EN = false → exec (.replyWrite c) s = .next (a.settle c.toNat 16)) ∧ (s.bit F.MBX_IRQ_EN = true → exec (.replyWrite c) s = .next ((a.sendMsi (s.fld F.MBX_IRQ_VECTOR)).settle c.toNat 16))) ∧
  (∀ (s : State) (n st tag : Nat) (res : List Nat), st < 256 → res.length < 16 → tag < 65536 → ∃ h : Word, (h.extractLsb' 24 8).toNat = st ∧ (h.extractLsb' 20 4).toNat = res.length ∧ h.extractLsb' 16 4 = 0 ∧ (h.extractLsb' 0 16).toNat = tag ∧
    s.reply n st tag res = s.setChan n { s.chan n with replies := (s.chan n).replies ++ h :: res.map (BitVec.ofNat 32) }) ∧
  (∀ (s : State) (h : Word), cmdArgs (cmdOp h) ≠ some (cmdNargs h) → s.turnedAway h = some 0x01) ∧
  (∀ (s : State) (n k : Nat) (h : Word) (l : List Word) (st : Nat), s.front n = some (h, l) → s.turnedAway h = some st → s.settle n (k + 1) = ((s.popFront n).reply n st (cmdTag h) []).settle n k) ∧
  (∀ (s : State) (n k : Nat), s.front n = none → s.settle n k = s) ∧
  (∀ (c : Chan) (s : State) (op tag : Nat) (args : List Nat), CommandFirst s c op tag args → ∃ h l, (s.chan c.toNat).queue = h :: l ∧ s.popFront c.toNat = s.setChan c.toNat { s.chan c.toNat with queue := l.drop args.length }) ∧
  (∀ (c : Chan) (s : State) (tag : Nat), CommandFirst s c 0x00 tag [] → Executes (.sync c) s c (fun a => (a.setChan c.toNat { a.chan c.toNat with resync := false }).reply c.toNat 0x00 tag [])) ∧
  (∀ (c : Chan) (s : State) (tag : Nat), CommandFirst s c 0x01 tag [] → RepliesOnly (.version c) s c 0x00 tag [s.fld F.LANTERN_FW_RUN_VERSION, (s.reg R.LANTERN_SVN).toNat, s.fld F.LANTERN_STATUS_ACTIVE_BANK]) ∧
  (∀ (c : Chan) (s : State) (tag : Nat), CommandFirst s c 0x41 tag [] → RepliesOnly (.updateStatus c) s c 0x00 tag [(s.reg R.LANTERN_BANKS).toNat, (s.reg R.LANTERN_UPDATE).toNat]) ∧
  (∀ (c : Chan) (img : List Byte) (nets : List NetDef) (ok : Bool) (s : State), s.lantern.load.isSome = true → exec (.loadProgram c img nets ok) s = .next s) ∧
  (∀ (c : Chan) (img : List Byte) (nets : List NetDef) (ok : Bool) (s : State) (tag g lo hi len : Nat), s.lantern.load = none → CommandFirst s c 0x10 tag [g, lo, hi, len] →
    (64 ≤ g → RepliesOnly (.loadProgram c img nets ok) s c 0x02 tag []) ∧
    (g < 64 → s.power.hbm = false → RepliesOnly (.loadProgram c img nets ok) s c 0x05 tag []) ∧
    (g < 64 → s.power.hbm = true → 67108864 < len → RepliesOnly (.loadProgram c img nets ok) s c 0x04 tag [9]) ∧
    (g < 64 → s.power.hbm = true → len ≤ 67108864 → (s.groupState g ≠ gsIDLE ∨ (s.grp g).pend.isSome = true) → RepliesOnly (.loadProgram c img nets ok) s c 0x04 tag [8]) ∧
    (g < 64 → s.power.hbm = true → len ≤ 67108864 → s.groupState g = gsIDLE → (s.grp g).pend = none →
      (ok = false → Executes (.loadProgram c img nets ok) s c (fun a => a.dmaError.reply c.toNat 0x06 tag [])) ∧
      (∀ code, ok = true → s.imageFault (img.take len) len = some code → RepliesOnly (.loadProgram c img nets ok) s c 0x04 tag [code]) ∧
      (ok = true → s.imageFault (img.take len) len = none → ∃ f : State → State, Executes (.loadProgram c img nets ok) s c f ∧ ∀ a, ∃ b : State, f a = { b with lantern := { b.lantern with load := some ⟨⟨some c.toNat, tag⟩, g, len⟩ } } ∧
        b = ((a.setChan c.toNat { a.chan c.toNat with busy := true }).setGroupState g gsLOADING).setGrp g { a.grp g with loading := some (img.take len, nets) }))) ∧
  (∀ (c : Chan) (bad : Option (BitVec 9)) (ok : Bool) (s : State) (tag pos off len lo hi : Nat), CommandFirst s c 0x11 tag [pos, off, len, lo, hi] →
    ((16384 ≤ pos ∨ 88 ≤ pos / 128 ∨ 96 ≤ pos % 128 ∨ off % 8 ≠ 0 ∨ len % 8 ≠ 0 ∨ len < 8 ∨ 4096 < len ∨ sramSize < off + len) → RepliesOnly (.inspect c bad ok) s c 0x02 tag []) ∧
    (pos / 128 < 88 → pos % 128 < 96 → off % 8 = 0 → len % 8 = 0 → 8 ≤ len → len ≤ 4096 → off + len ≤ sramSize →
      ((s.core (pos / 128 * 96 + pos % 128)).fenced = true → RepliesOnly (.inspect c bad ok) s c 0x0A tag []) ∧
      ((s.core (pos / 128 * 96 + pos % 128)).fenced = false → ok = false → Executes (.inspect c bad ok) s c (fun a => a.dmaError.reply c.toNat 0x06 tag [])) ∧
      ((s.core (pos / 128 * 96 + pos % 128)).fenced = false → ok = true → ∃ m un st, (bad = none → m = len ∧ st = 0x00) ∧ (∀ b, bad = some b → m = min len (8 * b.toNat) ∧ st = if m < len then 0x09 else 0x00) ∧
        (un = true ↔ 0 < (s.core (pos / 128 * 96 + pos % 128)).unwritten off m) ∧ ∃ w : State → State, (∀ a, w a = a.hostWrite (lo + 2 ^ 32 * hi) ((s.core (pos / 128 * 96 + pos % 128)).bytes off m)) ∧
        Executes (.inspect c bad ok) s c (fun a => (if un = true then (w a).bump F.HOST_UNINIT_COUNT 1 else w a).holdWords c.toNat (replyWords st tag un [m])))))

/-- FW_DOWNLOAD, FW_VERIFY, FW_ACTIVATE, FW_CONFIRM, FW_ROLLBACK, bank switches, trials, watchdog expiries and faults act as Table LANTERN-8 and R450 say (14_lantern_mailboxes_updates R448, R449, R450, R467, R468, R469; 14_lantern_mailboxes_updates R470; 14_lantern_mailboxes_updates Table LANTERN-6, Table LANTERN-8). -/
def Obligations.FirmwareBanksAndRestartsFollowTheirTables : Prop :=
  (∀ (c : Chan) (img : List Byte) (ok : Bool) (s : State) (tag lo hi len : Nat), CommandFirst s c 0x20 tag [lo, hi, len] →
    (s.lantern.fwJob.isSome = true → RepliesOnly (.fwDownload c img ok) s c 0x03 tag []) ∧
    (s.lantern.fwJob = none → s.inactiveBank = none → RepliesOnly (.fwDownload c img ok) s c 0x0B tag []) ∧
    (∀ b, s.lantern.fwJob = none → s.inactiveBank = some b →
      (1048576 < len → RepliesOnly (.fwDownload c img ok) s c 0x02 tag []) ∧
      (len ≤ 1048576 → ok = false → Executes (.fwDownload c img ok) s c (fun a => (a.emptyBank b).dmaError.reply c.toNat 0x06 tag [])) ∧
      (len ≤ 1048576 → ok = true → ∃ f : State → State, Executes (.fwDownload c img ok) s c f ∧ ∀ a, ∃ u : State, u = ((a.setChan c.toNat { a.chan c.toNat with busy := true }).setBank b fbDOWNLOADING).setHdr b (img.take (min len 128)) ∧
        f a = { u with lantern := { u.lantern with fwJob := some ⟨⟨some c.toNat, tag⟩, b, img.take (min len 128)⟩ } }))) ∧
  (∀ (ok : Bool) (s : State), (s.lantern.fwJob = none ∨ s.served = false) → exec (.fwDownloadDone ok) s = .next s) ∧
  (∀ (s : State) (n tag b : Nat) (h : List Byte), s.served = true → s.lantern.fwJob = some ⟨⟨some n, tag⟩, b, h⟩ → ∃ u a : State, u = { s with lantern := { s.lantern with fwJob := none } } ∧
    (exec (.fwDownloadDone true) s = .next (((u.setBank b fbDOWNLOADED).setChan n { s.chan n with busy := false }).reply n 0x00 tag [b])) ∧ a = u.emptyBank b ∧
    exec (.fwDownloadDone false) s = .next ((a.setChan n { a.chan n with busy := false }).reply n 0x06 tag [])) ∧
  (∀ (c : Chan) (sig : Bool) (s : State) (tag : Nat), CommandFirst s c 0x21 tag [] →
    (s.bankIn fbDOWNLOADED = none → RepliesOnly (.fwVerify c sig) s c 0x0B tag []) ∧
    (∀ b, s.bankIn fbDOWNLOADED = some b →
      ((s.hdrPasses (s.bankHdr b) = false ∨ sig = false) → RepliesOnly (.fwVerify c sig) s c 0x07 tag []) ∧
      (s.hdrPasses (s.bankHdr b) = true → sig = true → hdrSvn (s.bankHdr b) < s.fld F.LANTERN_SVN_MIN_SVN → RepliesOnly (.fwVerify c sig) s c 0x08 tag []) ∧
      (s.hdrPasses (s.bankHdr b) = true → sig = true → s.fld F.LANTERN_SVN_MIN_SVN ≤ hdrSvn (s.bankHdr b) →
        Executes (.fwVerify c sig) s c (fun a => (a.setBank b fbVERIFIED).reply c.toNat 0x00 tag [hdrVersion (s.bankHdr b), hdrSvn (s.bankHdr b)])))) ∧
  (∀ (c : Chan) (s : State) (tag : Nat), CommandFirst s c 0x22 tag [] →
    (s.bankIn fbVERIFIED = none → RepliesOnly (.fwActivate c) s c 0x0B tag []) ∧
    (∀ b, s.bankIn fbVERIFIED = some b → ∃ f : State → State, Executes (.fwActivate c) s c f ∧ ∀ a, ∃ u v : State, (s.bankState (1 - b) = fbACTIVE → u = a.setBank (1 - b) fbFALLBACK) ∧ (s.bankState (1 - b) ≠ fbACTIVE → u = a) ∧
      v = ((u.setBank b fbTRIAL).reply c.toNat 0x00 tag []).setBit F.LANTERN_STATUS_SWITCHING true ∧ f a = { v with lantern := { v.lantern with boot := some { bank := b, switch := true } } })) ∧
  (∀ (aG bG : Bool) (s : State), (s.lantern.boot = none ∨ (∃ b, s.lantern.boot = some b ∧ b.switch = false) ∨ s.alive = false ∨ s.powerLevel = 3) → exec (.bankSwitchDone aG bG) s = .next s) ∧
  (∀ (aG bG : Bool) (s : State) (b : Boot), s.lantern.boot = some b → b.switch = true → s.alive = true → s.powerLevel ≠ 3 →
    (s.bankPasses b.bank (if b.bank = 0 then aG else bG) = true → exec (.bankSwitchDone aG bG) s = .next (s.startBank b)) ∧
    (s.bankPasses b.bank (if b.bank = 0 then aG else bG) = false → ∃ u v w : State, (s.bankState b.bank ≠ fbTRIAL → v = s) ∧
      (s.bankState b.bank = fbTRIAL → u = (s.setBank b.bank fbREJECTED).alarm F.LANTERN_ALARM_FW_ROLLBACK b.bank ∧ v = { u with lantern := { u.lantern with rolledBack := u.lantern.rolledBack ++ [0] } }) ∧ w = v.chooseBank aG bG 0 ∧
      (w.lantern.boot = none → exec (.bankSwitchDone aG bG) s = .next w) ∧ ∀ x, w.lantern.boot = some x → exec (.bankSwitchDone aG bG) s = .next (w.startBank x))) ∧
  (∀ (c : Chan) (s : State) (tag : Nat), CommandFirst s c 0x23 tag [] →
    (s.bankIn fbTRIAL = none → RepliesOnly (.fwConfirm c) s c 0x0B tag []) ∧
    (∀ b, s.bankIn fbTRIAL = some b → Executes (.fwConfirm c) s c (fun a => (((a.setBank b fbACTIVE).setBit F.LANTERN_STATUS_TRIAL false).setFld F.LANTERN_SVN_MIN_SVN
      (max (s.fld F.LANTERN_SVN_MIN_SVN) (hdrSvn (s.bankHdr b)))).reply c.toNat 0x00 tag []))) ∧
  (∀ (c : Chan) (s : State) (tag : Nat), CommandFirst s c 0x24 tag [] →
    (s.bankIn fbTRIAL = none → RepliesOnly (.fwRollback c) s c 0x0B tag []) ∧ (∀ b, s.bankIn fbTRIAL = some b → Executes (.fwRollback c) s c (fun a => (a.reply c.toNat 0x00 tag []).rollbackSwitch))) ∧
  (∀ (s : State) (b : Nat), s.bankIn fbTRIAL = some b → ∃ u v : State, u = ((s.setBank b fbREJECTED).setBank (1 - b) fbACTIVE).alarm F.LANTERN_ALARM_FW_ROLLBACK b ∧
    v = { u with lantern := { u.lantern with boot := some { bank := 1 - b, switch := true, rollback := true }, rolledBack := u.lantern.rolledBack ++ [0] } } ∧ s.rollbackSwitch = v.setBit F.LANTERN_STATUS_SWITCHING true) ∧
  (∀ (s : State), (s.lanternRuns = false ∨ s.bit F.LANTERN_STATUS_TRIAL = false ∨ s.fld F.LANTERN_TRIAL_WAIT_S = 0 ∨ s.power.clock < s.lantern.trialAt + 100000000 * s.fld F.LANTERN_TRIAL_WAIT_S) → exec .trialExpiry s = .next s) ∧
  (∀ (s : State), s.lanternRuns = true → s.bit F.LANTERN_STATUS_TRIAL = true → s.fld F.LANTERN_TRIAL_WAIT_S ≠ 0 → s.lantern.trialAt + 100000000 * s.fld F.LANTERN_TRIAL_WAIT_S ≤ s.power.clock → exec .trialExpiry s = .next s.rollbackSwitch) ∧
  (∀ (aG bG : Bool) (s : State), s.lanternRuns = false → exec (.watchdogExpiry aG bG) s = .next s) ∧
  (∀ (m aG bG : Bool) (s : State), s.served = false → exec (.flintMFault m aG bG) s = .next s) ∧
  (∀ (aG bG : Bool) (s : State), s.lanternRuns = true → exec (.watchdogExpiry aG bG) s = .next (s.unplanned 1 aG bG)) ∧
  (∀ (aG bG : Bool) (s : State), s.served = true → exec (.flintMFault false aG bG) s = .next (s.unplanned 2 aG bG) ∧ exec (.flintMFault true aG bG) s = .next (s.unplanned 3 aG bG)) ∧
  (∀ (cause : Nat) (aG bG : Bool) (s : State), s.lantern.fwJob = none → s.lantern.load = none → s.lantern.libJob = none → s.bankIn fbTRIAL = none → s.recentFaults .lantern < 2 → ∃ u v : State,
    u = (({ s with faults := keepTwo ((.lantern, s.uptime) :: s.faults) .lantern } : State).bump F.LANTERN_RESTARTS_COUNT 1).alarm F.LANTERN_ALARM_RESTART cause ∧
    v = (List.range 32).foldl (fun (a : State) n => (a.setChan n {}).enterResync n) u ∧ (∀ n, n < 32 → v.chan n = { queue := [], replies := [], resync := true, busy := false }) ∧
    s.unplanned cause aG bG = (v.setBit F.LANTERN_STATUS_READY false).chooseBank aG bG cause) ∧
  (∀ (aG bG : Bool) (cause : Nat) (s : State),
    (∀ n, s.bankIn fbACTIVE = some n → s.bankPasses n (if n = 0 then aG else bG) = true → s.chooseBank aG bG cause = { s with lantern := { s.lantern with boot := some { bank := n, cause := cause } } }) ∧
    (∀ n m, s.bankIn fbACTIVE = some n → s.bankPasses n (if n = 0 then aG else bG) = false → s.bankIn fbFALLBACK = some m → s.bankPasses m (if m = 0 then aG else bG) = true → ∃ u : State,
      u = ((s.setBank n fbREJECTED).setBank m fbACTIVE).alarm F.LANTERN_ALARM_FALLBACK_BOOT m ∧ s.chooseBank aG bG cause = { u with lantern := { u.lantern with boot := some { bank := m, cause := cause } } }) ∧
    ((s.bankIn fbACTIVE = none ∨ ∃ n, s.bankIn fbACTIVE = some n ∧ s.bankPasses n (if n = 0 then aG else bG) = false) → (s.bankIn fbFALLBACK = none ∨ ∃ m, s.bankIn fbFALLBACK = some m ∧ s.bankPasses m (if m = 0 then aG else bG) = false) →
      s.chooseBank aG bG cause = s.enterRecovery ∧ s.enterRecovery.bit F.LANTERN_STATUS_READY = false ∧ s.enterRecovery.bit F.LANTERN_STATUS_RECOVERY = true ∧ s.enterRecovery.bit F.LANTERN_STATUS_TRIAL = false ∧ s.enterRecovery.lantern.boot = none)) ∧
  (∀ (s : State) (b : Boot), b.bank < 2 → ∃ u v : State, OnlyRegs { s with lantern := { s.lantern with boot := none, trialAt := s.power.clock } } u [R.LANTERN_STATUS, R.LANTERN_FW_RUN, R.LANTERN_SVN] ∧
    u.bit F.LANTERN_STATUS_READY = true ∧ u.bit F.LANTERN_STATUS_RECOVERY = false ∧ u.bit F.LANTERN_STATUS_SWITCHING = false ∧ u.bit F.LANTERN_STATUS_TRIAL = (s.bankState b.bank == fbTRIAL) ∧ u.fld F.LANTERN_STATUS_ACTIVE_BANK = b.bank ∧
    u.fld F.LANTERN_FW_RUN_VERSION = hdrVersion (s.bankHdr b.bank) % 2 ^ 32 ∧ u.fld F.LANTERN_SVN_RUN_SVN = hdrSvn (s.bankHdr b.bank) % 2 ^ 16 ∧
    (b.cause = 0 → v = u.notice 0x80 [hdrVersion (s.bankHdr b.bank), b.bank]) ∧ (b.cause ≠ 0 → v = u.notice 0x81 [b.cause]) ∧ s.startBank b = v.startNotices)

/-- The library update commands and KEY_ENROL act in the states of Table LANTERN-10, are answered with their status elsewhere, and change only what it says (14_lantern_mailboxes_updates R465, R466, R471, R472, R473, R474; 14_lantern_mailboxes_updates Table LANTERN-10, Table LANTERN-5). -/
def Obligations.LibraryUpdatesAndOwnerKeysFollowTheirTables : Prop :=
  (∀ (c : Chan) (img : List Byte) (ok : Bool) (s : State) (tag t lo hi l0 l1 : Nat), CommandFirst s c 0x30 tag [t, lo, hi, l0, l1] →
    (16 ≤ t → RepliesOnly (.libDownload c img ok) s c 0x02 tag []) ∧
    (t < 16 → s.libState ≠ luNONE → RepliesOnly (.libDownload c img ok) s c 0x03 tag []) ∧
    (t < 16 → s.libState = luNONE → s.sumpReady = false → RepliesOnly (.libDownload c img ok) s c 0x05 tag []) ∧
    (t < 16 → s.libState = luNONE → s.sumpReady = true → ok = false → Executes (.libDownload c img ok) s c (fun a => a.dmaError.reply c.toNat 0x06 tag [])) ∧
    (∀ code, t < 16 → s.libState = luNONE → s.sumpReady = true → ok = true → s.libRefused t (img.take (l0 + 2 ^ 32 * l1)) (l0 + 2 ^ 32 * l1) = some code → RepliesOnly (.libDownload c img ok) s c 0x04 tag [code]) ∧
    (∀ b bs, b = img.take (l0 + 2 ^ 32 * l1) → bs = s.pickCandidates (lhField b 2 2) → t < 16 → s.libState = luNONE → s.sumpReady = true → ok = true → s.libRefused t b (l0 + 2 ^ 32 * l1) = none →
      (bs.length < lhField b 2 2 → RepliesOnly (.libDownload c img ok) s c 0x0C tag []) ∧
      (lhField b 2 2 ≤ bs.length → ∃ f : State → State, Executes (.libDownload c img ok) s c f ∧ ∀ a, ∃ (u : State) (j : LibJob), u = ((((bs.foldl (fun (x : State) n => x.formatBench n) (a.setChan c.toNat { a.chan c.toNat with busy := true })).setFld F.LANTERN_UPDATE_LIBRARY t).setFld
          F.LANTERN_UPDATE_LIB_STATE luDOWNLOADING).setFld F.LANTERN_UPDATE_ENTRIES 0) ∧ j.who = ⟨some c.toNat, tag⟩ ∧ j.lib = t ∧ j.kind = lhField b 0 1 ∧ j.version = hdrVersion b ∧ j.keySlot = sliceLE b 6 1 ∧ j.pstep = lhField b 12 1 ∧
          j.novel = lhField b 16 2 ∧ j.recallMask = lhField b 18 2 ∧ j.entries = lhField b 8 4 ∧ j.benches = bs ∧
          f a = ({ u with sump := { u.sump with held := u.sump.held ++ bs }, lantern := { u.lantern with libJob := some j } } : State).feedCandidates 8))) ∧
  (∀ (s : State), (s.lantern.libJob = none ∨ s.libState ≠ luDOWNLOADING ∨ s.lanternRuns = false ∨ ∃ j, s.lantern.libJob = some j ∧ s.candidateDone j = false) → exec .libDownloadDone s = .next s) ∧
  (∀ (s : State) (j : LibJob) (n tag : Nat), s.lantern.libJob = some j → j.who = ⟨some n, tag⟩ → s.libState = luDOWNLOADING → s.lanternRuns = true → s.candidateDone j = true → ∃ a : State, a = s.setFld F.LANTERN_UPDATE_LIB_STATE luDOWNLOADED ∧
    exec .libDownloadDone s = .next ((a.setChan n { a.chan n with busy := false }).reply n 0x00 tag [s.fld F.LANTERN_UPDATE_ENTRIES])) ∧
  (∀ (c : Chan) (sig : Bool) (s : State) (op : Nat) (states : List Nat) (i : Instr) (tag l : Nat), UpdateCommand c sig op states i → CommandFirst s c op tag [l] → UpdateQuiet s →
    (16 ≤ l → RepliesOnly i s c 0x02 tag []) ∧
    (l < 16 → s.lantern.libJob = none → RepliesOnly i s c 0x0B tag []) ∧
    (∀ j, l < 16 → s.lantern.libJob = some j → (j.lib ≠ l ∨ s.libState ∉ states) → RepliesOnly i s c 0x0B tag [])) ∧
  (∀ (c : Chan) (sig : Bool) (s : State) (tag : Nat) (j : LibJob), s.lantern.libJob = some j → j.lib < 16 →
    (CommandFirst s c 0x31 tag [j.lib] → s.libState = luDOWNLOADED →
      ((sig = false ∨ s.slotFilled j.keySlot = false) → RepliesOnly (.libVerify c sig) s c 0x07 tag []) ∧
      (sig = true → s.slotFilled j.keySlot = true → Executes (.libVerify c sig) s c (fun a => (a.setFld F.LANTERN_UPDATE_LIB_STATE luVERIFIED).reply c.toNat 0x00 tag [j.version]))) ∧
    (s.libState = luVERIFIED → s.swapReady j.lib = false → exec (.libActivate c) s = .next (s.sendPending j.lib)) ∧
    (CommandFirst s c 0x32 tag [j.lib] → s.libState = luVERIFIED → s.swapReady j.lib = true → ∃ f : State → State, Executes (.libActivate c) s c f ∧ ∀ a, ∃ (u : State) (k : LibJob),
      k = { j with oldBenches := (a.lib j.lib).benches, oldActive := a.libActive j.lib, oldKind := a.libKind j.lib, oldPstep := a.fld (F.SUMP_LIB_CFG_PSTEP j.lib), oldNovel := a.fld (F.SUMP_LIB_NOVEL_NOVEL_DIST j.lib), oldMask := a.fld (F.SUMP_LIB_NOVEL_RECALL_MASK j.lib) } ∧
      u = (a.swapBenches j.lib j.benches).setLibCfg j.lib true j.kind j.pstep j.novel j.recallMask ∧ f a = (({ u with lantern := { u.lantern with libJob := some k } } : State).setFld F.LANTERN_UPDATE_LIB_STATE luTRIAL).reply c.toNat 0x00 tag []) ∧
    (CommandFirst s c 0x33 tag [j.lib] → s.libState = luTRIAL → ∃ f : State → State, Executes (.libConfirm c) s c f ∧ ∀ a, ∃ u : State, u = a.releaseHeld j.oldBenches ∧
      f a = (({ u with lantern := { u.lantern with libJob := none } } : State).setFld F.LANTERN_UPDATE_LIB_STATE luNONE).reply c.toNat 0x00 tag []) ∧
    (s.libState = luTRIAL → s.swapReady j.lib = false → exec (.libRollback c) s = .next (s.sendPending j.lib)) ∧
    (CommandFirst s c 0x34 tag [j.lib] → s.libState = luTRIAL → s.swapReady j.lib = true → ∃ f : State → State, Executes (.libRollback c) s c f ∧ ∀ a, ∃ u : State,
      u = ((a.swapBenches j.lib j.oldBenches).setLibCfg j.lib j.oldActive j.oldKind j.oldPstep j.oldNovel j.oldMask).releaseHeld j.benches ∧
      f a = ((((({ u with lantern := { u.lantern with libJob := none } } : State).setFld F.LANTERN_UPDATE_LIB_STATE luNONE).alarm F.LANTERN_ALARM_LIB_ROLLBACK j.lib).reply c.toNat 0x00 tag []).notice 0x82 [2 ^ 31 + j.lib])) ∧
    (CommandFirst s c 0x35 tag [j.lib] → (s.libState = luDOWNLOADED ∨ s.libState = luVERIFIED) → Executes (.libAbort c) s c (fun a => a.dropCandidate.reply c.toNat 0x00 tag [])) ∧
    (∀ m w, CommandFirst s c 0x35 tag [j.lib] → s.libState = luDOWNLOADING → j.who = ⟨some m, w⟩ → Executes (.libAbort c) s c (fun a => (((a.setChan m { a.chan m with busy := false }).reply m 0x0B w []).dropCandidate).reply c.toNat 0x00 tag []))) ∧
  (∀ (c : Chan) (img : List Byte) (sig ok : Bool) (s : State) (tag lo hi len : Nat), CommandFirst s c 0x40 tag [lo, hi, len] →
    (len ≠ 324 → RepliesOnly (.keyEnrol c img sig ok) s c 0x02 tag []) ∧
    (len = 324 → ok = false → Executes (.keyEnrol c img sig ok) s c (fun a => a.dmaError.reply c.toNat 0x06 tag [])) ∧
    (∀ bad, (bad ↔ sliceLE img 0 4 ≠ 0xF1A70003 ∨ sliceLE img 4 2 ≠ 1 ∨ hdrPayload img ≠ 100 ∨ sliceLE img 128 1 < 4 ∨ 7 < sliceLE img 128 1 ∨ 7 < sliceLE img 6 1 ∨ 1 < sliceLE img 129 1 ∨ zeroBytes img 130 2 = false) → len = 324 → ok = true →
      (bad → RepliesOnly (.keyEnrol c img sig ok) s c 0x02 tag []) ∧
      (¬ bad → (sig = false ∨ s.slotFilled (sliceLE img 6 1) = false) → RepliesOnly (.keyEnrol c img sig ok) s c 0x07 tag []) ∧
      (¬ bad → sig = true → s.slotFilled (sliceLE img 6 1) = true → ∃ f : State → State, Executes (.keyEnrol c img sig ok) s c f ∧ ∀ a, ∃ k : List OwnerKey,
        f a = ({ a with lantern := { a.lantern with keys := k } } : State).reply c.toNat 0x00 tag [sliceLE img 128 1] ∧ (∀ x : OwnerKey, x.slot ≠ sliceLE img 128 1 → (x ∈ k ↔ x ∈ a.lantern.keys)) ∧
        (∀ x : OwnerKey, x.slot = sliceLE img 128 1 → (x ∈ k ↔ sliceLE img 129 1 = 0 ∧ x.key = (img.drop 132).take 96)))))

/-- POWER_CMD begins or refuses entries and exits, entries quiesce, abort and complete, exits return to Run, and wakes act, as Table POWER-3 says (15_power_health R478, R479, R480, R482, R483, R484; 15_power_health R485, R486; 15_power_health Table POWER-3, Table POWER-4, Table POWER-5; 15_power_health Table POWER-11). -/
def Obligations.PowerEntriesExitsAndWakesFollowTheirTable : Prop :=
  (∀ (p : Path) (t : Nat) (i : Instr) (s : State), EntryCommand p t i → Reached s 7 →
    ((5 ≤ s.pstate ∨ t ≤ s.pstate) → exec i s = .next (s.alarm F.POWER_ALARM_CMD_REFUSED 0)) ∧
    (∀ n, s.pstate < 5 → s.pstate < t → s.refuser t = some n → exec i s = .next (((s.bump (F.POWER_REFUSE_REFUSED n) 1).setFld F.POWER_STATUS_RESULT 2).setFld F.POWER_STATUS_REFUSER n)) ∧
    (s.pstate < 5 → s.pstate < t → s.refuser t = none → ∃ u v : State, u = (s.setFld F.POWER_STATUS_STATE 5).setFld F.POWER_STATUS_TARGET t ∧
      v = { u with power := { u.power with from_ := s.pstate, pnr := decide (1 ≤ s.pstate ∧ t ≤ 3), wakePend := none, thermalWait := none, offFlushed := false, railsOff := 0 } } ∧
      (s.pstate = 0 → exec i s = .next (v.enabledStreams.foldl (fun (a : State) n => a.quiesce n) v)) ∧ (s.pstate ≠ 0 → t ≤ 3 → exec i s = .next v) ∧ (s.pstate ≠ 0 → t = 4 → exec i s = .next (v.setBit F.POWER_STATUS_FLUSHING true)))) ∧
  (∀ (s : State) (t n : Nat), s.refuser t = some n → s.refuserHolds t n = true ∧ ∀ m, m < n → s.refuserHolds t m = false) ∧
  (∀ (s : State) (n : Nat) (st : StreamSt), s.stream n = st → ((st.suspended = true ∨ st.retired = true) → s.quiesce n = s) ∧ (st.suspended = false → st.retired = false → (st.nextWin = none → s.quiesce n = s.setStream n { st with suspended := true }) ∧
    (∀ w, st.nextWin = some w → s.tick < s.winStart n w → s.quiesce n = s.setStream n { st with suspended := true, nextWin := none }) ∧ (∀ w, st.nextWin = some w → s.winStart n w ≤ s.tick → s.quiesce n = s.setStream n { st with suspending := true }))) ∧
  (∀ (p : Path) (s : State), Reached s 7 → (s.pstate = 5 → s.power.pnr = false → exec (.powerRun p) s = .next (s.entryBack 0xF)) ∧ ((s.pstate = 5 → s.power.pnr = true) → (5 ≤ s.pstate ∨ s.pstate = 0) → exec (.powerRun p) s = .next (s.alarm F.POWER_ALARM_CMD_REFUSED 0)) ∧
    (s.pstate < 5 → s.pstate ≠ 0 → (p = .mport → exec (.powerRun p) s = .next (s.startExit 5)) ∧ (p = .bar0 → exec (.powerRun p) s = .next (s.startExit 6)))) ∧
  (∀ (s : State) (r : Nat), s.power.from_ ≠ 0 → s.power.from_ < 8 → r < 16 → OnlyRegs s (s.entryBack r) [R.POWER_STATUS] ∧ (s.entryBack r).pstate = s.power.from_ ∧ (s.entryBack r).fld F.POWER_STATUS_TARGET = 0 ∧ (s.entryBack r).fld F.POWER_STATUS_RESULT = 3 ∧ (s.entryBack r).fld F.POWER_STATUS_REFUSER = r) ∧
  (∀ (s : State) (src : Nat), s.pstate ≤ 2 → 416 ≤ s.hottest → OnlyPower s (s.startExit src) [R.POWER_STATUS, R.POWER_REFUSE 5] ∧ (s.startExit src).power.thermalWait = some (s.power.thermalWait.getD src) ∧ (s.startExit src).pstate = s.pstate ∧
    (s.startExit src).fld F.POWER_STATUS_RESULT = 2 ∧ (s.startExit src).fld F.POWER_STATUS_REFUSER = 5 ∧ (s.startExit src).fld (F.POWER_REFUSE_REFUSED 5) = min (s.fld (F.POWER_REFUSE_REFUSED 5) + 1) 65535) ∧
  (∀ (s : State) (src : Nat), (2 < s.pstate ∨ s.hottest < 416) → OnlyPower s (s.startExit src) [R.POWER_STATUS] ∧ (s.startExit src).pstate = 6 ∧ (s.startExit src).power = { s.power with from_ := s.pstate, source := src, thermalWait := none, exitAt := s.power.clock }) ∧
  (∀ (s : State), (s.entering = false ∨ s.power.from_ ≠ 0 ∨ s.power.quiet = true ∨ s.quiescing = true) → exec .streamQuiesceDone s = .next s) ∧
  (∀ (s : State), s.entering = true → s.power.from_ = 0 → s.power.quiet = false → s.quiescing = false → ∃ u v : State, u = s.enabledStreams.foldl (fun (a : State) n => a.dropLater n) s ∧
    v = { u with power := { u.power with quiet := true, pnr := decide (s.fld F.POWER_STATUS_TARGET ≤ 3) } } ∧ (s.fld F.POWER_STATUS_TARGET ≠ 4 → exec .streamQuiesceDone s = .next v) ∧ (s.fld F.POWER_STATUS_TARGET = 4 → exec .streamQuiesceDone s = .next (v.setBit F.POWER_STATUS_FLUSHING true))) ∧
  (∀ (s : State) (r : BitVec 4), s.aborts r.toNat = true → exec (.entryAbort r) s = .next (((s.bump (F.POWER_REFUSE_ABORTED r.toNat) 1).entryBack r.toNat).alarm F.POWER_ALARM_ENTRY_ABORTED 0)) ∧
  (∀ (s : State) (r : BitVec 4), (s.entering = false ∨ s.power.pnr = true ∨ (r.toNat ≠ 8 ∧ s.refuserHolds (s.fld F.POWER_STATUS_TARGET) r.toNat = false)) → exec (.entryAbort r) s = .next s) ∧
  (∀ (s : State), (s.entering = false ∨ s.power.pnr = false ∨ (3 < s.fld F.POWER_STATUS_TARGET ∧ s.power.railsOff ≠ 7)) → exec .powerEntryDone s = .next s) ∧
  (∀ (s : State) (t : Nat), s.entering = true → s.power.pnr = true → s.fld F.POWER_STATUS_TARGET = t → t ≤ 3 → ∃ u v w : State, u = (((s.setFld F.POWER_STATUS_STATE t).setFld F.POWER_STATUS_TARGET 0).setFld F.POWER_STATUS_RESULT 1).setFld F.POWER_STATUS_REFUSER 0xF ∧
    (t = 1 → v = u) ∧ (t ≠ 1 → s.power.from_ ≤ 1 → v = u.lanesIdle.journalWrite) ∧ (t ≠ 1 → 1 < s.power.from_ → v = u.journalWrite) ∧ w = { v with power := { v.power with pnr := false, wakePend := none, deepAt := if t = 3 then v.power.clock else v.power.deepAt } } ∧
    (s.power.wakePend = none → exec .powerEntryDone s = .next w) ∧ (∀ src, s.power.wakePend = some src → exec .powerEntryDone s = .next (w.startExit src))) ∧
  (∀ (s : State), s.entering = true → s.power.pnr = true → 3 < s.fld F.POWER_STATUS_TARGET → s.power.railsOff = 7 → exec .powerEntryDone s = .next s.enterOff ∧ s.enterOff.power.off = true ∧ s.enterOff.alarmQ = [] ∧ ∀ src, s.power.wakePend = some src → s.enterOff.power.waking = true ∧ s.enterOff.power.source = src) ∧
  (∀ (l : List Doorbell) (s : State), (s.alive = false ∨ s.pstate ≠ 6) → exec (.powerExitDone l) s = .next s) ∧
  (∀ (s : State), s.alive = true → s.pstate = 6 → s.power.from_ ≠ 3 → s.lantern.noticesDue = false → ∃ u v w : State, u = (List.range 8).foldl (fun (a : State) k => a.setDie k { a.die k with recalFrom := a.uptime }) s ∧ v = { u.setFld F.POWER_STATUS_STATE 0 with power := { u.power with quiet := false } } ∧
    w = v.enabledStreams.foldl (fun (a : State) n => a.resumeStream n) v ∧ (w.lantern.noticesDue = false → exec (.powerExitDone []) s = .next { w.lastWake with power := { w.lastWake.power with brown := false } })) ∧
  (∀ (s : State), s.power.source < 256 → s.power.from_ < 16 → OnlyRegs s s.lastWake [R.POWER_LAST_WAKE] ∧ s.lastWake.fld F.POWER_LAST_WAKE_SOURCE = s.power.source ∧ s.lastWake.fld F.POWER_LAST_WAKE_FROM = s.power.from_ ∧
    s.lastWake.fld F.POWER_LAST_WAKE_COUNT = (s.fld F.POWER_LAST_WAKE_COUNT + 1) % 65536 ∧ s.lastWake.bit F.POWER_LAST_WAKE_BROWNOUT = s.power.brown) ∧
  (∀ (s : State), exec .wakeN s = .next (s.wake 2 0 false) ∧ (s.power.timerDue = false → exec .wakeTimerExpiry s = .next s) ∧ (s.power.timerDue = true → ∃ u : State, u = { s with power := { s.power with timerDue := false } } ∧ exec .wakeTimerExpiry s = .next (u.wake 3 3 false))) ∧
  (∀ (s : State) (src b : Nat) (pr : Bool), (s.regBit R.POWER_WAKE_CFG b = false ∨ s.power.vstby = false) → s.wake src b pr = s) ∧
  (∀ (s : State) (src b : Nat), s.regBit R.POWER_WAKE_CFG b = true → s.power.vstby = true → s.power.off = false → s.power.tripped = false → s.power.inReset = false → s.power.tripping = false → (s.pstate = 0 → s.wake src b false = s) ∧
    (s.pstate ≠ 0 → s.pstate < 5 → s.wake src b false = s.startExit src) ∧ (s.pstate = 5 → s.power.pnr = false → s.wake src b false = s.entryBack 0xF) ∧
    (s.pstate = 5 → s.power.pnr = true → s.wake src b false = { s with power := { s.power with wakePend := some (min src (s.power.wakePend.getD src)) } })) ∧
  (∀ (s : State) (src b : Nat) (pr : Bool), s.regBit R.POWER_WAKE_CFG b = true → s.power.vstby = true → s.power.off = true → s.power.tripped = false → s.power.waking = false → s.wake src b pr = { s with power := { s.power with waking := true, railsOn := 0, source := src, from_ := 4, exitAt := s.power.clock } }) ∧
  (∀ (s : State) (src b : Nat), s.regBit R.POWER_WAKE_CFG b = true → s.power.vstby = true → s.power.tripped = true → s.power.waking = false → (s.power.lockout = true → s.wake src b false = s) ∧
    (s.power.lockout = false → s.wake src b false = { s with power := { s.power with waking := true, railsOn := 0, source := src, from_ := 5, exitAt := s.power.clock } }))

/-- PFW, flushes, rail steps, POR, brown-out, loss of power, temperature samples and the trip act as ruled, and throttle levels follow Table SUMP-7 with hysteresis (15_power_health R488, R489, R490, R491, R493, R494; 15_power_health R495; 16_pins_package_test R514, R515, R516; 09_associative_search R323; 09_associative_search Table SUMP-7). -/
def Obligations.RailsJournalAndTemperatureProtectThePart : Prop :=
  (∀ (s : State), ∃ u : State, u = { s with power := { s.power with pfwLow := true } } ∧ (s.alive = false → exec .pfwNFall s = .next u) ∧ (s.alive = true → exec .pfwNFall s = .next (((u.setBit F.POWER_STATUS_PFW true).alarm F.POWER_ALARM_PFW 0).setBit F.POWER_STATUS_FLUSHING true))) ∧
  (∀ (s : State), ∃ u : State, u = { s with power := { s.power with pfwLow := false } } ∧ (s.alive = false → exec .pfwNRise s = .next (u.wake 4 4 true)) ∧ (s.alive = true → exec .pfwNRise s = .next (((u.setBit F.POWER_STATUS_PFW false).setBit F.POWER_STATUS_HELD false).wake 4 4 true))) ∧
  (∀ (s : State), (s.bit F.POWER_STATUS_FLUSHING = false ∨ s.power.off = true ∨ s.power.tripped = true ∨ s.power.inReset = true) → exec .journalFlushDone s = .next s) ∧
  (∀ (s : State), s.bit F.POWER_STATUS_FLUSHING = true → s.power.off = false → s.power.tripped = false → s.power.inReset = false → Answers .journalFlushDone s (fun t => OnlyPower s t [R.POWER_STATUS] ∧ t.bit F.POWER_STATUS_FLUSHING = false ∧ t.bit F.POWER_STATUS_HELD = (s.power.pfwLow && !s.power.tripping) ∧ t.pstate = s.pstate ∧
    t.power.journal.closed = true ∧ t.power.journal.blank = false ∧ t.power.journal.uptime = s.uptime ∧ t.power.journal.faults = s.faults ∧ t.power.journal.alarms = s.alarmQ ∧ t.power.journal.aseq = s.aseq ∧ t.power.journalAt = s.uptime)) ∧
  (∀ (s : State), (s.alive = false ∨ s.bit F.POWER_STATUS_FLUSHING = true ∨ s.uptime < s.power.journalAt + 600000) → exec .journalPeriodic s = .next s) ∧
  (∀ (s : State), s.alive = true → s.bit F.POWER_STATUS_FLUSHING = false → s.power.journalAt + 600000 ≤ s.uptime → Answers .journalPeriodic s (fun t => t = { s with power := t.power } ∧ t.power.journal = s.journalNow (s.bit F.POWER_STATUS_HELD) ∧ t.power.journalAt = s.uptime)) ∧
  (∀ (st : Bool) (e : Option (BitVec 3)) (s : State), (s.bit F.POWER_STATUS_FLUSHING = true ∨ 7 ≤ s.power.railsOff ∨ (s.power.tripping = false ∧ (s.entering = false ∨ s.fld F.POWER_STATUS_TARGET ≠ 4 ∨ s.power.offFlushed = false))) → exec (.railOffStep st e) s = .next s) ∧
  (∀ (st : Bool) (s : State), s.bit F.POWER_STATUS_FLUSHING = false → s.power.railsOff < 7 → (s.power.tripping = true ∨ (s.entering = true ∧ s.fld F.POWER_STATUS_TARGET = 4 ∧ s.power.offFlushed = true)) → ∃ u : State, OnlyPower s u [R.POWER_SEQ] ∧ u.power.pnr = true ∧ u.power.railsOff = s.power.railsOff + 1 ∧ u.power.tripping = s.power.tripping ∧
    (st = false → u.power.railUp = s.power.railUp.filter (fun r => !(stepRails (s.power.railsOff + 1)).contains r) ∧ (0 < s.power.railsOff → u.reg R.POWER_SEQ = s.reg R.POWER_SEQ) ∧ (s.power.railsOff = 0 → u.reg R.POWER_SEQ = 0)) ∧
    (st = true → u.power.railUp = s.power.railUp ∧ u.fld F.POWER_SEQ_RAIL = s.power.railsOff + 1 ∧ u.bit F.POWER_SEQ_STUCK = true ∧ u.bit F.POWER_SEQ_EARLY = false) ∧
    ((s.power.tripping = false ∨ s.power.railsOff < 6) → exec (.railOffStep st none) s = .next u) ∧ (s.power.tripping = true → s.power.railsOff = 6 → exec (.railOffStep st none) s = .next u.enterTripped ∧ u.enterTripped.power.tripped = true ∧ u.enterTripped.alarmQ = [])) ∧
  (∀ (st : Bool) (e : BitVec 3) (s : State), s.bit F.POWER_STATUS_FLUSHING = false → s.power.railsOff < e.toNat → s.power.tripping = false → s.entering = true → s.fld F.POWER_STATUS_TARGET = 4 → s.power.offFlushed = true → Answers (.railOffStep st (some e)) s (fun t => OnlyPower s t [R.POWER_SEQ] ∧ t.power.railsOff = 7 ∧ t.power.pnr = true ∧
    t.fld F.POWER_SEQ_RAIL = e.toNat ∧ t.bit F.POWER_SEQ_EARLY = true ∧ ∀ j r, s.power.railsOff < j → j ≤ 7 → r ∈ stepRails j → r ∉ t.power.railUp)) ∧
  (∀ (s : State), s.power.waking = false → exec .railOnStep s = .next s) ∧
  (∀ (s : State) (up : List Nat), s.power.waking = true → up = s.power.railUp ++ (stepRails (7 - s.power.railsOn)).filter (fun r => !s.power.railUp.contains r) → (s.power.railsOn < 6 → exec .railOnStep s = .next { s with power := { s.power with railsOn := s.power.railsOn + 1, railUp := up } }) ∧
    (6 ≤ s.power.railsOn → exec .railOnStep s = .next { s with power := { s.power with railsOn := 7, railUp := up, waking := false, off := false, tripped := false, inReset := true, railsOff := 0, lockout := false } })) ∧
  (∀ (s : State), s.power.vstby = true → exec .por s = .next s) ∧
  (∀ (s : State), s.power.vstby = false → Answers .por s (fun t => OnlyPower s t [R.POWER_LAST_WAKE, R.POWER_WAKE_CFG, R.POWER_WAKE_TIMER] ∧ t.reg R.POWER_LAST_WAKE = regReset R.POWER_LAST_WAKE ∧ t.reg R.POWER_WAKE_CFG = regReset R.POWER_WAKE_CFG ∧ t.reg R.POWER_WAKE_TIMER = 0 ∧ t.power.vstby = true ∧ t.power.waking = true ∧ t.power.source = 1 ∧ t.power.railsOn = 0)) ∧
  (∀ (s : State), (s.power.off = false ∨ s.power.vstby = false ∨ s.power.waking = true ∨ s.bit F.POWER_WAKE_CFG_STBY_NORMAL = true) → exec .brownout s = .next s) ∧
  (∀ (s : State), s.power.off = true → s.power.vstby = true → s.power.waking = false → s.bit F.POWER_WAKE_CFG_STBY_NORMAL = false → Answers .brownout s (fun t => OnlyPower s t [R.POWER_LAST_WAKE, R.POWER_WAKE_CFG, R.POWER_WAKE_TIMER] ∧ t.reg R.POWER_WAKE_CFG = regReset R.POWER_WAKE_CFG ∧ t.reg R.POWER_WAKE_TIMER = 0 ∧
    t.fld F.POWER_LAST_WAKE_COUNT = 0 ∧ t.fld F.POWER_LAST_WAKE_SOURCE = s.fld F.POWER_LAST_WAKE_SOURCE ∧ t.power = { s.power with timerLeft := 0, timerDue := false, aseqLost := true, brown := true })) ∧
  (∀ (s : State), (s.power.off = true ∨ s.power.tripped = true ∨ 0 < s.power.railsOff) → exec .railLow s = .next s) ∧
  (∀ (s : State), s.power.off = false → s.power.tripped = false → s.power.railsOff = 0 → Answers .railLow s (fun t => t.power.railLow = true ∧ t.power.off = !s.power.tripping ∧ t.power.tripped = s.power.tripping ∧ t.power.railUp = [] ∧ t.alarmQ = [])) ∧
  (∀ (s : State), Answers (.powerLoss false) s (fun t => t = s.collapse ∧ t.power.railUp = [] ∧ (t.power.off || t.power.tripped) = true) ∧ Answers (.powerLoss true) s (fun t => t.power.vstby = false ∧ t.power.off = true ∧ t.power.tripped = false ∧ t.power.railUp = [] ∧ t.power.aseqLost = true)) ∧
  (∀ (s : State) (l : List (BitVec 12)), (s.alive = false ∨ l.length ≠ 9) → exec (.tempSample l) s = .next s) ∧
  (∀ (s : State) (l : List (BitVec 12)), s.alive = true → l.length = 9 → ∃ u : State, u = s.takeSample l ∧ (∀ n, n < 9 → u.fld (F.POWER_TEMP_TEMP n) = (l.getD n 0).toNat) ∧
    (∀ n, s.power.railsOff = 0 → (hotSensors l).find? (fun m => s.power.hot.contains m) = some n → n < 9 ∧ n ∈ s.power.hot ∧ 440 ≤ (l.getD n 0).toInt ∧ exec (.tempSample l) s = .next (u.trip n (l.getD n 0))) ∧
    ((∀ n, n < 9 → n ∈ s.power.hot → (l.getD n 0).toInt < 440) → ∃ v : State, v = { u with power := { u.power with hot := hotSensors l } } ∧ ((u.power.thermalWait = none ∨ 400 ≤ v.hottest) → exec (.tempSample l) s = .next v) ∧
      (∀ src, u.power.thermalWait = some src → v.hottest < 400 → exec (.tempSample l) s = .next (v.startExit src)))) ∧
  (∀ (s : State) (n : Nat) (r : BitVec 12), (s.trip n r).power.tripping = true ∧ (s.trip n r).power.tripAt = s.power.clock ∧ (s.trip n r).power.lockout = true ∧ (s.trip n r).power.tripSensor = n ∧ (s.trip n r).power.tripReading = r ∧ (s.trip n r).tunnel.matchOut = false ∧ (s.trip n r).bit F.POWER_STATUS_FLUSHING = true ∧ (s.trip n r).bit F.POWER_SUMMARY_THERMAL = true) ∧
  (∀ (s : State), (s.power.lockout = false ∨ s.power.clock < s.power.tripAt + 6000000000) → exec .tripLockoutExpiry s = .next s) ∧
  (∀ (s : State), s.power.lockout = true → s.power.tripAt + 6000000000 ≤ s.power.clock → exec .tripLockoutExpiry s = .next { s with power := { s.power with lockout := false } }) ∧
  (∀ (t : Int) (l : Nat), l ≤ 5 → throttleStep t l ≤ 5 ∧ (∀ n, n ≤ 5 → 368 + 12 * (n : Int) ≤ t → 0 < n → n ≤ throttleStep t l) ∧ (0 < throttleStep t l → 368 + 12 * (throttleStep t l : Int) - 8 < t) ∧ (∀ n, n ≤ l → 368 + 12 * (n : Int) - 8 < t → n ≤ throttleStep t l))

/-- Faults of Sump, Chisel and the device, readiness after bring-up, alarm and log records, PMBus alerts and voltage requests act as ruled (15_power_health R496, R497, R498, R499, R500, R501; 15_power_health R504; 13_host_rings R440; 16_pins_package_test R517, R518, R519). -/
def Obligations.DeviceFaultsReadinessAndRecordsAct : Prop :=
  (∀ (s : State), (s.alive = false ∨ s.fatal = true ∨ s.power.sumpDead = true ∨ 2 ≤ s.powerLevel) → exec .sumpFault s = .next s) ∧
  (∀ (s u : State), s.alive = true → s.fatal = false → s.power.sumpDead = false → s.powerLevel < 2 →
    u = (({ s with faults := keepTwo ((.sump, s.uptime) :: s.faults) .sump } : State).setBit F.SUMP_STATUS_READY false).setBit F.SUMP_STATUS_FAULT true →
    (s.recentFaults .sump < 2 → exec .sumpFault s = .next u.sumpRestart) ∧
    (2 ≤ s.recentFaults .sump → Answers .sumpFault s (fun t => t.power.sumpDead = true ∧ t.fld F.POWER_FAULT_KIND = 1 ∧ t.fld F.POWER_FAULT_CAUSE = 6 ∧ t.faults = u.sumpRestart.faults))) ∧
  (∀ (s : State), (s.alive = false ∨ s.fatal = true ∨ s.power.hbm = false ∨ s.power.sumpDead = true ∨ s.bit F.SUMP_STATUS_READY = true ∨ (s.bit F.SUMP_STATUS_FAULT = false ∧ s.bit F.LANTERN_STATUS_READY = false)) → exec .sumpRestartDone s = .next s) ∧
  (∀ (s : State), s.alive = true → s.fatal = false → s.power.hbm = true → s.power.sumpDead = false → s.bit F.SUMP_STATUS_READY = false → (s.bit F.SUMP_STATUS_FAULT = true ∨ s.bit F.LANTERN_STATUS_READY = true) →
    Answers .sumpRestartDone s (fun t => OnlyRegs s t [R.SUMP_STATUS] ∧ t.bit F.SUMP_STATUS_READY = true ∧ t.bit F.SUMP_STATUS_FAULT = false)) ∧
  (∀ (s : State), (s.alive = false ∨ s.fatal = true ∨ s.power.chiselDead = true ∨ 1 ≤ s.powerLevel) → exec .chiselFault s = .next s) ∧
  (∀ (s u : State), s.alive = true → s.fatal = false → s.power.chiselDead = false → s.powerLevel = 0 →
    u = ({ s with faults := keepTwo ((.chisel, s.uptime) :: s.faults) .chisel } : State).setBit F.CHISEL_STATUS_READY false →
    (s.recentFaults .chisel < 2 → exec .chiselFault s = .next u.loseUpdates) ∧
    (2 ≤ s.recentFaults .chisel → Answers .chiselFault s (fun t => t.power.chiselDead = true ∧ t.fld F.POWER_FAULT_KIND = 1 ∧ t.fld F.POWER_FAULT_CAUSE = 7 ∧ t.chisel = u.loseUpdates.chisel))) ∧
  (∀ (h : Shadow) (k : Nat), (k % 2 = 0 → h.lose k = (h.n0, { h with u0 := [], n0 := 0 })) ∧ (k % 2 = 1 → h.lose k = (h.n1, { h with u1 := [], n1 := 0 }))) ∧
  (∀ (s : State), (s.alive = false ∨ s.fatal = true ∨ s.power.chiselDead = true ∨ s.bit F.CHISEL_STATUS_READY = true ∨ s.bit F.SUMP_STATUS_READY = false ∨ s.lanternRuns = false) → exec .chiselReady s = .next s) ∧
  (∀ (s : State), s.alive = true → s.fatal = false → s.power.chiselDead = false → s.bit F.CHISEL_STATUS_READY = false → s.bit F.SUMP_STATUS_READY = true → s.lanternRuns = true →
    (s.lantern.noticesDue = false → Answers .chiselReady s (fun t => OnlyRegs s t [R.CHISEL_STATUS] ∧ t.bit F.CHISEL_STATUS_READY = true)) ∧
    (s.lantern.noticesDue = true → ∃ u : State, u = { s.setBit F.CHISEL_STATUS_READY true with lantern := { s.lantern with noticesDue := false } } ∧ exec .chiselReady s = .next u.sendNotices)) ∧
  (∀ (s : State) (c : Fin 3), (s.alive = false ∨ s.fatal = true) → exec (.fatalDeviceFault c) s = .next s) ∧
  (∀ (s : State) (c : Fin 3), s.alive = true → s.fatal = false → Answers (.fatalDeviceFault c) s (fun t => t.fatal = true ∧ t.fld F.POWER_FAULT_CAUSE = c.val + 1 ∧ t.tunnel.matchOut = false ∧ t.power.hbm = false ∧ t.power.grotto = false ∧
    t.bit F.SUMP_STATUS_READY = false ∧ t.bit F.CHISEL_STATUS_READY = false ∧ t.bit F.TUNNEL_STATUS_READY = false ∧ t.reg R.GAL_GROUP_READY_LO = 0 ∧ t.reg R.GAL_GROUP_READY_HI = 0 ∧ t.bit F.LANTERN_STATUS_READY = s.bit F.LANTERN_STATUS_READY)) ∧
  (∀ (s : State) (ok : Bool), (s.lanternRuns = false ∨ s.fatal = true ∨ s.power.hbm = true) → exec (.hbmTrained ok) s = .next s) ∧
  (∀ (s : State), s.lanternRuns = true → s.fatal = false → s.power.hbm = false →
    Answers (.hbmTrained true) s (fun t => OnlyPower s t [R.ADIT_STATUS] ∧ t.power = { s.power with hbm := true, grotto := true } ∧ t.bit F.ADIT_STATUS_HOST_INGEST_READY = true) ∧
    exec (.hbmTrained false) s = .next { s with power := { s.power with hbmLost := true }, sump := { s.sump with mirrors := [] } }) ∧
  (∀ (s : State), Answers .faultAgeOut s (fun t => t = { s with faults := t.faults } ∧ ∀ x, x ∈ t.faults ↔ x ∈ s.faults ∧ s.uptime < x.2 + 86400000)) ∧
  (∀ (s : State) (ok : Bool), (s.activeRing 6 = none ∨ s.alarmQ = [] ∨ s.alive = false ∨ s.fatal = true ∨ s.asleep = true) → exec (.alarmDeliver ok) s = .next s) ∧
  (∀ (s : State) (ok : Bool) (r : Nat), s.activeRing 6 = some r → s.ringRoom r = false → exec (.alarmDeliver ok) s = .next s) ∧
  (∀ (s : State) (r : Nat) (w : Slot) (q : List Slot), s.activeRing 6 = some r → s.alarmQ = w :: q → s.alive = true → s.fatal = false → s.asleep = false → s.ringRoom r = true →
    exec (.alarmDeliver false) s = .next (s.ringError r) ∧ ∃ u : State, u = ({ s with alarmQ := q } : State).putRecord r w ∧ (u.alarmLost = none → exec (.alarmDeliver true) s = .next u) ∧
      (∀ n f, u.alarmLost = some (n, f) → exec (.alarmDeliver true) s = .next (({ u with alarmLost := none } : State).queueAlarm 0x0745 7 0 [(16, 4, n), (20, 4, f)]))) ∧
  (∀ (s : State) (type r : Nat), s.activeRing type = some r → r < 64 ∧ s.ringState r = ringACTIVE ∧ s.ringType r = type ∧ ∀ m, m < r → ¬(s.ringState m = ringACTIVE ∧ s.ringType m = type)) ∧
  (∀ (s : State) (ok : Bool), (s.alive = false ∨ s.fatal = true) → exec (.logRecordWrite ok) s = .next s) ∧
  (∀ (s : State) (ok : Bool), s.alive = true → s.fatal = false → s.activeRing 5 = none → Answers (.logRecordWrite ok) s (fun t => t = { s with regs := t.regs, traceLog := [], logDropped := min 65535 (s.logDropped + s.traceLog.length) } ∧
    t.fld F.POWER_LOG_DROP_COUNT = min (s.fld F.POWER_LOG_DROP_COUNT + s.traceLog.length) (2 ^ 32 - 1) ∧ ∀ a, a ≠ R.POWER_LOG_DROP → t.reg a = s.reg a)) ∧
  (∀ (s : State) (ok : Bool) (r : Nat), s.activeRing 5 = some r → (s.traceLog = [] ∨ s.asleep = true ∨ s.ringRoom r = false ∨ s.now < s.host.logNext) → exec (.logRecordWrite ok) s = .next s) ∧
  (∀ (s : State) (r : Nat) (e : TraceWord) (l : List TraceWord), s.alive = true → s.fatal = false → s.activeRing 5 = some r → s.traceOrder = e :: l → s.asleep = false → s.ringRoom r = true → s.host.logNext ≤ s.now →
    exec (.logRecordWrite false) s = .next (s.ringError r) ∧ ∃ (w : List TraceWord) (u : State), w = traceSpan e.2.1 6 (e :: l) ∧ w.length ≤ 6 ∧ (∀ x ∈ w, e.2.1 ≤ x.2.1 ∧ x.2.1 < e.2.1 + 128) ∧ w <+: e :: l ∧
      u = ({ s with traceLog := w.foldl (fun m x => dropFirst x m) s.traceLog, logDropped := 0 } : State).putRecord r (traceRecord s.logDropped w) ∧ exec (.logRecordWrite true) s = .next { u with host := { u.host with logNext := s.now + s.traceGap w.length } }) ∧
  (∀ (s : State) (l : List (BitVec 16)), (s.alive = false ∨ s.seqRuns = true ∨ l = [] ∨ ∀ n, n < 9 → s.bit (F.TEST_PMB_RAIL_EN n) = false) → exec (.pmbAlert l) s = .next s) ∧
  (∀ (s : State) (w : BitVec 16) (n : Nat), s.alive = true → s.seqRuns = false → n < 9 → s.bit (F.TEST_PMB_RAIL_EN n) = true →
    exec (.pmbAlert [w]) s = .next (({ s with free := s.free + 1 } : State).traceArrive traceLantern s.tick 0xE20 (BitVec.ofNat 32 (Config.freeNat s.free % 65536 * 65536 + w.toNat)))) ∧
  (∀ (s : State) (core : Bool) (d : BitVec 16), (core = true → 720 ≤ s.voutTarget core d.toNat ∧ s.voutTarget core d.toNat ≤ 800) ∧ (core = false → 1110 ≤ s.voutTarget core d.toNat ∧ s.voutTarget core d.toNat ≤ 1140)) ∧
  (∀ (a b : Nat), (a ≤ b → a ≤ voutStep a b ∧ voutStep a b ≤ b ∧ voutStep a b ≤ a + 10) ∧ (b ≤ a → b ≤ voutStep a b ∧ voutStep a b ≤ a ∧ a ≤ voutStep a b + 10)) ∧
  (∀ (s : State) (core : Bool) (d : BitVec 16) (ok : Bool) (r : Nat), r = (if core then 8 else 1) → (s.alive = false ∨ s.seqRuns = true ∨ s.bit (F.TEST_PMB_RAIL_EN r) = false ∨ (aget s.test.voutAt r ≠ 0 ∧ s.power.clock < aget s.test.voutAt r + 100000) ∨
    s.fld (F.TEST_PMB_RAIL_VSET_MV r) = s.voutTarget core d.toNat) → exec (.voutRequest core d ok) s = .next s) ∧
  (∀ (s : State) (core : Bool) (d : BitVec 16) (r now : Nat), r = (if core then 8 else 1) → s.alive = true → s.seqRuns = false → s.bit (F.TEST_PMB_RAIL_EN r) = true → (aget s.test.voutAt r = 0 ∨ aget s.test.voutAt r + 100000 ≤ s.power.clock) →
    s.fld (F.TEST_PMB_RAIL_VSET_MV r) ≠ s.voutTarget core d.toNat → now = (if s.fld (F.TEST_PMB_RAIL_VSET_MV r) = 0 then (if core then 750 else 1100) else s.fld (F.TEST_PMB_RAIL_VSET_MV r)) →
    ∃ u : State, u = { s with test := { s.test with voutAt := aset s.test.voutAt r s.power.clock } } ∧ exec (.voutRequest core d false) s = .next ((u.bump F.TEST_PMB_ERR_COUNT 1).alarm F.TEST_ALARM_PMB_FAULT r) ∧
      exec (.voutRequest core d true) s = .next (u.setFld (F.TEST_PMB_RAIL_VSET_MV r) (voutStep now (s.voutTarget core d.toNat))))

/-- RESET_N keeps what is non-volatile and resets the rest, the boot ROM chooses a bank, and the link's loss and return act on the rings (00_scope R19; 15_power_health R547; 14_lantern_mailboxes_updates R448, R468, R470; 13_host_rings R414, R416, R431; 16_pins_package_test R535). -/
def Obligations.ResetBootAndTheHostLinkAct : Prop :=
  (∀ (s : State), s.resettable = false → exec .resetNAssert s = .next s) ∧
  (∀ (a : Nat) (v : Word), resetValue a (regReset a) = regReset a ∧ resetValue a (resetValue a v) = resetValue a v) ∧
  (∀ (s : State), s.resettable = true → s.lantern.fwJob = none → s.lantern.libJob = none → Memory.wf s = true → Answers .resetNAssert s (fun t => t.alive = false ∧ t.power.inReset = true ∧ t.power.source = 7 ∧ t.power.from_ = s.powerLevel ∧
    (∀ a, a ∉ [R.TUNNEL_STATUS, R.TUNNEL_MIRROR] ++ (List.range 8).map R.SEAM_UPKEEP_STATUS → t.reg a = resetValue a (s.reg a)) ∧
    t.fabric = [] ∧ t.hbm = [] ∧ t.hbmPages = [] ∧ t.latchB = [] ∧ t.latchM = [] ∧ t.holdB = [] ∧ t.holdM = [] ∧ t.host.rings = [] ∧ t.asm = [] ∧ t.nets = [] ∧ t.groups = [] ∧ t.sump.active = [] ∧ t.sump.ordQ = [] ∧
    t.alarmQ = s.alarmQ ∧ t.faults = s.faults ∧ t.aseq = s.aseq ∧ t.hostMem = s.hostMem ∧ t.pending = s.pending ∧ t.sump.entries = s.sump.entries ∧ t.lantern.secret = s.lantern.secret)) ∧
  (∀ (s : State) (a b : Bool), s.power.inReset = false → exec (.resetNRelease a b) s = .next s) ∧
  (∀ (s : State) (a b : Bool), s.power.inReset = true → s.test.pinsHeld = true → exec (.resetNRelease a b) s = .next { s with test := { s.test with waitRelease := some (a, b) } }) ∧
  (∀ (s : State) (a b : Bool) (n : Nat), s.power.inReset = true → s.test.pinsHeld = false → s.power.from_ < 4 → s.lantern.updateLost = [] → s.lantern.rolledBack = [] → s.bankIn fbTRIAL = none → s.bankIn fbACTIVE = some n →
    s.bankPasses n (if n = 0 then a else b) = true → Answers (.resetNRelease a b) s (fun t => t.power.inReset = false ∧ t.lantern.boot = some { bank := n } ∧ t.bit F.POWER_STATUS_PFW = s.power.pfwLow ∧
      ∀ r, r ∉ [R.POWER_STATUS, R.POWER_LAST_WAKE] → t.reg r = s.reg r)) ∧
  (∀ (s : State) (a b : Bool) (n : Nat), s.power.inReset = true → s.test.pinsHeld = false → s.power.from_ < 4 → s.lantern.updateLost = [] → s.lantern.rolledBack = [] → s.bankIn fbTRIAL = some n →
    Answers (.resetNRelease a b) s (fun t => t.power.inReset = false ∧ t.bankState n = fbREJECTED ∧ t.bit F.LANTERN_ALARM_FW_ROLLBACK = true ∧ (s.bankPasses (1 - n) (if n = 0 then b else a) = true → t.lantern.boot = some { bank := 1 - n } ∧ t.bankState (1 - n) = fbACTIVE))) ∧
  (∀ (s : State) (c : Bool), (s.lantern.boot = none ∨ s.alive = false) → exec (.bootDone c) s = .next s) ∧
  (∀ (s : State) (b : Boot), s.lantern.boot = some b → s.alive = true → b.switch = false → exec (.bootDone true) s = .next (s.placeAreas.startBank b) ∧
    exec (.bootDone false) s = .next ((s.alarm F.LANTERN_ALARM_RECORD_ERR 0).placeAreas.startBank b)) ∧
  (∀ (s : State) (b : Boot) (c : Bool), s.lantern.boot = some b → b.switch = true → exec (.bootDone c) s = .next s) ∧
  (∀ (s : State), OnlyRegs s { s.placeAreas with free := s.free } [R.SUMP_MIRROR_BASE, R.CHISEL_BG_BASE]) ∧
  (∀ (s : State), s.alive = false → exec .pcieLinkDown s = .next s ∧ exec .pciePerst s = .next { s with host := { s.host with perst := true } }) ∧
  (∀ (s : State), s.alive = true → exec .pcieLinkDown s = .next s.linkLost ∧ ((∀ r, r < 64 → s.ringState r = ringDISABLED) → OnlyRegs s s.linkLost [R.HOST_STATUS] ∧ s.linkLost.linkUp = false)) ∧
  (∀ (s : State), s.alive = true → ∃ u : State, u = ({ s with host := { s.host with perst := true } } : State).linkLost ∧ Answers .pciePerst s (fun t => t = { u with regs := t.regs } ∧ ∀ a, (isMsix a = true → t.reg a = regReset a) ∧ (isMsix a = false → t.reg a = u.reg a))) ∧
  (∀ (s : State) (v : BitVec 4) (w : BitVec 5), (s.alive = false ∨ s.linkUp = true) → exec (.pcieLinkUp v w) s = .next s) ∧
  (∀ (s : State) (v : BitVec 4) (w : BitVec 5), s.alive = true → s.linkUp = false → Answers (.pcieLinkUp v w) s (fun t => t = { s with regs := t.regs, host := { s.host with perst := false } } ∧ (∀ a, a ≠ R.HOST_STATUS → t.reg a = s.reg a) ∧
    t.linkUp = true ∧ t.fld F.HOST_STATUS_SPEED = v.toNat ∧ t.fld F.HOST_STATUS_WIDTH = w.toNat))

/-- Every timestamp from T0 on lies in one tick, the tick counter starts and moves as set up, and PPS and 10 MHz inputs correct the timestamp (02_hypervector_algebra R78; 16_pins_package_test R524, R525). -/
def Obligations.TicksAndTimestampsFollowTheirInputs : Prop :=
  (∀ (s : State), 5000 ≤ s.tickPeriod ∧ s.tickPeriod ≤ 100000 ∧ ∀ ts t, s.t0 ≤ ts → (s.tickOf ts = t ↔ s.tickStart t ≤ ts ∧ ts < s.tickStart (t + 1))) ∧
  (∀ (s : State), Reached s 9 → (s.ticking = true ∨ s.test.start.isSome = true) → Answers .tickStart s (fun t => OnlyAlarm s t F.TEST_ALARM_TICK_REFUSED)) ∧
  (∀ (s : State), Reached s 9 → s.ticking = false → s.test.start = none → ∃ ts m, exec .tickStart s = .next { s with test := { s.test with start := some (ts, m) } } ∧ ts = s.tickStart m ∧ (s.now ≤ s.t0 → m = 0) ∧ (s.t0 < s.now → s.now < ts ∧ ∀ j, j < m → s.tickStart j ≤ s.now)) ∧
  (∀ (s : State), (s.alive = false ∨ (s.ticking = false ∧ s.test.start = none)) → exec .tickBoundary s = .next s) ∧
  (∀ (s : State) (ts m : Nat), s.alive = true → ((s.ticking = true ∧ ts = s.tickStart (s.tick + 1) ∧ m = s.tick + 1) ∨ (s.ticking = false ∧ s.test.start = some (ts, m))) → m < 2 ^ 64 → ts < 2 ^ 64 →
    Answers .tickBoundary s (fun t => t.tick = m ∧ t.ticking = true ∧ t.test.start = none ∧ (s.test.slew = 0 → t.now = max s.now ts))) ∧
  (∀ (t : Nat), (secondOffset t).natAbs ≤ 50000000 ∧ ((t : Int) - secondOffset t) % 100000000 = 0) ∧
  (∀ (s : State), (s.alive = false ∨ s.bit F.TEST_TIME_CTRL_PPS_EN = false) → exec .timePpsEdge s = .next s ∧ exec .ppsLost s = .next s) ∧
  (∀ (s : State), s.alive = true → s.bit F.TEST_TIME_CTRL_PPS_EN = true → s.ticking = false → s.test.start = none → Answers .timePpsEdge s (fun t => t.now = s.get64 R.TEST_TIME_NEXT_LO ∧ t.get64 R.TEST_TIME_NEXT_LO = (s.get64 R.TEST_TIME_NEXT_LO + 100000000) % 2 ^ 64 ∧
    t.test = { s.test with ppsAt := t.now } ∧ t.bit F.TEST_TIME_STATUS_PPS_LOCK = decide ((secondOffset t.now).natAbs ≤ 2) ∧ t.fld F.TEST_TIME_STATUS_PPS_COUNT = (s.fld F.TEST_TIME_STATUS_PPS_COUNT + 1) % 2 ^ F.TEST_TIME_STATUS_PPS_COUNT.w)) ∧
  (∀ (s : State), s.alive = true → s.bit F.TEST_TIME_CTRL_PPS_EN = true → s.ticking = true → Answers .timePpsEdge s (fun t => t.now = s.now ∧ t.test = { s.test with ppsAt := s.now, slew := if (secondOffset s.now).natAbs ≤ 2 then 0 else -(secondOffset s.now), slewSub := 0 } ∧
    t.bit F.TEST_TIME_STATUS_PPS_LOCK = decide ((secondOffset s.now).natAbs ≤ 2) ∧ t.reg R.TEST_TIME_OFFSET = BitVec.ofInt 32 (secondOffset s.now) ∧ (100000 < (secondOffset s.now).natAbs → t.bit F.TEST_ALARM_PPS_JUMP = true) ∧
    ((secondOffset s.now).natAbs ≤ 100000 → t.alarmQ = s.alarmQ ∧ t.bit F.TEST_ALARM_PPS_JUMP = s.bit F.TEST_ALARM_PPS_JUMP))) ∧
  (∀ (s : State), (s.alive = false ∨ s.bit F.TEST_TIME_CTRL_REF10M_EN = false) → exec .ref10mLost s = .next s ∧ exec .ref10mReturn s = .next s) ∧
  (∀ (s : State), s.alive = true → s.bit F.TEST_TIME_CTRL_REF10M_EN = true → Answers .ref10mLost s (fun t => OnlyAlarm (s.setBit F.TEST_TIME_STATUS_ON_10M false) t F.TEST_ALARM_REF10M_LOST ∧ t.bit F.TEST_TIME_STATUS_ON_10M = false) ∧
    Answers .ref10mReturn s (fun t => OnlyRegs s t [R.TEST_TIME_STATUS] ∧ t.bit F.TEST_TIME_STATUS_ON_10M = true)) ∧
  (∀ (s : State), s.now < s.test.ppsAt + 150000000 → exec .ppsLost s = .next s) ∧
  (∀ (s : State), s.alive = true → s.bit F.TEST_TIME_CTRL_PPS_EN = true → s.test.ppsAt + 150000000 ≤ s.now → Answers .ppsLost s (fun t => OnlyAlarm s t F.TEST_ALARM_PPS_LOST))

/-- TAP instructions load, take the pins only while RESET_N is low with every rail up, and PRBS checkers run only on idle ports (16_pins_package_test R534, R535, R536, R537, R538; 16_pins_package_test Table PINS-10). -/
def Obligations.TapInstructionsAndPrbsCheckersAct : Prop :=
  (∀ (s : State) (a b : BitVec 226) (i : Instr), s.tapWorks = false → i ∈ [Instr.extest a b, .idcode, .samplePreload a b, .clamp, .highz, .extestPulse a b, .extestTrain a b, .bypass, .testLogicReset] → exec i s = .next s) ∧
  (∀ (s : State), s.pinsFree = true ↔ s.power.inReset = true ∧ s.test.waitRelease = none ∧ ∀ r, r < 9 → r ∈ s.power.railUp) ∧
  (∀ (s : State) (a b : BitVec 226), s.tapWorks = true → s.test.waitRelease = none →
    exec .idcode s = .next { s with test := { s.test with ir := 0x01, pinsHeld := false, dr := s.idcodeWord } } ∧ exec .testLogicReset s = .next { s with test := { s.test with ir := 0x01, pinsHeld := false, dr := s.idcodeWord } } ∧
    exec .bypass s = .next { s with test := { s.test with ir := 0xFF, pinsHeld := false, dr := 0 } } ∧ exec (.samplePreload a b) s = .next { s with test := { s.test with ir := 0x02, pinsHeld := false, dr := 0, drive := a, sample := b } }) ∧
  (∀ (s : State) (a b : BitVec 226) (op : BitVec 8) (i : Instr), s.tapWorks = true → (op, i) ∈ [((0x00 : BitVec 8), Instr.extest a b), (0x08, .extestPulse a b), (0x09, .extestTrain a b)] →
    (s.pinsFree = true → exec i s = .next { s with test := { s.test with ir := op, pinsHeld := true, dr := 0, drive := a, sample := b } }) ∧
    (s.pinsFree = false → s.test.waitRelease = none → exec i s = .next { s with test := { s.test with ir := op, pinsHeld := false, dr := 0 } })) ∧
  (∀ (s : State) (op : BitVec 8) (i : Instr), s.tapWorks = true → (op, i) ∈ [((0x04 : BitVec 8), Instr.clamp), (0x05, .highz)] → (s.pinsFree = true → exec i s = .next { s with test := { s.test with ir := op, pinsHeld := true, dr := 0 } }) ∧
    (s.pinsFree = false → s.test.waitRelease = none → exec i s = .next { s with test := { s.test with ir := op, pinsHeld := false, dr := 0 } })) ∧
  (∀ (s : State) (a b : Bool), s.tapWorks = true → s.test.waitRelease = some (a, b) → exec .bypass s = .next (({ s with test := { s.test with ir := 0xFF, pinsHeld := false, dr := 0 } } : State).release a b)) ∧
  (∀ (s : State) (p : Fin 6), Reached s 9 → s.prbsIdle p = false → ∀ i ∈ [Instr.prbsOff p, .prbsCheck p, .prbsGenerate p], Answers i s (fun t => OnlyAlarm s t F.TEST_ALARM_PRBS_REFUSED)) ∧
  (∀ (s : State) (p : Fin 6) (m : Nat) (i : Instr), Reached s 9 → s.prbsIdle p = true → (m, i) ∈ [(0, Instr.prbsOff p), (1, .prbsCheck p)] ∨ (4 ≤ p.val ∧ m = 2 ∧ i = .prbsGenerate p) →
    Answers i s (fun t => OnlyRegs s t [R.TEST_PRBS_CTRL p] ∧ t.fld (F.TEST_PRBS_CTRL_MODE p) = m ∧ t.bit (F.TEST_PRBS_CTRL_LOCK p) = false)) ∧
  (∀ (s : State) (p : Fin 6), Reached s 9 → p.val < 4 → Answers (.prbsGenerate p) s (fun t => OnlyAlarm s t F.TEST_ALARM_PRBS_REFUSED)) ∧
  (∀ (s : State) (p : Fin 6) (e : BitVec 32), (s.alive = false ∨ s.fld (F.TEST_PRBS_CTRL_MODE p) = 0) → exec (.prbsLock p e) s = .next s) ∧
  (∀ (s : State) (p : Fin 6) (e : BitVec 32), s.alive = true → s.fld (F.TEST_PRBS_CTRL_MODE p) ≠ 0 → Answers (.prbsLock p e) s (fun t => t.bit (F.TEST_PRBS_CTRL_LOCK p) = true ∧ t.fld (F.TEST_PRBS_ERR_COUNT p) = min (s.fld (F.TEST_PRBS_ERR_COUNT p) + e.toNat) (2 ^ 32 - 1) ∧
    (e = 0 → OnlyRegs s t [R.TEST_PRBS_CTRL p, R.TEST_PRBS_ERR p]) ∧ (e ≠ 0 → t.bit F.TEST_ALARM_PRBS_ERR = true)))

/-- Register accesses store, clear, latch and hold under their access codes, and a bad, sleeping or closed access has none of these effects (00_scope R14, R15, R20, R22; 15_power_health R481; 16_pins_package_test R526, R527; 00_scope Table SCOPE-6). -/
def Obligations.RegisterAccessesFollowTheirCodes : Prop :=
  (∀ (s : State) (p : Path) (a : BitVec 25) (n : Nat) (v : Word64) (w : Word), s.pathOpen p = false → exec (.registerWrite p a n v) s = .next s ∧ exec (.readLoLatch p a) s = .next s ∧ exec (.writeLoHold p a w) s = .next s ∧ exec (.writeHiCommit p a w) s = .next s) ∧
  (∀ (s : State) (a : BitVec 25) (k : Nat) (p : Path), s.alive = false → exec (.counterReadClear p a k) s = .next s) ∧
  (∀ (s : State) (p : Path) (a : BitVec 25) (n : Nat) (v : Word64), s.pathOpen p = true → ((n ≠ 4 ∧ n ≠ 8) ∨ a.toNat % n ≠ 0) → exec (.registerWrite p a n v) s = .next s.accessError) ∧
  (∀ (s : State) (p : Path) (a : BitVec 25) (k : Nat) (w : Word), s.pathOpen p = true → a.toNat % 4 ≠ 0 → exec (.readLoLatch p a) s = .next { s.accessError with rdata := 0 } ∧ exec (.counterReadClear p a k) s = .next { s.accessError with rdata := 0 } ∧
    exec (.writeLoHold p a w) s = .next s.accessError ∧ exec (.writeHiCommit p a w) s = .next s.accessError) ∧
  (∀ (s : State), OnlyAlarm (s.bump F.HOST_ACCESS_ERR_COUNT 1) s.accessError F.HOST_ALARM_ACCESS_ERR ∧ OnlyRegs s s.countAsleep [R.POWER_ASLEEP_ACCESS] ∧ s.countAsleep.fld F.POWER_ASLEEP_ACCESS_COUNT = min (s.fld F.POWER_ASLEEP_ACCESS_COUNT + 1) (2 ^ F.POWER_ASLEEP_ACCESS_COUNT.w - 1)) ∧
  (∀ (s : State) (p : Path) (a : BitVec 25) (v : Word64) (w : Word), s.pathOpen p = true → a.toNat % 8 = 0 → s.reachable a.toNat = false → exec (.registerWrite p a 4 v) s = .next s.countAsleep ∧ exec (.registerWrite p a 8 v) s = .next s.countAsleep ∧
    exec (.writeLoHold p a w) s = .next s.countAsleep ∧ exec (.readLoLatch p a) s = .next { s.countAsleep with rdata := 0 }) ∧
  (∀ (s : State) (p : Path) (a : Nat) (r : RegRow) (v : Word64), a ∈ [R.GAL_EJECT_WAIT, R.SUMP_SLIVER_WAIT, R.POWER_ALERT_EN, R.ADIT_TIMEOUT, R.TUNNEL_ANS_WAIT, R.CHISEL_CLOSE_WAIT, R.LANTERN_TRIAL_WAIT, R.ADIT_ALARM, R.GAL_ALARM, R.SUMP_ALARM, R.TUNNEL_ALARM, R.SEAM_ALARM 7] →
    regRow a = some r → s.pathOpen p = true → s.reachable a = true → Answers (.registerWrite p (BitVec.ofNat 25 a) 4 v) s (fun t => OnlyRegs s t [a] ∧ ∀ i, i < 32 → (t.reg a).getLsbD i =
      (if r.w1c.testBit i && v.getLsbD i then false else if r.rw.testBit i then v.getLsbD i else (s.reg a).getLsbD i))) ∧
  (∀ (s : State) (p : Path) (a k : Nat), a ∈ [R.HOST_ACCESS_ERR, R.GAL_EDGE_BADDEST, R.CHISEL_LATE, R.TUNNEL_FWD, R.SUMP_FALSE_HITS, R.LANTERN_BADTAG, R.TEST_MPORT_ABORT, R.SEAM_TRUNC 0] → s.pathOpen p = true → s.reachable a = true →
    Answers (.counterReadClear p (BitVec.ofNat 25 a) k) s (fun t => t.rdata = (s.reg a).setWidth 64 ∧ t.reg a = BitVec.ofNat 32 (min k (2 ^ 32 - 1)) ∧ (∀ b, b ≠ a → t.reg b = s.reg b) ∧ t = { s with regs := t.regs, rdata := t.rdata })) ∧
  (∀ (s : State) (p q : Path) (a : BitVec 25) (lo hi : Word), isPairLo a.toNat = true → a.toNat % 4 = 0 → s.pathOpen p = true → s.reachable a.toNat = true → s.liveRead a.toNat = (lo, s) → s.liveRead (a.toNat + 4) = (hi, s) →
    Answers (.readLoLatch p a) s (fun t => t.rdata = lo.setWidth 64 ∧ wordAt (t.latches p) a.toNat = some hi ∧ (q ≠ p → t.latches q = s.latches q) ∧ t = { s with latchB := t.latchB, latchM := t.latchM, rdata := t.rdata })) ∧
  (∀ (s : State) (p : Path) (a : BitVec 25) (w : Word), 4 ≤ a.toNat → isPairLo (a.toNat - 4) = true → isPairLo a.toNat = false → a.toNat % 4 = 0 → s.pathOpen p = true → s.reachable a.toNat = true →
    (wordAt (s.latches p) (a.toNat - 4) = some w → exec (.readLoLatch p a) s = .next { s with rdata := w.setWidth 64 }) ∧
    (wordAt (s.latches p) (a.toNat - 4) = none → s.liveRead a.toNat = (w, s) → exec (.readLoLatch p a) s = .next { s with rdata := w.setWidth 64 })) ∧
  (∀ (s : State) (p q : Path) (a : BitVec 25) (w : Word), isPairRw a.toNat = true → a.toNat ≠ R.TEST_TICK_T0_LO → a.toNat % 4 = 0 → s.pathOpen p = true → s.reachable a.toNat = true →
    Answers (.writeLoHold p a w) s (fun t => wordAt (t.holds p) a.toNat = some w ∧ (q ≠ p → t.holds q = s.holds q) ∧ t = { s with holdB := t.holdB, holdM := t.holdM })) ∧
  (∀ (s : State) (p q : Path) (w : Word), s.pathOpen p = true → s.reachable R.TEST_TIME_NEXT_HI = true → Answers (.writeHiCommit p (BitVec.ofNat 25 R.TEST_TIME_NEXT_HI) w) s (fun t => t.reg R.TEST_TIME_NEXT_HI = w ∧
    t.reg R.TEST_TIME_NEXT_LO = (wordAt (s.holds p) R.TEST_TIME_NEXT_LO).getD (s.reg R.TEST_TIME_NEXT_LO) ∧ wordAt (t.holds p) R.TEST_TIME_NEXT_LO = none ∧ (q ≠ p → t.holds q = s.holds q) ∧ (∀ a, a ∉ [R.TEST_TIME_NEXT_LO, R.TEST_TIME_NEXT_HI] → t.reg a = s.reg a) ∧
    t = { s with regs := t.regs, holdB := t.holdB, holdM := t.holdM })) ∧
  (∀ (s : State) (a w : Word) (b : Bool), s.alive = false → exec (.mportRead a b) s = .next s ∧ exec (.mportWrite a w b) s = .next s) ∧
  (∀ (s : State) (a w : Word) (b : Bool), s.alive = true → (b = true ∨ a.toNat % 4 ≠ 0) → exec (.mportRead a b) s = .next { s with test := { s.test with mdata := 0, mstatus := mpBAD } } ∧ exec (.mportWrite a w b) s = .next { s with test := { s.test with mdata := 0, mstatus := mpBAD } }) ∧
  (∀ (s : State) (a w : Word), s.alive = true → a.toNat % 4 = 0 → s.reachable a.toNat = false → exec (.mportRead a false) s = .next (s.countAsleep.mportEnd 0 mpASLEEP) ∧ exec (.mportWrite a w false) s = .next (s.countAsleep.mportEnd 0 mpASLEEP)) ∧
  (∀ (s : State) (a w : Word), s.alive = true → a.toNat % 4 = 0 → s.reachable a.toNat = true → exec (.mportRead a false) s = .next ((s.readReg .mport a.toNat).2.mportEnd (s.readReg .mport a.toNat).1 mpOK) ∧ exec (.mportWrite a w false) s = .next ((s.writeReg .mport a.toNat w).mportEnd 0 mpOK))

/-- An aborted MPORT transaction is counted with its alarm; a write takes effect only past cycle 72, a read loses what it read only past cycle 40 (16_pins_package_test R528). -/
def Obligations.AbortedTransactionsActByTheirCycle : Prop :=
  (∀ (s : State) (a : Word) (w : Option Word) (c : BitVec 7), (s.alive = false ∨ 88 ≤ c.toNat) → exec (.mportAbort a w c) s = .next s) ∧
  (∀ (s : State), OnlyAlarm (s.bump F.TEST_MPORT_ABORT_COUNT 1) ((s.bump F.TEST_MPORT_ABORT_COUNT 1).alarm F.TEST_ALARM_MPORT_ABORT 0) F.TEST_ALARM_MPORT_ABORT ∧ (s.bump F.TEST_MPORT_ABORT_COUNT 1).fld F.TEST_MPORT_ABORT_COUNT = min (s.fld F.TEST_MPORT_ABORT_COUNT + 1) (2 ^ 32 - 1)) ∧
  (∀ (s : State) (a v : Word) (c : BitVec 7), s.alive = true → c.toNat < 88 → (c.toNat < 72 → exec (.mportAbort a (some v) c) s = .next ((s.bump F.TEST_MPORT_ABORT_COUNT 1).alarm F.TEST_ALARM_MPORT_ABORT 0)) ∧
    (72 ≤ c.toNat → exec (.mportAbort a (some v) c) s = .next (((s.mportWriteAccess a v false).bump F.TEST_MPORT_ABORT_COUNT 1).alarm F.TEST_ALARM_MPORT_ABORT 0))) ∧
  (∀ (s : State) (a : Word) (c : BitVec 7), s.alive = true → c.toNat < 88 → (c.toNat < 40 → exec (.mportAbort a none c) s = .next ((s.bump F.TEST_MPORT_ABORT_COUNT 1).alarm F.TEST_ALARM_MPORT_ABORT 0)) ∧
    (40 ≤ c.toNat → exec (.mportAbort a none c) s = .next (((s.mportReadAccess a false).2.bump F.TEST_MPORT_ABORT_COUNT 1).alarm F.TEST_ALARM_MPORT_ABORT 0)))

/-- A step takes the command at the front of the queue and runs it over the queue's rest; on an empty queue the block idles (00_scope R12, R20). -/
def Obligations.StepRunsTheFrontCommand : Prop :=
  (∀ (c : Instr) (rest : List Instr) (s : State), step { s with pending := c :: rest } = exec c { s with pending := rest }) ∧
  (∀ (s : State), s.pending = [] → step s = .next s.idle) ∧
  (∀ (n w : Nat) (s : State), decodeTableWord n w = none ∧ s.withFetchWord n w = s)

/-- No command of the table stops the machine: every one answers a next state, whatever the state and operands (00_scope R15, R16). -/
def Obligations.EveryCommandAnswersANextState : Prop :=
  (∀ (i : Instr) (s : State), ∃ t, exec i s = .next t) ∧ (∀ (s : State), ∃ t, step s = .next t) ∧ (∀ (n : Nat) (s : State), SafeRun n s)

/-- Every step keeps the key store sound: owner keys only in slots 4 to 7, one a slot, and only Farwin slots revoked (14_lantern_mailboxes_updates R466). -/
def Obligations.OwnerKeyStoreStaysSound : Prop :=
  (∀ (s t : State), KeyStoreSound s.lantern.secret → step s = .next t → KeyStoreSound t.lantern.secret) ∧
  (∀ (i : Instr) (s t : State), (∀ c a b d, i ≠ .keyEnrol c a b d) → exec i s = .next t → t.lantern.secret = s.lantern.secret)

/-- After reset every register reads its reset value, every memory is in its canonical form, the key store is sound and nothing waits (00_scope R19; 15_power_health R493, R547; 14_lantern_mailboxes_updates R466). -/
def Obligations.ResetStateIsAPartAsShipped : Prop :=
  (∀ a, State.reset.reg a = regReset a) ∧ Memory.wf State.reset = true ∧ KeyStoreSound State.reset.lantern.secret ∧ State.reset.pending = [] ∧ State.reset.fabric = [] ∧ State.reset.alarmQ = [] ∧ State.reset.host.rings = [] ∧
  State.reset.power.inReset = true ∧ State.reset.power.railUp = [0, 1, 2, 3, 4, 5, 6, 7, 8] ∧ State.reset.alive = false ∧ (∀ p, State.reset.pathOpen p = false)

/-- A counter field saturates at all ones and does not wrap, and counting changes no other bit of any register (00_scope R21). -/
def Obligations.CountersSaturate : Prop :=
  ∀ (s : State) (f : Fld) (n : Nat), f.lo + f.w ≤ 32 → (s.bump f n).fld f = min (s.fld f + n) (2 ^ f.w - 1) ∧ (s.fld f = 2 ^ f.w - 1 → (s.bump f n).fld f = 2 ^ f.w - 1) ∧ OnlyRegs s (s.bump f n) [f.addr] ∧
    ∀ i, (i < f.lo ∨ f.lo + f.w ≤ i) → (s.bump f n).regBit f.addr i = s.regBit f.addr i

/-- A write to FLINT_OVF_BASE or FLINT_OVF_SIZE is ignored while the overflow area holds any message (05_flint_instructions R168). -/
def Obligations.OverflowSettingsStandWhileMessagesAreHeld : Prop :=
  ∀ (rd ra : SReg) (imm : Imm16), (immLo imm = 0x09 ∨ immLo imm = 0x0A) →
    Completes (fun i => .csrw i rd ra imm) (hazS ra) (fun k => 0 < k.ovfUse) 1 (fun k => k) (fun k => k.pc + 4) [] 0 ∧
    Completes (fun i => .csrc i rd ra imm) (hazS ra) (fun k => 0 < k.ovfUse) 1 (fun k => k) (fun k => k.pc + 4) [] 0

/-- The receive instruction takes held messages in the order of their ejection, across the inbox and the overflow area (04_gallery_fabric R145). -/
def Obligations.ReceiveTakesMessagesInTheOrderOfEjection : Prop :=
  (∀ (k : CoreSt) (m : Msg), ∃ b, (k.place m).held = k.held ++ [(b, m)]) ∧
  (∀ (k : CoreSt) (q : List (Nat × Msg)), ∃ n : Nat, ((k.drain q).held.map Prod.snd) = k.held.map Prod.snd ++ (q.take n).map Prod.snd ∧ (k.drain q).portQ = q.drop n) ∧
  (∀ (i : Issue) (rd ra : SReg) (s : State) (k : CoreSt) (w : Nat) (b : Bool) (m : Msg) (rest : List (Bool × Msg)), Fetches s i k w → k.held = (b, m) :: rest → (k.s ra).toNat % 8 = 0 → memFault k (k.s ra).toNat (8 + 8 * m.payload.length) 8 = none →
    ∃ t0 t : State, exec (.recv i rd ra 0) s = .next t ∧ t = t0.took i.core.val m ∧ OnlyCore s t0 i.core.val ∧ rest.map Prod.snd <+: (t0.core i.core.val).held.map Prod.snd ∧
      (rd ≠ 0 → (t0.core i.core.val).s rd = recvWord m) ∧ ∀ j, j < 8 + 8 * m.payload.length → (t0.core i.core.val).held = rest → (t0.core i.core.val).byte ((k.s ra).toNat + j) = (flitBytes (msgFlits m)).getD j 0)

/-- Thin with θ = 0 keeps the sign of every nonzero counter, and each increase of θ zeroes exactly the dimensions at ±θ (02_hypervector_algebra R73). -/
def Obligations.ThinZeroesOneMagnitudeEachStep : Prop :=
  ∀ (t : List (Nat × Int)) (i : Nat), i < 256 →
    ((thinTally t 0).1.getLsbD i = decide (tallyGet t i ≠ 0) ∧ (thinTally t 0).2.getLsbD i = decide (tallyGet t i < 0)) ∧
    ∀ th : Nat, ((thinTally t (th + 1)).1.getLsbD i = ((thinTally t th).1.getLsbD i && decide ((tallyGet t i).natAbs ≠ th + 1))) ∧
      ((thinTally t (th + 1)).2.getLsbD i = ((thinTally t th).2.getLsbD i && decide ((tallyGet t i).natAbs ≠ th + 1))) ∧ ((thinTally t th).2.getLsbD i = true → (thinTally t th).1.getLsbD i = true)
end

