-- ==== Sys2Proof/Laws/Store.lean ====
section
/-! SUPPORT.  Laws of the sparse tables: a read after a write, and the canonical form that every table operation keeps. -/

namespace Sys2Proof.Machine

variable {α : Type}

theorem tget_tdel_same (d : Nat → α) (m : List (Nat × α)) (k : Nat) : tget d (tdel m k) k = d k := by
  induction m with
  | nil => rfl
  | cons e t ih =>
    obtain ⟨a, v⟩ := e
    by_cases h : a = k <;> simp [tdel, tget, h, ih]

theorem tget_tdel_ne (d : Nat → α) (m : List (Nat × α)) {k j : Nat} (h : j ≠ k) : tget d (tdel m k) j = tget d m j := by
  induction m with
  | nil => rfl
  | cons e t ih =>
    obtain ⟨a, v⟩ := e
    by_cases ha : a = k
    · subst ha; simp [tdel, tget, ih, Ne.symm h]
    · simp [tdel, tget, ha, ih]

theorem tget_tins_ne (d : Nat → α) (m : List (Nat × α)) {k j : Nat} (v : α) (h : j ≠ k) : tget d (tins m k v) j = tget d m j := by
  induction m with
  | nil => simp [tins, tget, Ne.symm h]
  | cons e t ih =>
    obtain ⟨a, w⟩ := e
    by_cases hk : k < a
    · simp [tins, tget, hk, Ne.symm h]
    · rw [tins, if_neg hk, tget, tget, ih]

theorem mem_tdel {m : List (Nat × α)} {k : Nat} {e : Nat × α} (h : e ∈ tdel m k) : e ∈ m ∧ e.1 ≠ k := by
  induction m with
  | nil => simp [tdel] at h
  | cons x t ih =>
    obtain ⟨a, v⟩ := x
    by_cases ha : a = k
    · simp only [tdel, ha, if_true] at h
      exact ⟨List.mem_cons_of_mem _ (ih h).1, (ih h).2⟩
    · simp only [tdel, ha, if_false, List.mem_cons] at h
      rcases h with h | h
      · subst h; exact ⟨List.mem_cons_self, ha⟩
      · exact ⟨List.mem_cons_of_mem _ (ih h).1, (ih h).2⟩

theorem tget_tins_same (d : Nat → α) (m : List (Nat × α)) (k : Nat) (v : α) (h : ∀ e ∈ m, e.1 ≠ k) : tget d (tins m k v) k = v := by
  induction m with
  | nil => simp [tins, tget]
  | cons e t ih =>
    obtain ⟨a, w⟩ := e
    have ha : a ≠ k := h (a, w) List.mem_cons_self
    by_cases hk : k < a
    · simp [tins, tget, hk]
    · simp [tins, tget, hk, ha, ih (fun x hx => h x (List.mem_cons_of_mem _ hx))]

theorem mem_tins {m : List (Nat × α)} {k : Nat} {v : α} {e : Nat × α} (h : e ∈ tins m k v) : e = (k, v) ∨ e ∈ m := by
  induction m with
  | nil => simpa [tins] using h
  | cons x t ih =>
    obtain ⟨a, w⟩ := x
    by_cases hk : k < a
    · simpa [tins, hk] using h
    · simp only [tins, hk, if_false, List.mem_cons] at h
      rcases h with h | h
      · exact Or.inr (by simp [h])
      · rcases ih h with h | h
        · exact Or.inl h
        · exact Or.inr (List.mem_cons_of_mem _ h)

variable [DecidableEq α]

/-- A read after a write to the same key gives the value written. -/
@[simp] theorem tget_tset_same (d : Nat → α) (m : List (Nat × α)) (k : Nat) (v : α) : tget d (tset d m k v) k = v := by
  unfold tset
  split
  · next h => rw [tget_tdel_same, h]
  · exact tget_tins_same d _ k v (fun e he => (mem_tdel he).2)

/-- A write leaves every other key alone. -/
theorem tget_tset_ne (d : Nat → α) (m : List (Nat × α)) {k j : Nat} (v : α) (h : j ≠ k) : tget d (tset d m k v) j = tget d m j := by
  unfold tset
  split
  · exact tget_tdel_ne d m h
  · rw [tget_tins_ne d _ v h, tget_tdel_ne d m h]

theorem tget_tset (d : Nat → α) (m : List (Nat × α)) (k j : Nat) (v : α) : tget d (tset d m k v) j = if j = k then v else tget d m j := by
  split
  · next h => subst h; exact tget_tset_same d m j v
  · next h => exact tget_tset_ne d m v h

/-! ### The canonical form -/

theorem tableWf_cons (d : Nat → α) (e : Nat × α) (t : List (Nat × α)) :
    tableWf d (e :: t) = true ↔ e.2 ≠ d e.1 ∧ (∀ x ∈ t, e.1 < x.1) ∧ tableWf d t = true := by
  obtain ⟨a, v⟩ := e
  simp [tableWf, and_assoc]

theorem tableWf_tdel (d : Nat → α) {m : List (Nat × α)} (k : Nat) (h : tableWf d m = true) : tableWf d (tdel m k) = true := by
  induction m with
  | nil => rfl
  | cons e t ih =>
    obtain ⟨a, v⟩ := e
    rw [tableWf_cons] at h
    by_cases ha : a = k
    · simpa [tdel, ha] using ih h.2.2
    · simp only [tdel, ha, if_false, tableWf_cons]
      exact ⟨h.1, fun x hx => h.2.1 x (mem_tdel hx).1, ih h.2.2⟩

theorem tableWf_tins (d : Nat → α) {m : List (Nat × α)} (k : Nat) (v : α) (h : tableWf d m = true) (hk : ∀ e ∈ m, e.1 ≠ k) (hv : v ≠ d k) :
    tableWf d (tins m k v) = true := by
  induction m with
  | nil => simp [tins, tableWf, hv]
  | cons e t ih =>
    obtain ⟨a, w⟩ := e
    have ha : a ≠ k := hk (a, w) List.mem_cons_self
    have h' := (tableWf_cons d (a, w) t).1 h
    by_cases hlt : k < a
    · simp only [tins, hlt, if_true]
      rw [tableWf_cons]
      refine ⟨hv, ?_, h⟩
      intro x hx
      rcases List.mem_cons.1 hx with hx | hx
      · subst hx; exact hlt
      · exact Nat.lt_trans hlt (h'.2.1 x hx)
    · simp only [tins, hlt, if_false]
      rw [tableWf_cons]
      refine ⟨h'.1, ?_, ih h'.2.2 (fun x hx => hk x (List.mem_cons_of_mem _ hx))⟩
      intro x hx
      rcases mem_tins hx with hx | hx
      · subst hx; show a < k; omega
      · exact h'.2.1 x hx

/-- Every write keeps the canonical form. -/
theorem tableWf_tset (d : Nat → α) {m : List (Nat × α)} (k : Nat) (v : α) (h : tableWf d m = true) : tableWf d (tset d m k v) = true := by
  unfold tset
  split
  · exact tableWf_tdel d k h
  · next hv => exact tableWf_tins d k v (tableWf_tdel d k h) (fun e he => (mem_tdel he).2) hv

/-- Dropping the entries of some keys keeps the canonical form. -/
theorem tableWf_tfilter (d : Nat → α) {m : List (Nat × α)} (p : Nat → Bool) (h : tableWf d m = true) : tableWf d (tfilter p m) = true := by
  induction m with
  | nil => rfl
  | cons e t ih =>
    rw [tableWf_cons] at h
    unfold tfilter at ih ⊢
    by_cases hp : p e.1 = true
    · simp only [List.filter_cons, hp, if_true, tableWf_cons]
      exact ⟨h.1, fun x hx => h.2.1 x (List.mem_of_mem_filter hx), ih h.2.2⟩
    · simpa [List.filter_cons, hp] using ih h.2.2

end Sys2Proof.Machine
end

