-- ==== Sys2Proof/Laws/State.lean ====
section
/-! SUPPORT.  Laws of the state: what each named update leaves alone, field by field, and reads of registers, fields and units after
their writes. -/

namespace Sys2Proof.Machine

variable (s : State)

/-! ### setReg writes `regs` alone -/

@[simp] theorem State.setReg_pending (a : Nat) (v : Word) : (s.setReg a v).pending = s.pending := (rfl)
@[simp] theorem State.setReg_free (a : Nat) (v : Word) : (s.setReg a v).free = s.free := (rfl)
@[simp] theorem State.setReg_latchB (a : Nat) (v : Word) : (s.setReg a v).latchB = s.latchB := (rfl)
@[simp] theorem State.setReg_latchM (a : Nat) (v : Word) : (s.setReg a v).latchM = s.latchM := (rfl)
@[simp] theorem State.setReg_holdB (a : Nat) (v : Word) : (s.setReg a v).holdB = s.holdB := (rfl)
@[simp] theorem State.setReg_holdM (a : Nat) (v : Word) : (s.setReg a v).holdM = s.holdM := (rfl)
@[simp] theorem State.setReg_rdata (a : Nat) (v : Word) : (s.setReg a v).rdata = s.rdata := (rfl)
@[simp] theorem State.setReg_faults (a : Nat) (v : Word) : (s.setReg a v).faults = s.faults := (rfl)
@[simp] theorem State.setReg_streams (a : Nat) (v : Word) : (s.setReg a v).streams = s.streams := (rfl)
@[simp] theorem State.setReg_ports (a : Nat) (v : Word) : (s.setReg a v).ports = s.ports := (rfl)
@[simp] theorem State.setReg_planSet (a : Nat) (v : Word) : (s.setReg a v).planSet = s.planSet := (rfl)
@[simp] theorem State.setReg_cores (a : Nat) (v : Word) : (s.setReg a v).cores = s.cores := (rfl)
@[simp] theorem State.setReg_groups (a : Nat) (v : Word) : (s.setReg a v).groups = s.groups := (rfl)
@[simp] theorem State.setReg_nets (a : Nat) (v : Word) : (s.setReg a v).nets = s.nets := (rfl)
@[simp] theorem State.setReg_synBlocks (a : Nat) (v : Word) : (s.setReg a v).synBlocks = s.synBlocks := (rfl)
@[simp] theorem State.setReg_fabric (a : Nat) (v : Word) : (s.setReg a v).fabric = s.fabric := (rfl)
@[simp] theorem State.setReg_hbm (a : Nat) (v : Word) : (s.setReg a v).hbm = s.hbm := (rfl)
@[simp] theorem State.setReg_hbmPages (a : Nat) (v : Word) : (s.setReg a v).hbmPages = s.hbmPages := (rfl)
@[simp] theorem State.setReg_prefetched (a : Nat) (v : Word) : (s.setReg a v).prefetched = s.prefetched := (rfl)
@[simp] theorem State.setReg_traceLog (a : Nat) (v : Word) : (s.setReg a v).traceLog = s.traceLog := (rfl)
@[simp] theorem State.setReg_logDropped (a : Nat) (v : Word) : (s.setReg a v).logDropped = s.logDropped := (rfl)
@[simp] theorem State.setReg_asm (a : Nat) (v : Word) : (s.setReg a v).asm = s.asm := (rfl)
@[simp] theorem State.setReg_seam (a : Nat) (v : Word) : (s.setReg a v).seam = s.seam := (rfl)
@[simp] theorem State.setReg_sump (a : Nat) (v : Word) : (s.setReg a v).sump = s.sump := (rfl)
@[simp] theorem State.setReg_chisel (a : Nat) (v : Word) : (s.setReg a v).chisel = s.chisel := (rfl)
@[simp] theorem State.setReg_tunnel (a : Nat) (v : Word) : (s.setReg a v).tunnel = s.tunnel := (rfl)
@[simp] theorem State.setReg_power (a : Nat) (v : Word) : (s.setReg a v).power = s.power := (rfl)
@[simp] theorem State.setReg_lantern (a : Nat) (v : Word) : (s.setReg a v).lantern = s.lantern := (rfl)
@[simp] theorem State.setReg_test (a : Nat) (v : Word) : (s.setReg a v).test = s.test := (rfl)
@[simp] theorem State.setReg_host (a : Nat) (v : Word) : (s.setReg a v).host = s.host := (rfl)
@[simp] theorem State.setReg_hostMem (a : Nat) (v : Word) : (s.setReg a v).hostMem = s.hostMem := (rfl)
@[simp] theorem State.setReg_alarmQ (a : Nat) (v : Word) : (s.setReg a v).alarmQ = s.alarmQ := (rfl)
@[simp] theorem State.setReg_aseq (a : Nat) (v : Word) : (s.setReg a v).aseq = s.aseq := (rfl)
@[simp] theorem State.setReg_alarmLost (a : Nat) (v : Word) : (s.setReg a v).alarmLost = s.alarmLost := (rfl)

/-! ### setFld writes `regs` alone -/

@[simp] theorem State.setFld_pending (f : Fld) (v : Nat) : (s.setFld f v).pending = s.pending := setReg_pending s _ _
@[simp] theorem State.setFld_free (f : Fld) (v : Nat) : (s.setFld f v).free = s.free := setReg_free s _ _
@[simp] theorem State.setFld_latchB (f : Fld) (v : Nat) : (s.setFld f v).latchB = s.latchB := setReg_latchB s _ _
@[simp] theorem State.setFld_latchM (f : Fld) (v : Nat) : (s.setFld f v).latchM = s.latchM := setReg_latchM s _ _
@[simp] theorem State.setFld_holdB (f : Fld) (v : Nat) : (s.setFld f v).holdB = s.holdB := setReg_holdB s _ _
@[simp] theorem State.setFld_holdM (f : Fld) (v : Nat) : (s.setFld f v).holdM = s.holdM := setReg_holdM s _ _
@[simp] theorem State.setFld_rdata (f : Fld) (v : Nat) : (s.setFld f v).rdata = s.rdata := setReg_rdata s _ _
@[simp] theorem State.setFld_faults (f : Fld) (v : Nat) : (s.setFld f v).faults = s.faults := setReg_faults s _ _
@[simp] theorem State.setFld_streams (f : Fld) (v : Nat) : (s.setFld f v).streams = s.streams := setReg_streams s _ _
@[simp] theorem State.setFld_ports (f : Fld) (v : Nat) : (s.setFld f v).ports = s.ports := setReg_ports s _ _
@[simp] theorem State.setFld_planSet (f : Fld) (v : Nat) : (s.setFld f v).planSet = s.planSet := setReg_planSet s _ _
@[simp] theorem State.setFld_cores (f : Fld) (v : Nat) : (s.setFld f v).cores = s.cores := setReg_cores s _ _
@[simp] theorem State.setFld_groups (f : Fld) (v : Nat) : (s.setFld f v).groups = s.groups := setReg_groups s _ _
@[simp] theorem State.setFld_nets (f : Fld) (v : Nat) : (s.setFld f v).nets = s.nets := setReg_nets s _ _
@[simp] theorem State.setFld_synBlocks (f : Fld) (v : Nat) : (s.setFld f v).synBlocks = s.synBlocks := setReg_synBlocks s _ _
@[simp] theorem State.setFld_fabric (f : Fld) (v : Nat) : (s.setFld f v).fabric = s.fabric := setReg_fabric s _ _
@[simp] theorem State.setFld_hbm (f : Fld) (v : Nat) : (s.setFld f v).hbm = s.hbm := setReg_hbm s _ _
@[simp] theorem State.setFld_hbmPages (f : Fld) (v : Nat) : (s.setFld f v).hbmPages = s.hbmPages := setReg_hbmPages s _ _
@[simp] theorem State.setFld_prefetched (f : Fld) (v : Nat) : (s.setFld f v).prefetched = s.prefetched := setReg_prefetched s _ _
@[simp] theorem State.setFld_traceLog (f : Fld) (v : Nat) : (s.setFld f v).traceLog = s.traceLog := setReg_traceLog s _ _
@[simp] theorem State.setFld_logDropped (f : Fld) (v : Nat) : (s.setFld f v).logDropped = s.logDropped := setReg_logDropped s _ _
@[simp] theorem State.setFld_asm (f : Fld) (v : Nat) : (s.setFld f v).asm = s.asm := setReg_asm s _ _
@[simp] theorem State.setFld_seam (f : Fld) (v : Nat) : (s.setFld f v).seam = s.seam := setReg_seam s _ _
@[simp] theorem State.setFld_sump (f : Fld) (v : Nat) : (s.setFld f v).sump = s.sump := setReg_sump s _ _
@[simp] theorem State.setFld_chisel (f : Fld) (v : Nat) : (s.setFld f v).chisel = s.chisel := setReg_chisel s _ _
@[simp] theorem State.setFld_tunnel (f : Fld) (v : Nat) : (s.setFld f v).tunnel = s.tunnel := setReg_tunnel s _ _
@[simp] theorem State.setFld_power (f : Fld) (v : Nat) : (s.setFld f v).power = s.power := setReg_power s _ _
@[simp] theorem State.setFld_lantern (f : Fld) (v : Nat) : (s.setFld f v).lantern = s.lantern := setReg_lantern s _ _
@[simp] theorem State.setFld_test (f : Fld) (v : Nat) : (s.setFld f v).test = s.test := setReg_test s _ _
@[simp] theorem State.setFld_host (f : Fld) (v : Nat) : (s.setFld f v).host = s.host := setReg_host s _ _
@[simp] theorem State.setFld_hostMem (f : Fld) (v : Nat) : (s.setFld f v).hostMem = s.hostMem := setReg_hostMem s _ _
@[simp] theorem State.setFld_alarmQ (f : Fld) (v : Nat) : (s.setFld f v).alarmQ = s.alarmQ := setReg_alarmQ s _ _
@[simp] theorem State.setFld_aseq (f : Fld) (v : Nat) : (s.setFld f v).aseq = s.aseq := setReg_aseq s _ _
@[simp] theorem State.setFld_alarmLost (f : Fld) (v : Nat) : (s.setFld f v).alarmLost = s.alarmLost := setReg_alarmLost s _ _

/-! ### setBit writes `regs` alone -/

@[simp] theorem State.setBit_pending (f : Fld) (b : Bool) : (s.setBit f b).pending = s.pending := setFld_pending s _ _
@[simp] theorem State.setBit_free (f : Fld) (b : Bool) : (s.setBit f b).free = s.free := setFld_free s _ _
@[simp] theorem State.setBit_latchB (f : Fld) (b : Bool) : (s.setBit f b).latchB = s.latchB := setFld_latchB s _ _
@[simp] theorem State.setBit_latchM (f : Fld) (b : Bool) : (s.setBit f b).latchM = s.latchM := setFld_latchM s _ _
@[simp] theorem State.setBit_holdB (f : Fld) (b : Bool) : (s.setBit f b).holdB = s.holdB := setFld_holdB s _ _
@[simp] theorem State.setBit_holdM (f : Fld) (b : Bool) : (s.setBit f b).holdM = s.holdM := setFld_holdM s _ _
@[simp] theorem State.setBit_rdata (f : Fld) (b : Bool) : (s.setBit f b).rdata = s.rdata := setFld_rdata s _ _
@[simp] theorem State.setBit_faults (f : Fld) (b : Bool) : (s.setBit f b).faults = s.faults := setFld_faults s _ _
@[simp] theorem State.setBit_streams (f : Fld) (b : Bool) : (s.setBit f b).streams = s.streams := setFld_streams s _ _
@[simp] theorem State.setBit_ports (f : Fld) (b : Bool) : (s.setBit f b).ports = s.ports := setFld_ports s _ _
@[simp] theorem State.setBit_planSet (f : Fld) (b : Bool) : (s.setBit f b).planSet = s.planSet := setFld_planSet s _ _
@[simp] theorem State.setBit_cores (f : Fld) (b : Bool) : (s.setBit f b).cores = s.cores := setFld_cores s _ _
@[simp] theorem State.setBit_groups (f : Fld) (b : Bool) : (s.setBit f b).groups = s.groups := setFld_groups s _ _
@[simp] theorem State.setBit_nets (f : Fld) (b : Bool) : (s.setBit f b).nets = s.nets := setFld_nets s _ _
@[simp] theorem State.setBit_synBlocks (f : Fld) (b : Bool) : (s.setBit f b).synBlocks = s.synBlocks := setFld_synBlocks s _ _
@[simp] theorem State.setBit_fabric (f : Fld) (b : Bool) : (s.setBit f b).fabric = s.fabric := setFld_fabric s _ _
@[simp] theorem State.setBit_hbm (f : Fld) (b : Bool) : (s.setBit f b).hbm = s.hbm := setFld_hbm s _ _
@[simp] theorem State.setBit_hbmPages (f : Fld) (b : Bool) : (s.setBit f b).hbmPages = s.hbmPages := setFld_hbmPages s _ _
@[simp] theorem State.setBit_prefetched (f : Fld) (b : Bool) : (s.setBit f b).prefetched = s.prefetched := setFld_prefetched s _ _
@[simp] theorem State.setBit_traceLog (f : Fld) (b : Bool) : (s.setBit f b).traceLog = s.traceLog := setFld_traceLog s _ _
@[simp] theorem State.setBit_logDropped (f : Fld) (b : Bool) : (s.setBit f b).logDropped = s.logDropped := setFld_logDropped s _ _
@[simp] theorem State.setBit_asm (f : Fld) (b : Bool) : (s.setBit f b).asm = s.asm := setFld_asm s _ _
@[simp] theorem State.setBit_seam (f : Fld) (b : Bool) : (s.setBit f b).seam = s.seam := setFld_seam s _ _
@[simp] theorem State.setBit_sump (f : Fld) (b : Bool) : (s.setBit f b).sump = s.sump := setFld_sump s _ _
@[simp] theorem State.setBit_chisel (f : Fld) (b : Bool) : (s.setBit f b).chisel = s.chisel := setFld_chisel s _ _
@[simp] theorem State.setBit_tunnel (f : Fld) (b : Bool) : (s.setBit f b).tunnel = s.tunnel := setFld_tunnel s _ _
@[simp] theorem State.setBit_power (f : Fld) (b : Bool) : (s.setBit f b).power = s.power := setFld_power s _ _
@[simp] theorem State.setBit_lantern (f : Fld) (b : Bool) : (s.setBit f b).lantern = s.lantern := setFld_lantern s _ _
@[simp] theorem State.setBit_test (f : Fld) (b : Bool) : (s.setBit f b).test = s.test := setFld_test s _ _
@[simp] theorem State.setBit_host (f : Fld) (b : Bool) : (s.setBit f b).host = s.host := setFld_host s _ _
@[simp] theorem State.setBit_hostMem (f : Fld) (b : Bool) : (s.setBit f b).hostMem = s.hostMem := setFld_hostMem s _ _
@[simp] theorem State.setBit_alarmQ (f : Fld) (b : Bool) : (s.setBit f b).alarmQ = s.alarmQ := setFld_alarmQ s _ _
@[simp] theorem State.setBit_aseq (f : Fld) (b : Bool) : (s.setBit f b).aseq = s.aseq := setFld_aseq s _ _
@[simp] theorem State.setBit_alarmLost (f : Fld) (b : Bool) : (s.setBit f b).alarmLost = s.alarmLost := setFld_alarmLost s _ _

/-! ### bump writes `regs` alone -/

@[simp] theorem State.bump_pending (f : Fld) (n : Nat) : (s.bump f n).pending = s.pending := setFld_pending s _ _
@[simp] theorem State.bump_free (f : Fld) (n : Nat) : (s.bump f n).free = s.free := setFld_free s _ _
@[simp] theorem State.bump_latchB (f : Fld) (n : Nat) : (s.bump f n).latchB = s.latchB := setFld_latchB s _ _
@[simp] theorem State.bump_latchM (f : Fld) (n : Nat) : (s.bump f n).latchM = s.latchM := setFld_latchM s _ _
@[simp] theorem State.bump_holdB (f : Fld) (n : Nat) : (s.bump f n).holdB = s.holdB := setFld_holdB s _ _
@[simp] theorem State.bump_holdM (f : Fld) (n : Nat) : (s.bump f n).holdM = s.holdM := setFld_holdM s _ _
@[simp] theorem State.bump_rdata (f : Fld) (n : Nat) : (s.bump f n).rdata = s.rdata := setFld_rdata s _ _
@[simp] theorem State.bump_faults (f : Fld) (n : Nat) : (s.bump f n).faults = s.faults := setFld_faults s _ _
@[simp] theorem State.bump_streams (f : Fld) (n : Nat) : (s.bump f n).streams = s.streams := setFld_streams s _ _
@[simp] theorem State.bump_ports (f : Fld) (n : Nat) : (s.bump f n).ports = s.ports := setFld_ports s _ _
@[simp] theorem State.bump_planSet (f : Fld) (n : Nat) : (s.bump f n).planSet = s.planSet := setFld_planSet s _ _
@[simp] theorem State.bump_cores (f : Fld) (n : Nat) : (s.bump f n).cores = s.cores := setFld_cores s _ _
@[simp] theorem State.bump_groups (f : Fld) (n : Nat) : (s.bump f n).groups = s.groups := setFld_groups s _ _
@[simp] theorem State.bump_nets (f : Fld) (n : Nat) : (s.bump f n).nets = s.nets := setFld_nets s _ _
@[simp] theorem State.bump_synBlocks (f : Fld) (n : Nat) : (s.bump f n).synBlocks = s.synBlocks := setFld_synBlocks s _ _
@[simp] theorem State.bump_fabric (f : Fld) (n : Nat) : (s.bump f n).fabric = s.fabric := setFld_fabric s _ _
@[simp] theorem State.bump_hbm (f : Fld) (n : Nat) : (s.bump f n).hbm = s.hbm := setFld_hbm s _ _
@[simp] theorem State.bump_hbmPages (f : Fld) (n : Nat) : (s.bump f n).hbmPages = s.hbmPages := setFld_hbmPages s _ _
@[simp] theorem State.bump_prefetched (f : Fld) (n : Nat) : (s.bump f n).prefetched = s.prefetched := setFld_prefetched s _ _
@[simp] theorem State.bump_traceLog (f : Fld) (n : Nat) : (s.bump f n).traceLog = s.traceLog := setFld_traceLog s _ _
@[simp] theorem State.bump_logDropped (f : Fld) (n : Nat) : (s.bump f n).logDropped = s.logDropped := setFld_logDropped s _ _
@[simp] theorem State.bump_asm (f : Fld) (n : Nat) : (s.bump f n).asm = s.asm := setFld_asm s _ _
@[simp] theorem State.bump_seam (f : Fld) (n : Nat) : (s.bump f n).seam = s.seam := setFld_seam s _ _
@[simp] theorem State.bump_sump (f : Fld) (n : Nat) : (s.bump f n).sump = s.sump := setFld_sump s _ _
@[simp] theorem State.bump_chisel (f : Fld) (n : Nat) : (s.bump f n).chisel = s.chisel := setFld_chisel s _ _
@[simp] theorem State.bump_tunnel (f : Fld) (n : Nat) : (s.bump f n).tunnel = s.tunnel := setFld_tunnel s _ _
@[simp] theorem State.bump_power (f : Fld) (n : Nat) : (s.bump f n).power = s.power := setFld_power s _ _
@[simp] theorem State.bump_lantern (f : Fld) (n : Nat) : (s.bump f n).lantern = s.lantern := setFld_lantern s _ _
@[simp] theorem State.bump_test (f : Fld) (n : Nat) : (s.bump f n).test = s.test := setFld_test s _ _
@[simp] theorem State.bump_host (f : Fld) (n : Nat) : (s.bump f n).host = s.host := setFld_host s _ _
@[simp] theorem State.bump_hostMem (f : Fld) (n : Nat) : (s.bump f n).hostMem = s.hostMem := setFld_hostMem s _ _
@[simp] theorem State.bump_alarmQ (f : Fld) (n : Nat) : (s.bump f n).alarmQ = s.alarmQ := setFld_alarmQ s _ _
@[simp] theorem State.bump_aseq (f : Fld) (n : Nat) : (s.bump f n).aseq = s.aseq := setFld_aseq s _ _
@[simp] theorem State.bump_alarmLost (f : Fld) (n : Nat) : (s.bump f n).alarmLost = s.alarmLost := setFld_alarmLost s _ _

/-! ### setRegBit writes `regs` alone -/

@[simp] theorem State.setRegBit_pending (a i : Nat) (b : Bool) : (s.setRegBit a i b).pending = s.pending := setReg_pending s _ _
@[simp] theorem State.setRegBit_free (a i : Nat) (b : Bool) : (s.setRegBit a i b).free = s.free := setReg_free s _ _
@[simp] theorem State.setRegBit_latchB (a i : Nat) (b : Bool) : (s.setRegBit a i b).latchB = s.latchB := setReg_latchB s _ _
@[simp] theorem State.setRegBit_latchM (a i : Nat) (b : Bool) : (s.setRegBit a i b).latchM = s.latchM := setReg_latchM s _ _
@[simp] theorem State.setRegBit_holdB (a i : Nat) (b : Bool) : (s.setRegBit a i b).holdB = s.holdB := setReg_holdB s _ _
@[simp] theorem State.setRegBit_holdM (a i : Nat) (b : Bool) : (s.setRegBit a i b).holdM = s.holdM := setReg_holdM s _ _
@[simp] theorem State.setRegBit_rdata (a i : Nat) (b : Bool) : (s.setRegBit a i b).rdata = s.rdata := setReg_rdata s _ _
@[simp] theorem State.setRegBit_faults (a i : Nat) (b : Bool) : (s.setRegBit a i b).faults = s.faults := setReg_faults s _ _
@[simp] theorem State.setRegBit_streams (a i : Nat) (b : Bool) : (s.setRegBit a i b).streams = s.streams := setReg_streams s _ _
@[simp] theorem State.setRegBit_ports (a i : Nat) (b : Bool) : (s.setRegBit a i b).ports = s.ports := setReg_ports s _ _
@[simp] theorem State.setRegBit_planSet (a i : Nat) (b : Bool) : (s.setRegBit a i b).planSet = s.planSet := setReg_planSet s _ _
@[simp] theorem State.setRegBit_cores (a i : Nat) (b : Bool) : (s.setRegBit a i b).cores = s.cores := setReg_cores s _ _
@[simp] theorem State.setRegBit_groups (a i : Nat) (b : Bool) : (s.setRegBit a i b).groups = s.groups := setReg_groups s _ _
@[simp] theorem State.setRegBit_nets (a i : Nat) (b : Bool) : (s.setRegBit a i b).nets = s.nets := setReg_nets s _ _
@[simp] theorem State.setRegBit_synBlocks (a i : Nat) (b : Bool) : (s.setRegBit a i b).synBlocks = s.synBlocks := setReg_synBlocks s _ _
@[simp] theorem State.setRegBit_fabric (a i : Nat) (b : Bool) : (s.setRegBit a i b).fabric = s.fabric := setReg_fabric s _ _
@[simp] theorem State.setRegBit_hbm (a i : Nat) (b : Bool) : (s.setRegBit a i b).hbm = s.hbm := setReg_hbm s _ _
@[simp] theorem State.setRegBit_hbmPages (a i : Nat) (b : Bool) : (s.setRegBit a i b).hbmPages = s.hbmPages := setReg_hbmPages s _ _
@[simp] theorem State.setRegBit_prefetched (a i : Nat) (b : Bool) : (s.setRegBit a i b).prefetched = s.prefetched := setReg_prefetched s _ _
@[simp] theorem State.setRegBit_traceLog (a i : Nat) (b : Bool) : (s.setRegBit a i b).traceLog = s.traceLog := setReg_traceLog s _ _
@[simp] theorem State.setRegBit_logDropped (a i : Nat) (b : Bool) : (s.setRegBit a i b).logDropped = s.logDropped := setReg_logDropped s _ _
@[simp] theorem State.setRegBit_asm (a i : Nat) (b : Bool) : (s.setRegBit a i b).asm = s.asm := setReg_asm s _ _
@[simp] theorem State.setRegBit_seam (a i : Nat) (b : Bool) : (s.setRegBit a i b).seam = s.seam := setReg_seam s _ _
@[simp] theorem State.setRegBit_sump (a i : Nat) (b : Bool) : (s.setRegBit a i b).sump = s.sump := setReg_sump s _ _
@[simp] theorem State.setRegBit_chisel (a i : Nat) (b : Bool) : (s.setRegBit a i b).chisel = s.chisel := setReg_chisel s _ _
@[simp] theorem State.setRegBit_tunnel (a i : Nat) (b : Bool) : (s.setRegBit a i b).tunnel = s.tunnel := setReg_tunnel s _ _
@[simp] theorem State.setRegBit_power (a i : Nat) (b : Bool) : (s.setRegBit a i b).power = s.power := setReg_power s _ _
@[simp] theorem State.setRegBit_lantern (a i : Nat) (b : Bool) : (s.setRegBit a i b).lantern = s.lantern := setReg_lantern s _ _
@[simp] theorem State.setRegBit_test (a i : Nat) (b : Bool) : (s.setRegBit a i b).test = s.test := setReg_test s _ _
@[simp] theorem State.setRegBit_host (a i : Nat) (b : Bool) : (s.setRegBit a i b).host = s.host := setReg_host s _ _
@[simp] theorem State.setRegBit_hostMem (a i : Nat) (b : Bool) : (s.setRegBit a i b).hostMem = s.hostMem := setReg_hostMem s _ _
@[simp] theorem State.setRegBit_alarmQ (a i : Nat) (b : Bool) : (s.setRegBit a i b).alarmQ = s.alarmQ := setReg_alarmQ s _ _
@[simp] theorem State.setRegBit_aseq (a i : Nat) (b : Bool) : (s.setRegBit a i b).aseq = s.aseq := setReg_aseq s _ _
@[simp] theorem State.setRegBit_alarmLost (a i : Nat) (b : Bool) : (s.setRegBit a i b).alarmLost = s.alarmLost := setReg_alarmLost s _ _

/-! ### set64 writes `regs` alone -/

@[simp] theorem State.set64_pending (a v : Nat) : (s.set64 a v).pending = s.pending := (setReg_pending _ _ _).trans (setReg_pending s _ _)
@[simp] theorem State.set64_free (a v : Nat) : (s.set64 a v).free = s.free := (setReg_free _ _ _).trans (setReg_free s _ _)
@[simp] theorem State.set64_latchB (a v : Nat) : (s.set64 a v).latchB = s.latchB := (setReg_latchB _ _ _).trans (setReg_latchB s _ _)
@[simp] theorem State.set64_latchM (a v : Nat) : (s.set64 a v).latchM = s.latchM := (setReg_latchM _ _ _).trans (setReg_latchM s _ _)
@[simp] theorem State.set64_holdB (a v : Nat) : (s.set64 a v).holdB = s.holdB := (setReg_holdB _ _ _).trans (setReg_holdB s _ _)
@[simp] theorem State.set64_holdM (a v : Nat) : (s.set64 a v).holdM = s.holdM := (setReg_holdM _ _ _).trans (setReg_holdM s _ _)
@[simp] theorem State.set64_rdata (a v : Nat) : (s.set64 a v).rdata = s.rdata := (setReg_rdata _ _ _).trans (setReg_rdata s _ _)
@[simp] theorem State.set64_faults (a v : Nat) : (s.set64 a v).faults = s.faults := (setReg_faults _ _ _).trans (setReg_faults s _ _)
@[simp] theorem State.set64_streams (a v : Nat) : (s.set64 a v).streams = s.streams := (setReg_streams _ _ _).trans (setReg_streams s _ _)
@[simp] theorem State.set64_ports (a v : Nat) : (s.set64 a v).ports = s.ports := (setReg_ports _ _ _).trans (setReg_ports s _ _)
@[simp] theorem State.set64_planSet (a v : Nat) : (s.set64 a v).planSet = s.planSet := (setReg_planSet _ _ _).trans (setReg_planSet s _ _)
@[simp] theorem State.set64_cores (a v : Nat) : (s.set64 a v).cores = s.cores := (setReg_cores _ _ _).trans (setReg_cores s _ _)
@[simp] theorem State.set64_groups (a v : Nat) : (s.set64 a v).groups = s.groups := (setReg_groups _ _ _).trans (setReg_groups s _ _)
@[simp] theorem State.set64_nets (a v : Nat) : (s.set64 a v).nets = s.nets := (setReg_nets _ _ _).trans (setReg_nets s _ _)
@[simp] theorem State.set64_synBlocks (a v : Nat) : (s.set64 a v).synBlocks = s.synBlocks := (setReg_synBlocks _ _ _).trans (setReg_synBlocks s _ _)
@[simp] theorem State.set64_fabric (a v : Nat) : (s.set64 a v).fabric = s.fabric := (setReg_fabric _ _ _).trans (setReg_fabric s _ _)
@[simp] theorem State.set64_hbm (a v : Nat) : (s.set64 a v).hbm = s.hbm := (setReg_hbm _ _ _).trans (setReg_hbm s _ _)
@[simp] theorem State.set64_hbmPages (a v : Nat) : (s.set64 a v).hbmPages = s.hbmPages := (setReg_hbmPages _ _ _).trans (setReg_hbmPages s _ _)
@[simp] theorem State.set64_prefetched (a v : Nat) : (s.set64 a v).prefetched = s.prefetched := (setReg_prefetched _ _ _).trans (setReg_prefetched s _ _)
@[simp] theorem State.set64_traceLog (a v : Nat) : (s.set64 a v).traceLog = s.traceLog := (setReg_traceLog _ _ _).trans (setReg_traceLog s _ _)
@[simp] theorem State.set64_logDropped (a v : Nat) : (s.set64 a v).logDropped = s.logDropped := (setReg_logDropped _ _ _).trans (setReg_logDropped s _ _)
@[simp] theorem State.set64_asm (a v : Nat) : (s.set64 a v).asm = s.asm := (setReg_asm _ _ _).trans (setReg_asm s _ _)
@[simp] theorem State.set64_seam (a v : Nat) : (s.set64 a v).seam = s.seam := (setReg_seam _ _ _).trans (setReg_seam s _ _)
@[simp] theorem State.set64_sump (a v : Nat) : (s.set64 a v).sump = s.sump := (setReg_sump _ _ _).trans (setReg_sump s _ _)
@[simp] theorem State.set64_chisel (a v : Nat) : (s.set64 a v).chisel = s.chisel := (setReg_chisel _ _ _).trans (setReg_chisel s _ _)
@[simp] theorem State.set64_tunnel (a v : Nat) : (s.set64 a v).tunnel = s.tunnel := (setReg_tunnel _ _ _).trans (setReg_tunnel s _ _)
@[simp] theorem State.set64_power (a v : Nat) : (s.set64 a v).power = s.power := (setReg_power _ _ _).trans (setReg_power s _ _)
@[simp] theorem State.set64_lantern (a v : Nat) : (s.set64 a v).lantern = s.lantern := (setReg_lantern _ _ _).trans (setReg_lantern s _ _)
@[simp] theorem State.set64_test (a v : Nat) : (s.set64 a v).test = s.test := (setReg_test _ _ _).trans (setReg_test s _ _)
@[simp] theorem State.set64_host (a v : Nat) : (s.set64 a v).host = s.host := (setReg_host _ _ _).trans (setReg_host s _ _)
@[simp] theorem State.set64_hostMem (a v : Nat) : (s.set64 a v).hostMem = s.hostMem := (setReg_hostMem _ _ _).trans (setReg_hostMem s _ _)
@[simp] theorem State.set64_alarmQ (a v : Nat) : (s.set64 a v).alarmQ = s.alarmQ := (setReg_alarmQ _ _ _).trans (setReg_alarmQ s _ _)
@[simp] theorem State.set64_aseq (a v : Nat) : (s.set64 a v).aseq = s.aseq := (setReg_aseq _ _ _).trans (setReg_aseq s _ _)
@[simp] theorem State.set64_alarmLost (a v : Nat) : (s.set64 a v).alarmLost = s.alarmLost := (setReg_alarmLost _ _ _).trans (setReg_alarmLost s _ _)

/-! ### bump64 writes `regs` alone -/

@[simp] theorem State.bump64_pending (a n : Nat) : (s.bump64 a n).pending = s.pending := set64_pending s _ _
@[simp] theorem State.bump64_free (a n : Nat) : (s.bump64 a n).free = s.free := set64_free s _ _
@[simp] theorem State.bump64_latchB (a n : Nat) : (s.bump64 a n).latchB = s.latchB := set64_latchB s _ _
@[simp] theorem State.bump64_latchM (a n : Nat) : (s.bump64 a n).latchM = s.latchM := set64_latchM s _ _
@[simp] theorem State.bump64_holdB (a n : Nat) : (s.bump64 a n).holdB = s.holdB := set64_holdB s _ _
@[simp] theorem State.bump64_holdM (a n : Nat) : (s.bump64 a n).holdM = s.holdM := set64_holdM s _ _
@[simp] theorem State.bump64_rdata (a n : Nat) : (s.bump64 a n).rdata = s.rdata := set64_rdata s _ _
@[simp] theorem State.bump64_faults (a n : Nat) : (s.bump64 a n).faults = s.faults := set64_faults s _ _
@[simp] theorem State.bump64_streams (a n : Nat) : (s.bump64 a n).streams = s.streams := set64_streams s _ _
@[simp] theorem State.bump64_ports (a n : Nat) : (s.bump64 a n).ports = s.ports := set64_ports s _ _
@[simp] theorem State.bump64_planSet (a n : Nat) : (s.bump64 a n).planSet = s.planSet := set64_planSet s _ _
@[simp] theorem State.bump64_cores (a n : Nat) : (s.bump64 a n).cores = s.cores := set64_cores s _ _
@[simp] theorem State.bump64_groups (a n : Nat) : (s.bump64 a n).groups = s.groups := set64_groups s _ _
@[simp] theorem State.bump64_nets (a n : Nat) : (s.bump64 a n).nets = s.nets := set64_nets s _ _
@[simp] theorem State.bump64_synBlocks (a n : Nat) : (s.bump64 a n).synBlocks = s.synBlocks := set64_synBlocks s _ _
@[simp] theorem State.bump64_fabric (a n : Nat) : (s.bump64 a n).fabric = s.fabric := set64_fabric s _ _
@[simp] theorem State.bump64_hbm (a n : Nat) : (s.bump64 a n).hbm = s.hbm := set64_hbm s _ _
@[simp] theorem State.bump64_hbmPages (a n : Nat) : (s.bump64 a n).hbmPages = s.hbmPages := set64_hbmPages s _ _
@[simp] theorem State.bump64_prefetched (a n : Nat) : (s.bump64 a n).prefetched = s.prefetched := set64_prefetched s _ _
@[simp] theorem State.bump64_traceLog (a n : Nat) : (s.bump64 a n).traceLog = s.traceLog := set64_traceLog s _ _
@[simp] theorem State.bump64_logDropped (a n : Nat) : (s.bump64 a n).logDropped = s.logDropped := set64_logDropped s _ _
@[simp] theorem State.bump64_asm (a n : Nat) : (s.bump64 a n).asm = s.asm := set64_asm s _ _
@[simp] theorem State.bump64_seam (a n : Nat) : (s.bump64 a n).seam = s.seam := set64_seam s _ _
@[simp] theorem State.bump64_sump (a n : Nat) : (s.bump64 a n).sump = s.sump := set64_sump s _ _
@[simp] theorem State.bump64_chisel (a n : Nat) : (s.bump64 a n).chisel = s.chisel := set64_chisel s _ _
@[simp] theorem State.bump64_tunnel (a n : Nat) : (s.bump64 a n).tunnel = s.tunnel := set64_tunnel s _ _
@[simp] theorem State.bump64_power (a n : Nat) : (s.bump64 a n).power = s.power := set64_power s _ _
@[simp] theorem State.bump64_lantern (a n : Nat) : (s.bump64 a n).lantern = s.lantern := set64_lantern s _ _
@[simp] theorem State.bump64_test (a n : Nat) : (s.bump64 a n).test = s.test := set64_test s _ _
@[simp] theorem State.bump64_host (a n : Nat) : (s.bump64 a n).host = s.host := set64_host s _ _
@[simp] theorem State.bump64_hostMem (a n : Nat) : (s.bump64 a n).hostMem = s.hostMem := set64_hostMem s _ _
@[simp] theorem State.bump64_alarmQ (a n : Nat) : (s.bump64 a n).alarmQ = s.alarmQ := set64_alarmQ s _ _
@[simp] theorem State.bump64_aseq (a n : Nat) : (s.bump64 a n).aseq = s.aseq := set64_aseq s _ _
@[simp] theorem State.bump64_alarmLost (a n : Nat) : (s.bump64 a n).alarmLost = s.alarmLost := set64_alarmLost s _ _

/-! ### setStream writes `streams` alone -/

@[simp] theorem State.setStream_pending (n : Nat) (v : StreamSt) : (s.setStream n v).pending = s.pending := (rfl)
@[simp] theorem State.setStream_free (n : Nat) (v : StreamSt) : (s.setStream n v).free = s.free := (rfl)
@[simp] theorem State.setStream_regs (n : Nat) (v : StreamSt) : (s.setStream n v).regs = s.regs := (rfl)
@[simp] theorem State.setStream_latchB (n : Nat) (v : StreamSt) : (s.setStream n v).latchB = s.latchB := (rfl)
@[simp] theorem State.setStream_latchM (n : Nat) (v : StreamSt) : (s.setStream n v).latchM = s.latchM := (rfl)
@[simp] theorem State.setStream_holdB (n : Nat) (v : StreamSt) : (s.setStream n v).holdB = s.holdB := (rfl)
@[simp] theorem State.setStream_holdM (n : Nat) (v : StreamSt) : (s.setStream n v).holdM = s.holdM := (rfl)
@[simp] theorem State.setStream_rdata (n : Nat) (v : StreamSt) : (s.setStream n v).rdata = s.rdata := (rfl)
@[simp] theorem State.setStream_faults (n : Nat) (v : StreamSt) : (s.setStream n v).faults = s.faults := (rfl)
@[simp] theorem State.setStream_ports (n : Nat) (v : StreamSt) : (s.setStream n v).ports = s.ports := (rfl)
@[simp] theorem State.setStream_planSet (n : Nat) (v : StreamSt) : (s.setStream n v).planSet = s.planSet := (rfl)
@[simp] theorem State.setStream_cores (n : Nat) (v : StreamSt) : (s.setStream n v).cores = s.cores := (rfl)
@[simp] theorem State.setStream_groups (n : Nat) (v : StreamSt) : (s.setStream n v).groups = s.groups := (rfl)
@[simp] theorem State.setStream_nets (n : Nat) (v : StreamSt) : (s.setStream n v).nets = s.nets := (rfl)
@[simp] theorem State.setStream_synBlocks (n : Nat) (v : StreamSt) : (s.setStream n v).synBlocks = s.synBlocks := (rfl)
@[simp] theorem State.setStream_fabric (n : Nat) (v : StreamSt) : (s.setStream n v).fabric = s.fabric := (rfl)
@[simp] theorem State.setStream_hbm (n : Nat) (v : StreamSt) : (s.setStream n v).hbm = s.hbm := (rfl)
@[simp] theorem State.setStream_hbmPages (n : Nat) (v : StreamSt) : (s.setStream n v).hbmPages = s.hbmPages := (rfl)
@[simp] theorem State.setStream_prefetched (n : Nat) (v : StreamSt) : (s.setStream n v).prefetched = s.prefetched := (rfl)
@[simp] theorem State.setStream_traceLog (n : Nat) (v : StreamSt) : (s.setStream n v).traceLog = s.traceLog := (rfl)
@[simp] theorem State.setStream_logDropped (n : Nat) (v : StreamSt) : (s.setStream n v).logDropped = s.logDropped := (rfl)
@[simp] theorem State.setStream_asm (n : Nat) (v : StreamSt) : (s.setStream n v).asm = s.asm := (rfl)
@[simp] theorem State.setStream_seam (n : Nat) (v : StreamSt) : (s.setStream n v).seam = s.seam := (rfl)
@[simp] theorem State.setStream_sump (n : Nat) (v : StreamSt) : (s.setStream n v).sump = s.sump := (rfl)
@[simp] theorem State.setStream_chisel (n : Nat) (v : StreamSt) : (s.setStream n v).chisel = s.chisel := (rfl)
@[simp] theorem State.setStream_tunnel (n : Nat) (v : StreamSt) : (s.setStream n v).tunnel = s.tunnel := (rfl)
@[simp] theorem State.setStream_power (n : Nat) (v : StreamSt) : (s.setStream n v).power = s.power := (rfl)
@[simp] theorem State.setStream_lantern (n : Nat) (v : StreamSt) : (s.setStream n v).lantern = s.lantern := (rfl)
@[simp] theorem State.setStream_test (n : Nat) (v : StreamSt) : (s.setStream n v).test = s.test := (rfl)
@[simp] theorem State.setStream_host (n : Nat) (v : StreamSt) : (s.setStream n v).host = s.host := (rfl)
@[simp] theorem State.setStream_hostMem (n : Nat) (v : StreamSt) : (s.setStream n v).hostMem = s.hostMem := (rfl)
@[simp] theorem State.setStream_alarmQ (n : Nat) (v : StreamSt) : (s.setStream n v).alarmQ = s.alarmQ := (rfl)
@[simp] theorem State.setStream_aseq (n : Nat) (v : StreamSt) : (s.setStream n v).aseq = s.aseq := (rfl)
@[simp] theorem State.setStream_alarmLost (n : Nat) (v : StreamSt) : (s.setStream n v).alarmLost = s.alarmLost := (rfl)

/-! ### setPort writes `ports` alone -/

@[simp] theorem State.setPort_pending (p : Nat) (v : PortSt) : (s.setPort p v).pending = s.pending := (rfl)
@[simp] theorem State.setPort_free (p : Nat) (v : PortSt) : (s.setPort p v).free = s.free := (rfl)
@[simp] theorem State.setPort_regs (p : Nat) (v : PortSt) : (s.setPort p v).regs = s.regs := (rfl)
@[simp] theorem State.setPort_latchB (p : Nat) (v : PortSt) : (s.setPort p v).latchB = s.latchB := (rfl)
@[simp] theorem State.setPort_latchM (p : Nat) (v : PortSt) : (s.setPort p v).latchM = s.latchM := (rfl)
@[simp] theorem State.setPort_holdB (p : Nat) (v : PortSt) : (s.setPort p v).holdB = s.holdB := (rfl)
@[simp] theorem State.setPort_holdM (p : Nat) (v : PortSt) : (s.setPort p v).holdM = s.holdM := (rfl)
@[simp] theorem State.setPort_rdata (p : Nat) (v : PortSt) : (s.setPort p v).rdata = s.rdata := (rfl)
@[simp] theorem State.setPort_faults (p : Nat) (v : PortSt) : (s.setPort p v).faults = s.faults := (rfl)
@[simp] theorem State.setPort_streams (p : Nat) (v : PortSt) : (s.setPort p v).streams = s.streams := (rfl)
@[simp] theorem State.setPort_planSet (p : Nat) (v : PortSt) : (s.setPort p v).planSet = s.planSet := (rfl)
@[simp] theorem State.setPort_cores (p : Nat) (v : PortSt) : (s.setPort p v).cores = s.cores := (rfl)
@[simp] theorem State.setPort_groups (p : Nat) (v : PortSt) : (s.setPort p v).groups = s.groups := (rfl)
@[simp] theorem State.setPort_nets (p : Nat) (v : PortSt) : (s.setPort p v).nets = s.nets := (rfl)
@[simp] theorem State.setPort_synBlocks (p : Nat) (v : PortSt) : (s.setPort p v).synBlocks = s.synBlocks := (rfl)
@[simp] theorem State.setPort_fabric (p : Nat) (v : PortSt) : (s.setPort p v).fabric = s.fabric := (rfl)
@[simp] theorem State.setPort_hbm (p : Nat) (v : PortSt) : (s.setPort p v).hbm = s.hbm := (rfl)
@[simp] theorem State.setPort_hbmPages (p : Nat) (v : PortSt) : (s.setPort p v).hbmPages = s.hbmPages := (rfl)
@[simp] theorem State.setPort_prefetched (p : Nat) (v : PortSt) : (s.setPort p v).prefetched = s.prefetched := (rfl)
@[simp] theorem State.setPort_traceLog (p : Nat) (v : PortSt) : (s.setPort p v).traceLog = s.traceLog := (rfl)
@[simp] theorem State.setPort_logDropped (p : Nat) (v : PortSt) : (s.setPort p v).logDropped = s.logDropped := (rfl)
@[simp] theorem State.setPort_asm (p : Nat) (v : PortSt) : (s.setPort p v).asm = s.asm := (rfl)
@[simp] theorem State.setPort_seam (p : Nat) (v : PortSt) : (s.setPort p v).seam = s.seam := (rfl)
@[simp] theorem State.setPort_sump (p : Nat) (v : PortSt) : (s.setPort p v).sump = s.sump := (rfl)
@[simp] theorem State.setPort_chisel (p : Nat) (v : PortSt) : (s.setPort p v).chisel = s.chisel := (rfl)
@[simp] theorem State.setPort_tunnel (p : Nat) (v : PortSt) : (s.setPort p v).tunnel = s.tunnel := (rfl)
@[simp] theorem State.setPort_power (p : Nat) (v : PortSt) : (s.setPort p v).power = s.power := (rfl)
@[simp] theorem State.setPort_lantern (p : Nat) (v : PortSt) : (s.setPort p v).lantern = s.lantern := (rfl)
@[simp] theorem State.setPort_test (p : Nat) (v : PortSt) : (s.setPort p v).test = s.test := (rfl)
@[simp] theorem State.setPort_host (p : Nat) (v : PortSt) : (s.setPort p v).host = s.host := (rfl)
@[simp] theorem State.setPort_hostMem (p : Nat) (v : PortSt) : (s.setPort p v).hostMem = s.hostMem := (rfl)
@[simp] theorem State.setPort_alarmQ (p : Nat) (v : PortSt) : (s.setPort p v).alarmQ = s.alarmQ := (rfl)
@[simp] theorem State.setPort_aseq (p : Nat) (v : PortSt) : (s.setPort p v).aseq = s.aseq := (rfl)
@[simp] theorem State.setPort_alarmLost (p : Nat) (v : PortSt) : (s.setPort p v).alarmLost = s.alarmLost := (rfl)

/-! ### setRing writes `host` alone -/

@[simp] theorem State.setRing_pending (r : Nat) (v : RingSt) : (s.setRing r v).pending = s.pending := (rfl)
@[simp] theorem State.setRing_free (r : Nat) (v : RingSt) : (s.setRing r v).free = s.free := (rfl)
@[simp] theorem State.setRing_regs (r : Nat) (v : RingSt) : (s.setRing r v).regs = s.regs := (rfl)
@[simp] theorem State.setRing_latchB (r : Nat) (v : RingSt) : (s.setRing r v).latchB = s.latchB := (rfl)
@[simp] theorem State.setRing_latchM (r : Nat) (v : RingSt) : (s.setRing r v).latchM = s.latchM := (rfl)
@[simp] theorem State.setRing_holdB (r : Nat) (v : RingSt) : (s.setRing r v).holdB = s.holdB := (rfl)
@[simp] theorem State.setRing_holdM (r : Nat) (v : RingSt) : (s.setRing r v).holdM = s.holdM := (rfl)
@[simp] theorem State.setRing_rdata (r : Nat) (v : RingSt) : (s.setRing r v).rdata = s.rdata := (rfl)
@[simp] theorem State.setRing_faults (r : Nat) (v : RingSt) : (s.setRing r v).faults = s.faults := (rfl)
@[simp] theorem State.setRing_streams (r : Nat) (v : RingSt) : (s.setRing r v).streams = s.streams := (rfl)
@[simp] theorem State.setRing_ports (r : Nat) (v : RingSt) : (s.setRing r v).ports = s.ports := (rfl)
@[simp] theorem State.setRing_planSet (r : Nat) (v : RingSt) : (s.setRing r v).planSet = s.planSet := (rfl)
@[simp] theorem State.setRing_cores (r : Nat) (v : RingSt) : (s.setRing r v).cores = s.cores := (rfl)
@[simp] theorem State.setRing_groups (r : Nat) (v : RingSt) : (s.setRing r v).groups = s.groups := (rfl)
@[simp] theorem State.setRing_nets (r : Nat) (v : RingSt) : (s.setRing r v).nets = s.nets := (rfl)
@[simp] theorem State.setRing_synBlocks (r : Nat) (v : RingSt) : (s.setRing r v).synBlocks = s.synBlocks := (rfl)
@[simp] theorem State.setRing_fabric (r : Nat) (v : RingSt) : (s.setRing r v).fabric = s.fabric := (rfl)
@[simp] theorem State.setRing_hbm (r : Nat) (v : RingSt) : (s.setRing r v).hbm = s.hbm := (rfl)
@[simp] theorem State.setRing_hbmPages (r : Nat) (v : RingSt) : (s.setRing r v).hbmPages = s.hbmPages := (rfl)
@[simp] theorem State.setRing_prefetched (r : Nat) (v : RingSt) : (s.setRing r v).prefetched = s.prefetched := (rfl)
@[simp] theorem State.setRing_traceLog (r : Nat) (v : RingSt) : (s.setRing r v).traceLog = s.traceLog := (rfl)
@[simp] theorem State.setRing_logDropped (r : Nat) (v : RingSt) : (s.setRing r v).logDropped = s.logDropped := (rfl)
@[simp] theorem State.setRing_asm (r : Nat) (v : RingSt) : (s.setRing r v).asm = s.asm := (rfl)
@[simp] theorem State.setRing_seam (r : Nat) (v : RingSt) : (s.setRing r v).seam = s.seam := (rfl)
@[simp] theorem State.setRing_sump (r : Nat) (v : RingSt) : (s.setRing r v).sump = s.sump := (rfl)
@[simp] theorem State.setRing_chisel (r : Nat) (v : RingSt) : (s.setRing r v).chisel = s.chisel := (rfl)
@[simp] theorem State.setRing_tunnel (r : Nat) (v : RingSt) : (s.setRing r v).tunnel = s.tunnel := (rfl)
@[simp] theorem State.setRing_power (r : Nat) (v : RingSt) : (s.setRing r v).power = s.power := (rfl)
@[simp] theorem State.setRing_lantern (r : Nat) (v : RingSt) : (s.setRing r v).lantern = s.lantern := (rfl)
@[simp] theorem State.setRing_test (r : Nat) (v : RingSt) : (s.setRing r v).test = s.test := (rfl)
@[simp] theorem State.setRing_hostMem (r : Nat) (v : RingSt) : (s.setRing r v).hostMem = s.hostMem := (rfl)
@[simp] theorem State.setRing_alarmQ (r : Nat) (v : RingSt) : (s.setRing r v).alarmQ = s.alarmQ := (rfl)
@[simp] theorem State.setRing_aseq (r : Nat) (v : RingSt) : (s.setRing r v).aseq = s.aseq := (rfl)
@[simp] theorem State.setRing_alarmLost (r : Nat) (v : RingSt) : (s.setRing r v).alarmLost = s.alarmLost := (rfl)

/-! ### hostWrite writes `hostMem` alone -/

@[simp] theorem State.hostWrite_pending (a : Nat) (bs : List Byte) : (s.hostWrite a bs).pending = s.pending := (rfl)
@[simp] theorem State.hostWrite_free (a : Nat) (bs : List Byte) : (s.hostWrite a bs).free = s.free := (rfl)
@[simp] theorem State.hostWrite_regs (a : Nat) (bs : List Byte) : (s.hostWrite a bs).regs = s.regs := (rfl)
@[simp] theorem State.hostWrite_latchB (a : Nat) (bs : List Byte) : (s.hostWrite a bs).latchB = s.latchB := (rfl)
@[simp] theorem State.hostWrite_latchM (a : Nat) (bs : List Byte) : (s.hostWrite a bs).latchM = s.latchM := (rfl)
@[simp] theorem State.hostWrite_holdB (a : Nat) (bs : List Byte) : (s.hostWrite a bs).holdB = s.holdB := (rfl)
@[simp] theorem State.hostWrite_holdM (a : Nat) (bs : List Byte) : (s.hostWrite a bs).holdM = s.holdM := (rfl)
@[simp] theorem State.hostWrite_rdata (a : Nat) (bs : List Byte) : (s.hostWrite a bs).rdata = s.rdata := (rfl)
@[simp] theorem State.hostWrite_faults (a : Nat) (bs : List Byte) : (s.hostWrite a bs).faults = s.faults := (rfl)
@[simp] theorem State.hostWrite_streams (a : Nat) (bs : List Byte) : (s.hostWrite a bs).streams = s.streams := (rfl)
@[simp] theorem State.hostWrite_ports (a : Nat) (bs : List Byte) : (s.hostWrite a bs).ports = s.ports := (rfl)
@[simp] theorem State.hostWrite_planSet (a : Nat) (bs : List Byte) : (s.hostWrite a bs).planSet = s.planSet := (rfl)
@[simp] theorem State.hostWrite_cores (a : Nat) (bs : List Byte) : (s.hostWrite a bs).cores = s.cores := (rfl)
@[simp] theorem State.hostWrite_groups (a : Nat) (bs : List Byte) : (s.hostWrite a bs).groups = s.groups := (rfl)
@[simp] theorem State.hostWrite_nets (a : Nat) (bs : List Byte) : (s.hostWrite a bs).nets = s.nets := (rfl)
@[simp] theorem State.hostWrite_synBlocks (a : Nat) (bs : List Byte) : (s.hostWrite a bs).synBlocks = s.synBlocks := (rfl)
@[simp] theorem State.hostWrite_fabric (a : Nat) (bs : List Byte) : (s.hostWrite a bs).fabric = s.fabric := (rfl)
@[simp] theorem State.hostWrite_hbm (a : Nat) (bs : List Byte) : (s.hostWrite a bs).hbm = s.hbm := (rfl)
@[simp] theorem State.hostWrite_hbmPages (a : Nat) (bs : List Byte) : (s.hostWrite a bs).hbmPages = s.hbmPages := (rfl)
@[simp] theorem State.hostWrite_prefetched (a : Nat) (bs : List Byte) : (s.hostWrite a bs).prefetched = s.prefetched := (rfl)
@[simp] theorem State.hostWrite_traceLog (a : Nat) (bs : List Byte) : (s.hostWrite a bs).traceLog = s.traceLog := (rfl)
@[simp] theorem State.hostWrite_logDropped (a : Nat) (bs : List Byte) : (s.hostWrite a bs).logDropped = s.logDropped := (rfl)
@[simp] theorem State.hostWrite_asm (a : Nat) (bs : List Byte) : (s.hostWrite a bs).asm = s.asm := (rfl)
@[simp] theorem State.hostWrite_seam (a : Nat) (bs : List Byte) : (s.hostWrite a bs).seam = s.seam := (rfl)
@[simp] theorem State.hostWrite_sump (a : Nat) (bs : List Byte) : (s.hostWrite a bs).sump = s.sump := (rfl)
@[simp] theorem State.hostWrite_chisel (a : Nat) (bs : List Byte) : (s.hostWrite a bs).chisel = s.chisel := (rfl)
@[simp] theorem State.hostWrite_tunnel (a : Nat) (bs : List Byte) : (s.hostWrite a bs).tunnel = s.tunnel := (rfl)
@[simp] theorem State.hostWrite_power (a : Nat) (bs : List Byte) : (s.hostWrite a bs).power = s.power := (rfl)
@[simp] theorem State.hostWrite_lantern (a : Nat) (bs : List Byte) : (s.hostWrite a bs).lantern = s.lantern := (rfl)
@[simp] theorem State.hostWrite_test (a : Nat) (bs : List Byte) : (s.hostWrite a bs).test = s.test := (rfl)
@[simp] theorem State.hostWrite_host (a : Nat) (bs : List Byte) : (s.hostWrite a bs).host = s.host := (rfl)
@[simp] theorem State.hostWrite_alarmQ (a : Nat) (bs : List Byte) : (s.hostWrite a bs).alarmQ = s.alarmQ := (rfl)
@[simp] theorem State.hostWrite_aseq (a : Nat) (bs : List Byte) : (s.hostWrite a bs).aseq = s.aseq := (rfl)
@[simp] theorem State.hostWrite_alarmLost (a : Nat) (bs : List Byte) : (s.hostWrite a bs).alarmLost = s.alarmLost := (rfl)

/-! ### setCore writes `cores` alone -/

@[simp] theorem State.setCore_pending (c : Nat) (v : CoreSt) : (s.setCore c v).pending = s.pending := (rfl)
@[simp] theorem State.setCore_free (c : Nat) (v : CoreSt) : (s.setCore c v).free = s.free := (rfl)
@[simp] theorem State.setCore_regs (c : Nat) (v : CoreSt) : (s.setCore c v).regs = s.regs := (rfl)
@[simp] theorem State.setCore_latchB (c : Nat) (v : CoreSt) : (s.setCore c v).latchB = s.latchB := (rfl)
@[simp] theorem State.setCore_latchM (c : Nat) (v : CoreSt) : (s.setCore c v).latchM = s.latchM := (rfl)
@[simp] theorem State.setCore_holdB (c : Nat) (v : CoreSt) : (s.setCore c v).holdB = s.holdB := (rfl)
@[simp] theorem State.setCore_holdM (c : Nat) (v : CoreSt) : (s.setCore c v).holdM = s.holdM := (rfl)
@[simp] theorem State.setCore_rdata (c : Nat) (v : CoreSt) : (s.setCore c v).rdata = s.rdata := (rfl)
@[simp] theorem State.setCore_faults (c : Nat) (v : CoreSt) : (s.setCore c v).faults = s.faults := (rfl)
@[simp] theorem State.setCore_streams (c : Nat) (v : CoreSt) : (s.setCore c v).streams = s.streams := (rfl)
@[simp] theorem State.setCore_ports (c : Nat) (v : CoreSt) : (s.setCore c v).ports = s.ports := (rfl)
@[simp] theorem State.setCore_planSet (c : Nat) (v : CoreSt) : (s.setCore c v).planSet = s.planSet := (rfl)
@[simp] theorem State.setCore_groups (c : Nat) (v : CoreSt) : (s.setCore c v).groups = s.groups := (rfl)
@[simp] theorem State.setCore_nets (c : Nat) (v : CoreSt) : (s.setCore c v).nets = s.nets := (rfl)
@[simp] theorem State.setCore_synBlocks (c : Nat) (v : CoreSt) : (s.setCore c v).synBlocks = s.synBlocks := (rfl)
@[simp] theorem State.setCore_fabric (c : Nat) (v : CoreSt) : (s.setCore c v).fabric = s.fabric := (rfl)
@[simp] theorem State.setCore_hbm (c : Nat) (v : CoreSt) : (s.setCore c v).hbm = s.hbm := (rfl)
@[simp] theorem State.setCore_hbmPages (c : Nat) (v : CoreSt) : (s.setCore c v).hbmPages = s.hbmPages := (rfl)
@[simp] theorem State.setCore_prefetched (c : Nat) (v : CoreSt) : (s.setCore c v).prefetched = s.prefetched := (rfl)
@[simp] theorem State.setCore_traceLog (c : Nat) (v : CoreSt) : (s.setCore c v).traceLog = s.traceLog := (rfl)
@[simp] theorem State.setCore_logDropped (c : Nat) (v : CoreSt) : (s.setCore c v).logDropped = s.logDropped := (rfl)
@[simp] theorem State.setCore_asm (c : Nat) (v : CoreSt) : (s.setCore c v).asm = s.asm := (rfl)
@[simp] theorem State.setCore_seam (c : Nat) (v : CoreSt) : (s.setCore c v).seam = s.seam := (rfl)
@[simp] theorem State.setCore_sump (c : Nat) (v : CoreSt) : (s.setCore c v).sump = s.sump := (rfl)
@[simp] theorem State.setCore_chisel (c : Nat) (v : CoreSt) : (s.setCore c v).chisel = s.chisel := (rfl)
@[simp] theorem State.setCore_tunnel (c : Nat) (v : CoreSt) : (s.setCore c v).tunnel = s.tunnel := (rfl)
@[simp] theorem State.setCore_power (c : Nat) (v : CoreSt) : (s.setCore c v).power = s.power := (rfl)
@[simp] theorem State.setCore_lantern (c : Nat) (v : CoreSt) : (s.setCore c v).lantern = s.lantern := (rfl)
@[simp] theorem State.setCore_test (c : Nat) (v : CoreSt) : (s.setCore c v).test = s.test := (rfl)
@[simp] theorem State.setCore_host (c : Nat) (v : CoreSt) : (s.setCore c v).host = s.host := (rfl)
@[simp] theorem State.setCore_hostMem (c : Nat) (v : CoreSt) : (s.setCore c v).hostMem = s.hostMem := (rfl)
@[simp] theorem State.setCore_alarmQ (c : Nat) (v : CoreSt) : (s.setCore c v).alarmQ = s.alarmQ := (rfl)
@[simp] theorem State.setCore_aseq (c : Nat) (v : CoreSt) : (s.setCore c v).aseq = s.aseq := (rfl)
@[simp] theorem State.setCore_alarmLost (c : Nat) (v : CoreSt) : (s.setCore c v).alarmLost = s.alarmLost := (rfl)

/-! ### setGrp writes `groups` alone -/

@[simp] theorem State.setGrp_pending (g : Nat) (v : GroupSt) : (s.setGrp g v).pending = s.pending := (rfl)
@[simp] theorem State.setGrp_free (g : Nat) (v : GroupSt) : (s.setGrp g v).free = s.free := (rfl)
@[simp] theorem State.setGrp_regs (g : Nat) (v : GroupSt) : (s.setGrp g v).regs = s.regs := (rfl)
@[simp] theorem State.setGrp_latchB (g : Nat) (v : GroupSt) : (s.setGrp g v).latchB = s.latchB := (rfl)
@[simp] theorem State.setGrp_latchM (g : Nat) (v : GroupSt) : (s.setGrp g v).latchM = s.latchM := (rfl)
@[simp] theorem State.setGrp_holdB (g : Nat) (v : GroupSt) : (s.setGrp g v).holdB = s.holdB := (rfl)
@[simp] theorem State.setGrp_holdM (g : Nat) (v : GroupSt) : (s.setGrp g v).holdM = s.holdM := (rfl)
@[simp] theorem State.setGrp_rdata (g : Nat) (v : GroupSt) : (s.setGrp g v).rdata = s.rdata := (rfl)
@[simp] theorem State.setGrp_faults (g : Nat) (v : GroupSt) : (s.setGrp g v).faults = s.faults := (rfl)
@[simp] theorem State.setGrp_streams (g : Nat) (v : GroupSt) : (s.setGrp g v).streams = s.streams := (rfl)
@[simp] theorem State.setGrp_ports (g : Nat) (v : GroupSt) : (s.setGrp g v).ports = s.ports := (rfl)
@[simp] theorem State.setGrp_planSet (g : Nat) (v : GroupSt) : (s.setGrp g v).planSet = s.planSet := (rfl)
@[simp] theorem State.setGrp_cores (g : Nat) (v : GroupSt) : (s.setGrp g v).cores = s.cores := (rfl)
@[simp] theorem State.setGrp_nets (g : Nat) (v : GroupSt) : (s.setGrp g v).nets = s.nets := (rfl)
@[simp] theorem State.setGrp_synBlocks (g : Nat) (v : GroupSt) : (s.setGrp g v).synBlocks = s.synBlocks := (rfl)
@[simp] theorem State.setGrp_fabric (g : Nat) (v : GroupSt) : (s.setGrp g v).fabric = s.fabric := (rfl)
@[simp] theorem State.setGrp_hbm (g : Nat) (v : GroupSt) : (s.setGrp g v).hbm = s.hbm := (rfl)
@[simp] theorem State.setGrp_hbmPages (g : Nat) (v : GroupSt) : (s.setGrp g v).hbmPages = s.hbmPages := (rfl)
@[simp] theorem State.setGrp_prefetched (g : Nat) (v : GroupSt) : (s.setGrp g v).prefetched = s.prefetched := (rfl)
@[simp] theorem State.setGrp_traceLog (g : Nat) (v : GroupSt) : (s.setGrp g v).traceLog = s.traceLog := (rfl)
@[simp] theorem State.setGrp_logDropped (g : Nat) (v : GroupSt) : (s.setGrp g v).logDropped = s.logDropped := (rfl)
@[simp] theorem State.setGrp_asm (g : Nat) (v : GroupSt) : (s.setGrp g v).asm = s.asm := (rfl)
@[simp] theorem State.setGrp_seam (g : Nat) (v : GroupSt) : (s.setGrp g v).seam = s.seam := (rfl)
@[simp] theorem State.setGrp_sump (g : Nat) (v : GroupSt) : (s.setGrp g v).sump = s.sump := (rfl)
@[simp] theorem State.setGrp_chisel (g : Nat) (v : GroupSt) : (s.setGrp g v).chisel = s.chisel := (rfl)
@[simp] theorem State.setGrp_tunnel (g : Nat) (v : GroupSt) : (s.setGrp g v).tunnel = s.tunnel := (rfl)
@[simp] theorem State.setGrp_power (g : Nat) (v : GroupSt) : (s.setGrp g v).power = s.power := (rfl)
@[simp] theorem State.setGrp_lantern (g : Nat) (v : GroupSt) : (s.setGrp g v).lantern = s.lantern := (rfl)
@[simp] theorem State.setGrp_test (g : Nat) (v : GroupSt) : (s.setGrp g v).test = s.test := (rfl)
@[simp] theorem State.setGrp_host (g : Nat) (v : GroupSt) : (s.setGrp g v).host = s.host := (rfl)
@[simp] theorem State.setGrp_hostMem (g : Nat) (v : GroupSt) : (s.setGrp g v).hostMem = s.hostMem := (rfl)
@[simp] theorem State.setGrp_alarmQ (g : Nat) (v : GroupSt) : (s.setGrp g v).alarmQ = s.alarmQ := (rfl)
@[simp] theorem State.setGrp_aseq (g : Nat) (v : GroupSt) : (s.setGrp g v).aseq = s.aseq := (rfl)
@[simp] theorem State.setGrp_alarmLost (g : Nat) (v : GroupSt) : (s.setGrp g v).alarmLost = s.alarmLost := (rfl)

/-! ### setNet writes `nets` alone -/

@[simp] theorem State.setNet_pending (n : Nat) (v : Net) : (s.setNet n v).pending = s.pending := (rfl)
@[simp] theorem State.setNet_free (n : Nat) (v : Net) : (s.setNet n v).free = s.free := (rfl)
@[simp] theorem State.setNet_regs (n : Nat) (v : Net) : (s.setNet n v).regs = s.regs := (rfl)
@[simp] theorem State.setNet_latchB (n : Nat) (v : Net) : (s.setNet n v).latchB = s.latchB := (rfl)
@[simp] theorem State.setNet_latchM (n : Nat) (v : Net) : (s.setNet n v).latchM = s.latchM := (rfl)
@[simp] theorem State.setNet_holdB (n : Nat) (v : Net) : (s.setNet n v).holdB = s.holdB := (rfl)
@[simp] theorem State.setNet_holdM (n : Nat) (v : Net) : (s.setNet n v).holdM = s.holdM := (rfl)
@[simp] theorem State.setNet_rdata (n : Nat) (v : Net) : (s.setNet n v).rdata = s.rdata := (rfl)
@[simp] theorem State.setNet_faults (n : Nat) (v : Net) : (s.setNet n v).faults = s.faults := (rfl)
@[simp] theorem State.setNet_streams (n : Nat) (v : Net) : (s.setNet n v).streams = s.streams := (rfl)
@[simp] theorem State.setNet_ports (n : Nat) (v : Net) : (s.setNet n v).ports = s.ports := (rfl)
@[simp] theorem State.setNet_planSet (n : Nat) (v : Net) : (s.setNet n v).planSet = s.planSet := (rfl)
@[simp] theorem State.setNet_cores (n : Nat) (v : Net) : (s.setNet n v).cores = s.cores := (rfl)
@[simp] theorem State.setNet_groups (n : Nat) (v : Net) : (s.setNet n v).groups = s.groups := (rfl)
@[simp] theorem State.setNet_synBlocks (n : Nat) (v : Net) : (s.setNet n v).synBlocks = s.synBlocks := (rfl)
@[simp] theorem State.setNet_fabric (n : Nat) (v : Net) : (s.setNet n v).fabric = s.fabric := (rfl)
@[simp] theorem State.setNet_hbm (n : Nat) (v : Net) : (s.setNet n v).hbm = s.hbm := (rfl)
@[simp] theorem State.setNet_hbmPages (n : Nat) (v : Net) : (s.setNet n v).hbmPages = s.hbmPages := (rfl)
@[simp] theorem State.setNet_prefetched (n : Nat) (v : Net) : (s.setNet n v).prefetched = s.prefetched := (rfl)
@[simp] theorem State.setNet_traceLog (n : Nat) (v : Net) : (s.setNet n v).traceLog = s.traceLog := (rfl)
@[simp] theorem State.setNet_logDropped (n : Nat) (v : Net) : (s.setNet n v).logDropped = s.logDropped := (rfl)
@[simp] theorem State.setNet_asm (n : Nat) (v : Net) : (s.setNet n v).asm = s.asm := (rfl)
@[simp] theorem State.setNet_seam (n : Nat) (v : Net) : (s.setNet n v).seam = s.seam := (rfl)
@[simp] theorem State.setNet_sump (n : Nat) (v : Net) : (s.setNet n v).sump = s.sump := (rfl)
@[simp] theorem State.setNet_chisel (n : Nat) (v : Net) : (s.setNet n v).chisel = s.chisel := (rfl)
@[simp] theorem State.setNet_tunnel (n : Nat) (v : Net) : (s.setNet n v).tunnel = s.tunnel := (rfl)
@[simp] theorem State.setNet_power (n : Nat) (v : Net) : (s.setNet n v).power = s.power := (rfl)
@[simp] theorem State.setNet_lantern (n : Nat) (v : Net) : (s.setNet n v).lantern = s.lantern := (rfl)
@[simp] theorem State.setNet_test (n : Nat) (v : Net) : (s.setNet n v).test = s.test := (rfl)
@[simp] theorem State.setNet_host (n : Nat) (v : Net) : (s.setNet n v).host = s.host := (rfl)
@[simp] theorem State.setNet_hostMem (n : Nat) (v : Net) : (s.setNet n v).hostMem = s.hostMem := (rfl)
@[simp] theorem State.setNet_alarmQ (n : Nat) (v : Net) : (s.setNet n v).alarmQ = s.alarmQ := (rfl)
@[simp] theorem State.setNet_aseq (n : Nat) (v : Net) : (s.setNet n v).aseq = s.aseq := (rfl)
@[simp] theorem State.setNet_alarmLost (n : Nat) (v : Net) : (s.setNet n v).alarmLost = s.alarmLost := (rfl)

/-! ### setChan writes `lantern` alone -/

@[simp] theorem State.setChan_pending (n : Nat) (c : ChanSt) : (s.setChan n c).pending = s.pending := (rfl)
@[simp] theorem State.setChan_free (n : Nat) (c : ChanSt) : (s.setChan n c).free = s.free := (rfl)
@[simp] theorem State.setChan_regs (n : Nat) (c : ChanSt) : (s.setChan n c).regs = s.regs := (rfl)
@[simp] theorem State.setChan_latchB (n : Nat) (c : ChanSt) : (s.setChan n c).latchB = s.latchB := (rfl)
@[simp] theorem State.setChan_latchM (n : Nat) (c : ChanSt) : (s.setChan n c).latchM = s.latchM := (rfl)
@[simp] theorem State.setChan_holdB (n : Nat) (c : ChanSt) : (s.setChan n c).holdB = s.holdB := (rfl)
@[simp] theorem State.setChan_holdM (n : Nat) (c : ChanSt) : (s.setChan n c).holdM = s.holdM := (rfl)
@[simp] theorem State.setChan_rdata (n : Nat) (c : ChanSt) : (s.setChan n c).rdata = s.rdata := (rfl)
@[simp] theorem State.setChan_faults (n : Nat) (c : ChanSt) : (s.setChan n c).faults = s.faults := (rfl)
@[simp] theorem State.setChan_streams (n : Nat) (c : ChanSt) : (s.setChan n c).streams = s.streams := (rfl)
@[simp] theorem State.setChan_ports (n : Nat) (c : ChanSt) : (s.setChan n c).ports = s.ports := (rfl)
@[simp] theorem State.setChan_planSet (n : Nat) (c : ChanSt) : (s.setChan n c).planSet = s.planSet := (rfl)
@[simp] theorem State.setChan_cores (n : Nat) (c : ChanSt) : (s.setChan n c).cores = s.cores := (rfl)
@[simp] theorem State.setChan_groups (n : Nat) (c : ChanSt) : (s.setChan n c).groups = s.groups := (rfl)
@[simp] theorem State.setChan_nets (n : Nat) (c : ChanSt) : (s.setChan n c).nets = s.nets := (rfl)
@[simp] theorem State.setChan_synBlocks (n : Nat) (c : ChanSt) : (s.setChan n c).synBlocks = s.synBlocks := (rfl)
@[simp] theorem State.setChan_fabric (n : Nat) (c : ChanSt) : (s.setChan n c).fabric = s.fabric := (rfl)
@[simp] theorem State.setChan_hbm (n : Nat) (c : ChanSt) : (s.setChan n c).hbm = s.hbm := (rfl)
@[simp] theorem State.setChan_hbmPages (n : Nat) (c : ChanSt) : (s.setChan n c).hbmPages = s.hbmPages := (rfl)
@[simp] theorem State.setChan_prefetched (n : Nat) (c : ChanSt) : (s.setChan n c).prefetched = s.prefetched := (rfl)
@[simp] theorem State.setChan_traceLog (n : Nat) (c : ChanSt) : (s.setChan n c).traceLog = s.traceLog := (rfl)
@[simp] theorem State.setChan_logDropped (n : Nat) (c : ChanSt) : (s.setChan n c).logDropped = s.logDropped := (rfl)
@[simp] theorem State.setChan_asm (n : Nat) (c : ChanSt) : (s.setChan n c).asm = s.asm := (rfl)
@[simp] theorem State.setChan_seam (n : Nat) (c : ChanSt) : (s.setChan n c).seam = s.seam := (rfl)
@[simp] theorem State.setChan_sump (n : Nat) (c : ChanSt) : (s.setChan n c).sump = s.sump := (rfl)
@[simp] theorem State.setChan_chisel (n : Nat) (c : ChanSt) : (s.setChan n c).chisel = s.chisel := (rfl)
@[simp] theorem State.setChan_tunnel (n : Nat) (c : ChanSt) : (s.setChan n c).tunnel = s.tunnel := (rfl)
@[simp] theorem State.setChan_power (n : Nat) (c : ChanSt) : (s.setChan n c).power = s.power := (rfl)
@[simp] theorem State.setChan_test (n : Nat) (c : ChanSt) : (s.setChan n c).test = s.test := (rfl)
@[simp] theorem State.setChan_host (n : Nat) (c : ChanSt) : (s.setChan n c).host = s.host := (rfl)
@[simp] theorem State.setChan_hostMem (n : Nat) (c : ChanSt) : (s.setChan n c).hostMem = s.hostMem := (rfl)
@[simp] theorem State.setChan_alarmQ (n : Nat) (c : ChanSt) : (s.setChan n c).alarmQ = s.alarmQ := (rfl)
@[simp] theorem State.setChan_aseq (n : Nat) (c : ChanSt) : (s.setChan n c).aseq = s.aseq := (rfl)
@[simp] theorem State.setChan_alarmLost (n : Nat) (c : ChanSt) : (s.setChan n c).alarmLost = s.alarmLost := (rfl)

/-! ### setDie writes `seam` alone -/

@[simp] theorem State.setDie_pending (k : Nat) (v : DieSt) : (s.setDie k v).pending = s.pending := (rfl)
@[simp] theorem State.setDie_free (k : Nat) (v : DieSt) : (s.setDie k v).free = s.free := (rfl)
@[simp] theorem State.setDie_regs (k : Nat) (v : DieSt) : (s.setDie k v).regs = s.regs := (rfl)
@[simp] theorem State.setDie_latchB (k : Nat) (v : DieSt) : (s.setDie k v).latchB = s.latchB := (rfl)
@[simp] theorem State.setDie_latchM (k : Nat) (v : DieSt) : (s.setDie k v).latchM = s.latchM := (rfl)
@[simp] theorem State.setDie_holdB (k : Nat) (v : DieSt) : (s.setDie k v).holdB = s.holdB := (rfl)
@[simp] theorem State.setDie_holdM (k : Nat) (v : DieSt) : (s.setDie k v).holdM = s.holdM := (rfl)
@[simp] theorem State.setDie_rdata (k : Nat) (v : DieSt) : (s.setDie k v).rdata = s.rdata := (rfl)
@[simp] theorem State.setDie_faults (k : Nat) (v : DieSt) : (s.setDie k v).faults = s.faults := (rfl)
@[simp] theorem State.setDie_streams (k : Nat) (v : DieSt) : (s.setDie k v).streams = s.streams := (rfl)
@[simp] theorem State.setDie_ports (k : Nat) (v : DieSt) : (s.setDie k v).ports = s.ports := (rfl)
@[simp] theorem State.setDie_planSet (k : Nat) (v : DieSt) : (s.setDie k v).planSet = s.planSet := (rfl)
@[simp] theorem State.setDie_cores (k : Nat) (v : DieSt) : (s.setDie k v).cores = s.cores := (rfl)
@[simp] theorem State.setDie_groups (k : Nat) (v : DieSt) : (s.setDie k v).groups = s.groups := (rfl)
@[simp] theorem State.setDie_nets (k : Nat) (v : DieSt) : (s.setDie k v).nets = s.nets := (rfl)
@[simp] theorem State.setDie_synBlocks (k : Nat) (v : DieSt) : (s.setDie k v).synBlocks = s.synBlocks := (rfl)
@[simp] theorem State.setDie_fabric (k : Nat) (v : DieSt) : (s.setDie k v).fabric = s.fabric := (rfl)
@[simp] theorem State.setDie_hbm (k : Nat) (v : DieSt) : (s.setDie k v).hbm = s.hbm := (rfl)
@[simp] theorem State.setDie_hbmPages (k : Nat) (v : DieSt) : (s.setDie k v).hbmPages = s.hbmPages := (rfl)
@[simp] theorem State.setDie_prefetched (k : Nat) (v : DieSt) : (s.setDie k v).prefetched = s.prefetched := (rfl)
@[simp] theorem State.setDie_traceLog (k : Nat) (v : DieSt) : (s.setDie k v).traceLog = s.traceLog := (rfl)
@[simp] theorem State.setDie_logDropped (k : Nat) (v : DieSt) : (s.setDie k v).logDropped = s.logDropped := (rfl)
@[simp] theorem State.setDie_asm (k : Nat) (v : DieSt) : (s.setDie k v).asm = s.asm := (rfl)
@[simp] theorem State.setDie_sump (k : Nat) (v : DieSt) : (s.setDie k v).sump = s.sump := (rfl)
@[simp] theorem State.setDie_chisel (k : Nat) (v : DieSt) : (s.setDie k v).chisel = s.chisel := (rfl)
@[simp] theorem State.setDie_tunnel (k : Nat) (v : DieSt) : (s.setDie k v).tunnel = s.tunnel := (rfl)
@[simp] theorem State.setDie_power (k : Nat) (v : DieSt) : (s.setDie k v).power = s.power := (rfl)
@[simp] theorem State.setDie_lantern (k : Nat) (v : DieSt) : (s.setDie k v).lantern = s.lantern := (rfl)
@[simp] theorem State.setDie_test (k : Nat) (v : DieSt) : (s.setDie k v).test = s.test := (rfl)
@[simp] theorem State.setDie_host (k : Nat) (v : DieSt) : (s.setDie k v).host = s.host := (rfl)
@[simp] theorem State.setDie_hostMem (k : Nat) (v : DieSt) : (s.setDie k v).hostMem = s.hostMem := (rfl)
@[simp] theorem State.setDie_alarmQ (k : Nat) (v : DieSt) : (s.setDie k v).alarmQ = s.alarmQ := (rfl)
@[simp] theorem State.setDie_aseq (k : Nat) (v : DieSt) : (s.setDie k v).aseq = s.aseq := (rfl)
@[simp] theorem State.setDie_alarmLost (k : Nat) (v : DieSt) : (s.setDie k v).alarmLost = s.alarmLost := (rfl)

/-! ### putBench writes `seam` alone -/

@[simp] theorem State.putBench_pending (k j : Nat) (v : BenchSt) : (s.putBench k j v).pending = s.pending := (rfl)
@[simp] theorem State.putBench_free (k j : Nat) (v : BenchSt) : (s.putBench k j v).free = s.free := (rfl)
@[simp] theorem State.putBench_regs (k j : Nat) (v : BenchSt) : (s.putBench k j v).regs = s.regs := (rfl)
@[simp] theorem State.putBench_latchB (k j : Nat) (v : BenchSt) : (s.putBench k j v).latchB = s.latchB := (rfl)
@[simp] theorem State.putBench_latchM (k j : Nat) (v : BenchSt) : (s.putBench k j v).latchM = s.latchM := (rfl)
@[simp] theorem State.putBench_holdB (k j : Nat) (v : BenchSt) : (s.putBench k j v).holdB = s.holdB := (rfl)
@[simp] theorem State.putBench_holdM (k j : Nat) (v : BenchSt) : (s.putBench k j v).holdM = s.holdM := (rfl)
@[simp] theorem State.putBench_rdata (k j : Nat) (v : BenchSt) : (s.putBench k j v).rdata = s.rdata := (rfl)
@[simp] theorem State.putBench_faults (k j : Nat) (v : BenchSt) : (s.putBench k j v).faults = s.faults := (rfl)
@[simp] theorem State.putBench_streams (k j : Nat) (v : BenchSt) : (s.putBench k j v).streams = s.streams := (rfl)
@[simp] theorem State.putBench_ports (k j : Nat) (v : BenchSt) : (s.putBench k j v).ports = s.ports := (rfl)
@[simp] theorem State.putBench_planSet (k j : Nat) (v : BenchSt) : (s.putBench k j v).planSet = s.planSet := (rfl)
@[simp] theorem State.putBench_cores (k j : Nat) (v : BenchSt) : (s.putBench k j v).cores = s.cores := (rfl)
@[simp] theorem State.putBench_groups (k j : Nat) (v : BenchSt) : (s.putBench k j v).groups = s.groups := (rfl)
@[simp] theorem State.putBench_nets (k j : Nat) (v : BenchSt) : (s.putBench k j v).nets = s.nets := (rfl)
@[simp] theorem State.putBench_synBlocks (k j : Nat) (v : BenchSt) : (s.putBench k j v).synBlocks = s.synBlocks := (rfl)
@[simp] theorem State.putBench_fabric (k j : Nat) (v : BenchSt) : (s.putBench k j v).fabric = s.fabric := (rfl)
@[simp] theorem State.putBench_hbm (k j : Nat) (v : BenchSt) : (s.putBench k j v).hbm = s.hbm := (rfl)
@[simp] theorem State.putBench_hbmPages (k j : Nat) (v : BenchSt) : (s.putBench k j v).hbmPages = s.hbmPages := (rfl)
@[simp] theorem State.putBench_prefetched (k j : Nat) (v : BenchSt) : (s.putBench k j v).prefetched = s.prefetched := (rfl)
@[simp] theorem State.putBench_traceLog (k j : Nat) (v : BenchSt) : (s.putBench k j v).traceLog = s.traceLog := (rfl)
@[simp] theorem State.putBench_logDropped (k j : Nat) (v : BenchSt) : (s.putBench k j v).logDropped = s.logDropped := (rfl)
@[simp] theorem State.putBench_asm (k j : Nat) (v : BenchSt) : (s.putBench k j v).asm = s.asm := (rfl)
@[simp] theorem State.putBench_sump (k j : Nat) (v : BenchSt) : (s.putBench k j v).sump = s.sump := (rfl)
@[simp] theorem State.putBench_chisel (k j : Nat) (v : BenchSt) : (s.putBench k j v).chisel = s.chisel := (rfl)
@[simp] theorem State.putBench_tunnel (k j : Nat) (v : BenchSt) : (s.putBench k j v).tunnel = s.tunnel := (rfl)
@[simp] theorem State.putBench_power (k j : Nat) (v : BenchSt) : (s.putBench k j v).power = s.power := (rfl)
@[simp] theorem State.putBench_lantern (k j : Nat) (v : BenchSt) : (s.putBench k j v).lantern = s.lantern := (rfl)
@[simp] theorem State.putBench_test (k j : Nat) (v : BenchSt) : (s.putBench k j v).test = s.test := (rfl)
@[simp] theorem State.putBench_host (k j : Nat) (v : BenchSt) : (s.putBench k j v).host = s.host := (rfl)
@[simp] theorem State.putBench_hostMem (k j : Nat) (v : BenchSt) : (s.putBench k j v).hostMem = s.hostMem := (rfl)
@[simp] theorem State.putBench_alarmQ (k j : Nat) (v : BenchSt) : (s.putBench k j v).alarmQ = s.alarmQ := (rfl)
@[simp] theorem State.putBench_aseq (k j : Nat) (v : BenchSt) : (s.putBench k j v).aseq = s.aseq := (rfl)
@[simp] theorem State.putBench_alarmLost (k j : Nat) (v : BenchSt) : (s.putBench k j v).alarmLost = s.alarmLost := (rfl)

/-! ### setTile writes `seam` alone -/

@[simp] theorem State.setTile_pending (k p : Nat) (v : TileSt) : (s.setTile k p v).pending = s.pending := (rfl)
@[simp] theorem State.setTile_free (k p : Nat) (v : TileSt) : (s.setTile k p v).free = s.free := (rfl)
@[simp] theorem State.setTile_regs (k p : Nat) (v : TileSt) : (s.setTile k p v).regs = s.regs := (rfl)
@[simp] theorem State.setTile_latchB (k p : Nat) (v : TileSt) : (s.setTile k p v).latchB = s.latchB := (rfl)
@[simp] theorem State.setTile_latchM (k p : Nat) (v : TileSt) : (s.setTile k p v).latchM = s.latchM := (rfl)
@[simp] theorem State.setTile_holdB (k p : Nat) (v : TileSt) : (s.setTile k p v).holdB = s.holdB := (rfl)
@[simp] theorem State.setTile_holdM (k p : Nat) (v : TileSt) : (s.setTile k p v).holdM = s.holdM := (rfl)
@[simp] theorem State.setTile_rdata (k p : Nat) (v : TileSt) : (s.setTile k p v).rdata = s.rdata := (rfl)
@[simp] theorem State.setTile_faults (k p : Nat) (v : TileSt) : (s.setTile k p v).faults = s.faults := (rfl)
@[simp] theorem State.setTile_streams (k p : Nat) (v : TileSt) : (s.setTile k p v).streams = s.streams := (rfl)
@[simp] theorem State.setTile_ports (k p : Nat) (v : TileSt) : (s.setTile k p v).ports = s.ports := (rfl)
@[simp] theorem State.setTile_planSet (k p : Nat) (v : TileSt) : (s.setTile k p v).planSet = s.planSet := (rfl)
@[simp] theorem State.setTile_cores (k p : Nat) (v : TileSt) : (s.setTile k p v).cores = s.cores := (rfl)
@[simp] theorem State.setTile_groups (k p : Nat) (v : TileSt) : (s.setTile k p v).groups = s.groups := (rfl)
@[simp] theorem State.setTile_nets (k p : Nat) (v : TileSt) : (s.setTile k p v).nets = s.nets := (rfl)
@[simp] theorem State.setTile_synBlocks (k p : Nat) (v : TileSt) : (s.setTile k p v).synBlocks = s.synBlocks := (rfl)
@[simp] theorem State.setTile_fabric (k p : Nat) (v : TileSt) : (s.setTile k p v).fabric = s.fabric := (rfl)
@[simp] theorem State.setTile_hbm (k p : Nat) (v : TileSt) : (s.setTile k p v).hbm = s.hbm := (rfl)
@[simp] theorem State.setTile_hbmPages (k p : Nat) (v : TileSt) : (s.setTile k p v).hbmPages = s.hbmPages := (rfl)
@[simp] theorem State.setTile_prefetched (k p : Nat) (v : TileSt) : (s.setTile k p v).prefetched = s.prefetched := (rfl)
@[simp] theorem State.setTile_traceLog (k p : Nat) (v : TileSt) : (s.setTile k p v).traceLog = s.traceLog := (rfl)
@[simp] theorem State.setTile_logDropped (k p : Nat) (v : TileSt) : (s.setTile k p v).logDropped = s.logDropped := (rfl)
@[simp] theorem State.setTile_asm (k p : Nat) (v : TileSt) : (s.setTile k p v).asm = s.asm := (rfl)
@[simp] theorem State.setTile_sump (k p : Nat) (v : TileSt) : (s.setTile k p v).sump = s.sump := (rfl)
@[simp] theorem State.setTile_chisel (k p : Nat) (v : TileSt) : (s.setTile k p v).chisel = s.chisel := (rfl)
@[simp] theorem State.setTile_tunnel (k p : Nat) (v : TileSt) : (s.setTile k p v).tunnel = s.tunnel := (rfl)
@[simp] theorem State.setTile_power (k p : Nat) (v : TileSt) : (s.setTile k p v).power = s.power := (rfl)
@[simp] theorem State.setTile_lantern (k p : Nat) (v : TileSt) : (s.setTile k p v).lantern = s.lantern := (rfl)
@[simp] theorem State.setTile_test (k p : Nat) (v : TileSt) : (s.setTile k p v).test = s.test := (rfl)
@[simp] theorem State.setTile_host (k p : Nat) (v : TileSt) : (s.setTile k p v).host = s.host := (rfl)
@[simp] theorem State.setTile_hostMem (k p : Nat) (v : TileSt) : (s.setTile k p v).hostMem = s.hostMem := (rfl)
@[simp] theorem State.setTile_alarmQ (k p : Nat) (v : TileSt) : (s.setTile k p v).alarmQ = s.alarmQ := (rfl)
@[simp] theorem State.setTile_aseq (k p : Nat) (v : TileSt) : (s.setTile k p v).aseq = s.aseq := (rfl)
@[simp] theorem State.setTile_alarmLost (k p : Nat) (v : TileSt) : (s.setTile k p v).alarmLost = s.alarmLost := (rfl)

/-! ### setLib writes `sump` alone -/

@[simp] theorem State.setLib_pending (l : Nat) (v : LibSt) : (s.setLib l v).pending = s.pending := (rfl)
@[simp] theorem State.setLib_free (l : Nat) (v : LibSt) : (s.setLib l v).free = s.free := (rfl)
@[simp] theorem State.setLib_regs (l : Nat) (v : LibSt) : (s.setLib l v).regs = s.regs := (rfl)
@[simp] theorem State.setLib_latchB (l : Nat) (v : LibSt) : (s.setLib l v).latchB = s.latchB := (rfl)
@[simp] theorem State.setLib_latchM (l : Nat) (v : LibSt) : (s.setLib l v).latchM = s.latchM := (rfl)
@[simp] theorem State.setLib_holdB (l : Nat) (v : LibSt) : (s.setLib l v).holdB = s.holdB := (rfl)
@[simp] theorem State.setLib_holdM (l : Nat) (v : LibSt) : (s.setLib l v).holdM = s.holdM := (rfl)
@[simp] theorem State.setLib_rdata (l : Nat) (v : LibSt) : (s.setLib l v).rdata = s.rdata := (rfl)
@[simp] theorem State.setLib_faults (l : Nat) (v : LibSt) : (s.setLib l v).faults = s.faults := (rfl)
@[simp] theorem State.setLib_streams (l : Nat) (v : LibSt) : (s.setLib l v).streams = s.streams := (rfl)
@[simp] theorem State.setLib_ports (l : Nat) (v : LibSt) : (s.setLib l v).ports = s.ports := (rfl)
@[simp] theorem State.setLib_planSet (l : Nat) (v : LibSt) : (s.setLib l v).planSet = s.planSet := (rfl)
@[simp] theorem State.setLib_cores (l : Nat) (v : LibSt) : (s.setLib l v).cores = s.cores := (rfl)
@[simp] theorem State.setLib_groups (l : Nat) (v : LibSt) : (s.setLib l v).groups = s.groups := (rfl)
@[simp] theorem State.setLib_nets (l : Nat) (v : LibSt) : (s.setLib l v).nets = s.nets := (rfl)
@[simp] theorem State.setLib_synBlocks (l : Nat) (v : LibSt) : (s.setLib l v).synBlocks = s.synBlocks := (rfl)
@[simp] theorem State.setLib_fabric (l : Nat) (v : LibSt) : (s.setLib l v).fabric = s.fabric := (rfl)
@[simp] theorem State.setLib_hbm (l : Nat) (v : LibSt) : (s.setLib l v).hbm = s.hbm := (rfl)
@[simp] theorem State.setLib_hbmPages (l : Nat) (v : LibSt) : (s.setLib l v).hbmPages = s.hbmPages := (rfl)
@[simp] theorem State.setLib_prefetched (l : Nat) (v : LibSt) : (s.setLib l v).prefetched = s.prefetched := (rfl)
@[simp] theorem State.setLib_traceLog (l : Nat) (v : LibSt) : (s.setLib l v).traceLog = s.traceLog := (rfl)
@[simp] theorem State.setLib_logDropped (l : Nat) (v : LibSt) : (s.setLib l v).logDropped = s.logDropped := (rfl)
@[simp] theorem State.setLib_asm (l : Nat) (v : LibSt) : (s.setLib l v).asm = s.asm := (rfl)
@[simp] theorem State.setLib_seam (l : Nat) (v : LibSt) : (s.setLib l v).seam = s.seam := (rfl)
@[simp] theorem State.setLib_chisel (l : Nat) (v : LibSt) : (s.setLib l v).chisel = s.chisel := (rfl)
@[simp] theorem State.setLib_tunnel (l : Nat) (v : LibSt) : (s.setLib l v).tunnel = s.tunnel := (rfl)
@[simp] theorem State.setLib_power (l : Nat) (v : LibSt) : (s.setLib l v).power = s.power := (rfl)
@[simp] theorem State.setLib_lantern (l : Nat) (v : LibSt) : (s.setLib l v).lantern = s.lantern := (rfl)
@[simp] theorem State.setLib_test (l : Nat) (v : LibSt) : (s.setLib l v).test = s.test := (rfl)
@[simp] theorem State.setLib_host (l : Nat) (v : LibSt) : (s.setLib l v).host = s.host := (rfl)
@[simp] theorem State.setLib_hostMem (l : Nat) (v : LibSt) : (s.setLib l v).hostMem = s.hostMem := (rfl)
@[simp] theorem State.setLib_alarmQ (l : Nat) (v : LibSt) : (s.setLib l v).alarmQ = s.alarmQ := (rfl)
@[simp] theorem State.setLib_aseq (l : Nat) (v : LibSt) : (s.setLib l v).aseq = s.aseq := (rfl)
@[simp] theorem State.setLib_alarmLost (l : Nat) (v : LibSt) : (s.setLib l v).alarmLost = s.alarmLost := (rfl)

/-! ### setReq writes `sump` alone -/

@[simp] theorem State.setReq_pending (r : Request) : (s.setReq r).pending = s.pending := (rfl)
@[simp] theorem State.setReq_free (r : Request) : (s.setReq r).free = s.free := (rfl)
@[simp] theorem State.setReq_regs (r : Request) : (s.setReq r).regs = s.regs := (rfl)
@[simp] theorem State.setReq_latchB (r : Request) : (s.setReq r).latchB = s.latchB := (rfl)
@[simp] theorem State.setReq_latchM (r : Request) : (s.setReq r).latchM = s.latchM := (rfl)
@[simp] theorem State.setReq_holdB (r : Request) : (s.setReq r).holdB = s.holdB := (rfl)
@[simp] theorem State.setReq_holdM (r : Request) : (s.setReq r).holdM = s.holdM := (rfl)
@[simp] theorem State.setReq_rdata (r : Request) : (s.setReq r).rdata = s.rdata := (rfl)
@[simp] theorem State.setReq_faults (r : Request) : (s.setReq r).faults = s.faults := (rfl)
@[simp] theorem State.setReq_streams (r : Request) : (s.setReq r).streams = s.streams := (rfl)
@[simp] theorem State.setReq_ports (r : Request) : (s.setReq r).ports = s.ports := (rfl)
@[simp] theorem State.setReq_planSet (r : Request) : (s.setReq r).planSet = s.planSet := (rfl)
@[simp] theorem State.setReq_cores (r : Request) : (s.setReq r).cores = s.cores := (rfl)
@[simp] theorem State.setReq_groups (r : Request) : (s.setReq r).groups = s.groups := (rfl)
@[simp] theorem State.setReq_nets (r : Request) : (s.setReq r).nets = s.nets := (rfl)
@[simp] theorem State.setReq_synBlocks (r : Request) : (s.setReq r).synBlocks = s.synBlocks := (rfl)
@[simp] theorem State.setReq_fabric (r : Request) : (s.setReq r).fabric = s.fabric := (rfl)
@[simp] theorem State.setReq_hbm (r : Request) : (s.setReq r).hbm = s.hbm := (rfl)
@[simp] theorem State.setReq_hbmPages (r : Request) : (s.setReq r).hbmPages = s.hbmPages := (rfl)
@[simp] theorem State.setReq_prefetched (r : Request) : (s.setReq r).prefetched = s.prefetched := (rfl)
@[simp] theorem State.setReq_traceLog (r : Request) : (s.setReq r).traceLog = s.traceLog := (rfl)
@[simp] theorem State.setReq_logDropped (r : Request) : (s.setReq r).logDropped = s.logDropped := (rfl)
@[simp] theorem State.setReq_asm (r : Request) : (s.setReq r).asm = s.asm := (rfl)
@[simp] theorem State.setReq_seam (r : Request) : (s.setReq r).seam = s.seam := (rfl)
@[simp] theorem State.setReq_chisel (r : Request) : (s.setReq r).chisel = s.chisel := (rfl)
@[simp] theorem State.setReq_tunnel (r : Request) : (s.setReq r).tunnel = s.tunnel := (rfl)
@[simp] theorem State.setReq_power (r : Request) : (s.setReq r).power = s.power := (rfl)
@[simp] theorem State.setReq_lantern (r : Request) : (s.setReq r).lantern = s.lantern := (rfl)
@[simp] theorem State.setReq_test (r : Request) : (s.setReq r).test = s.test := (rfl)
@[simp] theorem State.setReq_host (r : Request) : (s.setReq r).host = s.host := (rfl)
@[simp] theorem State.setReq_hostMem (r : Request) : (s.setReq r).hostMem = s.hostMem := (rfl)
@[simp] theorem State.setReq_alarmQ (r : Request) : (s.setReq r).alarmQ = s.alarmQ := (rfl)
@[simp] theorem State.setReq_aseq (r : Request) : (s.setReq r).aseq = s.aseq := (rfl)
@[simp] theorem State.setReq_alarmLost (r : Request) : (s.setReq r).alarmLost = s.alarmLost := (rfl)

/-! ### setTPort writes `tunnel` alone -/

@[simp] theorem State.setTPort_pending (p : Nat) (v : TPortSt) : (s.setTPort p v).pending = s.pending := (rfl)
@[simp] theorem State.setTPort_free (p : Nat) (v : TPortSt) : (s.setTPort p v).free = s.free := (rfl)
@[simp] theorem State.setTPort_regs (p : Nat) (v : TPortSt) : (s.setTPort p v).regs = s.regs := (rfl)
@[simp] theorem State.setTPort_latchB (p : Nat) (v : TPortSt) : (s.setTPort p v).latchB = s.latchB := (rfl)
@[simp] theorem State.setTPort_latchM (p : Nat) (v : TPortSt) : (s.setTPort p v).latchM = s.latchM := (rfl)
@[simp] theorem State.setTPort_holdB (p : Nat) (v : TPortSt) : (s.setTPort p v).holdB = s.holdB := (rfl)
@[simp] theorem State.setTPort_holdM (p : Nat) (v : TPortSt) : (s.setTPort p v).holdM = s.holdM := (rfl)
@[simp] theorem State.setTPort_rdata (p : Nat) (v : TPortSt) : (s.setTPort p v).rdata = s.rdata := (rfl)
@[simp] theorem State.setTPort_faults (p : Nat) (v : TPortSt) : (s.setTPort p v).faults = s.faults := (rfl)
@[simp] theorem State.setTPort_streams (p : Nat) (v : TPortSt) : (s.setTPort p v).streams = s.streams := (rfl)
@[simp] theorem State.setTPort_ports (p : Nat) (v : TPortSt) : (s.setTPort p v).ports = s.ports := (rfl)
@[simp] theorem State.setTPort_planSet (p : Nat) (v : TPortSt) : (s.setTPort p v).planSet = s.planSet := (rfl)
@[simp] theorem State.setTPort_cores (p : Nat) (v : TPortSt) : (s.setTPort p v).cores = s.cores := (rfl)
@[simp] theorem State.setTPort_groups (p : Nat) (v : TPortSt) : (s.setTPort p v).groups = s.groups := (rfl)
@[simp] theorem State.setTPort_nets (p : Nat) (v : TPortSt) : (s.setTPort p v).nets = s.nets := (rfl)
@[simp] theorem State.setTPort_synBlocks (p : Nat) (v : TPortSt) : (s.setTPort p v).synBlocks = s.synBlocks := (rfl)
@[simp] theorem State.setTPort_fabric (p : Nat) (v : TPortSt) : (s.setTPort p v).fabric = s.fabric := (rfl)
@[simp] theorem State.setTPort_hbm (p : Nat) (v : TPortSt) : (s.setTPort p v).hbm = s.hbm := (rfl)
@[simp] theorem State.setTPort_hbmPages (p : Nat) (v : TPortSt) : (s.setTPort p v).hbmPages = s.hbmPages := (rfl)
@[simp] theorem State.setTPort_prefetched (p : Nat) (v : TPortSt) : (s.setTPort p v).prefetched = s.prefetched := (rfl)
@[simp] theorem State.setTPort_traceLog (p : Nat) (v : TPortSt) : (s.setTPort p v).traceLog = s.traceLog := (rfl)
@[simp] theorem State.setTPort_logDropped (p : Nat) (v : TPortSt) : (s.setTPort p v).logDropped = s.logDropped := (rfl)
@[simp] theorem State.setTPort_asm (p : Nat) (v : TPortSt) : (s.setTPort p v).asm = s.asm := (rfl)
@[simp] theorem State.setTPort_seam (p : Nat) (v : TPortSt) : (s.setTPort p v).seam = s.seam := (rfl)
@[simp] theorem State.setTPort_sump (p : Nat) (v : TPortSt) : (s.setTPort p v).sump = s.sump := (rfl)
@[simp] theorem State.setTPort_chisel (p : Nat) (v : TPortSt) : (s.setTPort p v).chisel = s.chisel := (rfl)
@[simp] theorem State.setTPort_power (p : Nat) (v : TPortSt) : (s.setTPort p v).power = s.power := (rfl)
@[simp] theorem State.setTPort_lantern (p : Nat) (v : TPortSt) : (s.setTPort p v).lantern = s.lantern := (rfl)
@[simp] theorem State.setTPort_test (p : Nat) (v : TPortSt) : (s.setTPort p v).test = s.test := (rfl)
@[simp] theorem State.setTPort_host (p : Nat) (v : TPortSt) : (s.setTPort p v).host = s.host := (rfl)
@[simp] theorem State.setTPort_hostMem (p : Nat) (v : TPortSt) : (s.setTPort p v).hostMem = s.hostMem := (rfl)
@[simp] theorem State.setTPort_alarmQ (p : Nat) (v : TPortSt) : (s.setTPort p v).alarmQ = s.alarmQ := (rfl)
@[simp] theorem State.setTPort_aseq (p : Nat) (v : TPortSt) : (s.setTPort p v).aseq = s.aseq := (rfl)
@[simp] theorem State.setTPort_alarmLost (p : Nat) (v : TPortSt) : (s.setTPort p v).alarmLost = s.alarmLost := (rfl)
/-! ### Bits of a field -/

theorem getLsbD_fieldMask (lo w i : Nat) : (BitVec.ofNat 32 ((2 ^ w - 1) * 2 ^ lo)).getLsbD i = (decide (i < 32) && decide (lo ≤ i ∧ i < lo + w)) := by
  rw [BitVec.getLsbD_ofNat, Nat.mul_comm, Nat.testBit_two_pow_mul, Nat.testBit_two_pow_sub_one]
  by_cases h1 : i < 32 <;> by_cases h2 : lo ≤ i <;> simp [h1, h2]
  omega

theorem getLsbD_fieldValue (lo w v i : Nat) :
    (BitVec.ofNat 32 (v % 2 ^ w * 2 ^ lo)).getLsbD i = (decide (i < 32) && decide (lo ≤ i ∧ i < lo + w) && v.testBit (i - lo)) := by
  rw [BitVec.getLsbD_ofNat, Nat.mul_comm, Nat.testBit_two_pow_mul, Nat.testBit_mod_two_pow]
  by_cases h1 : i < 32 <;> by_cases h2 : lo ≤ i <;> simp [h1, h2]
  by_cases h3 : i < lo + w
  · have : i - lo < w := by omega
    simp [h3, this]
  · have : ¬ i - lo < w := by omega
    simp [h3, this]

/-- A bit of a word after a field of it is written: the field's bits come from the value, the others stay. -/
theorem getLsbD_putField (x : Word) (lo w v i : Nat) :
    (putField x lo w v).getLsbD i = if i < 32 ∧ lo ≤ i ∧ i < lo + w then v.testBit (i - lo) else x.getLsbD i := by
  unfold putField
  rw [BitVec.getLsbD_or, BitVec.getLsbD_and, BitVec.getLsbD_not, getLsbD_fieldMask, getLsbD_fieldValue]
  by_cases h1 : i < 32
  · by_cases h2 : lo ≤ i ∧ i < lo + w <;> simp [h1, h2]
  · simp [h1, BitVec.getLsbD_of_ge x i (by omega)]

/-- The written field reads as the value's low bits. -/
theorem extract_putField_same (x : Word) (lo w v : Nat) (h : lo + w ≤ 32) : ((putField x lo w v).extractLsb' lo w).toNat = v % 2 ^ w := by
  apply Nat.eq_of_testBit_eq
  intro i
  rw [BitVec.testBit_toNat, BitVec.getLsbD_extractLsb', getLsbD_putField, Nat.testBit_mod_two_pow]
  by_cases hi : i < w
  · have h1 : lo + i < 32 := by omega
    have h2 : lo ≤ lo + i ∧ lo + i < lo + w := by omega
    simp [hi, h1, h2]
  · simp [hi]

/-- A field that shares no bit with the written one reads as before. -/
theorem extract_putField_apart (x : Word) (lo w v lo' w' : Nat) (h : lo' + w' ≤ lo ∨ lo + w ≤ lo') :
    (putField x lo w v).extractLsb' lo' w' = x.extractLsb' lo' w' := by
  apply BitVec.eq_of_getLsbD_eq
  intro i hi
  rw [BitVec.getLsbD_extractLsb', BitVec.getLsbD_extractLsb', getLsbD_putField]
  by_cases hw : i < w'
  · rw [if_neg (by omega)]
  · simp [hw]

/-! ### Registers and fields after their writes -/

theorem State.reg_setReg (a b : Nat) (v : Word) : (s.setReg a v).reg b = if b = a then v else s.reg b := tget_tset _ _ _ _ _

@[simp] theorem State.reg_setReg_same (a : Nat) (v : Word) : (s.setReg a v).reg a = v := tget_tset_same _ _ _ _

theorem State.reg_setReg_ne {a b : Nat} (v : Word) (h : b ≠ a) : (s.setReg a v).reg b = s.reg b := tget_tset_ne _ _ _ h

theorem State.reg_setFld_ne (f : Fld) (v : Nat) {a : Nat} (h : a ≠ f.addr) : (s.setFld f v).reg a = s.reg a := reg_setReg_ne s _ h

theorem State.reg_setBit_ne (f : Fld) (b : Bool) {a : Nat} (h : a ≠ f.addr) : (s.setBit f b).reg a = s.reg a := reg_setReg_ne s _ h

theorem State.reg_bump_ne (f : Fld) (n : Nat) {a : Nat} (h : a ≠ f.addr) : (s.bump f n).reg a = s.reg a := reg_setReg_ne s _ h

theorem State.reg_setRegBit_ne (c i : Nat) (b : Bool) {a : Nat} (h : a ≠ c) : (s.setRegBit c i b).reg a = s.reg a := reg_setReg_ne s _ h

theorem State.reg_set64_ne (c v : Nat) {a : Nat} (h : a ≠ c) (h' : a ≠ c + 4) : (s.set64 c v).reg a = s.reg a := by
  unfold State.set64
  rw [reg_setReg_ne _ _ h', reg_setReg_ne _ _ h]

theorem State.reg_bump64_ne (c n : Nat) {a : Nat} (h : a ≠ c) (h' : a ≠ c + 4) : (s.bump64 c n).reg a = s.reg a := reg_set64_ne s _ _ h h'

/-- A field reads what was written, in its width. -/
theorem State.fld_setFld_same (f : Fld) (v : Nat) (h : f.lo + f.w ≤ 32) : (s.setFld f v).fld f = v % 2 ^ f.w := by
  unfold State.fld State.setFld
  rw [reg_setReg_same]
  exact extract_putField_same _ _ _ _ h

theorem State.fld_setReg_ne (g : Fld) {a : Nat} (v : Word) (h : g.addr ≠ a) : (s.setReg a v).fld g = s.fld g := by
  unfold State.fld
  rw [reg_setReg_ne _ _ h]

/-- A field of another register, or of other bits, reads as before. -/
theorem State.fld_setFld_other (f g : Fld) (v : Nat) (h : g.addr ≠ f.addr ∨ g.lo + g.w ≤ f.lo ∨ f.lo + f.w ≤ g.lo) :
    (s.setFld f v).fld g = s.fld g := by
  by_cases ha : g.addr = f.addr
  · have h' := h.resolve_left (fun c => c ha)
    unfold State.fld State.setFld
    rw [ha, reg_setReg_same, extract_putField_apart _ _ _ _ _ _ h']
  · exact fld_setReg_ne s g _ ha

theorem State.fld_setBit_other (f g : Fld) (b : Bool) (h : g.addr ≠ f.addr ∨ g.lo + g.w ≤ f.lo ∨ f.lo + f.w ≤ g.lo) :
    (s.setBit f b).fld g = s.fld g := fld_setFld_other s f g _ h

theorem State.fld_bump_other (f g : Fld) (n : Nat) (h : g.addr ≠ f.addr ∨ g.lo + g.w ≤ f.lo ∨ f.lo + f.w ≤ g.lo) :
    (s.bump f n).fld g = s.fld g := fld_setFld_other s f g _ h

theorem State.bit_setBit_same (f : Fld) (b : Bool) (h : f.w = 1) (hl : f.lo < 32) : (s.setBit f b).bit f = b := by
  unfold State.bit State.setBit
  rw [fld_setFld_same _ _ _ (by omega), h]
  cases b <;> rfl

/-- A field's value lies in its width. -/
theorem State.fld_lt (f : Fld) : s.fld f < 2 ^ f.w := BitVec.isLt _

/-- A counter counts until it stands at all ones (R21). -/
theorem State.fld_bump_same (f : Fld) (n : Nat) (h : f.lo + f.w ≤ 32) : (s.bump f n).fld f = min (s.fld f + n) (2 ^ f.w - 1) := by
  unfold State.bump
  rw [fld_setFld_same _ _ _ h]
  apply Nat.mod_eq_of_lt
  have := Nat.two_pow_pos f.w
  omega

theorem State.regBit_setRegBit_same (a i : Nat) (b : Bool) (h : i < 32) : (s.setRegBit a i b).regBit a i = b := by
  unfold State.regBit State.setRegBit
  rw [reg_setReg_same, getLsbD_putField, if_pos (by omega)]
  cases b <;> simp

theorem State.regBit_setRegBit_other (a i c j : Nat) (b : Bool) (h : c ≠ a ∨ j ≠ i) : (s.setRegBit a i b).regBit c j = s.regBit c j := by
  unfold State.regBit State.setRegBit
  by_cases hc : c = a
  · subst hc
    rw [reg_setReg_same, getLsbD_putField, if_neg (by omega)]
  · rw [reg_setReg_ne _ _ hc]

theorem State.get64_lt (a : Nat) : s.get64 a < 2 ^ 64 := by
  unfold State.get64
  have h1 := (s.reg a).isLt
  have h2 := (s.reg (a + 4)).isLt
  omega

/-- A 64-bit pair reads what was written (R22). -/
theorem State.get64_set64_same (a v : Nat) : (s.set64 a v).get64 a = v % 2 ^ 64 := by
  unfold State.get64 State.set64
  rw [reg_setReg_ne _ _ (by omega), reg_setReg_same, reg_setReg_same, BitVec.toNat_ofNat, BitVec.toNat_ofNat]
  omega

theorem State.get64_setReg_ne (a c : Nat) (v : Word) (h : a ≠ c) (h' : a + 4 ≠ c) : (s.setReg c v).get64 a = s.get64 a := by
  unfold State.get64
  rw [reg_setReg_ne _ _ h, reg_setReg_ne _ _ h']

/-! ### Registers under other updates -/

/-- The field of a register table, so that a field of an updated record reads by its register table alone. -/
def regFld (m : List (Nat × Word)) (f : Fld) : Nat := ((tget regReset m f.addr).extractLsb' f.lo f.w).toNat

theorem State.fld_eq (f : Fld) : s.fld f = regFld s.regs f := (rfl)
theorem State.reg_eq (a : Nat) : s.reg a = tget regReset s.regs a := (rfl)

/-- A state with the same register table reads the same registers and fields. -/
theorem State.reg_congr {t : State} (h : t.regs = s.regs) (a : Nat) : t.reg a = s.reg a := by rw [State.reg_eq, State.reg_eq, h]
theorem State.fld_congr {t : State} (h : t.regs = s.regs) (f : Fld) : t.fld f = s.fld f := by rw [State.fld_eq, State.fld_eq, h]

/-! ### Units after their writes -/

@[simp] theorem State.stream_setStream_same (n : Nat) (v : StreamSt) : (s.setStream n v).stream n = v := tget_tset_same _ _ _ _
theorem State.stream_setStream_ne {n m : Nat} (v : StreamSt) (h : m ≠ n) : (s.setStream n v).stream m = s.stream m := tget_tset_ne _ _ _ h
@[simp] theorem State.port_setPort_same (p : Nat) (v : PortSt) : (s.setPort p v).port p = v := tget_tset_same _ _ _ _
theorem State.port_setPort_ne {p q : Nat} (v : PortSt) (h : q ≠ p) : (s.setPort p v).port q = s.port q := tget_tset_ne _ _ _ h
@[simp] theorem State.ring_setRing_same (r : Nat) (v : RingSt) : (s.setRing r v).ring r = v := tget_tset_same _ _ _ _
theorem State.ring_setRing_ne {r q : Nat} (v : RingSt) (h : q ≠ r) : (s.setRing r v).ring q = s.ring q := tget_tset_ne _ _ _ h
@[simp] theorem State.core_setCore_same (c : Nat) (v : CoreSt) : (s.setCore c v).core c = v := tget_tset_same _ _ _ _
theorem State.core_setCore_ne {c d : Nat} (v : CoreSt) (h : d ≠ c) : (s.setCore c v).core d = s.core d := tget_tset_ne _ _ _ h
@[simp] theorem State.grp_setGrp_same (g : Nat) (v : GroupSt) : (s.setGrp g v).grp g = v := tget_tset_same _ _ _ _
theorem State.grp_setGrp_ne {g h : Nat} (v : GroupSt) (hn : h ≠ g) : (s.setGrp g v).grp h = s.grp h := tget_tset_ne _ _ _ hn
@[simp] theorem State.net_setNet_same (n : Nat) (v : Net) : (s.setNet n v).net n = v := tget_tset_same _ _ _ _
theorem State.net_setNet_ne {n m : Nat} (v : Net) (h : m ≠ n) : (s.setNet n v).net m = s.net m := tget_tset_ne _ _ _ h
@[simp] theorem State.chan_setChan_same (n : Nat) (c : ChanSt) : (s.setChan n c).chan n = c := tget_tset_same _ _ _ _
theorem State.chan_setChan_ne {n m : Nat} (c : ChanSt) (h : m ≠ n) : (s.setChan n c).chan m = s.chan m := tget_tset_ne _ _ _ h
@[simp] theorem State.die_setDie_same (k : Nat) (v : DieSt) : (s.setDie k v).die k = v := tget_tset_same _ _ _ _
theorem State.die_setDie_ne {k j : Nat} (v : DieSt) (h : j ≠ k) : (s.setDie k v).die j = s.die j := tget_tset_ne _ _ _ h
@[simp] theorem State.benchSt_putBench_same (k j : Nat) (v : BenchSt) : (s.putBench k j v).benchSt k j = v := tget_tset_same _ _ _ _
@[simp] theorem State.tileSt_setTile_same (k p : Nat) (v : TileSt) : (s.setTile k p v).tileSt k p = v := tget_tset_same _ _ _ _
@[simp] theorem State.lib_setLib_same (l : Nat) (v : LibSt) : (s.setLib l v).lib l = v := tget_tset_same _ _ _ _
theorem State.lib_setLib_ne {l m : Nat} (v : LibSt) (h : m ≠ l) : (s.setLib l v).lib m = s.lib m := tget_tset_ne _ _ _ h
@[simp] theorem State.tport_setTPort_same (p : Nat) (v : TPortSt) : (s.setTPort p v).tport p = v := tget_tset_same _ _ _ _

end Sys2Proof.Machine
end

