-- ==== Sys2Proof/Laws/Alarm.lean ====
section
/-! SUPPORT.  Records and alarms: what a record's field reads as, and everything that raising an alarm can change. -/

namespace Sys2Proof.Machine

/-! ### Records -/

/-- Does a part of a record put a 1 at bit `j`? -/
def partBit (p : Nat × Nat × Nat) (j : Nat) : Bool := decide (8 * p.1 ≤ j ∧ j < 8 * p.1 + 8 * p.2.1) && p.2.2.testBit (j - 8 * p.1)

theorem partBit_eq (p : Nat × Nat × Nat) (j : Nat) : (p.2.2 % 2 ^ (8 * p.2.1) * 2 ^ (8 * p.1)).testBit j = partBit p j := by
  rw [Nat.mul_comm, Nat.testBit_two_pow_mul, Nat.testBit_mod_two_pow]
  unfold partBit
  by_cases h1 : 8 * p.1 ≤ j <;> by_cases h2 : j < 8 * p.1 + 8 * p.2.1
  · have : j - 8 * p.1 < 8 * p.2.1 := by omega
    simp [h1, h2, this]
  · have : ¬ j - 8 * p.1 < 8 * p.2.1 := by omega
    simp [h2, this]
  · simp [h1]
  · simp [h1]

theorem slotOf_bit (parts : List (Nat × Nat × Nat)) (j : Nat) (h : j < 512) : (slotOf parts).getLsbD j = parts.any (fun p => partBit p j) := by
  unfold slotOf
  suffices hs : ∀ acc : Slot, (parts.foldl (fun acc p => acc ||| BitVec.ofNat 512 (p.2.2 % 2 ^ (8 * p.2.1) * 2 ^ (8 * p.1))) acc).getLsbD j =
      (acc.getLsbD j || parts.any (fun p => partBit p j)) by
    rw [hs]; simp
  induction parts with
  | nil => intro acc; simp
  | cons p t ih =>
    intro acc
    rw [List.foldl_cons, ih, BitVec.getLsbD_or, BitVec.getLsbD_ofNat, partBit_eq, List.any_cons]
    simp [h, Bool.or_assoc]

/-- A field of a record reads as the value put there, when no other part of the record overlaps it. -/
theorem slotField_slotOf (l r : List (Nat × Nat × Nat)) (off n v : Nat) (h : off + n ≤ 64)
    (hd : ∀ p ∈ l ++ r, p.1 + p.2.1 ≤ off ∨ off + n ≤ p.1) : slotField (slotOf (l ++ (off, n, v) :: r)) off n = v % 2 ^ (8 * n) := by
  apply Nat.eq_of_testBit_eq
  intro j
  unfold slotField
  rw [BitVec.testBit_toNat, BitVec.getLsbD_extractLsb', Nat.testBit_mod_two_pow]
  by_cases hj : j < 8 * n
  · have hr : ∀ m ∈ l ++ r, partBit m (8 * off + j) = false := by
      intro m hm
      have := hd m hm
      unfold partBit
      have : ¬ (8 * m.1 ≤ 8 * off + j ∧ 8 * off + j < 8 * m.1 + 8 * m.2.1) := by omega
      simp [this]
    rw [slotOf_bit _ _ (by omega), List.any_append, List.any_cons]
    have h1 : l.any (fun p => partBit p (8 * off + j)) = false := by
      rw [List.any_eq_false]; intro m hm; simp [hr m (List.mem_append_left _ hm)]
    have h2 : r.any (fun p => partBit p (8 * off + j)) = false := by
      rw [List.any_eq_false]; intro m hm; simp [hr m (List.mem_append_right _ hm)]
    rw [h1, h2]
    unfold partBit
    have h3 : 8 * off ≤ 8 * off + j ∧ 8 * off + j < 8 * off + 8 * n := by omega
    have h4 : 8 * off + j - 8 * off = j := by omega
    simp [hj, h4]
  · simp [hj]

/-! ### Alarms -/

/-- The registers that report alarms not queued (R504). -/
def lostRegs : List Nat := [F.POWER_ALARM_LOST_COUNT.addr, F.POWER_ALARM_ALARM_LOST.addr, F.POWER_SUMMARY_LOST.addr]

/-- Queueing an alarm record changes the backlog, ASEQ and the reports of alarms not queued, and nothing else. -/
theorem State.queueAlarm_keeps (s : State) (code block inst : Nat) (detail : List (Nat × Nat × Nat)) :
    s.queueAlarm code block inst detail = { s with regs := (s.queueAlarm code block inst detail).regs, alarmQ := (s.queueAlarm code block inst detail).alarmQ, aseq := (s.queueAlarm code block inst detail).aseq, alarmLost := (s.queueAlarm code block inst detail).alarmLost } := by
  unfold State.queueAlarm
  dsimp only
  split <;> rfl

theorem State.queueAlarm_aseq (s : State) (code block inst : Nat) (detail : List (Nat × Nat × Nat)) :
    (s.queueAlarm code block inst detail).aseq = s.aseq + 1 := by
  unfold State.queueAlarm
  dsimp only
  split
  · rfl
  · simp

/-- With room in the backlog the record is queued and no register changes (R504). -/
theorem State.queueAlarm_room (s : State) (code block inst : Nat) (detail : List (Nat × Nat × Nat)) (h : s.alarmQ.length < alarmRoom) :
    s.queueAlarm code block inst detail = { s with aseq := s.aseq + 1, alarmQ := s.alarmQ ++
      [slotOf ([(0, 1, 4), (2, 2, code), (4, 1, block), (5, 3, inst), (8, 8, s.now)] ++ detail ++ [(56, 8, s.aseq)])] } := by
  unfold State.queueAlarm
  dsimp only
  rw [if_pos h]

theorem State.reg_queueAlarm (s : State) (code block inst : Nat) (detail : List (Nat × Nat × Nat)) (a : Nat) (h : a ∉ lostRegs) :
    (s.queueAlarm code block inst detail).reg a = s.reg a := by
  unfold State.queueAlarm
  dsimp only
  simp only [lostRegs, List.mem_cons, List.not_mem_nil, or_false, not_or] at h
  split
  · rfl
  · rw [State.reg_setFld_ne _ _ _ h.2.2, State.reg_setFld_ne _ _ _ h.2.1, State.reg_bump_ne _ _ _ h.1]
    rfl

/-- Raising an alarm changes alarm registers, the backlog, ASEQ and the reports of alarms not queued, and nothing else. -/
theorem State.alarm_keeps (s : State) (f : Fld) (u : Nat) :
    s.alarm f u = { s with regs := (s.alarm f u).regs, alarmQ := (s.alarm f u).alarmQ, aseq := (s.alarm f u).aseq, alarmLost := (s.alarm f u).alarmLost } := by
  unfold State.alarm
  dsimp only
  split
  · rfl
  · exact (State.queueAlarm_keeps _ _ _ _ _).trans (by simp only [State.setRegBit, State.setFld, State.setReg])

theorem State.reg_alarm (s : State) (f : Fld) (u a : Nat) (h1 : a ≠ f.addr) (h2 : a ≠ R.POWER_SUMMARY) (h : a ∉ lostRegs) :
    (s.alarm f u).reg a = s.reg a := by
  have e : ((s.setFld f 1).setRegBit R.POWER_SUMMARY (blockOf f.addr).1 true).reg a = s.reg a := by
    unfold State.setRegBit
    rw [State.reg_setReg_ne _ _ h2, State.reg_setFld_ne _ _ _ h1]
  unfold State.alarm
  dsimp only
  split
  · exact e
  · rw [State.reg_queueAlarm _ _ _ _ _ _ h]; exact e

/-- The alarm's bit stands after it is raised. -/
theorem State.bit_alarm (s : State) (f : Fld) (u : Nat) (hw : f.w = 1) (hl : f.lo < 32) (h2 : f.addr ≠ R.POWER_SUMMARY) (h : f.addr ∉ lostRegs) :
    (s.alarm f u).bit f = true := by
  have e : ((s.setFld f 1).setRegBit R.POWER_SUMMARY (blockOf f.addr).1 true).fld f = 1 := by
    unfold State.setRegBit
    rw [State.fld_setReg_ne _ _ _ h2, State.fld_setFld_same _ _ _ (by omega), hw]; rfl
  have e2 : (s.alarm f u).fld f = 1 := by
    unfold State.alarm
    dsimp only
    split
    · exact e
    · unfold State.fld at e ⊢
      rw [State.reg_queueAlarm _ _ _ _ _ _ h]
      exact e
  unfold State.bit
  rw [e2]; rfl

end Sys2Proof.Machine
end

