-- ==== Sys2Proof/Laws/Flint.lean ====
section
/-! SUPPORT.  What the issue of one Flint instruction can do: one lemma per outcome of the instruction's own act, cited in place of
unfolding the issue. -/

namespace Sys2Proof.Machine

variable {s : State} {i : Issue} {k : CoreSt} {w : Nat}

theorem OnlyCore.setCore (s : State) (c : Nat) (v : CoreSt) : OnlyCore s (s.setCore c v) c :=
  ⟨rfl, fun _ h => State.core_setCore_ne s v h⟩

theorem OnlyCore.trans {s t u : State} {c : Nat} (h : OnlyCore s t c) (h' : OnlyCore t u c) : OnlyCore s u c := by
  refine ⟨?_, fun d hd => (h'.2 d hd).trans (h.2 d hd)⟩
  have e := h'.1
  rw [h.1] at e
  exact e

theorem issue_done (h : Fetches s i k w) (reads : List Nat) (act : CoreSt → Act) (d : Done) (ha : act k = .done d) (hr : d.read = none) :
    s.issue i reads act = (s.setCore i.core.val k).commit i.core.val (s.coreCycle i.core.val + (s.core i.core.val).interlock reads + w) d := by
  obtain ⟨h1, h2, h3, h4, h5⟩ := h
  simp only [State.issue, h1, h2, h3, h4, h5, ha, hr, Bool.not_true, Bool.false_eq_true, Bool.and_self, ↓reduceIte, ne_eq, not_true_eq_false]

theorem issue_read (h : Fetches s i k w) (reads : List Nat) (act : CoreSt → Act) (d : Done) (a n : Nat) (k2 : CoreSt) (w2 : Nat)
    (ha : act k = .done d) (hr : d.read = some (a, n)) (he : d.core.eccRead i.data = some (k2, w2)) :
    s.issue i reads act = ((s.setCore i.core.val k).commit i.core.val
      (s.coreCycle i.core.val + (s.core i.core.val).interlock reads + w + w2) { d with core := k2 }).noteUninit i.core.val
        (if d.rewrite then 0 else k.unwritten a n) := by
  obtain ⟨h1, h2, h3, h4, h5⟩ := h
  simp only [State.issue, h1, h2, h3, h4, h5, ha, hr, he, Bool.not_true, Bool.false_eq_true, Bool.and_self, ↓reduceIte, ne_eq, not_true_eq_false]

theorem issue_exc (h : Fetches s i k w) (reads : List Nat) (act : CoreSt → Act) (cause : Nat) (addr : Word) (ha : act k = .exc cause addr) :
    s.issue i reads act = (s.setCore i.core.val k).raise i.core.val cause addr := by
  obtain ⟨h1, h2, h3, h4, h5⟩ := h
  simp only [State.issue, h1, h2, h3, h4, h5, ha, Bool.not_true, Bool.false_eq_true, Bool.and_self, ↓reduceIte, ne_eq, not_true_eq_false]

/-- A committed instruction with no effect beyond its core. -/
theorem commit_retires (s : State) (i : Issue) (k : CoreSt) (t : Nat) (d : Done) (hp : d.post = id) :
    Retires s ((s.setCore i.core.val k).commit i.core.val t d) i d.core (if d.hold then d.core.pc else d.target.getD (d.core.pc + 4))
      (t + d.cycles) d.haz d.hazWait := by
  have e : (s.setCore i.core.val k).commit i.core.val t d = (s.setCore i.core.val k).setCore i.core.val { d.core with
      pc := if d.hold then d.core.pc else d.target.getD (d.core.pc + 4), busy := t + d.cycles, haz := d.haz, hazWait := d.hazWait } := by
    unfold State.commit; rw [hp]; rfl
  rw [e]
  exact ⟨(OnlyCore.setCore _ _ _).trans (OnlyCore.setCore _ _ _), State.core_setCore_same _ _ _⟩

/-- An instruction that reads no memory and touches only its core completes. -/
theorem issue_retires (h : Fetches s i k w) (reads : List Nat) (act : CoreSt → Act) (d : Done) (ha : act k = .done d) (hr : d.read = none)
    (hp : d.post = id) :
    Retires s (s.issue i reads act) i d.core (if d.hold then d.core.pc else d.target.getD (d.core.pc + 4)) (retireCycle s i reads w d.cycles)
      d.haz d.hazWait := by
  rw [issue_done h reads act d ha hr]
  exact commit_retires s i k _ d hp

/-- An instruction that reads written memory and touches only its core completes. -/
theorem issue_read_retires (h : Fetches s i k w) (reads : List Nat) (act : CoreSt → Act) (d : Done) (a n : Nat) (k2 : CoreSt) (w2 : Nat)
    (ha : act k = .done d) (hr : d.read = some (a, n)) (he : d.core.eccRead i.data = some (k2, w2)) (hp : d.post = id)
    (hu : (if d.rewrite then 0 else k.unwritten a n) = 0) :
    Retires s (s.issue i reads act) i k2 (if d.hold then k2.pc else d.target.getD (k2.pc + 4)) (retireCycle s i reads (w + w2) d.cycles)
      d.haz d.hazWait := by
  rw [issue_read h reads act d a n k2 w2 ha hr he, hu]
  have := commit_retires s i k (s.coreCycle i.core.val + (s.core i.core.val).interlock reads + w + w2) { d with core := k2 } hp
  simpa [State.noteUninit, retireCycle, Nat.add_assoc] using this


/-! ### From an instruction's act to the statement about it -/

theorem completes_of_act {mk reads ok cycles f pc late n} (act : Issue → State → CoreSt → Act) (he : ∀ i s, exec (mk i) s = .next (s.issue i reads (act i s)))
  (ha : ∀ i s k, ok k → ∃ d, act i s k = .done d ∧ d.read = none ∧ d.post = id ∧ d.core = f k ∧ (if d.hold then d.core.pc else d.target.getD (d.core.pc + 4)) = pc k ∧ d.cycles = cycles ∧ d.haz = late ∧ d.hazWait = n) :
  Completes mk reads ok cycles f pc late n := by
  intro i s k w h hok
  obtain ⟨d, h1, h2, h3, h4, h5, h6, h7, h8⟩ := ha i s k hok
  refine ⟨_, he i s, ?_⟩
  have := issue_retires h reads (act i s) d h1 h2 h3
  rw [h5, h4, h6, h7, h8] at this
  exact this

@[simp] theorem CoreSt.setS_pc (k : CoreSt) (r v) : (k.setS r v).pc = k.pc := by unfold CoreSt.setS; split <;> rfl
@[simp] theorem CoreSt.setV_pc (k : CoreSt) (r v) : (k.setV r v).pc = k.pc := rfl

theorem traps_of_act {mk reads bad cause addr} (act : Issue → State → CoreSt → Act) (he : ∀ i s, exec (mk i) s = .next (s.issue i reads (act i s)))
  (ha : ∀ i s k, bad k → act i s k = .exc cause (addr k)) : Traps mk bad cause addr := by
  intro i s k w h hb hv hh
  refine ⟨_, he i s, ?_⟩
  rw [issue_exc h reads (act i s) _ _ (ha i s k hb)]
  have hbusy : k.busy = (s.core i.core.val).busy := by
    have := h.2.2.2.2
    unfold CoreSt.eccRead at this
    split at this <;> simp at this <;> obtain ⟨rfl, _⟩ := this <;> rfl
  unfold State.raise
  simp only [State.core_setCore_same]
  have : (k.inHandler || k.excVec == 0) = false := by simp [hh]; exact hv
  rw [this]
  simp only [Bool.false_eq_true, ↓reduceIte]
  refine ⟨(OnlyCore.setCore _ _ _).trans (OnlyCore.setCore _ _ _), ?_⟩
  rw [State.core_setCore_same]
  unfold CoreSt.entered State.coreCycle
  rw [State.core_setCore_same, hbusy]
  rfl

theorem memFault_of_accessible {k : CoreSt} {a n al : Nat} (h : Accessible k a n al) : memFault k a n al = none := by
  unfold memFault
  rw [if_neg (by simpa using h.1)]
  have : k.badByte a n = none := by
    unfold CoreSt.badByte
    rw [List.find?_eq_none]
    intro x hx
    simp only [List.mem_map, List.mem_range] at hx
    obtain ⟨j, hj, rfl⟩ := hx
    simp [h.2 j hj]
  rw [this]; rfl

theorem loads_of_act {mk reads cycles addr n f late m} (act : Issue → State → CoreSt → Act) (he : ∀ i s, exec (mk i) s = .next (s.issue i reads (act i s)))
  (ha : ∀ i s k, memFault k (addr k) n n = none → ∃ d, act i s k = .done d ∧ d.read = some (addr k, n) ∧ d.post = id ∧ d.core = f k ∧ d.hold = false ∧ d.target = none ∧ d.rewrite = false ∧ d.cycles = cycles ∧ d.haz = late ∧ d.hazWait = m) :
  Loads mk reads cycles addr n f late m := by
  intro i s k w k2 w2 h hacc hun hecc
  obtain ⟨d, h1, h2, h3, h4, h5, h6, h7, h8, h9, h10⟩ := ha i s k (memFault_of_accessible hacc)
  refine ⟨_, he i s, ?_⟩
  have := issue_read_retires h reads (act i s) d (addr k) n k2 w2 h1 h2 (by rw [h4]; exact hecc) h3 (by simp [h7, hun])
  rw [h5, h6, h8, h9, h10] at this
  exact this

theorem stores_of_act {mk reads addr n value} (act : Issue → State → CoreSt → Act) (he : ∀ i s, exec (mk i) s = .next (s.issue i reads (act i s)))
  (ha : ∀ i s k, memFault k (addr k) n n = none → ∃ d a m, act i s k = .done d ∧ d.read = some (a, m) ∧ d.post = id ∧ d.core = k.store (addr k) (value k) ∧ d.hold = false ∧ d.target = none ∧ d.rewrite = true ∧ d.cycles = 1 ∧ d.haz = [] ∧ d.hazWait = 0) :
  StoresInWord mk reads addr n value := by
  intro i s k w k2 w2 h hacc hecc
  obtain ⟨d, a, m, h1, h2, h3, h4, h5, h6, h7, h8, h9, h10⟩ := ha i s k (memFault_of_accessible hacc)
  refine ⟨_, he i s, ?_⟩
  have := issue_read_retires h reads (act i s) d a m k2 w2 h1 h2 (by rw [h4]; exact hecc) h3 (by simp [h7])
  rw [h5, h6, h8, h9, h10] at this
  exact this
@[simp] theorem CoreSt.store_pc (k : CoreSt) (a bs) : (k.store a bs).pc = k.pc := rfl
/-! ### Bytes of SRAM and words written -/

theorem foldl_tset_get (d : Nat → Byte) (a : Nat) (bs : List Byte) (x : Nat) : ∀ (n : Nat), n ≤ bs.length → ∀ m,
   tget d ((List.range n).foldl (fun m i => tset d m (a + i) (bs.getD i 0)) m) x = if a ≤ x ∧ x < a + n then bs.getD (x - a) 0 else tget d m x := by
  intro n; induction n with
  | zero => intro _ m; rw [if_neg (by omega)]; rfl
  | succ n ih =>
    intro hn m
    rw [List.range_succ, List.foldl_append, List.foldl_cons, List.foldl_nil, tget_tset]
    by_cases h : x = a + n
    · subst h; simp
    · rw [if_neg h, ih (by omega)]
      by_cases h2 : a ≤ x ∧ x < a + n
      · rw [if_pos h2, if_pos (by omega)]
      · rw [if_neg h2, if_neg (by omega)]

theorem foldl_true_get (ws : List Nat) (w : Nat) : ∀ m,
   tget (fun _ => false) (ws.foldl (fun m w => tset (fun _ => false) m w true) m) w = true ↔ tget (fun _ => false) m w = true ∨ w ∈ ws := by
  induction ws with
  | nil => intro m; simp
  | cons v t ih =>
    intro m
    rw [List.foldl_cons, ih, tget_tset]
    by_cases h : w = v <;> simp [h]

theorem mem_wordsOf (a n w : Nat) : w ∈ wordsOf a n ↔ ∃ x, a ≤ x ∧ x < a + n ∧ x / 8 = w := by
  unfold wordsOf
  split
  · subst_vars; simp; intro x h1 h2; omega
  · simp only [List.mem_map, List.mem_range]
    constructor
    · rintro ⟨j, hj, rfl⟩
      refine ⟨max a (8 * (a / 8 + j)), ?_, ?_, ?_⟩ <;> omega
    · rintro ⟨x, h1, h2, rfl⟩
      exact ⟨x / 8 - a / 8, by omega, by omega⟩

/-! ### Results as numbers -/

theorem boolWord_slt (a b : Word) : boolWord (a.slt b) = if a.toInt < b.toInt then 1 else 0 := by
  simp [boolWord, BitVec.slt]
theorem boolWord_ult (a b : Word) : boolWord (a.ult b) = if a.toNat < b.toNat then 1 else 0 := by
  simp [boolWord, BitVec.ult]
theorem clampInt_eq {lo hi x : Int} (h : lo ≤ hi) : clampInt lo hi x = max lo (min hi x) := by
  unfold clampInt; split <;> [skip; split] <;> omega
theorem sshiftRight_eq_ofInt (a : Word) (n : Nat) : a.sshiftRight n = BitVec.ofInt 32 (a.toInt / 2 ^ n) := by
  apply BitVec.eq_of_toInt_eq; rw [BitVec.toInt_sshiftRight, Int.shiftRight_eq_div_pow]
  rw [BitVec.toInt_ofInt]
  have h1 := BitVec.two_mul_toInt_lt (x := a)
  have h2 := BitVec.le_two_mul_toInt (x := a)
  have hp : (0:Int) < 2 ^ n := by positivity
  symm
  have : (2:Int)^(n) = ((2^n : Nat) : Int) := by simp
  have hle : a.toInt / 2^n ≤ max a.toInt 0 := by
    rcases le_or_gt 0 a.toInt with h | h
    · have := Int.ediv_le_self (2^n) h; omega
    · have : a.toInt / 2^n < 0 := Int.ediv_neg_of_neg_of_pos h hp; omega
  have hge : min a.toInt 0 ≤ a.toInt / 2^n := by
    rcases le_or_gt 0 a.toInt with h | h
    · have := Int.ediv_nonneg h hp.le; omega
    · have : a.toInt ≤ a.toInt / 2^n := by
        apply Int.le_ediv_of_mul_le hp
        have : (1:Int) ≤ 2^n := by exact_mod_cast Nat.one_le_two_pow
        nlinarith
      omega
  apply Int.bmod_eq_of_le <;> omega
theorem min_word (a b : Word) : (if a.slt b then a else b) = BitVec.ofInt 32 (min a.toInt b.toInt) := by
  simp only [BitVec.slt, decide_eq_true_eq]; split
  · rw [min_eq_left (by omega)]; simp
  · rw [min_eq_right (by omega)]; simp
theorem max_word (a b : Word) : (if a.slt b then b else a) = BitVec.ofInt 32 (max a.toInt b.toInt) := by
  simp only [BitVec.slt, decide_eq_true_eq]; split
  · rw [max_eq_right (by omega)]; simp
  · rw [max_eq_left (by omega)]; simp


/-! ### Slivers and the tally by position -/

@[simp] theorem CoreSt.readT2_pc (k : CoreSt) (p) : (k.readT2 p).pc = k.pc := rfl

theorem bitsNat_testBit (n : Nat) (f : Nat → Bool) (j : Nat) : (bitsNat n f).testBit j = (decide (j < n) && f j) ∧ bitsNat n f < 2 ^ n := by
  unfold bitsNat
  have key : ∀ (l : List Nat) (lo : Nat), True := fun _ _ => trivial
  suffices h : ∀ m lo, (∀ j, ((List.range' lo m).foldr (fun i a => (if f i then 2 ^ i else 0) + a) 0).testBit j = (decide (lo ≤ j ∧ j < lo + m) && f j)) ∧
      ((List.range' lo m).foldr (fun i a => (if f i then 2 ^ i else 0) + a) 0) < 2 ^ (lo + m) ∧ 2 ^ lo ∣ ((List.range' lo m).foldr (fun i a => (if f i then 2 ^ i else 0) + a) 0) by
    have := h n 0
    rw [← List.range_eq_range'] at this
    exact ⟨by simpa using this.1 j, by simpa using this.2.1⟩
  intro m
  induction m with
  | zero => intro lo; simp; try omega
  | succ m ih =>
    intro lo
    obtain ⟨h1, h2, h3⟩ := ih (lo + 1)
    rw [List.range'_succ, List.foldr_cons]
    generalize List.foldr (fun i a => (if f i then 2 ^ i else 0) + a) 0 (List.range' (lo + 1) m) = x at *
    obtain ⟨y, rfl⟩ := h3
    refine ⟨?_, ?_, ?_⟩
    · intro j
      have e : (if f lo = true then 2 ^ lo else 0) + 2 ^ (lo + 1) * y = 2 ^ (lo+1) * y + (if f lo = true then 2 ^ lo else 0) := by omega
      rw [e]
      have hb : (if f lo = true then 2 ^ lo else 0) < 2 ^ (lo + 1) := by
        split
        · exact Nat.pow_lt_pow_right (by omega) (by omega)
        · positivity
      rw [Nat.testBit_two_pow_mul_add _ hb]
      by_cases hj : j < lo + 1
      · rw [if_pos hj]
        by_cases hl : j = lo
        · subst hl; cases f j <;> simp [Nat.testBit_two_pow_self]
        · have : ¬ (lo ≤ j ∧ j < lo + (m + 1)) := by omega
          rw [decide_eq_false this]
          split
          · rw [Nat.testBit_two_pow_of_ne (by omega)]; rfl
          · simp
      · rw [if_neg hj]
        have := h1 j
        rw [Nat.testBit_two_pow_mul] at this
        simp only [ge_iff_le, show lo + 1 ≤ j by omega, decide_true, Bool.true_and] at this
        rw [this]
        congr 1
        exact decide_eq_decide.mpr ⟨fun h => ⟨by omega, by omega⟩, fun h => ⟨by first | trivial | omega, by omega⟩⟩
    · have : (if f lo = true then 2 ^ lo else 0) ≤ 2 ^ lo := by split <;> simp
      have e2 : 2 ^ (lo + (m+1)) = 2 ^ (lo+1+m) := by ring_nf
      rw [e2]
      have e3 : 2 ^ (lo+1+m) = 2^(lo+1) * 2^m := by rw [pow_add]
      rw [e3] at h2 ⊢
      have hy : y < 2^m := Nat.lt_of_mul_lt_mul_left h2
      have : 2^(lo+1) * (y + 1) ≤ 2^(lo+1) * 2^m := Nat.mul_le_mul_left _ hy
      have e4 : 2^(lo+1) = 2 * 2^lo := by rw [pow_succ]; ring
      rw [Nat.mul_add, Nat.mul_one] at this
      have hp : 0 < 2^lo := by positivity
      omega
    · refine Nat.dvd_add ?_ ?_
      · split <;> simp
      · exact Dvd.dvd.mul_right (pow_dvd_pow 2 (by omega)) y

theorem sliverOf_getLsbD (f : Nat → Bool) (j : Nat) (h : j < 256) : (sliverOf f).getLsbD j = f j := by
  unfold sliverOf
  rw [BitVec.getLsbD_ofNat, (bitsNat_testBit 256 f j).1]
  simp [h]

theorem tallyGet_tallyOf (n : Nat) (f : Nat → Int) (j : Nat) (h : j < n) : tallyGet (tallyOf n f) j = f j := by
  unfold tallyGet tallyOf
  have : ∀ (l : List Nat), tget (fun _ => (0:Int)) ((l.map (fun i => (i, f i))).filter (fun e => e.2 != 0)) j = if j ∈ l then f j else 0 := by
    intro l
    induction l with
    | nil => rfl
    | cons a t ih =>
      rw [List.map_cons, List.filter_cons]
      by_cases h0 : f a = 0
      · simp only [h0, bne_self_eq_false, Bool.false_eq_true, ↓reduceIte]
        rw [ih]
        by_cases ha : j = a
        · subst ha; simp [h0]
        · simp [ha]
      · simp only [bne_iff_ne, ne_eq, h0, not_false_eq_true, ↓reduceIte, tget]
        by_cases ha : a = j
        · subst ha; simp
        · rw [if_neg ha, ih]; simp [Ne.symm ha]
  rw [this, if_pos (by simpa using h)]

/-! ### What the ECC of a read leaves alone -/

theorem eccRead_eq {k k2 : CoreSt} {e : Ecc} {w : Nat} (h : k.eccRead e = some (k2, w)) :
    k2 = { k with eccCorr := k2.eccCorr, eccUncorr := k2.eccUncorr, eccRetry := k2.eccRetry } := by
  unfold CoreSt.eccRead at h
  split at h <;> simp at h <;> obtain ⟨rfl, _⟩ := h <;> rfl

/-! ### Commands that let waiting cores go on -/

theorem resume_all (s : State) (extra : Nat) (l : List Nat) : ∀ a : State, a = { s with cores := a.cores } →
    (∀ d, a.core d = s.core d ∨ a.core d = { s.core d with wait := .none, pc := (s.core d).pc + 4, busy := s.coreCycle d + extra }) →
    extra = 0 →
    (l.foldl (fun a c => a.resume c extra (s.core c)) a) = { s with cores := (l.foldl (fun a c => a.resume c extra (s.core c)) a).cores } ∧
    ∀ d, (l.foldl (fun a c => a.resume c extra (s.core c)) a).core d =
      if d ∈ l then { s.core d with wait := .none, pc := (s.core d).pc + 4, busy := s.coreCycle d + extra } else a.core d := by
  induction l with
  | nil => intro a h _ _; exact ⟨h, fun d => by simp⟩
  | cons c t ih =>
    intro a h h2 h0
    subst h0
    rw [List.foldl_cons]
    have hnow : a.cycleNow = s.cycleNow := by rw [h]; rfl
    have hc : (a.resume c 0 (s.core c)).core c = { s.core c with wait := .none, pc := (s.core c).pc + 4, busy := s.coreCycle c + 0 } := by
      unfold State.resume
      rw [State.core_setCore_same]
      have : a.coreCycle c = s.coreCycle c := by
        unfold State.coreCycle
        rw [hnow]
        rcases h2 c with e | e <;> rw [e]
        show max s.cycleNow (max s.cycleNow (s.core c).busy + 0) = _
        omega
      rw [this]
    have hne : ∀ d, d ≠ c → (a.resume c 0 (s.core c)).core d = a.core d := fun d hd => State.core_setCore_ne _ _ hd
    obtain ⟨e1, e2⟩ := ih (a.resume c 0 (s.core c)) (by rw [h]; rfl) (fun d => by
      by_cases hd : d = c
      · subst hd; exact .inr hc
      · rw [hne d hd]; exact h2 d) rfl
    refine ⟨e1, fun d => ?_⟩
    rw [e2]
    by_cases hd : d ∈ t
    · simp [hd]
    · by_cases hdc : d = c
      · subst hdc; simp [hd, hc]
      · simp [hd, hdc, hne d hdc]

/-! ### Effects beyond the core -/

/-- A committed instruction with an effect beyond its core: the effect acts on the state in which the core has completed. -/
theorem commit_post (s : State) (i : Issue) (k : CoreSt) (t : Nat) (d : Done) : ∃ u, Retires s u i d.core (if d.hold then d.core.pc else d.target.getD (d.core.pc + 4))
      (t + d.cycles) d.haz d.hazWait ∧ (s.setCore i.core.val k).commit i.core.val t d = d.post u ∧ u.regs = s.regs := by
  refine ⟨_, commit_retires s i k t { d with post := id } rfl, ?_, ?_⟩
  · unfold State.commit; rfl
  · unfold State.commit; simp
theorem inject_ok (s : State) (m : Msg) (h1 : endpoint m.dest.toNat ≠ .adit) (h2 : endpoint m.dest.toNat ≠ .unassigned) : s.inject m = { s with fabric := s.fabric ++ [m] } := by
  unfold State.inject
  split
  · contradiction
  · contradiction
  · rfl
theorem inject_bad (s : State) (m : Msg) (h1 : endpoint m.dest.toNat = .adit ∨ endpoint m.dest.toNat = .unassigned) : s.inject m = s.bump F.GAL_EDGE_BADDEST_COUNT 1 := by
  unfold State.inject
  rcases h1 with h | h <;> rw [h]
theorem State.bump_eq (s : State) (f : Fld) (n : Nat) : s.bump f n = { s with regs := (s.bump f n).regs } := rfl


/-- Every window in progress of the sliver group's streams carries GAP, and nothing else changes. -/
theorem gapStreams_eq (s : State) (l : Nat) : s.gapStreams l = { s with streams := (s.gapStreams l).streams } ∧
    ∀ n, (s.gapStreams l).stream n = if n ∈ s.sliverStreams l then { s.stream n with gapNow := true } else s.stream n := by
  unfold State.gapStreams
  suffices h : ∀ (L : List Nat) (a : State), a = { s with streams := a.streams } → (∀ n, a.stream n = s.stream n ∨ a.stream n = { s.stream n with gapNow := true }) →
      (L.foldl (fun a n => a.setStream n { a.stream n with gapNow := true }) a) = { s with streams := (L.foldl (fun a n => a.setStream n { a.stream n with gapNow := true }) a).streams } ∧
      ∀ n, (L.foldl (fun a n => a.setStream n { a.stream n with gapNow := true }) a).stream n = if n ∈ L then { s.stream n with gapNow := true } else a.stream n by
    have := h (s.sliverStreams l) s rfl (fun _ => .inl rfl)
    exact this
  intro L
  induction L with
  | nil => intro a h _; exact ⟨h, fun n => by simp⟩
  | cons m t ih =>
    intro a h h2
    rw [List.foldl_cons]
    have hm : (a.setStream m { a.stream m with gapNow := true }).stream m = { s.stream m with gapNow := true } := by
      rw [State.stream_setStream_same]
      rcases h2 m with e | e <;> rw [e]
    have hne : ∀ n, n ≠ m → (a.setStream m { a.stream m with gapNow := true }).stream n = a.stream n := fun n hn => State.stream_setStream_ne _ _ hn
    obtain ⟨e1, e2⟩ := ih (a.setStream m { a.stream m with gapNow := true }) (by rw [h]; rfl) (fun n => by
      by_cases hn : n = m
      · subst hn; exact .inr hm
      · rw [hne n hn]; exact h2 n)
    refine ⟨e1, fun n => ?_⟩
    rw [e2]
    by_cases hn : n ∈ t
    · simp [hn]
    · by_cases hnm : n = m
      · subst hnm; simp [hn, hm]
      · simp [hn, hnm, hne n hnm]

/-- A fold keeps what each of its steps keeps. -/
theorem foldl_keeps {α β : Type} (p : α → β) (f : α → Nat → α) (h : ∀ a n, p (f a n) = p a) (l : List Nat) : ∀ a, p (l.foldl f a) = p a := by
  induction l with
  | nil => intro a; rfl
  | cons n t ih => intro a; rw [List.foldl_cons, ih, h]

/-- Nothing but counters and the prefetchers' own memory changes when a line is prefetched. -/
theorem prefetch_eq (s : State) (n l : Nat) : s.prefetch n l = { s with regs := (s.prefetch n l).regs, prefetched := (s.prefetch n l).prefetched } ∧
    ∀ a, a ≠ (F.GAL_PF_HITS_COUNT n).addr → (s.prefetch n l).reg a = s.reg a := by
  unfold State.prefetch
  dsimp only
  split
  · exact ⟨rfl, fun _ _ => rfl⟩
  · split
    · refine ⟨rfl, fun a ha => ?_⟩
      exact State.reg_bump_ne s _ _ ha
    · exact ⟨rfl, fun _ _ => rfl⟩

theorem prefetchAll_eq (s : State) (a len : Nat) : s.prefetchAll a len = { s with regs := (s.prefetchAll a len).regs, prefetched := (s.prefetchAll a len).prefetched } ∧
    ∀ b, (∀ q, q < 32 → b ≠ (F.GAL_PF_HITS_COUNT q).addr) → (s.prefetchAll a len).reg b = s.reg b := by
  unfold State.prefetchAll
  generalize (List.range ((a + len - 1) / 128 + 1 - a / 128)).map (a / 128 + ·) = L
  suffices h : ∀ t : State, (t = { s with regs := t.regs, prefetched := t.prefetched } ∧ ∀ b, (∀ q, q < 32 → b ≠ (F.GAL_PF_HITS_COUNT q).addr) → t.reg b = s.reg b) →
     ((L.foldl (fun t l => (List.range 32).foldl (fun u n => u.prefetch n l) t) t) = { s with regs := (L.foldl (fun t l => (List.range 32).foldl (fun u n => u.prefetch n l) t) t).regs, prefetched := (L.foldl (fun t l => (List.range 32).foldl (fun u n => u.prefetch n l) t) t).prefetched } ∧
     ∀ b, (∀ q, q < 32 → b ≠ (F.GAL_PF_HITS_COUNT q).addr) → (L.foldl (fun t l => (List.range 32).foldl (fun u n => u.prefetch n l) t) t).reg b = s.reg b) by
    exact h s ⟨rfl, fun _ _ => rfl⟩
  induction L with
  | nil => intro t h; exact h
  | cons l L ih =>
    intro t h
    rw [List.foldl_cons]
    apply ih
    have inner : ∀ (N : List Nat), (∀ n ∈ N, n < 32) → ∀ u : State, (u = { s with regs := u.regs, prefetched := u.prefetched } ∧ ∀ b, (∀ q, q < 32 → b ≠ (F.GAL_PF_HITS_COUNT q).addr) → u.reg b = s.reg b) →
       ((N.foldl (fun u n => u.prefetch n l) u) = { s with regs := (N.foldl (fun u n => u.prefetch n l) u).regs, prefetched := (N.foldl (fun u n => u.prefetch n l) u).prefetched } ∧ ∀ b, (∀ q, q < 32 → b ≠ (F.GAL_PF_HITS_COUNT q).addr) → (N.foldl (fun u n => u.prefetch n l) u).reg b = s.reg b) := by
      intro N
      induction N with
      | nil => intro _ u h; exact h
      | cons n N ih =>
        intro hN u h
        rw [List.foldl_cons]
        apply ih (fun m hm => hN m (List.mem_cons_of_mem _ hm))
        obtain ⟨p1, p2⟩ := prefetch_eq u n l
        refine ⟨?_, fun b hb => ?_⟩
        · rw [p1, h.1]
        · rw [p2 b (hb n (hN n (List.mem_cons_self))), h.2 b hb]
    exact inner _ (fun n hn => by simpa using hn) t h

theorem sliverStreams_congr {s t : State} (h : t.regs = s.regs) (l : Nat) : t.sliverStreams l = s.sliverStreams l := by
  have e : ∀ f, t.fld f = s.fld f := fun f => State.fld_congr _ h f
  unfold State.sliverStreams State.validStreams State.sgroup State.groupCores State.dim State.listed State.regBit
  simp only [e, h, State.reg_congr _ h]

theorem startNet_keeps (s : State) (n : Nat) (first : Option Nat) : s.startNet n first = { s with nets := (s.startNet n first).nets, regs := (s.startNet n first).regs, chisel := (s.startNet n first).chisel } := by
  unfold State.startNet
  split
  · unfold State.restoreSyn
    split
    · rfl
    · dsimp only
      split <;> rfl
  · rfl

theorem loseStreams_keeps (s : State) (l : Nat) : s.loseStreams l = { s with streams := (s.loseStreams l).streams, nets := (s.loseStreams l).nets, regs := (s.loseStreams l).regs, chisel := (s.loseStreams l).chisel } := by
  unfold State.loseStreams
  suffices h : ∀ (L : List Nat) (a : State), a = { s with streams := a.streams, nets := a.nets, regs := a.regs, chisel := a.chisel } → ∀ f : State → Nat → State, (∀ b n, f b n = { b with streams := (f b n).streams, nets := (f b n).nets, regs := (f b n).regs, chisel := (f b n).chisel }) →
     L.foldl f a = { s with streams := (L.foldl f a).streams, nets := (L.foldl f a).nets, regs := (L.foldl f a).regs, chisel := (L.foldl f a).chisel } by
    refine h _ s rfl _ (fun b n => ?_)
    dsimp only
    generalize ht : (b.enabled n && (match (b.stream n).nextWin with | some w => decide (b.winStart n w ≤ b.tick) | none => false)) = o
    cases o
    · simp only [Bool.false_eq_true, ↓reduceIte]
      have := startNet_keeps (b.setStream n { b.stream n with warmWins := b.warmCount n }) n ((b.stream n).nextWin.map (b.winStart n))
      rw [this]; rfl
    · rfl
  intro L
  induction L with
  | nil => intro a h f _; exact h
  | cons n t ih =>
    intro a h f hf
    rw [List.foldl_cons]
    exact ih (f a n) (by rw [hf a n, h]) f hf


end Sys2Proof.Machine
end

