-- ==== Sys2Proof/Laws/Reg.lean ====
section
/-! SUPPORT.  Registers, fields and bits as they read after each update, and a register command that reaches its block. -/

namespace Sys2Proof.Machine

variable (s : State)

/-- A register command that reaches its block acts (R481). -/
theorem gate_reached {b : Nat} (h : Reached s b) (k : Host.Outcome State Fault Refusal) : gate b s k = k := by
  unfold gate
  rw [h.1, h.2]
  rfl

@[simp] theorem State.reg_setStream (n : Nat) (v : StreamSt) (a : Nat) : (s.setStream n v).reg a = s.reg a := (rfl)
@[simp] theorem State.fld_setStream (n : Nat) (v : StreamSt) (f : Fld) : (s.setStream n v).fld f = s.fld f := (rfl)
@[simp] theorem State.bit_setStream (n : Nat) (v : StreamSt) (f : Fld) : (s.setStream n v).bit f = s.bit f := (rfl)
@[simp] theorem State.regBit_setStream (n : Nat) (v : StreamSt) (a i : Nat) : (s.setStream n v).regBit a i = s.regBit a i := (rfl)
@[simp] theorem State.reg_setPort (n : Nat) (v : PortSt) (a : Nat) : (s.setPort n v).reg a = s.reg a := (rfl)
@[simp] theorem State.fld_setPort (n : Nat) (v : PortSt) (f : Fld) : (s.setPort n v).fld f = s.fld f := (rfl)
@[simp] theorem State.bit_setPort (n : Nat) (v : PortSt) (f : Fld) : (s.setPort n v).bit f = s.bit f := (rfl)
@[simp] theorem State.regBit_setPort (n : Nat) (v : PortSt) (a i : Nat) : (s.setPort n v).regBit a i = s.regBit a i := (rfl)
@[simp] theorem State.reg_setRing (n : Nat) (v : RingSt) (a : Nat) : (s.setRing n v).reg a = s.reg a := (rfl)
@[simp] theorem State.fld_setRing (n : Nat) (v : RingSt) (f : Fld) : (s.setRing n v).fld f = s.fld f := (rfl)
@[simp] theorem State.bit_setRing (n : Nat) (v : RingSt) (f : Fld) : (s.setRing n v).bit f = s.bit f := (rfl)
@[simp] theorem State.regBit_setRing (n : Nat) (v : RingSt) (a i : Nat) : (s.setRing n v).regBit a i = s.regBit a i := (rfl)
@[simp] theorem State.reg_setCore (n : Nat) (v : CoreSt) (a : Nat) : (s.setCore n v).reg a = s.reg a := (rfl)
@[simp] theorem State.fld_setCore (n : Nat) (v : CoreSt) (f : Fld) : (s.setCore n v).fld f = s.fld f := (rfl)
@[simp] theorem State.bit_setCore (n : Nat) (v : CoreSt) (f : Fld) : (s.setCore n v).bit f = s.bit f := (rfl)
@[simp] theorem State.regBit_setCore (n : Nat) (v : CoreSt) (a i : Nat) : (s.setCore n v).regBit a i = s.regBit a i := (rfl)
@[simp] theorem State.reg_setGrp (n : Nat) (v : GroupSt) (a : Nat) : (s.setGrp n v).reg a = s.reg a := (rfl)
@[simp] theorem State.fld_setGrp (n : Nat) (v : GroupSt) (f : Fld) : (s.setGrp n v).fld f = s.fld f := (rfl)
@[simp] theorem State.bit_setGrp (n : Nat) (v : GroupSt) (f : Fld) : (s.setGrp n v).bit f = s.bit f := (rfl)
@[simp] theorem State.regBit_setGrp (n : Nat) (v : GroupSt) (a i : Nat) : (s.setGrp n v).regBit a i = s.regBit a i := (rfl)
@[simp] theorem State.reg_setNet (n : Nat) (v : Net) (a : Nat) : (s.setNet n v).reg a = s.reg a := (rfl)
@[simp] theorem State.fld_setNet (n : Nat) (v : Net) (f : Fld) : (s.setNet n v).fld f = s.fld f := (rfl)
@[simp] theorem State.bit_setNet (n : Nat) (v : Net) (f : Fld) : (s.setNet n v).bit f = s.bit f := (rfl)
@[simp] theorem State.regBit_setNet (n : Nat) (v : Net) (a i : Nat) : (s.setNet n v).regBit a i = s.regBit a i := (rfl)
@[simp] theorem State.reg_setChan (n : Nat) (v : ChanSt) (a : Nat) : (s.setChan n v).reg a = s.reg a := (rfl)
@[simp] theorem State.fld_setChan (n : Nat) (v : ChanSt) (f : Fld) : (s.setChan n v).fld f = s.fld f := (rfl)
@[simp] theorem State.bit_setChan (n : Nat) (v : ChanSt) (f : Fld) : (s.setChan n v).bit f = s.bit f := (rfl)
@[simp] theorem State.regBit_setChan (n : Nat) (v : ChanSt) (a i : Nat) : (s.setChan n v).regBit a i = s.regBit a i := (rfl)
@[simp] theorem State.reg_setDie (n : Nat) (v : DieSt) (a : Nat) : (s.setDie n v).reg a = s.reg a := (rfl)
@[simp] theorem State.fld_setDie (n : Nat) (v : DieSt) (f : Fld) : (s.setDie n v).fld f = s.fld f := (rfl)
@[simp] theorem State.bit_setDie (n : Nat) (v : DieSt) (f : Fld) : (s.setDie n v).bit f = s.bit f := (rfl)
@[simp] theorem State.regBit_setDie (n : Nat) (v : DieSt) (a i : Nat) : (s.setDie n v).regBit a i = s.regBit a i := (rfl)
@[simp] theorem State.reg_setLib (n : Nat) (v : LibSt) (a : Nat) : (s.setLib n v).reg a = s.reg a := (rfl)
@[simp] theorem State.fld_setLib (n : Nat) (v : LibSt) (f : Fld) : (s.setLib n v).fld f = s.fld f := (rfl)
@[simp] theorem State.bit_setLib (n : Nat) (v : LibSt) (f : Fld) : (s.setLib n v).bit f = s.bit f := (rfl)
@[simp] theorem State.regBit_setLib (n : Nat) (v : LibSt) (a i : Nat) : (s.setLib n v).regBit a i = s.regBit a i := (rfl)
@[simp] theorem State.reg_setTPort (n : Nat) (v : TPortSt) (a : Nat) : (s.setTPort n v).reg a = s.reg a := (rfl)
@[simp] theorem State.fld_setTPort (n : Nat) (v : TPortSt) (f : Fld) : (s.setTPort n v).fld f = s.fld f := (rfl)
@[simp] theorem State.bit_setTPort (n : Nat) (v : TPortSt) (f : Fld) : (s.setTPort n v).bit f = s.bit f := (rfl)
@[simp] theorem State.regBit_setTPort (n : Nat) (v : TPortSt) (a i : Nat) : (s.setTPort n v).regBit a i = s.regBit a i := (rfl)

@[simp] theorem State.stream_setReg (a : Nat) (v : Word) (n : Nat) : (s.setReg a v).stream n = s.stream n := (rfl)
@[simp] theorem State.stream_setFld (f : Fld) (v : Nat) (n : Nat) : (s.setFld f v).stream n = s.stream n := (rfl)
@[simp] theorem State.stream_setBit (f : Fld) (b : Bool) (n : Nat) : (s.setBit f b).stream n = s.stream n := (rfl)
@[simp] theorem State.stream_bump (f : Fld) (k : Nat) (n : Nat) : (s.bump f k).stream n = s.stream n := (rfl)
@[simp] theorem State.stream_setRegBit (a i : Nat) (b : Bool) (n : Nat) : (s.setRegBit a i b).stream n = s.stream n := (rfl)
@[simp] theorem State.stream_setPort (m : Nat) (v : PortSt) (n : Nat) : (s.setPort m v).stream n = s.stream n := (rfl)
@[simp] theorem State.stream_setCore (m : Nat) (v : CoreSt) (n : Nat) : (s.setCore m v).stream n = s.stream n := (rfl)
@[simp] theorem State.stream_setGrp (m : Nat) (v : GroupSt) (n : Nat) : (s.setGrp m v).stream n = s.stream n := (rfl)
@[simp] theorem State.stream_setNet (m : Nat) (v : Net) (n : Nat) : (s.setNet m v).stream n = s.stream n := (rfl)
@[simp] theorem State.stream_setRing (m : Nat) (v : RingSt) (n : Nat) : (s.setRing m v).stream n = s.stream n := (rfl)
@[simp] theorem State.port_setReg (a : Nat) (v : Word) (n : Nat) : (s.setReg a v).port n = s.port n := (rfl)
@[simp] theorem State.port_setFld (f : Fld) (v : Nat) (n : Nat) : (s.setFld f v).port n = s.port n := (rfl)
@[simp] theorem State.port_setBit (f : Fld) (b : Bool) (n : Nat) : (s.setBit f b).port n = s.port n := (rfl)
@[simp] theorem State.port_bump (f : Fld) (k : Nat) (n : Nat) : (s.bump f k).port n = s.port n := (rfl)
@[simp] theorem State.port_setRegBit (a i : Nat) (b : Bool) (n : Nat) : (s.setRegBit a i b).port n = s.port n := (rfl)
@[simp] theorem State.port_setStream (m : Nat) (v : StreamSt) (n : Nat) : (s.setStream m v).port n = s.port n := (rfl)
@[simp] theorem State.port_setCore (m : Nat) (v : CoreSt) (n : Nat) : (s.setCore m v).port n = s.port n := (rfl)
@[simp] theorem State.port_setGrp (m : Nat) (v : GroupSt) (n : Nat) : (s.setGrp m v).port n = s.port n := (rfl)
@[simp] theorem State.port_setNet (m : Nat) (v : Net) (n : Nat) : (s.setNet m v).port n = s.port n := (rfl)
@[simp] theorem State.port_setRing (m : Nat) (v : RingSt) (n : Nat) : (s.setRing m v).port n = s.port n := (rfl)
@[simp] theorem State.core_setReg (a : Nat) (v : Word) (n : Nat) : (s.setReg a v).core n = s.core n := (rfl)
@[simp] theorem State.core_setFld (f : Fld) (v : Nat) (n : Nat) : (s.setFld f v).core n = s.core n := (rfl)
@[simp] theorem State.core_setBit (f : Fld) (b : Bool) (n : Nat) : (s.setBit f b).core n = s.core n := (rfl)
@[simp] theorem State.core_bump (f : Fld) (k : Nat) (n : Nat) : (s.bump f k).core n = s.core n := (rfl)
@[simp] theorem State.core_setRegBit (a i : Nat) (b : Bool) (n : Nat) : (s.setRegBit a i b).core n = s.core n := (rfl)
@[simp] theorem State.core_setStream (m : Nat) (v : StreamSt) (n : Nat) : (s.setStream m v).core n = s.core n := (rfl)
@[simp] theorem State.core_setPort (m : Nat) (v : PortSt) (n : Nat) : (s.setPort m v).core n = s.core n := (rfl)
@[simp] theorem State.core_setGrp (m : Nat) (v : GroupSt) (n : Nat) : (s.setGrp m v).core n = s.core n := (rfl)
@[simp] theorem State.core_setNet (m : Nat) (v : Net) (n : Nat) : (s.setNet m v).core n = s.core n := (rfl)
@[simp] theorem State.core_setRing (m : Nat) (v : RingSt) (n : Nat) : (s.setRing m v).core n = s.core n := (rfl)
@[simp] theorem State.grp_setReg (a : Nat) (v : Word) (n : Nat) : (s.setReg a v).grp n = s.grp n := (rfl)
@[simp] theorem State.grp_setFld (f : Fld) (v : Nat) (n : Nat) : (s.setFld f v).grp n = s.grp n := (rfl)
@[simp] theorem State.grp_setBit (f : Fld) (b : Bool) (n : Nat) : (s.setBit f b).grp n = s.grp n := (rfl)
@[simp] theorem State.grp_bump (f : Fld) (k : Nat) (n : Nat) : (s.bump f k).grp n = s.grp n := (rfl)
@[simp] theorem State.grp_setRegBit (a i : Nat) (b : Bool) (n : Nat) : (s.setRegBit a i b).grp n = s.grp n := (rfl)
@[simp] theorem State.grp_setStream (m : Nat) (v : StreamSt) (n : Nat) : (s.setStream m v).grp n = s.grp n := (rfl)
@[simp] theorem State.grp_setPort (m : Nat) (v : PortSt) (n : Nat) : (s.setPort m v).grp n = s.grp n := (rfl)
@[simp] theorem State.grp_setCore (m : Nat) (v : CoreSt) (n : Nat) : (s.setCore m v).grp n = s.grp n := (rfl)
@[simp] theorem State.grp_setNet (m : Nat) (v : Net) (n : Nat) : (s.setNet m v).grp n = s.grp n := (rfl)
@[simp] theorem State.grp_setRing (m : Nat) (v : RingSt) (n : Nat) : (s.setRing m v).grp n = s.grp n := (rfl)
@[simp] theorem State.net_setReg (a : Nat) (v : Word) (n : Nat) : (s.setReg a v).net n = s.net n := (rfl)
@[simp] theorem State.net_setFld (f : Fld) (v : Nat) (n : Nat) : (s.setFld f v).net n = s.net n := (rfl)
@[simp] theorem State.net_setBit (f : Fld) (b : Bool) (n : Nat) : (s.setBit f b).net n = s.net n := (rfl)
@[simp] theorem State.net_bump (f : Fld) (k : Nat) (n : Nat) : (s.bump f k).net n = s.net n := (rfl)
@[simp] theorem State.net_setRegBit (a i : Nat) (b : Bool) (n : Nat) : (s.setRegBit a i b).net n = s.net n := (rfl)
@[simp] theorem State.net_setStream (m : Nat) (v : StreamSt) (n : Nat) : (s.setStream m v).net n = s.net n := (rfl)
@[simp] theorem State.net_setPort (m : Nat) (v : PortSt) (n : Nat) : (s.setPort m v).net n = s.net n := (rfl)
@[simp] theorem State.net_setCore (m : Nat) (v : CoreSt) (n : Nat) : (s.setCore m v).net n = s.net n := (rfl)
@[simp] theorem State.net_setGrp (m : Nat) (v : GroupSt) (n : Nat) : (s.setGrp m v).net n = s.net n := (rfl)
@[simp] theorem State.net_setRing (m : Nat) (v : RingSt) (n : Nat) : (s.setRing m v).net n = s.net n := (rfl)
@[simp] theorem State.ring_setReg (a : Nat) (v : Word) (n : Nat) : (s.setReg a v).ring n = s.ring n := (rfl)
@[simp] theorem State.ring_setFld (f : Fld) (v : Nat) (n : Nat) : (s.setFld f v).ring n = s.ring n := (rfl)
@[simp] theorem State.ring_setBit (f : Fld) (b : Bool) (n : Nat) : (s.setBit f b).ring n = s.ring n := (rfl)
@[simp] theorem State.ring_bump (f : Fld) (k : Nat) (n : Nat) : (s.bump f k).ring n = s.ring n := (rfl)
@[simp] theorem State.ring_setRegBit (a i : Nat) (b : Bool) (n : Nat) : (s.setRegBit a i b).ring n = s.ring n := (rfl)
@[simp] theorem State.ring_setStream (m : Nat) (v : StreamSt) (n : Nat) : (s.setStream m v).ring n = s.ring n := (rfl)
@[simp] theorem State.ring_setPort (m : Nat) (v : PortSt) (n : Nat) : (s.setPort m v).ring n = s.ring n := (rfl)
@[simp] theorem State.ring_setCore (m : Nat) (v : CoreSt) (n : Nat) : (s.setCore m v).ring n = s.ring n := (rfl)
@[simp] theorem State.ring_setGrp (m : Nat) (v : GroupSt) (n : Nat) : (s.setGrp m v).ring n = s.ring n := (rfl)
@[simp] theorem State.ring_setNet (m : Nat) (v : Net) (n : Nat) : (s.setNet m v).ring n = s.ring n := (rfl)

theorem State.bit_setFld_other (f g : Fld) (v : Nat) (h : g.addr ≠ f.addr ∨ g.lo + g.w ≤ f.lo ∨ f.lo + f.w ≤ g.lo) :
    (s.setFld f v).bit g = s.bit g := by unfold State.bit; rw [fld_setFld_other _ _ _ _ h]

theorem State.bit_setBit_other (f g : Fld) (b : Bool) (h : g.addr ≠ f.addr ∨ g.lo + g.w ≤ f.lo ∨ f.lo + f.w ≤ g.lo) :
    (s.setBit f b).bit g = s.bit g := bit_setFld_other s f g _ h

theorem State.bit_bump_other (f g : Fld) (n : Nat) (h : g.addr ≠ f.addr ∨ g.lo + g.w ≤ f.lo ∨ f.lo + f.w ≤ g.lo) :
    (s.bump f n).bit g = s.bit g := bit_setFld_other s f g _ h

theorem State.bit_setReg_ne (g : Fld) {a : Nat} (v : Word) (h : g.addr ≠ a) : (s.setReg a v).bit g = s.bit g := by
  unfold State.bit; rw [fld_setReg_ne _ _ _ h]

theorem State.fld_setRegBit_ne (g : Fld) (a i : Nat) (b : Bool) (h : g.addr ≠ a) : (s.setRegBit a i b).fld g = s.fld g := fld_setReg_ne s g _ h

theorem State.bit_setRegBit_ne (g : Fld) (a i : Nat) (b : Bool) (h : g.addr ≠ a) : (s.setRegBit a i b).bit g = s.bit g := bit_setReg_ne s g _ h

theorem State.fld_alarm (f g : Fld) (u : Nat) (h1 : g.addr ≠ f.addr) (h2 : g.addr ≠ R.POWER_SUMMARY) (h : g.addr ∉ lostRegs) :
    (s.alarm f u).fld g = s.fld g := by unfold State.fld; rw [reg_alarm _ _ _ _ h1 h2 h]

/-- A single bit of a register reads as a field of one bit. -/
theorem State.bit_eq_regBit (f : Fld) (h : f.w = 1) : s.bit f = s.regBit f.addr f.lo := by
  unfold State.bit State.fld State.regBit
  rw [h]
  have e : ((s.reg f.addr).extractLsb' f.lo 1) = BitVec.ofBool ((s.reg f.addr).getLsbD f.lo) := by
    apply BitVec.eq_of_getLsbD_eq
    intro i hi
    have : i = 0 := by omega
    subst this
    simp [BitVec.getLsbD_extractLsb']
  rw [e]
  cases (s.reg f.addr).getLsbD f.lo <;> rfl

@[simp] theorem State.stream_alarm (f : Fld) (u n : Nat) : (s.alarm f u).stream n = s.stream n := by rw [State.alarm_keeps]; rfl
@[simp] theorem State.port_alarm (f : Fld) (u n : Nat) : (s.alarm f u).port n = s.port n := by rw [State.alarm_keeps]; rfl
@[simp] theorem State.core_alarm (f : Fld) (u n : Nat) : (s.alarm f u).core n = s.core n := by rw [State.alarm_keeps]; rfl
@[simp] theorem State.grp_alarm (f : Fld) (u n : Nat) : (s.alarm f u).grp n = s.grp n := by rw [State.alarm_keeps]; rfl
@[simp] theorem State.net_alarm (f : Fld) (u n : Nat) : (s.alarm f u).net n = s.net n := by rw [State.alarm_keeps]; rfl
@[simp] theorem State.ring_alarm (f : Fld) (u n : Nat) : (s.alarm f u).ring n = s.ring n := by rw [State.alarm_keeps]; rfl

/-- Recording a fault changes the fault history alone (R496). -/
theorem State.recordFault_eq (u : FaultUnit) (hard : Bool) :
    s.recordFault u hard = (hard || decide (2 ≤ s.recentFaults u), { s with faults := keepTwo ((u, s.uptime) :: s.faults) u }) := (rfl)

/-- Raising an alarm does what the statements say of it. -/
theorem onlyAlarm (f : Fld) (u : Nat) (hw : f.w = 1) (hl : f.lo < 32) (h2 : f.addr ≠ R.POWER_SUMMARY) (h : f.addr ∉ lostRegs) :
    OnlyAlarm s (s.alarm f u) f := by
  refine ⟨State.alarm_keeps _ _ _, State.bit_alarm _ _ _ hw hl h2 h, fun a ha => State.reg_alarm _ _ _ _ ?_ ?_ ?_⟩
  · intro e; exact ha (by rw [e]; unfold alarmRegs; exact List.mem_cons_self)
  · intro e; exact ha (by rw [e]; unfold alarmRegs; simp)
  · intro e
    apply ha
    unfold alarmRegs lostRegs at *
    simp only [List.mem_cons, List.not_mem_nil, or_false] at e ⊢
    rcases e with e | e | e
    · exact .inr (.inr (.inl e))
    · exact .inr (.inr (.inr e))
    · exact .inr (.inl e)

end Sys2Proof.Machine
end

