-- ==== Sys2Proof/Laws/Adit.lean ====
section
/-! SUPPORT.  What Adit's shared operations can change: samples, resets and suspension touch streams alone. -/

namespace Sys2Proof.Machine

/-- `t` differs from `s` in its streams alone. -/
def OnlyStreams (s t : State) : Prop := t = { s with streams := t.streams }

theorem OnlyStreams.refl (s : State) : OnlyStreams s s := rfl

theorem OnlyStreams.trans {s t u : State} (h1 : OnlyStreams s t) (h2 : OnlyStreams t u) : OnlyStreams s u := by
  unfold OnlyStreams at *
  exact h2.trans (by rw [h1])

theorem onlyStreams_set (s : State) (n : Nat) (v : StreamSt) : OnlyStreams s (s.setStream n v) := rfl

theorem OnlyStreams.foldl {α : Type} (f : State → α → State) (h : ∀ a x, OnlyStreams a (f a x)) (l : List α) : ∀ s, OnlyStreams s (l.foldl f s) := by
  induction l with
  | nil => exact OnlyStreams.refl
  | cons x t ih => intro s; exact (h s x).trans (ih _)

theorem OnlyStreams.regs {s t : State} (h : OnlyStreams s t) : t.regs = s.regs := by unfold OnlyStreams at h; rw [h]
theorem OnlyStreams.reg {s t : State} (h : OnlyStreams s t) (a : Nat) : t.reg a = s.reg a := State.reg_congr _ h.regs a
theorem OnlyStreams.fld {s t : State} (h : OnlyStreams s t) (f : Fld) : t.fld f = s.fld f := State.fld_congr _ h.regs f
theorem OnlyStreams.bit {s t : State} (h : OnlyStreams s t) (f : Fld) : t.bit f = s.bit f := by unfold State.bit; rw [h.fld]
theorem OnlyStreams.regBit {s t : State} (h : OnlyStreams s t) (a i : Nat) : t.regBit a i = s.regBit a i := by unfold State.regBit; rw [h.reg]
theorem OnlyStreams.port {s t : State} (h : OnlyStreams s t) (p : Nat) : t.port p = s.port p := by unfold OnlyStreams at h; rw [h]; rfl

theorem feed_only (s : State) (n : Nat) (raw : Int) (sh : Nat) (full held : Bool) (ts : Nat) : OnlyStreams s (s.feed n raw sh full held ts) := by
  unfold State.feed
  dsimp only
  split
  · exact OnlyStreams.refl s
  · exact onlyStreams_set s n _

theorem feedHeld_only (n sh per k : Nat) : ∀ (s : State) (ts : Nat), OnlyStreams s (s.feedHeld n sh per ts k) := by
  induction k with
  | zero => intro s ts; exact OnlyStreams.refl s
  | succ k ih => intro s ts; exact (feed_only s n _ _ _ _ _).trans (ih _ _)

theorem fillGap_only (s : State) (n sh per ts k : Nat) : OnlyStreams s (s.fillGap n sh per ts k) := by
  unfold State.fillGap
  split
  · exact OnlyStreams.refl s
  · split
    · exact feedHeld_only n sh per k s ts
    · exact onlyStreams_set s n _

theorem syncReset_only (s : State) (n : Nat) (w : Bool) : OnlyStreams s (s.syncReset n w) := onlyStreams_set s n _

theorem syncResetPort_only (s : State) (p : Nat) : OnlyStreams s (s.syncResetPort p) :=
  OnlyStreams.foldl _ (fun a n => syncReset_only a n false) _ s

theorem suspendStream_only (s : State) (n per ts : Nat) : OnlyStreams s (s.suspendStream n per ts) := by
  unfold State.suspendStream
  dsimp only
  split
  · exact OnlyStreams.refl s
  · split
    · exact onlyStreams_set s n _
    · split
      · exact onlyStreams_set s n _
      · exact (feedHeld_only n 0 per _ s ts).trans (onlyStreams_set _ n _)

theorem suspendPort_only (s : State) (p : Nat) : OnlyStreams s (s.suspendPort p) :=
  OnlyStreams.foldl _ (fun a n => suspendStream_only a n _ _) _ s

theorem resumeStream_only (s : State) (n : Nat) : OnlyStreams s (s.resumeStream n) := by
  unfold State.resumeStream
  dsimp only
  split
  · exact OnlyStreams.refl s
  · exact (onlyStreams_set s n _).trans (syncReset_only _ n false)

theorem gainChange_only (s : State) (n : Nat) : OnlyStreams s (s.gainChange n) := onlyStreams_set s n _

/-- `t` differs from `s` in its streams, the messages on the fabric and the count of undeliverable messages alone. -/
def OnlySent (s t : State) : Prop :=
  t = { s with regs := t.regs, streams := t.streams, fabric := t.fabric } ∧ ∀ a, a ≠ F.GAL_EDGE_BADDEST_COUNT.addr → t.reg a = s.reg a

theorem OnlySent.refl (s : State) : OnlySent s s := ⟨rfl, fun _ _ => rfl⟩

theorem OnlySent.trans {s t u : State} (h1 : OnlySent s t) (h2 : OnlySent t u) : OnlySent s u :=
  ⟨h2.1.trans (by rw [h1.1]), fun a ha => (h2.2 a ha).trans (h1.2 a ha)⟩

theorem OnlySent.foldl {α : Type} (f : State → α → State) (h : ∀ a x, OnlySent a (f a x)) (l : List α) : ∀ s, OnlySent s (l.foldl f s) := by
  induction l with
  | nil => exact OnlySent.refl
  | cons x t ih => intro s; exact (h s x).trans (ih _)

theorem OnlyStreams.sent {s t : State} (h : OnlyStreams s t) : OnlySent s t := by
  refine ⟨?_, fun a _ => h.reg a⟩
  unfold OnlyStreams at h
  rw [h]

theorem inject_sent (s : State) (m : Msg) : OnlySent s (s.inject m) := by
  unfold State.inject
  split
  · exact ⟨State.bump_eq s _ _, fun a ha => State.reg_bump_ne s _ _ ha⟩
  · exact ⟨State.bump_eq s _ _, fun a ha => State.reg_bump_ne s _ _ ha⟩
  · exact ⟨rfl, fun _ _ => rfl⟩

theorem aditSpikesOut_sent (s : State) (n t : Nat) (l : List Nat) : OnlySent s (s.aditSpikesOut n t l) :=
  OnlySent.foldl _ (fun a _ => inject_sent a _) _ s

theorem sendEvents_sent (s : State) (n b : Nat) : OnlySent s (s.sendEvents n b) := by
  unfold State.sendEvents
  dsimp only
  split
  · exact OnlySent.refl s
  · split
    · exact (onlyStreams_set s n _).sent.trans (OnlySent.foldl _ (fun a _ => aditSpikesOut_sent a _ _ _) _ _)
    · exact (onlyStreams_set s n _).sent

theorem OnlySent.port {s t : State} (h : OnlySent s t) (p : Nat) : t.port p = s.port p := by rw [h.1]; rfl

end Sys2Proof.Machine
end

