-- ==== Sys2Proof/Laws/Gallery.lean ====
section
/-! SUPPORT.  What Gallery's shared operations can change: updates of cores alone, group commands that are refused or held. -/

namespace Sys2Proof.Machine

/-- `t` differs from `s` in its cores alone. -/
def OnlyCores (s t : State) : Prop := t = { s with cores := t.cores }

theorem OnlyCores.refl (s : State) : OnlyCores s s := rfl

theorem OnlyCores.trans {s t u : State} (h1 : OnlyCores s t) (h2 : OnlyCores t u) : OnlyCores s u := by
  unfold OnlyCores at *
  exact h2.trans (by rw [h1])

theorem onlyCores_set (s : State) (n : Nat) (v : CoreSt) : OnlyCores s (s.setCore n v) := rfl

theorem OnlyCores.foldl {α : Type} (f : State → α → State) (h : ∀ a x, OnlyCores a (f a x)) (l : List α) : ∀ s, OnlyCores s (l.foldl f s) := by
  induction l with
  | nil => exact OnlyCores.refl
  | cons x t ih => intro s; exact (h s x).trans (ih _)

theorem OnlyCores.regs {s t : State} (h : OnlyCores s t) : t.regs = s.regs := by unfold OnlyCores at h; rw [h]
theorem OnlyCores.reg {s t : State} (h : OnlyCores s t) (a : Nat) : t.reg a = s.reg a := State.reg_congr _ h.regs a
theorem OnlyCores.fld {s t : State} (h : OnlyCores s t) (f : Fld) : t.fld f = s.fld f := State.fld_congr _ h.regs f
theorem OnlyCores.bit {s t : State} (h : OnlyCores s t) (f : Fld) : t.bit f = s.bit f := by unfold State.bit; rw [h.fld]
theorem OnlyCores.regBit {s t : State} (h : OnlyCores s t) (a i : Nat) : t.regBit a i = s.regBit a i := by unfold State.regBit; rw [h.reg]
theorem OnlyCores.port {s t : State} (h : OnlyCores s t) (p : Nat) : t.port p = s.port p := by unfold OnlyCores at h; rw [h]; rfl

theorem OnlyCores.grp {s t : State} (h : OnlyCores s t) (g : Nat) : t.grp g = s.grp g := by unfold OnlyCores at h; rw [h]; rfl
theorem OnlyCores.groupState {s t : State} (h : OnlyCores s t) (g : Nat) : t.groupState g = s.groupState g := by unfold State.groupState; exact h.fld _

theorem foldl_setCore_get (g : CoreSt → CoreSt) (hg : ∀ k, g (g k) = g k) (L : List Nat) : ∀ (a : State) (d : Nat),
    (L.foldl (fun a c => a.setCore c (g (a.core c))) a).core d = if d ∈ L then g (a.core d) else a.core d := by
  induction L with
  | nil => intro a d; simp
  | cons x t ih =>
    intro a d
    rw [List.foldl_cons, ih]
    by_cases h : d = x
    · subst h; simp [hg]
    · simp [State.core_setCore_ne _ _ h, h]

theorem foldl_setCore_only (g : State → Nat → CoreSt) (L : List Nat) (a : State) : OnlyCores a (L.foldl (fun a c => a.setCore c (g a c)) a) :=
  OnlyCores.foldl _ (fun a c => onlyCores_set a c _) L a

theorem loadCore_only (s : State) (c : Nat) : OnlyCores s (s.loadCore c) := by
  unfold State.loadCore
  dsimp only
  split
  · exact OnlyCores.refl s
  · exact onlyCores_set s c _

theorem startCore_only (s : State) (c : Nat) : OnlyCores s (s.startCore c) := by
  unfold State.startCore
  dsimp only
  split
  · exact OnlyCores.refl s
  · exact (loadCore_only s c).trans (onlyCores_set _ c _)

theorem groupGate_ok (s : State) (g : Group) (k : Out) (h : Reached s 3) (hq : s.power.quiet = false) : groupGate g s k = k := by
  unfold groupGate; rw [gate_reached _ h, hq]; rfl

theorem groupGate_quiet (s : State) (g : Group) (k : Out) (h : Reached s 3) (hq : s.power.quiet = true) : groupGate g s k = .next (s.galRefuse g.toNat) := by
  unfold groupGate; rw [gate_reached _ h, hq]; rfl

theorem onlyRefused (s : State) (u : Nat) : OnlyAlarm s (s.galRefuse u) F.GAL_ALARM_CMD_REFUSED := by
  unfold State.galRefuse; exact onlyAlarm _ _ _ (by rfl) (by decide) (by decide) (by decide)
/-- A group command refused with power quiet or command otherwise refused. -/

theorem groupGate_refused (s : State) (g : Group) (k : Out) (h : Reached s 3) (hk : s.power.quiet = false → k = .next (s.galRefuse g.toNat)) : ∃ t, groupGate g s k = .next t ∧ OnlyAlarm s t F.GAL_ALARM_CMD_REFUSED := by
  cases hq : s.power.quiet
  · exact ⟨_, (groupGate_ok s g k h hq).trans (hk hq), onlyRefused s _⟩
  · exact ⟨_, groupGate_quiet s g k h hq, onlyRefused s _⟩

theorem holdCmd_refuse (s : State) (g c st : Nat) (h : s.groupState g ≠ st ∨ (s.grp g).pend ≠ none) : s.holdCmd g c st = s.galRefuse g := by
  unfold State.holdCmd; rw [if_pos]; rcases h with h | h
  · exact .inl h
  · right; cases hp : (s.grp g).pend <;> simp_all

theorem onlyGroup_hold (s : State) (g c st : Nat) (h : s.groupState g = st) (hp : (s.grp g).pend = none) : OnlyGroup s (s.holdCmd g c st) g { s.grp g with pend := some c } := by
  unfold State.holdCmd; rw [if_neg (by simp [h, hp])]
  exact ⟨rfl, State.grp_setGrp_same _ _ _, fun h hn => State.grp_setGrp_ne _ _ hn⟩

theorem OnlyStreams.core {s t : State} (h : OnlyStreams s t) (c : Nat) : t.core c = s.core c := by unfold OnlyStreams at h; rw [h]; rfl

theorem gapStreams_only (s : State) (l : Nat) : OnlyStreams s (s.gapStreams l) := (gapStreams_eq s l).1

/-- A fenced core is fenced (R154). -/
theorem fence_fenced (s : State) (c : Nat) : ((s.fence c).core c).fenced = true := by
  unfold State.fence
  dsimp only
  split
  · next h => exact h
  · rw [State.core_alarm]
    split
    · rw [(gapStreams_only _ _).core, State.core_bump, State.core_setCore_same]
    · rw [State.core_bump, State.core_setCore_same]

end Sys2Proof.Machine
end

