-- ==== Sys2Proof/Laws/KeyStoreBase.lean ====
section
/-! SUPPORT.  The key store (R466): every operation of the model but KEY_ENROL leaves it alone, one lemma an operation. -/

namespace Sys2Proof.Machine

@[simp] theorem secret_mk (chans : List (Nat × ChanSt)) (hdrs : List BankHdr) (revoked : List Nat) (keys : List OwnerKey) (boot : Option Boot)
    (trialAt : Nat) (fwJob : Option FwJob) (load : Option LoadJob) (libJob : Option LibJob) (updateLost rolledBack : List Nat) (noticesDue : Bool) :
    (LanternSt.mk chans hdrs revoked keys boot trialAt fwJob load libJob updateLost rolledBack noticesDue).secret = (keys, revoked) := (rfl)

@[simp] theorem secret_fold (l : LanternSt) : (l.keys, l.revoked) = l.secret := (rfl)

@[simp] theorem secretOf_next (t : State) : secretOf (.next t) = some t.lantern.secret := (rfl)

@[simp] theorem ite_secret (c : Prop) [Decidable c] (a b : State) :
    (ite c a b).lantern.secret = if c then a.lantern.secret else b.lantern.secret := by split <;> rfl

@[simp] theorem ite_fst_secret {β : Type} (c : Prop) [Decidable c] (a b : State × β) :
    (ite c a b).1.lantern.secret = if c then a.1.lantern.secret else b.1.lantern.secret := by split <;> rfl

@[simp] theorem ite_snd_secret {β : Type} (c : Prop) [Decidable c] (a b : β × State) :
    (ite c a b).2.lantern.secret = if c then a.2.lantern.secret else b.2.lantern.secret := by split <;> rfl

@[simp] theorem ite_snd_snd_secret {β γ : Type} (c : Prop) [Decidable c] (a b : β × γ × State) :
    (ite c a b).2.2.lantern.secret = if c then a.2.2.lantern.secret else b.2.2.lantern.secret := by split <;> rfl

@[simp] theorem secretOf_ite (c : Prop) [Decidable c] (a b : Host.Outcome State Fault Refusal) :
    secretOf (ite c a b) = if c then secretOf a else secretOf b := by split <;> rfl

@[simp] theorem foldl_secret {β : Type} {g : State → β → State} (h : ∀ a x, (g a x).lantern.secret = a.lantern.secret) (l : List β) (s : State) :
    (l.foldl g s).lantern.secret = s.lantern.secret := by
  induction l generalizing s with
  | nil => rfl
  | cons x t ih => rw [List.foldl_cons, ih, h]

theorem foldl_fst_secret {β γ : Type} {g : State × γ → β → State × γ} (h : ∀ a x, (g a x).1.lantern.secret = a.1.lantern.secret) (l : List β)
    (a : State × γ) : (l.foldl g a).1.lantern.secret = a.1.lantern.secret := by
  induction l generalizing a with
  | nil => rfl
  | cons x t ih => rw [List.foldl_cons, ih, h]

@[simp] theorem secret_State_setReg (s : State) (a : Nat) (v : Word) : (State.setReg s a v).lantern.secret = s.lantern.secret := by unfold State.setReg; simp

@[simp] theorem secret_State_setFld (s : State) (f : Fld) (v : Nat) : (State.setFld s f v).lantern.secret = s.lantern.secret := by unfold State.setFld; simp

@[simp] theorem secret_State_setBit (s : State) (f : Fld) (b : Bool) : (State.setBit s f b).lantern.secret = s.lantern.secret := by unfold State.setBit; simp

@[simp] theorem secret_State_bump (s : State) (f : Fld) (n : Nat) : (State.bump s f n).lantern.secret = s.lantern.secret := by unfold State.bump; simp

@[simp] theorem secret_State_setRegBit (s : State) (a i : Nat) (b : Bool) : (State.setRegBit s a i b).lantern.secret = s.lantern.secret := by unfold State.setRegBit; simp

@[simp] theorem secret_State_set64 (s : State) (a v : Nat) : (State.set64 s a v).lantern.secret = s.lantern.secret := by unfold State.set64; simp

@[simp] theorem secret_State_bump64 (s : State) (a n : Nat) : (State.bump64 s a n).lantern.secret = s.lantern.secret := by unfold State.bump64; simp

@[simp] theorem secret_State_prbsOff (s : State) (p : Nat) : (State.prbsOff s p).lantern.secret = s.lantern.secret := by unfold State.prbsOff; simp

@[simp] theorem secret_State_draw (s : State) : (State.draw s).2.lantern.secret = s.lantern.secret := by unfold State.draw; simp

@[simp] theorem secret_State_setStream (s : State) (n : Nat) (v : StreamSt) : (State.setStream s n v).lantern.secret = s.lantern.secret := by unfold State.setStream; simp

@[simp] theorem secret_State_setPort (s : State) (p : Nat) (v : PortSt) : (State.setPort s p v).lantern.secret = s.lantern.secret := by unfold State.setPort; simp

@[simp] theorem secret_State_setRing (s : State) (r : Nat) (v : RingSt) : (State.setRing s r v).lantern.secret = s.lantern.secret := by unfold State.setRing; simp

@[simp] theorem secret_State_recordFault (s : State) (u : FaultUnit) (hard : Bool) : (State.recordFault s u hard).2.lantern.secret = s.lantern.secret := by unfold State.recordFault; simp

@[simp] theorem secret_State_hostWrite (s : State) (a : Nat) (bs : List Byte) : (State.hostWrite s a bs).lantern.secret = s.lantern.secret := by unfold State.hostWrite; simp

@[simp] theorem secret_State_queueAlarm (s : State) (code block inst : Nat) (detail : List (Nat × Nat × Nat)) : (State.queueAlarm s code block inst detail).lantern.secret = s.lantern.secret := by unfold State.queueAlarm; simp

@[simp] theorem secret_State_alarm (s : State) (f : Fld) (unit : Nat) : (State.alarm s f unit).lantern.secret = s.lantern.secret := by unfold State.alarm; simp

@[simp] theorem secret_State_deviceFault (s : State) (cause unit : Nat) : (State.deviceFault s cause unit).lantern.secret = s.lantern.secret := by unfold State.deviceFault; simp

@[simp] theorem secret_gate (block : Nat) (s : State) (k : Host.Outcome State Fault Refusal) (h : secretOf k = some s.lantern.secret) :
    secretOf (gate block s k) = some s.lantern.secret := by
  unfold gate; (repeat' split) <;> simp [h]

@[simp] theorem secret_State_statusLine (s : State) (r : Nat) : (State.statusLine s r).lantern.secret = s.lantern.secret := by unfold State.statusLine; simp

@[simp] theorem secret_State_sendMsi (s : State) (v : Nat) : (State.sendMsi s v).lantern.secret = s.lantern.secret := by unfold State.sendMsi; simp

@[simp] theorem secret_State_covered (s : State) (r n : Nat) : (State.covered s r n).lantern.secret = s.lantern.secret := by unfold State.covered; simp

@[simp] theorem secret_State_devAdvance (s : State) (r n : Nat) : (State.devAdvance s r n).lantern.secret = s.lantern.secret := by unfold State.devAdvance; simp

@[simp] theorem secret_State_complete (s : State) (r idx status cflags aux result : Nat) : (State.complete s r idx status cflags aux result).lantern.secret = s.lantern.secret := by unfold State.complete; simp

@[simp] theorem secret_State_beginDesc (s : State) (r idx : Nat) : (State.beginDesc s r idx).lantern.secret = s.lantern.secret := by unfold State.beginDesc; simp

@[simp] theorem secret_State_dmaError (s : State) : (State.dmaError s).lantern.secret = s.lantern.secret := by unfold State.dmaError; simp

@[simp] theorem secret_State_putRecord (s : State) (r : Nat) (rec_ : Slot) : (State.putRecord s r rec_).lantern.secret = s.lantern.secret := by unfold State.putRecord; simp

@[simp] theorem secret_State_putRec (s : State) (r : Nat) (w : RingRec) : (s.putRec r w).lantern.secret = s.lantern.secret := by
  cases w with
  | raw w => simp [State.putRec]
  | result w q => cases q <;> simp [State.putRec]

@[simp] theorem secret_State_noteBacklog (s : State) (r : Nat) : (State.noteBacklog s r).lantern.secret = s.lantern.secret := by unfold State.noteBacklog; simp

@[simp] theorem secret_State_sendRecord (s : State) (r : Nat) (w : RingRec) : (s.sendRecord r w).lantern.secret = s.lantern.secret := by
  unfold State.sendRecord; (repeat' split) <;> simp

@[simp] theorem secret_State_putWindow (s : State) (w : Result) : (State.putWindow s w).lantern.secret = s.lantern.secret := by unfold State.putWindow; dsimp only; (repeat' split) <;> simp

@[simp] theorem secret_State_flushWindows (s : State) (n after k : Nat) : (s.flushWindows n after k).lantern.secret = s.lantern.secret := by
  induction k generalizing s after with
  | zero => rfl
  | succ k ih =>
    unfold State.flushWindows
    split
    · rfl
    · split
      · rfl
      · rw [ih]; simp

@[simp] theorem secret_State_windowRecord (s : State) (w : Result) : (s.windowRecord w).lantern.secret = s.lantern.secret := by
  unfold State.windowRecord; (repeat' split) <;> simp

@[simp] theorem secret_State_skipWindow (s : State) (n reason start aditFlags : Nat) : (State.skipWindow s n reason start aditFlags).lantern.secret = s.lantern.secret := by unfold State.skipWindow; simp

@[simp] theorem secret_State_endExport (s : State) (q : ExportReq) (status result : Nat) : (State.endExport s q status result).lantern.secret = s.lantern.secret := by unfold State.endExport; (repeat' split) <;> simp

@[simp] theorem secret_State_exportOut (s : State) (r : Nat) (q : ExportReq) : (State.exportOut s r q).lantern.secret = s.lantern.secret := by unfold State.exportOut; simp

@[simp] theorem secret_State_setCore (s : State) (c : Nat) (v : CoreSt) : (State.setCore s c v).lantern.secret = s.lantern.secret := by unfold State.setCore; simp

@[simp] theorem secret_State_setGrp (s : State) (g : Nat) (v : GroupSt) : (State.setGrp s g v).lantern.secret = s.lantern.secret := by unfold State.setGrp; simp

@[simp] theorem secret_State_setNet (s : State) (n : Nat) (v : Net) : (State.setNet s n v).lantern.secret = s.lantern.secret := by unfold State.setNet; simp

@[simp] theorem secret_State_setGroupState (s : State) (g st : Nat) : (State.setGroupState s g st).lantern.secret = s.lantern.secret := by unfold State.setGroupState; simp

@[simp] theorem secret_State_noteUninit (s : State) (c count : Nat) : (State.noteUninit s c count).lantern.secret = s.lantern.secret := by unfold State.noteUninit; simp

@[simp] theorem secret_State_inject (s : State) (m : Msg) : (State.inject s m).lantern.secret = s.lantern.secret := by unfold State.inject; (repeat' split) <;> simp

@[simp] theorem secret_State_unlist (s : State) (m : Msg) : (State.unlist s m).lantern.secret = s.lantern.secret := by unfold State.unlist; simp

@[simp] theorem secret_State_arrive (s : State) (c : Nat) (m : Msg) : (State.arrive s c m).lantern.secret = s.lantern.secret := by unfold State.arrive; simp

@[simp] theorem secret_State_aditSpikesOut (s : State) (n t : Nat) (neurons : List Nat) : (State.aditSpikesOut s n t neurons).lantern.secret = s.lantern.secret := by unfold State.aditSpikesOut; simp

@[simp] theorem secret_State_aditCloseOut (s : State) (n start flags : Nat) : (State.aditCloseOut s n start flags).lantern.secret = s.lantern.secret := by unfold State.aditCloseOut; simp

@[simp] theorem secret_State_traceArrive (s : State) (src tick code : Nat) (value : Word) : (State.traceArrive s src tick code value).lantern.secret = s.lantern.secret := by unfold State.traceArrive; simp

@[simp] theorem secret_State_traceLeave (s : State) (c : Nat) : (State.traceLeave s c).lantern.secret = s.lantern.secret := by unfold State.traceLeave; simp

@[simp] theorem secret_State_gapStreams (s : State) (l : Nat) : (State.gapStreams s l).lantern.secret = s.lantern.secret := by unfold State.gapStreams; dsimp only; repeat' first | rfl | (apply foldl_secret; intro _ _) | split | simp

@[simp] theorem secret_State_programStop (s : State) (c : Nat) : (State.programStop s c).lantern.secret = s.lantern.secret := by unfold State.programStop; simp

@[simp] theorem secret_State_raise (s : State) (c cause : Nat) (addr : Word) : (State.raise s c cause addr).lantern.secret = s.lantern.secret := by unfold State.raise; simp

@[simp] theorem secret_State_countSpare (s : State) (g : Nat) : (State.countSpare s g).lantern.secret = s.lantern.secret := by unfold State.countSpare; simp

@[simp] theorem secret_State_fence (s : State) (c : Nat) : (s.fence c).lantern.secret = s.lantern.secret := by
  unfold State.fence
  dsimp only
  split
  · rfl
  · rw [secret_State_alarm]
    cases (s.core c).logical <;> simp

@[simp] theorem secret_State_coreFault (s : State) (c : Nat) : (State.coreFault s c).lantern.secret = s.lantern.secret := by unfold State.coreFault; simp

/-- What an instruction does beyond its core leaves the key store alone. -/
def ActKeeps (a : Act) : Prop :=
  match a with
  | .done d => ∀ x, (d.post x).lantern.secret = x.lantern.secret
  | _ => True

theorem secret_State_commit (s : State) (c t : Nat) (d : Done) (h : ∀ x, (d.post x).lantern.secret = x.lantern.secret) :
    (s.commit c t d).lantern.secret = s.lantern.secret := by
  unfold State.commit; rw [h]; rfl

theorem secret_State_issue (s : State) (i : Issue) (reads : List Nat) (act : CoreSt → Act) (h : ∀ k, ActKeeps (act k)) :
    (s.issue i reads act).lantern.secret = s.lantern.secret := by
  have hp : ∀ k d, act k = .done d → ∀ x, (d.post x).lantern.secret = x.lantern.secret := by
    intro k d e
    have hk := h k
    rw [e] at hk
    exact hk
  unfold State.issue
  dsimp only
  (repeat' split) <;> first
    | rfl
    | (simp; done)
    | (refine (secret_State_commit _ _ _ _ ?_).trans (by simp); intro x; exact hp _ _ (by assumption) x)
    | (rename_i e _ _ _ _ _ _ _ _ _; rw [secret_State_noteUninit]; refine (secret_State_commit _ _ _ _ ?_).trans ?_; exact fun x => hp _ _ e x; simp)

@[simp] theorem secret_State_restoreSyn (s : State) (n : Nat) : (State.restoreSyn s n).lantern.secret = s.lantern.secret := by unfold State.restoreSyn; (repeat' split) <;> simp

@[simp] theorem secret_State_startNet (s : State) (n : Nat) (first : Option Nat) : (State.startNet s n first).lantern.secret = s.lantern.secret := by unfold State.startNet; (repeat' split) <;> simp

@[simp] theorem secret_State_sendFrom (s : State) (c dest tag : Nat) (payload : List Word64) : (State.sendFrom s c dest tag payload).lantern.secret = s.lantern.secret := by unfold State.sendFrom; simp

@[simp] theorem secret_State_sendRequest (s : State) (n t : Nat) (m : MatrixUse) (rows : List Nat) : (State.sendRequest s n t m rows).lantern.secret = s.lantern.secret := by unfold State.sendRequest; simp

@[simp] theorem secret_State_handshake (s : State) (c : Nat) : (State.handshake s c).lantern.secret = s.lantern.secret := by unfold State.handshake; dsimp only; repeat' first | rfl | (apply foldl_secret; intro _ _) | split | simp

@[simp] theorem secret_State_processTick (s : State) (n t : Nat) : (State.processTick s n t).lantern.secret = s.lantern.secret := by unfold State.processTick; dsimp only; (repeat' split) <;> simp

@[simp] theorem secret_State_processUpTo (s : State) (n last : Nat) : (State.processUpTo s n last).lantern.secret = s.lantern.secret := by unfold State.processUpTo; (repeat' split) <;> simp

@[simp] theorem secret_State_homeClose (s : State) (n start : Nat) : (State.homeClose s n start).lantern.secret = s.lantern.secret := by unfold State.homeClose; dsimp only; (repeat' split) <;> simp

@[simp] theorem secret_State_takeSpikes (s : State) (n t : Nat) (neurons : List Nat) : (State.takeSpikes s n t neurons).lantern.secret = s.lantern.secret := by unfold State.takeSpikes; dsimp only; (repeat' split) <;> simp

@[simp] theorem secret_State_took (s : State) (c : Nat) (m : Msg) : (State.took s c m).lantern.secret = s.lantern.secret := by unfold State.took; simp

@[simp] theorem secret_State_sendNotice (s : State) (l : Nat) : (State.sendNotice s l).lantern.secret = s.lantern.secret := by unfold State.sendNotice; simp

@[simp] theorem secret_State_sendEvents (s : State) (n bound : Nat) : (State.sendEvents s n bound).lantern.secret = s.lantern.secret := by unfold State.sendEvents; simp

@[simp] theorem secret_State_feed (s : State) (n : Nat) (raw : Int) (shift : Nat) (full held : Bool) (ts : Nat) : (State.feed s n raw shift full held ts).lantern.secret = s.lantern.secret := by unfold State.feed; simp

@[simp] theorem secret_State_feedHeld (s : State) (n shift period ts k : Nat) : (s.feedHeld n shift period ts k).lantern.secret = s.lantern.secret := by
  induction k generalizing s ts with
  | zero => rfl
  | succ k ih => unfold State.feedHeld; rw [ih]; simp

@[simp] theorem secret_State_fillGap (s : State) (n shift period ts k : Nat) : (s.fillGap n shift period ts k).lantern.secret = s.lantern.secret := by
  unfold State.fillGap; (repeat' split) <;> simp

@[simp] theorem secret_State_syncReset (s : State) (n : Nat) (warm : Bool) : (State.syncReset s n warm).lantern.secret = s.lantern.secret := by unfold State.syncReset; simp

@[simp] theorem secret_State_syncResetPort (s : State) (p : Nat) : (State.syncResetPort s p).lantern.secret = s.lantern.secret := by unfold State.syncResetPort; simp

@[simp] theorem secret_State_portReady (s : State) (p : Nat) : (State.portReady s p).lantern.secret = s.lantern.secret := by unfold State.portReady; simp

@[simp] theorem secret_State_unalign (s : State) (p : Nat) : (State.unalign s p).lantern.secret = s.lantern.secret := by unfold State.unalign; simp

@[simp] theorem secret_State_align (s : State) (p : Nat) : (State.align s p).lantern.secret = s.lantern.secret := by unfold State.align; simp

@[simp] theorem secret_State_noteErr (s : State) (p : Nat) : (State.noteErr s p).lantern.secret = s.lantern.secret := by unfold State.noteErr; simp

@[simp] theorem secret_State_completeTicks (s : State) (p t : Nat) : (State.completeTicks s p t).lantern.secret = s.lantern.secret := by unfold State.completeTicks; simp

@[simp] theorem secret_State_suspendStream (s : State) (n period ts : Nat) : (s.suspendStream n period ts).lantern.secret = s.lantern.secret := by
  unfold State.suspendStream; dsimp only; (repeat' split) <;> simp

@[simp] theorem secret_State_suspendPort (s : State) (p : Nat) : (State.suspendPort s p).lantern.secret = s.lantern.secret := by unfold State.suspendPort; simp

@[simp] theorem secret_State_sumpClose (s : State) (n start aditFlags flags : Nat) : (State.sumpClose s n start aditFlags flags).lantern.secret = s.lantern.secret := by unfold State.sumpClose; simp

@[simp] theorem secret_State_skipOpen (s : State) (n reason : Nat) : (State.skipOpen s n reason).lantern.secret = s.lantern.secret := by unfold State.skipOpen; dsimp only; (repeat' split) <;> simp

@[simp] theorem secret_State_loadCore (s : State) (c : Nat) : (State.loadCore s c).lantern.secret = s.lantern.secret := by unfold State.loadCore; dsimp only; (repeat' split) <;> simp

@[simp] theorem secret_State_startCore (s : State) (c : Nat) : (State.startCore s c).lantern.secret = s.lantern.secret := by unfold State.startCore; simp

end Sys2Proof.Machine
end

