-- ==== Sys2Proof/Laws/KeyStoreAdit.lean ====
section
/-! SUPPORT.  The key store (R466), continued: the operations of Adit, LanternOps, Gallery. -/

namespace Sys2Proof.Machine

@[simp] theorem secret_State_gainChange (s : State) (n : Nat) : (State.gainChange s n).lantern.secret = s.lantern.secret := by unfold State.gainChange; simp

@[simp] theorem secret_State_roundSample (s : State) (p r missing : Nat) (samples : List (BitVec 24)) (bad : List Nat) (late : Bool) (n : Nat) : (State.roundSample s p r missing samples bad late n).lantern.secret = s.lantern.secret := by unfold State.roundSample; simp

@[simp] theorem secret_State_takeRound (s : State) (p : Nat) (h : Word64) (samples : List (BitVec 24)) (bad : List Nat) : (State.takeRound s p h samples bad).lantern.secret = s.lantern.secret := by unfold State.takeRound; simp

@[simp] theorem secret_execAditRound (port : Port) (header : Word64) (samples : List (BitVec 24)) (crcBad : List Nat) (badMultiblocks : Nat) (s : State) : secretOf (execAditRound port header samples crcBad badMultiblocks s) = some s.lantern.secret := by unfold execAditRound; simp

@[simp] theorem secret_execAditIdleUnit (port : Port) (header : Word64) (s : State) : secretOf (execAditIdleUnit port header s) = some s.lantern.secret := by unfold execAditIdleUnit; simp

@[simp] theorem secret_execSysrefEdge (port : Port) (onBoundary : Bool) (s : State) : secretOf (execSysrefEdge port onBoundary s) = some s.lantern.secret := by unfold execSysrefEdge; simp

@[simp] theorem secret_execAditLaneFault (port : Port) (lane : BitVec 3) (s : State) : secretOf (execAditLaneFault port lane s) = some s.lantern.secret := by unfold execAditLaneFault; simp

@[simp] theorem secret_execAditTickTimeout (port : Port) (s : State) : secretOf (execAditTickTimeout port s) = some s.lantern.secret := by unfold execAditTickTimeout; simp

@[simp] theorem secret_State_boundary (s : State) (n t : Nat) : (State.boundary s n t).lantern.secret = s.lantern.secret := by unfold State.boundary; dsimp only; (repeat' split) <;> simp

@[simp] theorem secret_State_afterLoss (s : State) (n t : Nat) : (State.afterLoss s n t).lantern.secret = s.lantern.secret := by unfold State.afterLoss; simp

@[simp] theorem secret_State_closeWindow (s : State) (n w : Nat) : (State.closeWindow s n w).lantern.secret = s.lantern.secret := by unfold State.closeWindow; dsimp only; (repeat' split) <;> simp

@[simp] theorem secret_execAditCloseSend (stream : Stream) (s : State) : secretOf (execAditCloseSend stream s) = some s.lantern.secret := by unfold execAditCloseSend; dsimp only; (repeat' split) <;> simp

@[simp] theorem secret_State_replayBlock (s : State) (n : Nat) (b : Block) (period : Nat) : (State.replayBlock s n b period).lantern.secret = s.lantern.secret := by unfold State.replayBlock; simp

@[simp] theorem secret_State_replayAdvance (s : State) (n : Nat) : (State.replayAdvance s n).lantern.secret = s.lantern.secret := by unfold State.replayAdvance; dsimp only; repeat' first | rfl | (apply foldl_secret; intro _ _) | split | simp

@[simp] theorem secret_State_dropBadNeurons (s : State) (n bound : Nat) : (State.dropBadNeurons s n bound).lantern.secret = s.lantern.secret := by unfold State.dropBadNeurons; simp

@[simp] theorem secret_execAditRelease (stream : Stream) (s : State) : secretOf (execAditRelease stream s) = some s.lantern.secret := by unfold execAditRelease; simp

@[simp] theorem secret_State_applyEvent (s : State) (n0 : Nat) (f : EventFate) : (s.applyEvent n0 f).lantern.secret = s.lantern.secret := by
  cases f <;> simp [State.applyEvent]

@[simp] theorem secret_State_bundleFlags (s : State) (n0 channels bits ts0 ts1 : Nat) : (State.bundleFlags s n0 channels bits ts0 ts1).lantern.secret = s.lantern.secret := by unfold State.bundleFlags; simp

@[simp] theorem secret_State_takeBundle (s : State) (n0 len : Nat) (payload : List Byte) : (s.takeBundle n0 len payload).2.2.lantern.secret = s.lantern.secret := by
  unfold State.takeBundle
  dsimp only
  split
  · rfl
  · split
    · rfl
    · split <;> simp

@[simp] theorem secret_execBundle (ring : Ring) (idx : Word) (payload : List Byte) (dmaOk : Bool) (s : State) : secretOf (execBundle ring idx payload dmaOk s) = some s.lantern.secret := by unfold execBundle; dsimp only; (repeat' split) <;> simp

@[simp] theorem secret_State_feedFrame (s : State) (n shift period ts x : Nat) (wide : Bool) (l : List (BitVec 24)) :
    (s.feedFrame n shift period ts x wide l).lantern.secret = s.lantern.secret := by
  induction l generalizing s ts with
  | nil => rfl
  | cons b t ih => unfold State.feedFrame; rw [ih]; dsimp only; split <;> simp

@[simp] theorem secret_State_takeFrame (s : State) (len : Nat) (payload : List Byte) : (s.takeFrame len payload).2.2.lantern.secret = s.lantern.secret := by
  unfold State.takeFrame; dsimp only; (repeat' split) <;> simp

@[simp] theorem secret_execFrame (ring : Ring) (idx : Word) (payload : List Byte) (dmaOk : Bool) (s : State) : secretOf (execFrame ring idx payload dmaOk s) = some s.lantern.secret := by unfold execFrame; dsimp only; (repeat' split) <;> simp

@[simp] theorem secret_execReplayRead (ring : Ring) (idx : Word) (overrun : Nat) (s : State) : secretOf (execReplayRead ring idx overrun s) = some s.lantern.secret := by unfold execReplayRead; dsimp only; (repeat' split) <;> simp

@[simp] theorem secret_execPlan (s : State) : secretOf (execPlan s) = some s.lantern.secret := by unfold execPlan; simp

@[simp] theorem secret_execPlanDone (s : State) : secretOf (execPlanDone s) = some s.lantern.secret := by unfold execPlanDone; dsimp only; repeat' first | rfl | (apply foldl_secret; intro _ _) | split | simp

@[simp] theorem secret_execStreamEnable (stream : Stream) (cfg : Word) (s : State) : secretOf (execStreamEnable stream cfg s) = some s.lantern.secret := by unfold execStreamEnable; simp

@[simp] theorem secret_execStreamStop (stream : Stream) (s : State) : secretOf (execStreamStop stream s) = some s.lantern.secret := by unfold execStreamStop; simp

@[simp] theorem secret_execStreamStopEffect (stream : Stream) (s : State) : secretOf (execStreamStopEffect stream s) = some s.lantern.secret := by unfold execStreamStopEffect; dsimp only; (repeat' split) <;> simp

@[simp] theorem secret_execAbort (stream : Stream) (s : State) : secretOf (execAbort stream s) = some s.lantern.secret := by unfold execAbort; simp

@[simp] theorem secret_execProfileChange (stream : Stream) (profile : BitVec 6) (s : State) : secretOf (execProfileChange stream profile s) = some s.lantern.secret := by unfold execProfileChange; simp

@[simp] theorem secret_execProfileChangeEffect (stream : Stream) (s : State) : secretOf (execProfileChangeEffect stream s) = some s.lantern.secret := by unfold execProfileChangeEffect; dsimp only; (repeat' split) <;> simp

@[simp] theorem secret_execProfileWrite (offset : BitVec 17) (value : Word) (s : State) : secretOf (execProfileWrite offset value s) = some s.lantern.secret := by unfold execProfileWrite; simp

@[simp] theorem secret_execPortEnable (port : Port) (s : State) : secretOf (execPortEnable port s) = some s.lantern.secret := by unfold execPortEnable; simp

@[simp] theorem secret_execPortDisable (port : Port) (s : State) : secretOf (execPortDisable port s) = some s.lantern.secret := by unfold execPortDisable; simp

@[simp] theorem secret_execPortIntakeStop (port : Port) (s : State) : secretOf (execPortIntakeStop port s) = some s.lantern.secret := by unfold execPortIntakeStop; simp

@[simp] theorem secret_State_resumeStream (s : State) (n : Nat) : (State.resumeStream s n).lantern.secret = s.lantern.secret := by unfold State.resumeStream; simp

@[simp] theorem secret_execStreamResume (stream : Stream) (s : State) : secretOf (execStreamResume stream s) = some s.lantern.secret := by unfold execStreamResume; simp

@[simp] theorem secret_execResync (port : Port) (s : State) : secretOf (execResync port s) = some s.lantern.secret := by unfold execResync; simp

@[simp] theorem secret_execLanesWrite (port : Port) (lanes : BitVec 2) (s : State) : secretOf (execLanesWrite port lanes s) = some s.lantern.secret := by unfold execLanesWrite; simp

@[simp] theorem secret_execCtxFault (stream : Stream) (hard intact : Bool) (s : State) : secretOf (execCtxFault stream hard intact s) = some s.lantern.secret := by unfold execCtxFault; simp

@[simp] theorem secret_execCtxMove (stream : Stream) (s : State) : secretOf (execCtxMove stream s) = some s.lantern.secret := by unfold execCtxMove; dsimp only; (repeat' split) <;> simp

@[simp] theorem secret_State_setChan (s : State) (n : Nat) (c : ChanSt) : (State.setChan s n c).lantern.secret = s.lantern.secret := by unfold State.setChan; simp

@[simp] theorem secret_State_holdWords (s : State) (n : Nat) (ws : List Word) : (State.holdWords s n ws).lantern.secret = s.lantern.secret := by unfold State.holdWords; simp

@[simp] theorem secret_State_reply (s : State) (n status tag : Nat) (res : List Nat) : (State.reply s n status tag res).lantern.secret = s.lantern.secret := by unfold State.reply; simp

@[simp] theorem secret_State_answer (s : State) (w : Waiting) (status : Nat) (res : List Nat) : (State.answer s w status res).lantern.secret = s.lantern.secret := by unfold State.answer; (repeat' split) <;> simp

@[simp] theorem secret_State_notice (s : State) (code : Nat) (ws : List Nat) : (State.notice s code ws).lantern.secret = s.lantern.secret := by unfold State.notice; simp

@[simp] theorem secret_State_enterResync (s : State) (n : Nat) : (State.enterResync s n).lantern.secret = s.lantern.secret := by unfold State.enterResync; simp

@[simp] theorem secret_State_elapse (s : State) (n : Nat) : (State.elapse s n).lantern.secret = s.lantern.secret := by unfold State.elapse; simp

@[simp] theorem secret_execMsgEject (msg : Msg) (s : State) : secretOf (execMsgEject msg s) = some s.lantern.secret := by unfold execMsgEject; (repeat' split) <;> simp

@[simp] theorem secret_execEjectWaitExpiry (core : CoreId) (s : State) : secretOf (execEjectWaitExpiry core s) = some s.lantern.secret := by unfold execEjectWaitExpiry; dsimp only; (repeat' split) <;> simp

@[simp] theorem secret_State_noteHbmRead (s : State) (a n : Nat) (host : Bool) : (State.noteHbmRead s a n host).lantern.secret = s.lantern.secret := by unfold State.noteHbmRead; simp

@[simp] theorem secret_State_hbmWrite (s : State) (a : Nat) (bs : List Byte) : (State.hbmWrite s a bs).lantern.secret = s.lantern.secret := by unfold State.hbmWrite; simp

@[simp] theorem secret_execFetchReply (core : CoreId) (slot : BitVec 2) (s : State) : secretOf (execFetchReply core slot s) = some s.lantern.secret := by unfold execFetchReply; dsimp only; (repeat' split) <;> simp

@[simp] theorem secret_State_galRefuse (s : State) (unit : Nat) : (State.galRefuse s unit).lantern.secret = s.lantern.secret := by unfold State.galRefuse; simp

@[simp] theorem secret_State_park (s : State) (n : Nat) : (State.park s n).lantern.secret = s.lantern.secret := by unfold State.park; simp

@[simp] theorem secret_groupGate (group : Group) (s : State) (k : Out) (h : secretOf k = some s.lantern.secret) :
    secretOf (groupGate group s k) = some s.lantern.secret := by
  unfold groupGate; (repeat' split) <;> simp [h]

@[simp] theorem secret_execStop (group : Group) (s : State) : secretOf (execStop group s) = some s.lantern.secret := by unfold execStop; simp

@[simp] theorem secret_execStoppingDone (group : Group) (s : State) : secretOf (execStoppingDone group s) = some s.lantern.secret := by unfold execStoppingDone; simp

@[simp] theorem secret_State_holdCmd (s : State) (g cmd st : Nat) : (State.holdCmd s g cmd st).lantern.secret = s.lantern.secret := by unfold State.holdCmd; simp

@[simp] theorem secret_execStart (group : Group) (s : State) : secretOf (execStart group s) = some s.lantern.secret := by unfold execStart; simp

@[simp] theorem secret_State_toTest (s : State) (g : Nat) : (State.toTest s g).lantern.secret = s.lantern.secret := by unfold State.toTest; simp

@[simp] theorem secret_execReset (group : Group) (s : State) : secretOf (execReset group s) = some s.lantern.secret := by unfold execReset; simp

@[simp] theorem secret_execSelftest (group : Group) (s : State) : secretOf (execSelftest group s) = some s.lantern.secret := by unfold execSelftest; simp

@[simp] theorem secret_execFreeze (group : Group) (s : State) : secretOf (execFreeze group s) = some s.lantern.secret := by unfold execFreeze; simp

@[simp] theorem secret_execThaw (group : Group) (s : State) : secretOf (execThaw group s) = some s.lantern.secret := by unfold execThaw; simp

@[simp] theorem secret_State_unparkLater (s : State) (n : Nat) (afterStart : Bool) : (State.unparkLater s n afterStart).lantern.secret = s.lantern.secret := by unfold State.unparkLater; simp

@[simp] theorem secret_State_startGroup (s : State) (g : Nat) : (State.startGroup s g).lantern.secret = s.lantern.secret := by unfold State.startGroup; simp

@[simp] theorem secret_State_freezeGroup (s : State) (g : Nat) : (State.freezeGroup s g).lantern.secret = s.lantern.secret := by unfold State.freezeGroup; simp

@[simp] theorem secret_State_thawGroup (s : State) (g : Nat) : (State.thawGroup s g).lantern.secret = s.lantern.secret := by unfold State.thawGroup; simp

@[simp] theorem secret_execGroupCmdEffect (group : Group) (s : State) : secretOf (execGroupCmdEffect group s) = some s.lantern.secret := by unfold execGroupCmdEffect; dsimp only; (repeat' split) <;> simp

@[simp] theorem secret_execSelftestDone (group : Group) (failed : List (BitVec 8)) (routerFault : Bool) (s : State) : secretOf (execSelftestDone group failed routerFault s) = some s.lantern.secret := by unfold execSelftestDone; simp

@[simp] theorem secret_execLoadComplete (group : Group) (s : State) : secretOf (execLoadComplete group s) = some s.lantern.secret := by unfold execLoadComplete; dsimp only; (repeat' split) <;> simp

@[simp] theorem secret_State_applyMap (s : State) (n : Nat) (v : Word) (first : Option Nat) : (State.applyMap s n v first).lantern.secret = s.lantern.secret := by unfold State.applyMap; simp

@[simp] theorem secret_execStreamMapWrite (stream : Stream) (value : Word) (s : State) : secretOf (execStreamMapWrite stream value s) = some s.lantern.secret := by unfold execStreamMapWrite; simp

@[simp] theorem secret_execStreamMapEffect (stream : Stream) (s : State) : secretOf (execStreamMapEffect stream s) = some s.lantern.secret := by unfold execStreamMapEffect; dsimp only; (repeat' split) <;> simp

@[simp] theorem secret_State_discardPrograms (s : State) : (State.discardPrograms s).lantern.secret = s.lantern.secret := by unfold State.discardPrograms; simp

@[simp] theorem secret_State_trimMaps (s : State) : (State.trimMaps s).lantern.secret = s.lantern.secret := by unfold State.trimMaps; simp

@[simp] theorem secret_execGalCfgWrite (what : GalCfg) (s : State) : secretOf (execGalCfgWrite what s) = some s.lantern.secret := by unfold execGalCfgWrite; (repeat' split) <;> simp

@[simp] theorem secret_State_loseStreams (s : State) (l : Nat) : (State.loseStreams s l).lantern.secret = s.lantern.secret := by unfold State.loseStreams; simp

@[simp] theorem secret_State_substitute (s : State) (failed p l : Nat) (readable : Bool) : (State.substitute s failed p l readable).lantern.secret = s.lantern.secret := by unfold State.substitute; dsimp only; (repeat' split) <;> simp

@[simp] theorem secret_execSpareSubstitute (core : CoreId) (readable : Bool) (s : State) : secretOf (execSpareSubstitute core readable s) = some s.lantern.secret := by unfold execSpareSubstitute; dsimp only; (repeat' split) <;> simp

@[simp] theorem secret_execSpareStart (core : CoreId) (s : State) : secretOf (execSpareStart core s) = some s.lantern.secret := by unfold execSpareStart; simp

@[simp] theorem secret_State_snapCore (s : State) (c : Nat) : (State.snapCore s c).lantern.secret = s.lantern.secret := by unfold State.snapCore; simp

@[simp] theorem secret_execSnapshot (cores : List CoreId) (s : State) : secretOf (execSnapshot cores s) = some s.lantern.secret := by unfold execSnapshot; simp

end Sys2Proof.Machine
end

