-- ==== Sys2Proof/Laws/KeyStoreSump.lean ====
section
/-! SUPPORT.  The key store (R466), continued: the operations of SeamOps, TunnelFrames, SumpOps, TunnelOps, SearchOps, Search, ChiselOps. -/

namespace Sys2Proof.Machine

@[simp] theorem secret_State_setTile (s : State) (k p : Nat) (v : TileSt) : (State.setTile s k p v).lantern.secret = s.lantern.secret := by unfold State.setTile; simp

@[simp] theorem secret_State_setMap (s : State) (k l p : Nat) : (State.setMap s k l p).lantern.secret = s.lantern.secret := by unfold State.setMap; simp

@[simp] theorem secret_State_setCellCol (s : State) (k p c : Nat) (v : BitVec 2048) : (State.setCellCol s k p c v).lantern.secret = s.lantern.secret := by unfold State.setCellCol; simp

@[simp] theorem secret_State_putBench (s : State) (k j : Nat) (v : BenchSt) : (State.putBench s k j v).lantern.secret = s.lantern.secret := by unfold State.putBench; simp

@[simp] theorem secret_State_setBench (s : State) (k j : Nat) (v : BenchSt) : (State.setBench s k j v).lantern.secret = s.lantern.secret := by unfold State.setBench; simp

@[simp] theorem secret_State_setDie (s : State) (k : Nat) (v : DieSt) : (State.setDie s k v).lantern.secret = s.lantern.secret := by unfold State.setDie; simp

@[simp] theorem secret_State_setQueue (s : State) (k : Nat) (q : List RefreshJob) : (State.setQueue s k q).lantern.secret = s.lantern.secret := by unfold State.setQueue; simp

@[simp] theorem secret_State_recalibrate (s : State) (k p : Nat) (pattern : List RefRead) : (s.recalibrate k p pattern).lantern.secret = s.lantern.secret := by
  unfold State.recalibrate
  dsimp only
  rw [secret_State_bump64, secret_State_bump, secret_State_setTile]

@[simp] theorem secret_State_takeSlots (s : State) (k n : Nat) (upkeep : Bool) : (State.takeSlots s k n upkeep).lantern.secret = s.lantern.secret := by unfold State.takeSlots; simp

@[simp] theorem secret_State_giveSlots (s : State) (k n : Nat) (upkeep : Bool) : (State.giveSlots s k n upkeep).lantern.secret = s.lantern.secret := by unfold State.giveSlots; simp

@[simp] theorem secret_State_setEval (s : State) (k : Nat) (old new : Eval) : (State.setEval s k old new).lantern.secret = s.lantern.secret := by unfold State.setEval; simp

@[simp] theorem secret_State_replaceTile (s : State) (k l : Nat) : (State.replaceTile s k l).lantern.secret = s.lantern.secret := by unfold State.replaceTile; simp

@[simp] theorem secret_State_tileFault (s : State) (k p : Nat) (hard : Bool) : (State.tileFault s k p hard).lantern.secret = s.lantern.secret := by unfold State.tileFault; (repeat' split) <;> simp

@[simp] theorem secret_State_calibrate (s : State) (k p : Nat) (cells : List CellRead) (fits : List ColFit) : (State.calibrate s k p cells fits).lantern.secret = s.lantern.secret := by unfold State.calibrate; simp

@[simp] theorem secret_State_writeCol (s : State) (k p e : Nat) (want : BitVec 2048) (given : List CellRead) : (State.writeCol s k p e want given).2.lantern.secret = s.lantern.secret := by unfold State.writeCol; simp

@[simp] theorem secret_State_countSpares (s : State) (k : Nat) : (State.countSpares s k).lantern.secret = s.lantern.secret := by unfold State.countSpares; simp

@[simp] theorem secret_State_retireTile (s : State) (k p : Nat) : (State.retireTile s k p).lantern.secret = s.lantern.secret := by unfold State.retireTile; simp

@[simp] theorem secret_State_setTPort (s : State) (p : Nat) (v : TPortSt) : (State.setTPort s p v).lantern.secret = s.lantern.secret := by unfold State.setTPort; simp

@[simp] theorem secret_State_sendFrame (s : State) (p : Nat) (f : Frame) : (State.sendFrame s p f).lantern.secret = s.lantern.secret := by unfold State.sendFrame; simp

@[simp] theorem secret_State_sendTo (s : State) (f : Frame) : (State.sendTo s f).lantern.secret = s.lantern.secret := by unfold State.sendTo; simp

@[simp] theorem secret_State_sendBenchOp (s : State) (m op l p : Nat) (args : List Byte) : (State.sendBenchOp s m op l p args).lantern.secret = s.lantern.secret := by unfold State.sendBenchOp; simp

@[simp] theorem secret_State_setLib (s : State) (l : Nat) (v : LibSt) : (State.setLib s l v).lantern.secret = s.lantern.secret := by unfold State.setLib; simp

@[simp] theorem secret_State_setBenches (s : State) (l : Nat) (bs : List Nat) : (State.setBenches s l bs).lantern.secret = s.lantern.secret := by unfold State.setBenches; simp

@[simp] theorem secret_State_setEntry (s : State) (b c : Nat) (v : Entry) : (State.setEntry s b c v).lantern.secret = s.lantern.secret := by unfold State.setEntry; (repeat' split) <;> simp

@[simp] theorem secret_State_setEntryState (s : State) (b c st : Nat) : (State.setEntryState s b c st).lantern.secret = s.lantern.secret := by unfold State.setEntryState; simp

@[simp] theorem secret_State_setMirror (s : State) (slot : Nat) (k : Option Key) : (State.setMirror s slot k).lantern.secret = s.lantern.secret := by unfold State.setMirror; simp

@[simp] theorem secret_State_quarantine (s : State) (b c : Nat) : (State.quarantine s b c).lantern.secret = s.lantern.secret := by unfold State.quarantine; simp

@[simp] theorem secret_State_setWeights (s : State) (m c : Nat) (w : List Int) : (State.setWeights s m c w).lantern.secret = s.lantern.secret := by unfold State.setWeights; simp

@[simp] theorem secret_State_upkeepWrite (s : State) (k l : Nat) (cols : List Nat) : (State.upkeepWrite s k l cols).lantern.secret = s.lantern.secret := by unfold State.upkeepWrite; simp

@[simp] theorem secret_State_queueErase (s : State) (b : Nat) : (State.queueErase s b).lantern.secret = s.lantern.secret := by unfold State.queueErase; simp

@[simp] theorem secret_State_assignBench (s : State) (b : Nat) (l : Option Nat) (four : Bool) : (State.assignBench s b l four).lantern.secret = s.lantern.secret := by unfold State.assignBench; dsimp only; repeat' first | rfl | (apply foldl_secret; intro _ _) | split | simp

@[simp] theorem secret_State_dropRepair (s : State) (b c : Nat) : (State.dropRepair s b c).lantern.secret = s.lantern.secret := by unfold State.dropRepair; simp

@[simp] theorem secret_State_beginBatch (s : State) (l : Nat) : (State.beginBatch s l).lantern.secret = s.lantern.secret := by unfold State.beginBatch; dsimp only; (repeat' split) <;> simp

@[simp] theorem secret_State_queueBatch (s : State) (l : Nat) (q : LibBatch) : (State.queueBatch s l q).lantern.secret = s.lantern.secret := by unfold State.queueBatch; (repeat' split) <;> simp

@[simp] theorem secret_State_writeEntry (s : State) (b : Nat) (i : WriteItem) : (State.writeEntry s b i).lantern.secret = s.lantern.secret := by unfold State.writeEntry; simp

@[simp] theorem secret_State_resolveCopy (s : State) (x : KeyCopy) : (State.resolveCopy s x).lantern.secret = s.lantern.secret := by unfold State.resolveCopy; dsimp only; (repeat' split) <;> simp

@[simp] theorem secret_State_sendEntries (s : State) (l b : Nat) (items : List WriteItem) : (State.sendEntries s l b items).lantern.secret = s.lantern.secret := by unfold State.sendEntries; simp

@[simp] theorem secret_State_sendMatrix (s : State) (l b m first : Nat) (new : List (List Int)) : (State.sendMatrix s l b m first new).lantern.secret = s.lantern.secret := by unfold State.sendMatrix; simp

@[simp] theorem secret_State_sendPending (s : State) (l : Nat) : (State.sendPending s l).lantern.secret = s.lantern.secret := by unfold State.sendPending; (repeat' split) <;> simp

@[simp] theorem secret_State_setReq (s : State) (r : Request) : (State.setReq s r).lantern.secret = s.lantern.secret := by unfold State.setReq; simp

@[simp] theorem secret_State_busySkip (s : State) (n start aditFlags : Nat) : (State.busySkip s n start aditFlags).lantern.secret = s.lantern.secret := by unfold State.busySkip; simp

@[simp] theorem secret_State_setShadow (s : State) (b c : Nat) (v : Option Shadow) : (State.setShadow s b c v).lantern.secret = s.lantern.secret := by unfold State.setShadow; simp

@[simp] theorem secret_State_seed1 (s : State) (b c : Nat) : (State.seed1 s b c).lantern.secret = s.lantern.secret := by unfold State.seed1; (repeat' split) <;> simp

@[simp] theorem secret_State_countUsed (s : State) : (State.countUsed s).lantern.secret = s.lantern.secret := by unfold State.countUsed; simp

@[simp] theorem secret_State_freeShadow (s : State) (b c : Nat) : (State.freeShadow s b c).lantern.secret = s.lantern.secret := by unfold State.freeShadow; simp

@[simp] theorem secret_State_forward (s : State) (p : Nat) (f : Frame) : (State.forward s p f).lantern.secret = s.lantern.secret := by unfold State.forward; simp

@[simp] theorem secret_State_answerBusy (s : State) (origin req : Nat) : (State.answerBusy s origin req).lantern.secret = s.lantern.secret := by unfold State.answerBusy; simp

@[simp] theorem secret_State_passToken (s : State) (l : Nat) : (State.passToken s l).lantern.secret = s.lantern.secret := by unfold State.passToken; (repeat' split) <;> simp

@[simp] theorem secret_State_overtake (s : State) (n start : Nat) : (State.overtake s n start).lantern.secret = s.lantern.secret := by unfold State.overtake; simp

@[simp] theorem secret_State_queueWindow (s : State) (r : Request) : (State.queueWindow s r).lantern.secret = s.lantern.secret := by unfold State.queueWindow; simp

@[simp] theorem secret_State_assemble (s : State) (a : Assembly) : (State.assemble s a).lantern.secret = s.lantern.secret := by unfold State.assemble; simp

@[simp] theorem secret_State_setAsm (s : State) (old new : Assembly) : (State.setAsm s old new).lantern.secret = s.lantern.secret := by unfold State.setAsm; simp

@[simp] theorem secret_State_takeSliver (s : State) (m : Msg) : (State.takeSliver s m).lantern.secret = s.lantern.secret := by unfold State.takeSliver; dsimp only; (repeat' split) <;> simp

@[simp] theorem secret_State_sendEval (s : State) (r : Request) (b kind part : Nat) (input : EvalInput) (passes : List PassJob) : (State.sendEval s r b kind part input passes).lantern.secret = s.lantern.secret := by unfold State.sendEval; simp

@[simp] theorem secret_State_sendSearch (s : State) (r : Request) (part lo hi : Nat) (bs : List Nat) : (State.sendSearch s r part lo hi bs).lantern.secret = s.lantern.secret := by unfold State.sendSearch; simp

@[simp] theorem secret_execSliver (msg : Msg) (s : State) : secretOf (execSliver msg s) = some s.lantern.secret := by unfold execSliver; simp

@[simp] theorem secret_execSliverWaitExpiry (stream : Stream) (start : Word64) (s : State) : secretOf (execSliverWaitExpiry stream start s) = some s.lantern.secret := by unfold execSliverWaitExpiry; (repeat' split) <;> simp

@[simp] theorem secret_execCloseWaitExpiry (stream : Stream) (start : Word64) (s : State) : secretOf (execCloseWaitExpiry stream start s) = some s.lantern.secret := by unfold execCloseWaitExpiry; (repeat' split) <;> simp

@[simp] theorem secret_execSynapseRequest (msg : Msg) (s : State) : secretOf (execSynapseRequest msg s) = some s.lantern.secret := by unfold execSynapseRequest; simp

@[simp] theorem secret_State_writeSynBlock (s : State) (r : Request) (status : Nat) (sums : List Int) : (State.writeSynBlock s r status sums).lantern.secret = s.lantern.secret := by unfold State.writeSynBlock; simp

@[simp] theorem secret_State_endRequest (s : State) (tag : Nat) : (State.endRequest s tag).lantern.secret = s.lantern.secret := by unfold State.endRequest; simp

@[simp] theorem secret_State_decideSearch (s : State) (r : Request) : (State.decideSearch s r).lantern.secret = s.lantern.secret := by unfold State.decideSearch; simp

@[simp] theorem secret_State_endMatrix (s : State) (r : Request) (b : BenchEval) : (State.endMatrix s r b).lantern.secret = s.lantern.secret := by unfold State.endMatrix; (repeat' split) <;> simp

@[simp] theorem secret_State_decideMatrix (s : State) (r : Request) : (State.decideMatrix s r).lantern.secret = s.lantern.secret := by unfold State.decideMatrix; (repeat' split) <;> simp

@[simp] theorem secret_State_takeEval (s : State) (r : Request) (b : Nat) (e : Eval) : (State.takeEval s r b e).lantern.secret = s.lantern.secret := by unfold State.takeEval; simp

@[simp] theorem secret_State_forwardQuery (s : State) (r : Request) : (State.forwardQuery s r).1.lantern.secret = s.lantern.secret := by unfold State.forwardQuery; simp

@[simp] theorem secret_State_admitSearch (s : State) (r0 : Request) : (State.admitSearch s r0).lantern.secret = s.lantern.secret := by unfold State.admitSearch; simp

@[simp] theorem secret_State_admitMatrix (s : State) (r0 : Request) : (State.admitMatrix s r0).lantern.secret = s.lantern.secret := by unfold State.admitMatrix; dsimp only; (repeat' split) <;> simp

@[simp] theorem secret_execRequestAdmit (s : State) : secretOf (execRequestAdmit s) = some s.lantern.secret := by unfold execRequestAdmit; (repeat' split) <;> simp

@[simp] theorem secret_execBenchResult (die : Die) (bench : BitVec 13) (tag : Word) (s : State) : secretOf (execBenchResult die bench tag s) = some s.lantern.secret := by unfold execBenchResult; dsimp only; (repeat' split) <;> simp

@[simp] theorem secret_State_tookUpdate (s : State) : (State.tookUpdate s).lantern.secret = s.lantern.secret := by unfold State.tookUpdate; simp

@[simp] theorem secret_State_learnEntry (s : State) (b c k : Nat) (q mask : Key) (w : Int) : (State.learnEntry s b c k q mask w).lantern.secret = s.lantern.secret := by unfold State.learnEntry; (repeat' split) <;> simp

@[simp] theorem secret_State_setBg (s : State) (n : Nat) (v : BgModel) : (State.setBg s n v).lantern.secret = s.lantern.secret := by unfold State.setBg; simp

@[simp] theorem secret_State_learnBg (s : State) (n k : Nat) (q mask : Key) (w : Int) : (State.learnBg s n k q mask w).lantern.secret = s.lantern.secret := by unfold State.learnBg; simp

@[simp] theorem secret_State_newProto (s : State) (l k : Nat) (q : Key) (hits label : Nat) : (State.newProto s l k q hits label).lantern.secret = s.lantern.secret := by unfold State.newProto; simp

@[simp] theorem secret_State_learnPool (s : State) (l k : Nat) (q mask : Key) : (State.learnPool s l k q mask).lantern.secret = s.lantern.secret := by unfold State.learnPool; dsimp only; (repeat' split) <;> simp

@[simp] theorem secret_State_hold (s : State) (n start k : Nat) (q : Key) (present : Nat) : (State.hold s n start k q present).lantern.secret = s.lantern.secret := by unfold State.hold; simp

@[simp] theorem secret_State_learnRecord (s : State) (w : Result) (q : Key) (present mask : Nat) : (State.learnRecord s w q present mask).lantern.secret = s.lantern.secret := by unfold State.learnRecord; dsimp only; (repeat' split) <;> simp

end Sys2Proof.Machine
end

