-- ==== Sys2Proof/Laws/KeyStoreFlint.lean ====
section
/-! SUPPORT.  The key store (R466), continued: the operations of FlintScalar, FlintSliver, FlintSystem, Snn. -/

namespace Sys2Proof.Machine

@[simp] theorem secret_State_formR (s : State) (i : Issue) (rd ra rb : SReg) (f : Word → Word → Word) : (State.formR s i rd ra rb f).lantern.secret = s.lantern.secret := by unfold State.formR; apply secret_State_issue; intro k; (try dsimp only); (repeat' split) <;> simp [ActKeeps, resS, lateS]

@[simp] theorem secret_State_formI (s : State) (i : Issue) (rd ra : SReg) (f : Word → Word) : (State.formI s i rd ra f).lantern.secret = s.lantern.secret := by unfold State.formI; apply secret_State_issue; intro k; (try dsimp only); (repeat' split) <;> simp [ActKeeps, resS, lateS]

@[simp] theorem secret_State_loadN (s : State) (i : Issue) (rd ra : SReg) (imm : Imm16) (n : Nat) (ext : Nat → Word) : (State.loadN s i rd ra imm n ext).lantern.secret = s.lantern.secret := by unfold State.loadN; apply secret_State_issue; intro k; (try dsimp only); (repeat' split) <;> simp [ActKeeps, resS, lateS]

@[simp] theorem secret_State_storeN (s : State) (i : Issue) (rb ra : SReg) (imm : Imm16) (n : Nat) : (State.storeN s i rb ra imm n).lantern.secret = s.lantern.secret := by unfold State.storeN; apply secret_State_issue; intro k; (try dsimp only); (repeat' split) <;> simp [ActKeeps, resS, lateS]

@[simp] theorem secret_State_branch (s : State) (i : Issue) (rb ra : SReg) (imm : Imm16) (cond : Word → Word → Bool) : (State.branch s i rb ra imm cond).lantern.secret = s.lantern.secret := by unfold State.branch; apply secret_State_issue; intro k; (try dsimp only); (repeat' split) <;> simp [ActKeeps, resS, lateS]

@[simp] theorem secret_execAdd (i : Issue) (rd ra rb : SReg) (s : State) : secretOf (execAdd i rd ra rb s) = some s.lantern.secret := by unfold execAdd; simp

@[simp] theorem secret_execSub (i : Issue) (rd ra rb : SReg) (s : State) : secretOf (execSub i rd ra rb s) = some s.lantern.secret := by unfold execSub; simp

@[simp] theorem secret_execAnd (i : Issue) (rd ra rb : SReg) (s : State) : secretOf (execAnd i rd ra rb s) = some s.lantern.secret := by unfold execAnd; simp

@[simp] theorem secret_execOr (i : Issue) (rd ra rb : SReg) (s : State) : secretOf (execOr i rd ra rb s) = some s.lantern.secret := by unfold execOr; simp

@[simp] theorem secret_execXor (i : Issue) (rd ra rb : SReg) (s : State) : secretOf (execXor i rd ra rb s) = some s.lantern.secret := by unfold execXor; simp

@[simp] theorem secret_execSll (i : Issue) (rd ra rb : SReg) (s : State) : secretOf (execSll i rd ra rb s) = some s.lantern.secret := by unfold execSll; simp

@[simp] theorem secret_execSrl (i : Issue) (rd ra rb : SReg) (s : State) : secretOf (execSrl i rd ra rb s) = some s.lantern.secret := by unfold execSrl; simp

@[simp] theorem secret_execSra (i : Issue) (rd ra rb : SReg) (s : State) : secretOf (execSra i rd ra rb s) = some s.lantern.secret := by unfold execSra; simp

@[simp] theorem secret_execSlt (i : Issue) (rd ra rb : SReg) (s : State) : secretOf (execSlt i rd ra rb s) = some s.lantern.secret := by unfold execSlt; simp

@[simp] theorem secret_execSltu (i : Issue) (rd ra rb : SReg) (s : State) : secretOf (execSltu i rd ra rb s) = some s.lantern.secret := by unfold execSltu; simp

@[simp] theorem secret_execMul (i : Issue) (rd ra rb : SReg) (s : State) : secretOf (execMul i rd ra rb s) = some s.lantern.secret := by unfold execMul; (try dsimp only); refine congrArg some (secret_State_issue _ _ _ _ fun k => ?_); (try dsimp only); (repeat' split) <;> simp [ActKeeps, resS, lateS]

@[simp] theorem secret_execMulh (i : Issue) (rd ra rb : SReg) (s : State) : secretOf (execMulh i rd ra rb s) = some s.lantern.secret := by unfold execMulh; (try dsimp only); refine congrArg some (secret_State_issue _ _ _ _ fun k => ?_); (try dsimp only); (repeat' split) <;> simp [ActKeeps, resS, lateS]

@[simp] theorem secret_execAdds (i : Issue) (rd ra rb : SReg) (s : State) : secretOf (execAdds i rd ra rb s) = some s.lantern.secret := by unfold execAdds; simp

@[simp] theorem secret_execSubs (i : Issue) (rd ra rb : SReg) (s : State) : secretOf (execSubs i rd ra rb s) = some s.lantern.secret := by unfold execSubs; simp

@[simp] theorem secret_execMin (i : Issue) (rd ra rb : SReg) (s : State) : secretOf (execMin i rd ra rb s) = some s.lantern.secret := by unfold execMin; simp

@[simp] theorem secret_execMax (i : Issue) (rd ra rb : SReg) (s : State) : secretOf (execMax i rd ra rb s) = some s.lantern.secret := by unfold execMax; simp

@[simp] theorem secret_execPopc (i : Issue) (rd ra _rb : SReg) (s : State) : secretOf (execPopc i rd ra _rb s) = some s.lantern.secret := by unfold execPopc; simp

@[simp] theorem secret_execClz (i : Issue) (rd ra _rb : SReg) (s : State) : secretOf (execClz i rd ra _rb s) = some s.lantern.secret := by unfold execClz; simp

@[simp] theorem secret_execCtz (i : Issue) (rd ra _rb : SReg) (s : State) : secretOf (execCtz i rd ra _rb s) = some s.lantern.secret := by unfold execCtz; simp

@[simp] theorem secret_execFxadd (i : Issue) (rd ra rb : SReg) (s : State) : secretOf (execFxadd i rd ra rb s) = some s.lantern.secret := by unfold execFxadd; simp

@[simp] theorem secret_execFxsub (i : Issue) (rd ra rb : SReg) (s : State) : secretOf (execFxsub i rd ra rb s) = some s.lantern.secret := by unfold execFxsub; simp

@[simp] theorem secret_execFxmul (i : Issue) (rd ra rb : SReg) (s : State) : secretOf (execFxmul i rd ra rb s) = some s.lantern.secret := by unfold execFxmul; (try dsimp only); refine congrArg some (secret_State_issue _ _ _ _ fun k => ?_); (try dsimp only); (repeat' split) <;> simp [ActKeeps, resS, lateS]

@[simp] theorem secret_execAddi (i : Issue) (rd ra : SReg) (imm : Imm16) (s : State) : secretOf (execAddi i rd ra imm s) = some s.lantern.secret := by unfold execAddi; simp

@[simp] theorem secret_execAndi (i : Issue) (rd ra : SReg) (imm : Imm16) (s : State) : secretOf (execAndi i rd ra imm s) = some s.lantern.secret := by unfold execAndi; simp

@[simp] theorem secret_execOri (i : Issue) (rd ra : SReg) (imm : Imm16) (s : State) : secretOf (execOri i rd ra imm s) = some s.lantern.secret := by unfold execOri; simp

@[simp] theorem secret_execXori (i : Issue) (rd ra : SReg) (imm : Imm16) (s : State) : secretOf (execXori i rd ra imm s) = some s.lantern.secret := by unfold execXori; simp

@[simp] theorem secret_execSlti (i : Issue) (rd ra : SReg) (imm : Imm16) (s : State) : secretOf (execSlti i rd ra imm s) = some s.lantern.secret := by unfold execSlti; simp

@[simp] theorem secret_execShi (i : Issue) (rd ra : SReg) (imm : Imm16) (s : State) : secretOf (execShi i rd ra imm s) = some s.lantern.secret := by unfold execShi; (try dsimp only); refine congrArg some (secret_State_issue _ _ _ _ fun k => ?_); (try dsimp only); (repeat' split) <;> simp [ActKeeps, resS, lateS]

@[simp] theorem secret_execLui (i : Issue) (rd ra : SReg) (imm : Imm16) (s : State) : secretOf (execLui i rd ra imm s) = some s.lantern.secret := by unfold execLui; (try dsimp only); refine congrArg some (secret_State_issue _ _ _ _ fun k => ?_); (try dsimp only); (repeat' split) <;> simp [ActKeeps, resS, lateS]

@[simp] theorem secret_execLw (i : Issue) (rd ra : SReg) (imm : Imm16) (s : State) : secretOf (execLw i rd ra imm s) = some s.lantern.secret := by unfold execLw; simp

@[simp] theorem secret_execLh (i : Issue) (rd ra : SReg) (imm : Imm16) (s : State) : secretOf (execLh i rd ra imm s) = some s.lantern.secret := by unfold execLh; simp

@[simp] theorem secret_execLhu (i : Issue) (rd ra : SReg) (imm : Imm16) (s : State) : secretOf (execLhu i rd ra imm s) = some s.lantern.secret := by unfold execLhu; simp

@[simp] theorem secret_execLb (i : Issue) (rd ra : SReg) (imm : Imm16) (s : State) : secretOf (execLb i rd ra imm s) = some s.lantern.secret := by unfold execLb; simp

@[simp] theorem secret_execLbu (i : Issue) (rd ra : SReg) (imm : Imm16) (s : State) : secretOf (execLbu i rd ra imm s) = some s.lantern.secret := by unfold execLbu; simp

@[simp] theorem secret_execSw (i : Issue) (rb ra : SReg) (imm : Imm16) (s : State) : secretOf (execSw i rb ra imm s) = some s.lantern.secret := by unfold execSw; simp

@[simp] theorem secret_execSh (i : Issue) (rb ra : SReg) (imm : Imm16) (s : State) : secretOf (execSh i rb ra imm s) = some s.lantern.secret := by unfold execSh; simp

@[simp] theorem secret_execSb (i : Issue) (rb ra : SReg) (imm : Imm16) (s : State) : secretOf (execSb i rb ra imm s) = some s.lantern.secret := by unfold execSb; simp

@[simp] theorem secret_execBeq (i : Issue) (rb ra : SReg) (imm : Imm16) (s : State) : secretOf (execBeq i rb ra imm s) = some s.lantern.secret := by unfold execBeq; simp

@[simp] theorem secret_execBne (i : Issue) (rb ra : SReg) (imm : Imm16) (s : State) : secretOf (execBne i rb ra imm s) = some s.lantern.secret := by unfold execBne; simp

@[simp] theorem secret_execBlt (i : Issue) (rb ra : SReg) (imm : Imm16) (s : State) : secretOf (execBlt i rb ra imm s) = some s.lantern.secret := by unfold execBlt; simp

@[simp] theorem secret_execBge (i : Issue) (rb ra : SReg) (imm : Imm16) (s : State) : secretOf (execBge i rb ra imm s) = some s.lantern.secret := by unfold execBge; simp

@[simp] theorem secret_execBltu (i : Issue) (rb ra : SReg) (imm : Imm16) (s : State) : secretOf (execBltu i rb ra imm s) = some s.lantern.secret := by unfold execBltu; simp

@[simp] theorem secret_execBgeu (i : Issue) (rb ra : SReg) (imm : Imm16) (s : State) : secretOf (execBgeu i rb ra imm s) = some s.lantern.secret := by unfold execBgeu; simp

@[simp] theorem secret_execJal (i : Issue) (off : BitVec 26) (s : State) : secretOf (execJal i off s) = some s.lantern.secret := by unfold execJal; (try dsimp only); refine congrArg some (secret_State_issue _ _ _ _ fun k => ?_); (try dsimp only); (repeat' split) <;> simp [ActKeeps, resS, lateS]

@[simp] theorem secret_execJalr (i : Issue) (rd ra : SReg) (imm : Imm16) (s : State) : secretOf (execJalr i rd ra imm s) = some s.lantern.secret := by unfold execJalr; (try dsimp only); refine congrArg some (secret_State_issue _ _ _ _ fun k => ?_); (try dsimp only); (repeat' split) <;> simp [ActKeeps, resS, lateS]

@[simp] theorem secret_State_formV (s : State) (i : Issue) (vd va vb : VReg) (reads : List Nat) (f : Sliver → Sliver → Sliver) : (State.formV s i vd va vb reads f).lantern.secret = s.lantern.secret := by unfold State.formV; apply secret_State_issue; intro k; (try dsimp only); (repeat' split) <;> simp [ActKeeps, resS, lateS]

@[simp] theorem secret_State_countV (s : State) (i : Issue) (va vb : VReg) (sx : SReg) (reads : List Nat) (wait : Nat) (f : Sliver → Sliver → Nat) : (State.countV s i va vb sx reads wait f).lantern.secret = s.lantern.secret := by unfold State.countV; apply secret_State_issue; intro k; (try dsimp only); (repeat' split) <;> simp [ActKeeps, resS, lateS]

@[simp] theorem secret_execVld (i : Issue) (vd : VReg) (ra : SReg) (imm : Imm16) (s : State) : secretOf (execVld i vd ra imm s) = some s.lantern.secret := by unfold execVld; (try dsimp only); refine congrArg some (secret_State_issue _ _ _ _ fun k => ?_); (try dsimp only); (repeat' split) <;> simp [ActKeeps, resS, lateS]

@[simp] theorem secret_execVst (i : Issue) (vd : VReg) (ra : SReg) (imm : Imm16) (s : State) : secretOf (execVst i vd ra imm s) = some s.lantern.secret := by unfold execVst; (try dsimp only); refine congrArg some (secret_State_issue _ _ _ _ fun k => ?_); (try dsimp only); (repeat' split) <;> simp [ActKeeps, resS, lateS]

@[simp] theorem secret_execVmov (i : Issue) (vd va vb : VReg) (_sx : SReg) (s : State) : secretOf (execVmov i vd va vb _sx s) = some s.lantern.secret := by unfold execVmov; simp

@[simp] theorem secret_execVnot (i : Issue) (vd va vb : VReg) (_sx : SReg) (s : State) : secretOf (execVnot i vd va vb _sx s) = some s.lantern.secret := by unfold execVnot; simp

@[simp] theorem secret_execVand (i : Issue) (vd va vb : VReg) (_sx : SReg) (s : State) : secretOf (execVand i vd va vb _sx s) = some s.lantern.secret := by unfold execVand; simp

@[simp] theorem secret_execVor (i : Issue) (vd va vb : VReg) (_sx : SReg) (s : State) : secretOf (execVor i vd va vb _sx s) = some s.lantern.secret := by unfold execVor; simp

@[simp] theorem secret_execVxor (i : Issue) (vd va vb : VReg) (_sx : SReg) (s : State) : secretOf (execVxor i vd va vb _sx s) = some s.lantern.secret := by unfold execVxor; simp

@[simp] theorem secret_execVandn (i : Issue) (vd va vb : VReg) (_sx : SReg) (s : State) : secretOf (execVandn i vd va vb _sx s) = some s.lantern.secret := by unfold execVandn; simp

@[simp] theorem secret_execVtbind (i : Issue) (vd va vb : VReg) (_sx : SReg) (s : State) : secretOf (execVtbind i vd va vb _sx s) = some s.lantern.secret := by unfold execVtbind; (try dsimp only); refine congrArg some (secret_State_issue _ _ _ _ fun k => ?_); (try dsimp only); (repeat' split) <;> simp [ActKeeps, resS, lateS]

@[simp] theorem secret_execVbtbind (i : Issue) (vd va vb : VReg) (_sx : SReg) (s : State) : secretOf (execVbtbind i vd va vb _sx s) = some s.lantern.secret := by unfold execVbtbind; (try dsimp only); refine congrArg some (secret_State_issue _ _ _ _ fun k => ?_); (try dsimp only); (repeat' split) <;> simp [ActKeeps, resS, lateS]

@[simp] theorem secret_execVrot (i : Issue) (vd va _vb : VReg) (sx : SReg) (s : State) : secretOf (execVrot i vd va _vb sx s) = some s.lantern.secret := by unfold execVrot; (try dsimp only); refine congrArg some (secret_State_issue _ _ _ _ fun k => ?_); (try dsimp only); (repeat' split) <;> simp [ActKeeps, resS, lateS]

@[simp] theorem secret_execVperm (i : Issue) (vd va vb : VReg) (sx : SReg) (s : State) : secretOf (execVperm i vd va vb sx s) = some s.lantern.secret := by unfold execVperm; (try dsimp only); refine congrArg some (secret_State_issue _ _ _ _ fun k => ?_); (try dsimp only); (repeat' split) <;> simp [ActKeeps, resS, lateS]

@[simp] theorem secret_execVpop (i : Issue) (_vd va vb : VReg) (sx : SReg) (s : State) : secretOf (execVpop i _vd va vb sx s) = some s.lantern.secret := by unfold execVpop; simp

@[simp] theorem secret_execVpopand (i : Issue) (_vd va vb : VReg) (sx : SReg) (s : State) : secretOf (execVpopand i _vd va vb sx s) = some s.lantern.secret := by unfold execVpopand; simp

@[simp] theorem secret_execVpopxor (i : Issue) (_vd va vb : VReg) (sx : SReg) (s : State) : secretOf (execVpopxor i _vd va vb sx s) = some s.lantern.secret := by unfold execVpopxor; simp

@[simp] theorem secret_execVdott2 (i : Issue) (_vd va vb : VReg) (sx : SReg) (s : State) : secretOf (execVdott2 i _vd va vb sx s) = some s.lantern.secret := by unfold execVdott2; (try dsimp only); refine congrArg some (secret_State_issue _ _ _ _ fun k => ?_); (try dsimp only); (repeat' split) <;> simp [ActKeeps, resS, lateS]

@[simp] theorem secret_execVcadd (i : Issue) (_vd va _vb : VReg) (sx : SReg) (s : State) : secretOf (execVcadd i _vd va _vb sx s) = some s.lantern.secret := by unfold execVcadd; (try dsimp only); refine congrArg some (secret_State_issue _ _ _ _ fun k => ?_); (try dsimp only); (repeat' split) <;> simp [ActKeeps, resS, lateS]

@[simp] theorem secret_execVcaddt (i : Issue) (_vd va _vb : VReg) (sx : SReg) (s : State) : secretOf (execVcaddt i _vd va _vb sx s) = some s.lantern.secret := by unfold execVcaddt; (try dsimp only); refine congrArg some (secret_State_issue _ _ _ _ fun k => ?_); (try dsimp only); (repeat' split) <;> simp [ActKeeps, resS, lateS]

@[simp] theorem secret_execVsign (i : Issue) (vd _va vb : VReg) (sx : SReg) (s : State) : secretOf (execVsign i vd _va vb sx s) = some s.lantern.secret := by unfold execVsign; (try dsimp only); refine congrArg some (secret_State_issue _ _ _ _ fun k => ?_); (try dsimp only); (repeat' split) <;> simp [ActKeeps, resS, lateS]

@[simp] theorem secret_execVthin (i : Issue) (vd _va _vb : VReg) (sx : SReg) (s : State) : secretOf (execVthin i vd _va _vb sx s) = some s.lantern.secret := by unfold execVthin; (try dsimp only); refine congrArg some (secret_State_issue _ _ _ _ fun k => ?_); (try dsimp only); (repeat' split) <;> simp [ActKeeps, resS, lateS]

@[simp] theorem secret_execTclr (i : Issue) (vd va vb : VReg) (sx : SReg) (s : State) : secretOf (execTclr i vd va vb sx s) = some s.lantern.secret := by unfold execTclr; (try dsimp only); refine congrArg some (secret_State_issue _ _ _ _ fun k => ?_); (try dsimp only); (repeat' split) <;> simp [ActKeeps, resS, lateS]

@[simp] theorem secret_execTsave (i : Issue) (vd : VReg) (ra : SReg) (imm : Imm16) (s : State) : secretOf (execTsave i vd ra imm s) = some s.lantern.secret := by unfold execTsave; (try dsimp only); refine congrArg some (secret_State_issue _ _ _ _ fun k => ?_); (try dsimp only); (repeat' split) <;> simp [ActKeeps, resS, lateS]

@[simp] theorem secret_execTload (i : Issue) (vd : VReg) (ra : SReg) (imm : Imm16) (s : State) : secretOf (execTload i vd ra imm s) = some s.lantern.secret := by unfold execTload; (try dsimp only); refine congrArg some (secret_State_issue _ _ _ _ fun k => ?_); (try dsimp only); (repeat' split) <;> simp [ActKeeps, resS, lateS]

@[simp] theorem secret_execVdot8 (i : Issue) (_vd va vb : VReg) (sx : SReg) (s : State) : secretOf (execVdot8 i _vd va vb sx s) = some s.lantern.secret := by unfold execVdot8; (try dsimp only); refine congrArg some (secret_State_issue _ _ _ _ fun k => ?_); (try dsimp only); (repeat' split) <;> simp [ActKeeps, resS, lateS]

@[simp] theorem secret_execVext (i : Issue) (_vd va _vb : VReg) (sx : SReg) (word : BitVec 3) (s : State) : secretOf (execVext i _vd va _vb sx word s) = some s.lantern.secret := by unfold execVext; (try dsimp only); refine congrArg some (secret_State_issue _ _ _ _ fun k => ?_); (try dsimp only); (repeat' split) <;> simp [ActKeeps, resS, lateS]

@[simp] theorem secret_execVins (i : Issue) (vd _va _vb : VReg) (sx : SReg) (word : BitVec 3) (s : State) : secretOf (execVins i vd _va _vb sx word s) = some s.lantern.secret := by unfold execVins; (try dsimp only); refine congrArg some (secret_State_issue _ _ _ _ fun k => ?_); (try dsimp only); (repeat' split) <;> simp [ActKeeps, resS, lateS]

@[simp] theorem secret_execSend (i : Issue) (rd ra : SReg) (imm : Imm16) (s : State) : secretOf (execSend i rd ra imm s) = some s.lantern.secret := by unfold execSend; (try dsimp only); refine congrArg some (secret_State_issue _ _ _ _ fun k => ?_); (try dsimp only); (repeat' split) <;> simp [ActKeeps, resS, lateS]

@[simp] theorem secret_execRecv (i : Issue) (rd ra : SReg) (imm : Imm16) (s : State) : secretOf (execRecv i rd ra imm s) = some s.lantern.secret := by unfold execRecv; (try dsimp only); refine congrArg some (secret_State_issue _ _ _ _ fun k => ?_); (try dsimp only); (repeat' split) <;> simp [ActKeeps, resS, lateS]

@[simp] theorem secret_State_resume (s : State) (c extra : Nat) (k : CoreSt) : (State.resume s c extra k).lantern.secret = s.lantern.secret := by unfold State.resume; simp

@[simp] theorem secret_execWait (i : Issue) (rd ra : SReg) (imm : Imm16) (s : State) : secretOf (execWait i rd ra imm s) = some s.lantern.secret := by unfold execWait; (try dsimp only); refine congrArg some (secret_State_issue _ _ _ _ fun k => ?_); (try dsimp only); (repeat' split) <;> simp [ActKeeps, resS, lateS]

@[simp] theorem secret_execWaitWake (core : CoreId) (s : State) : secretOf (execWaitWake core s) = some s.lantern.secret := by unfold execWaitWake; dsimp only; (repeat' split) <;> simp

@[simp] theorem secret_State_prefetch (s : State) (n l : Nat) : (State.prefetch s n l).lantern.secret = s.lantern.secret := by unfold State.prefetch; simp

@[simp] theorem secret_State_prefetchAll (s : State) (a len : Nat) : (State.prefetchAll s a len).lantern.secret = s.lantern.secret := by unfold State.prefetchAll; simp

@[simp] theorem secret_execFetch (i : Issue) (rd ra rb : SReg) (fn : BitVec 6) (s : State) : secretOf (execFetch i rd ra rb fn s) = some s.lantern.secret := by unfold execFetch; (try dsimp only); refine congrArg some (secret_State_issue _ _ _ _ fun k => ?_); (try dsimp only); (repeat' split) <;> simp [ActKeeps, resS, lateS]

@[simp] theorem secret_execFwait (i : Issue) (_rd _ra : SReg) (imm : Imm16) (s : State) : secretOf (execFwait i _rd _ra imm s) = some s.lantern.secret := by unfold execFwait; (try dsimp only); refine congrArg some (secret_State_issue _ _ _ _ fun k => ?_); (try dsimp only); (repeat' split) <;> simp [ActKeeps, resS, lateS]

@[simp] theorem secret_execFwaitDone (core : CoreId) (s : State) : secretOf (execFwaitDone core s) = some s.lantern.secret := by unfold execFwaitDone; dsimp only; (repeat' split) <;> simp

@[simp] theorem secret_execTrace (i : Issue) (_rd ra : SReg) (imm : Imm16) (s : State) : secretOf (execTrace i _rd ra imm s) = some s.lantern.secret := by unfold execTrace; (try dsimp only); refine congrArg some (secret_State_issue _ _ _ _ fun k => ?_); (try dsimp only); (repeat' split) <;> simp [ActKeeps, resS, lateS]

@[simp] theorem secret_execBarrier (i : Issue) (_rd _ra : SReg) (imm : Imm16) (s : State) : secretOf (execBarrier i _rd _ra imm s) = some s.lantern.secret := by unfold execBarrier; (try dsimp only); refine congrArg some (secret_State_issue _ _ _ _ fun k => ?_); (try dsimp only); (repeat' split) <;> simp [ActKeeps, resS, lateS]

@[simp] theorem secret_State_barrierRelease (s : State) (sc : Scope) (region : Nat) : (State.barrierRelease s sc region).lantern.secret = s.lantern.secret := by unfold State.barrierRelease; simp

@[simp] theorem secret_execBarrierComplete (scope : Scope) (region : BitVec 9) (s : State) : secretOf (execBarrierComplete scope region s) = some s.lantern.secret := by unfold execBarrierComplete; simp

@[simp] theorem secret_execBarrierTimeout (core : CoreId) (s : State) : secretOf (execBarrierTimeout core s) = some s.lantern.secret := by unfold execBarrierTimeout; dsimp only; (repeat' split) <;> simp

@[simp] theorem secret_execFence (i : Issue) (_rd _ra : SReg) (imm : Imm16) (s : State) : secretOf (execFence i _rd _ra imm s) = some s.lantern.secret := by unfold execFence; (try dsimp only); refine congrArg some (secret_State_issue _ _ _ _ fun k => ?_); (try dsimp only); (repeat' split) <;> simp [ActKeeps, resS, lateS]

@[simp] theorem secret_execFenceDone (core : CoreId) (s : State) : secretOf (execFenceDone core s) = some s.lantern.secret := by unfold execFenceDone; dsimp only; (repeat' split) <;> simp

@[simp] theorem secret_execHalt (i : Issue) (off : BitVec 26) (s : State) : secretOf (execHalt i off s) = some s.lantern.secret := by unfold execHalt; (try dsimp only); refine congrArg some (secret_State_issue _ _ _ _ fun k => ?_); (try dsimp only); (repeat' split) <;> simp [ActKeeps, resS, lateS]

@[simp] theorem secret_execCsrr (i : Issue) (rd _ra : SReg) (imm : Imm16) (s : State) : secretOf (execCsrr i rd _ra imm s) = some s.lantern.secret := by unfold execCsrr; (try dsimp only); refine congrArg some (secret_State_issue _ _ _ _ fun k => ?_); (try dsimp only); (repeat' split) <;> simp [ActKeeps, resS, lateS]

@[simp] theorem secret_execCsrw (i : Issue) (_rd ra : SReg) (imm : Imm16) (s : State) : secretOf (execCsrw i _rd ra imm s) = some s.lantern.secret := by unfold execCsrw; (try dsimp only); refine congrArg some (secret_State_issue _ _ _ _ fun k => ?_); (try dsimp only); (repeat' split) <;> simp [ActKeeps, resS, lateS]

@[simp] theorem secret_execCsrc (i : Issue) (_rd ra : SReg) (imm : Imm16) (s : State) : secretOf (execCsrc i _rd ra imm s) = some s.lantern.secret := by unfold execCsrc; (try dsimp only); refine congrArg some (secret_State_issue _ _ _ _ fun k => ?_); (try dsimp only); (repeat' split) <;> simp [ActKeeps, resS, lateS]

@[simp] theorem secret_execEret (i : Issue) (off : BitVec 26) (s : State) : secretOf (execEret i off s) = some s.lantern.secret := by unfold execEret; (try dsimp only); refine congrArg some (secret_State_issue _ _ _ _ fun k => ?_); (try dsimp only); (repeat' split) <;> simp [ActKeeps, resS, lateS]

@[simp] theorem secret_execFlintTimerMatch (core : CoreId) (s : State) : secretOf (execFlintTimerMatch core s) = some s.lantern.secret := by unfold execFlintTimerMatch; simp

@[simp] theorem secret_execTickNotice (core : CoreId) (s : State) : secretOf (execTickNotice core s) = some s.lantern.secret := by unfold execTickNotice; simp

@[simp] theorem secret_execCoreRestart (core : CoreId) (s : State) : secretOf (execCoreRestart core s) = some s.lantern.secret := by unfold execCoreRestart; simp

@[simp] theorem secret_execIllegalInstruction (i : Issue) (word : Word) (s : State) : secretOf (execIllegalInstruction i word s) = some s.lantern.secret := by
  unfold execIllegalInstruction
  split
  · rfl
  · exact congrArg some (secret_State_issue _ _ _ _ fun _ => trivial)

@[simp] theorem secret_execAditSpikes (stream : Stream) (s : State) : secretOf (execAditSpikes stream s) = some s.lantern.secret := by unfold execAditSpikes; dsimp only; (repeat' split) <;> simp

@[simp] theorem secret_execTprocExpiry (stream : Stream) (s : State) : secretOf (execTprocExpiry stream s) = some s.lantern.secret := by unfold execTprocExpiry; dsimp only; (repeat' split) <;> simp

@[simp] theorem secret_State_encodeCore (s : State) (n : Nat) (b : Broadcast) (j : Nat) : (State.encodeCore s n b j).lantern.secret = s.lantern.secret := by unfold State.encodeCore; simp

@[simp] theorem secret_execSliverEncode (stream : Stream) (s : State) : secretOf (execSliverEncode stream s) = some s.lantern.secret := by unfold execSliverEncode; dsimp only; (repeat' split) <;> simp

@[simp] theorem secret_execEpochHandshake (core : CoreId) (s : State) : secretOf (execEpochHandshake core s) = some s.lantern.secret := by unfold execEpochHandshake; simp

end Sys2Proof.Machine
end

