-- ==== Sys2Proof/Laws/KeyStoreHost.lean ====
section
/-! SUPPORT.  The key store (R466), continued: the operations of Library, Verify, Host, Chisel. -/

namespace Sys2Proof.Machine

@[simp] theorem secret_State_libOpWhen (s : State) (ready : Bool) (ring : Ring) (idx : Word) (op : Nat) (hasBuf dmaOk : Bool)
    (body : LibDesc → State × Option (Nat × Nat × Nat)) (h : ∀ x, (body x).1.lantern.secret = s.lantern.secret) :
    (s.libOpWhen ready ring idx op hasBuf dmaOk body).lantern.secret = s.lantern.secret := by
  unfold State.libOpWhen; dsimp only; (repeat' split) <;> simp [h]

@[simp] theorem secret_State_libOp (s : State) (ring : Ring) (idx : Word) (op : Nat) (hasBuf dmaOk : Bool)
    (body : LibDesc → State × Option (Nat × Nat × Nat)) (h : ∀ x, (body x).1.lantern.secret = s.lantern.secret) :
    (s.libOp ring idx op hasBuf dmaOk body).lantern.secret = s.lantern.secret := by
  unfold State.libOp; exact secret_State_libOpWhen _ _ _ _ _ _ _ _ h

@[simp] theorem secret_State_ends (s : State) (st aux res : Nat) : (State.ends s st aux res).1.lantern.secret = s.lantern.secret := by unfold State.ends; simp

@[simp] theorem secret_State_limited (s : State) (l : Nat) : (State.limited s l).1.lantern.secret = s.lantern.secret := by unfold State.limited; simp

@[simp] theorem secret_execCreate (ring : Ring) (idx : Word) (s : State) : secretOf (execCreate ring idx s) = some s.lantern.secret := by unfold execCreate; simp

@[simp] theorem secret_State_releaseBench (s : State) (b : Nat) : (State.releaseBench s b).lantern.secret = s.lantern.secret := by unfold State.releaseBench; simp

@[simp] theorem secret_State_freeLib (s : State) (l : Nat) : (State.freeLib s l).lantern.secret = s.lantern.secret := by unfold State.freeLib; simp

@[simp] theorem secret_execDeleteLib (ring : Ring) (idx : Word) (s : State) : secretOf (execDeleteLib ring idx s) = some s.lantern.secret := by unfold execDeleteLib; simp

@[simp] theorem secret_execAddBench (ring : Ring) (idx : Word) (s : State) : secretOf (execAddBench ring idx s) = some s.lantern.secret := by unfold execAddBench; simp

@[simp] theorem secret_execRemoveBench (ring : Ring) (idx : Word) (s : State) : secretOf (execRemoveBench ring idx s) = some s.lantern.secret := by unfold execRemoveBench; (try dsimp only); refine congrArg some (secret_State_libOp _ _ _ _ _ _ _ fun x => ?_); (try dsimp only); (repeat' split) <;> simp

@[simp] theorem secret_execWrite (ring : Ring) (idx : Word) (buf : List Byte) (dmaOk : Bool) (s : State) : secretOf (execWrite ring idx buf dmaOk s) = some s.lantern.secret := by unfold execWrite; (try dsimp only); refine congrArg some (secret_State_libOp _ _ _ _ _ _ _ fun x => ?_); (try dsimp only); (repeat' split) <;> simp

@[simp] theorem secret_State_invalidateEntry (s : State) (l e : Nat) : (State.invalidateEntry s l e).lantern.secret = s.lantern.secret := by unfold State.invalidateEntry; (repeat' split) <;> simp

@[simp] theorem secret_State_sendAway (s : State) (l op : Nat) (l_ : List (Nat × List Byte)) : (State.sendAway s l op l_).lantern.secret = s.lantern.secret := by unfold State.sendAway; dsimp only; repeat' first | rfl | (apply foldl_secret; intro _ _) | split | simp

@[simp] theorem secret_execInvalidate (ring : Ring) (idx : Word) (buf : List Byte) (dmaOk : Bool) (s : State) : secretOf (execInvalidate ring idx buf dmaOk s) = some s.lantern.secret := by unfold execInvalidate; (try dsimp only); refine congrArg some (secret_State_libOp _ _ _ _ _ _ _ fun x => ?_); (try dsimp only); (repeat' split) <;> simp

@[simp] theorem secret_execSetFields (ring : Ring) (idx : Word) (buf : List Byte) (dmaOk : Bool) (s : State) : secretOf (execSetFields ring idx buf dmaOk s) = some s.lantern.secret := by unfold execSetFields; (try dsimp only); refine congrArg some (secret_State_libOp _ _ _ _ _ _ _ fun x => ?_); (try dsimp only); (repeat' split) <;> simp

@[simp] theorem secret_execRead (ring : Ring) (idx : Word) (buf : List Byte) (dmaOk : Bool) (s : State) : secretOf (execRead ring idx buf dmaOk s) = some s.lantern.secret := by unfold execRead; (try dsimp only); refine congrArg some (secret_State_libOp _ _ _ _ _ _ _ fun x => ?_); (try dsimp only); (repeat' split) <;> simp

@[simp] theorem secret_execDefineMatrix (ring : Ring) (idx : Word) (s : State) : secretOf (execDefineMatrix ring idx s) = some s.lantern.secret := by unfold execDefineMatrix; (try dsimp only); refine congrArg some (secret_State_libOp _ _ _ _ _ _ _ fun x => ?_); (try dsimp only); (repeat' split) <;> simp

@[simp] theorem secret_execWriteMatrix (ring : Ring) (idx : Word) (buf : List Byte) (dmaOk : Bool) (s : State) : secretOf (execWriteMatrix ring idx buf dmaOk s) = some s.lantern.secret := by unfold execWriteMatrix; (try dsimp only); refine congrArg some (secret_State_libOp _ _ _ _ _ _ _ fun x => ?_); (try dsimp only); (repeat' split) <;> simp

@[simp] theorem secret_State_startRepair (s : State) (b c : Nat) (host : Option (Nat × Nat)) : (State.startRepair s b c host).lantern.secret = s.lantern.secret := by unfold State.startRepair; simp

@[simp] theorem secret_execRepair (ring : Ring) (idx : Word) (s : State) : secretOf (execRepair ring idx s) = some s.lantern.secret := by unfold execRepair; (try dsimp only); refine congrArg some (secret_State_libOp _ _ _ _ _ _ _ fun x => ?_); (try dsimp only); (repeat' split) <;> simp

@[simp] theorem secret_execRepairDone (lib : Lib) (entry : BitVec 24) (cells : List CellRead) (s : State) : secretOf (execRepairDone lib entry cells s) = some s.lantern.secret := by unfold execRepairDone; (repeat' split) <;> simp

@[simp] theorem secret_execWriteStep (lib : Lib) (s : State) : secretOf (execWriteStep lib s) = some s.lantern.secret := by unfold execWriteStep; dsimp only; (repeat' split) <;> simp

@[simp] theorem secret_State_setTotals (s : State) (b m first : Nat) (new : List (List Int)) : (State.setTotals s b m first new).lantern.secret = s.lantern.secret := by unfold State.setTotals; simp

@[simp] theorem secret_State_finishMove (s : State) (l p b : Nat) : (State.finishMove s l p b).lantern.secret = s.lantern.secret := by unfold State.finishMove; (repeat' split) <;> simp

@[simp] theorem secret_State_commitEnds (s : State) : (State.commitEnds s).lantern.secret = s.lantern.secret := by unfold State.commitEnds; simp

@[simp] theorem secret_State_takeBatch (s : State) (k : Nat) (r : BatchRes) : (State.takeBatch s k r).lantern.secret = s.lantern.secret := by unfold State.takeBatch; dsimp only; (repeat' split) <;> simp

@[simp] theorem secret_State_sendCandidate (s : State) (l b : Nat) (is : List WriteItem) : (State.sendCandidate s l b is).lantern.secret = s.lantern.secret := by unfold State.sendCandidate; simp

@[simp] theorem secret_State_feedCandidates (s : State) (k : Nat) : (s.feedCandidates k).lantern.secret = s.lantern.secret := by
  induction k generalizing s with
  | zero => rfl
  | succ k ih =>
    unfold State.feedCandidates
    split
    · rfl
    · dsimp only
      split
      · rfl
      · rw [ih]; simp

@[simp] theorem secret_State_takeCandidate (s : State) (b : Nat) (r : BatchRes) (j : LibJob) : (State.takeCandidate s b r j).lantern.secret = s.lantern.secret := by unfold State.takeCandidate; simp

@[simp] theorem secret_execBatchResult (die : Die) (bench : BitVec 13) (s : State) : secretOf (execBatchResult die bench s) = some s.lantern.secret := by unfold execBatchResult; dsimp only; (repeat' split) <;> simp

@[simp] theorem secret_State_wrapCursor (s : State) (l : Nat) : (State.wrapCursor s l).lantern.secret = s.lantern.secret := by unfold State.wrapCursor; simp

@[simp] theorem secret_State_fileAppend (s : State) (l : Nat) (key : Key) (ts : Nat) : (State.fileAppend s l key ts).1.lantern.secret = s.lantern.secret := by unfold State.fileAppend; dsimp only; (repeat' split) <;> simp

@[simp] theorem secret_execAppendWaitExpiry (lib : Lib) (s : State) : secretOf (execAppendWaitExpiry lib s) = some s.lantern.secret := by unfold execAppendWaitExpiry; (repeat' split) <;> simp

@[simp] theorem secret_State_mirrorError (s : State) (x : Rank) : (State.mirrorError s x).lantern.secret = s.lantern.secret := by unfold State.mirrorError; simp

@[simp] theorem secret_State_boundExceeded (s : State) (x : Rank) : (State.boundExceeded s x).lantern.secret = s.lantern.secret := by unfold State.boundExceeded; simp

@[simp] theorem secret_State_verifyOwn (s : State) (r : Request) (bad : List (Nat × Nat)) : (State.verifyOwn s r bad).1.lantern.secret = s.lantern.secret := by unfold State.verifyOwn; simp

@[simp] theorem secret_State_endWindowQuery (s : State) (r : Request) (a : Answer) (w : Result) : (State.endWindowQuery s r a w).lantern.secret = s.lantern.secret := by unfold State.endWindowQuery; simp

@[simp] theorem secret_State_sendAppend (s : State) (r : Request) (l : Nat) : (State.sendAppend s r l).1.lantern.secret = s.lantern.secret := by unfold State.sendAppend; simp

@[simp] theorem secret_State_putAnswer (s : State) (r : Request) (w : Result) : (State.putAnswer s r w).lantern.secret = s.lantern.secret := by unfold State.putAnswer; (repeat' split) <;> simp

theorem secret_fileAll (r : Request) (l : List Nat) (a b : State × Result × List Nat) (h : State.fileAll r l a = some b) :
    b.1.lantern.secret = a.1.lantern.secret := by
  induction l generalizing a with
  | nil =>
    unfold State.fileAll at h
    cases h; rfl
  | cons x t ih =>
    obtain ⟨s, w, acks⟩ := a
    unfold State.fileAll at h
    split at h
    · have := ih _ h; simpa using this
    · have hf := secret_State_fileAppend s x r.key r.startTs
      split at h
      · cases h
      · next s1 _ he => rw [he] at hf; exact (ih _ h).trans hf
      · next s1 he => rw [he] at hf; exact (ih _ h).trans hf
      · next s1 he => rw [he] at hf; exact (ih _ h).trans ((secret_State_sendAppend _ _ _).trans hf)

@[simp] theorem secret_State_endRecall (s : State) (r : Request) (a : Answer) (w : Result) (part : Bool) :
    (s.endRecall r a w part).lantern.secret = s.lantern.secret := by
  unfold State.endRecall
  dsimp only
  generalize (if r.append = true then s.appendTo r a else []) = ls
  split
  · simp
  · split
    · rfl
    · next he => have := secret_fileAll _ _ _ _ he; simpa using this
    · next he => have := secret_fileAll _ _ _ _ he; simpa using this

@[simp] theorem secret_State_finish (s : State) (r : Request) (own : Answer) : (State.finish s r own).lantern.secret = s.lantern.secret := by unfold State.finish; simp

@[simp] theorem secret_State_chainOff (s : State) : (State.chainOff s).lantern.secret = s.lantern.secret := by unfold State.chainOff; simp

@[simp] theorem secret_State_settleLeave (s : State) : (State.settleLeave s).lantern.secret = s.lantern.secret := by unfold State.settleLeave; simp

@[simp] theorem secret_State_sendAnswer (s : State) (r : Request) (origin req : Nat) (a : Answer) : (State.sendAnswer s r origin req a).lantern.secret = s.lantern.secret := by unfold State.sendAnswer; simp

@[simp] theorem secret_State_verifyStep (s : State) (r : Request) (bad : List (Nat × Nat)) : (State.verifyStep s r bad).lantern.secret = s.lantern.secret := by unfold State.verifyStep; (repeat' split) <;> simp

@[simp] theorem secret_execVerify (tag : Word) (bad : List (Lib × BitVec 24)) (s : State) : secretOf (execVerify tag bad s) = some s.lantern.secret := by unfold execVerify; (repeat' split) <;> simp

@[simp] theorem secret_State_setRingState (s : State) (r st : Nat) : (State.setRingState s r st).lantern.secret = s.lantern.secret := by unfold State.setRingState; simp

@[simp] theorem secret_State_ringError (s : State) (r : Nat) : (State.ringError s r).lantern.secret = s.lantern.secret := by unfold State.ringError; simp

@[simp] theorem secret_State_takeDescs (s : State) (r : Nat) (l : List (Option Slot)) : (s.takeDescs r l).lantern.secret = s.lantern.secret := by
  induction l generalizing s with
  | nil => rfl
  | cons d t ih => unfold State.takeDescs; dsimp only; (repeat' split) <;> simp [ih]

@[simp] theorem secret_State_readDoorbell (s : State) (line : Doorbell) : (s.readDoorbell line).lantern.secret = s.lantern.secret := by
  unfold State.readDoorbell; dsimp only; (repeat' split) <;> simp

@[simp] theorem secret_execKick (line : Doorbell) (s : State) : secretOf (execKick line s) = some s.lantern.secret := by unfold execKick; simp

@[simp] theorem secret_execDoorbellPoll (lines : List Doorbell) (s : State) : secretOf (execDoorbellPoll lines s) = some s.lantern.secret := by unfold execDoorbellPoll; simp

@[simp] theorem secret_State_accessError (s : State) : (State.accessError s).lantern.secret = s.lantern.secret := by unfold State.accessError; simp

@[simp] theorem secret_execCancel (ring : Ring) (value : Word64) (s : State) : secretOf (execCancel ring value s) = some s.lantern.secret := by unfold execCancel; simp

@[simp] theorem secret_State_enableRing (s : State) (r : Nat) (host : Option Nat) : (State.enableRing s r host).lantern.secret = s.lantern.secret := by unfold State.enableRing; simp

@[simp] theorem secret_execRingEnable (ring : Ring) (cfg : Word) (host : Option Word) (s : State) : secretOf (execRingEnable ring cfg host s) = some s.lantern.secret := by unfold execRingEnable; simp

@[simp] theorem secret_execRingZeroFillDone (ring : Ring) (ok : Bool) (s : State) : secretOf (execRingZeroFillDone ring ok s) = some s.lantern.secret := by unfold execRingZeroFillDone; simp

@[simp] theorem secret_State_cutExport (s : State) (q : ExportReq) : (State.cutExport s q).lantern.secret = s.lantern.secret := by unfold State.cutExport; simp

@[simp] theorem secret_State_cutExports (s : State) (sel : Nat → ExportReq → Bool) : (State.cutExports s sel).lantern.secret = s.lantern.secret := by unfold State.cutExports; simp

@[simp] theorem secret_State_endTaken (s : State) (r : Nat) : (State.endTaken s r).lantern.secret = s.lantern.secret := by unfold State.endTaken; (repeat' split) <;> simp

@[simp] theorem secret_State_flushReady (s : State) (r k : Nat) : (s.flushReady r k).lantern.secret = s.lantern.secret := by
  induction k generalizing s with
  | zero => rfl
  | succ k ih => unfold State.flushReady; dsimp only; split <;> simp [ih]

@[simp] theorem secret_State_disableRing (s : State) (r : Nat) : (State.disableRing s r).lantern.secret = s.lantern.secret := by unfold State.disableRing; simp

@[simp] theorem secret_execRingDisable (ring : Ring) (s : State) : secretOf (execRingDisable ring s) = some s.lantern.secret := by unfold execRingDisable; simp

@[simp] theorem secret_execRingStopped (ring : Ring) (s : State) : secretOf (execRingStopped ring s) = some s.lantern.secret := by unfold execRingStopped; simp

@[simp] theorem secret_State_queueRecall (s : State) (r i : Nat) (q : Request) : (State.queueRecall s r i q).lantern.secret = s.lantern.secret := by unfold State.queueRecall; simp

@[simp] theorem secret_execSearch (ring : Ring) (idx : Word) (buf : List Byte) (dmaOk : Bool) (s : State) : secretOf (execSearch ring idx buf dmaOk s) = some s.lantern.secret := by unfold execSearch; dsimp only; (repeat' split) <;> simp

@[simp] theorem secret_execMatrix (ring : Ring) (idx : Word) (buf : List Byte) (dmaOk : Bool) (s : State) : secretOf (execMatrix ring idx buf dmaOk s) = some s.lantern.secret := by unfold execMatrix; dsimp only; (repeat' split) <;> simp

@[simp] theorem secret_execExportBuffer (ring : Ring) (idx : Word) (dmaOk : Bool) (s : State) : secretOf (execExportBuffer ring idx dmaOk s) = some s.lantern.secret := by unfold execExportBuffer; dsimp only; (repeat' split) <;> simp

@[simp] theorem secret_execIrqTimer (ring : Ring) (s : State) : secretOf (execIrqTimer ring s) = some s.lantern.secret := by unfold execIrqTimer; simp

@[simp] theorem secret_State_enterRuns (s : State) (r k : Nat) : (s.enterRuns r k).lantern.secret = s.lantern.secret := by
  induction k generalizing s with
  | zero => rfl
  | succ k ih => unfold State.enterRuns; split; rfl; split; rfl; simp [ih]

@[simp] theorem secret_State_drainRing (s : State) (r k : Nat) : (s.drainRing r k).lantern.secret = s.lantern.secret := by
  induction k generalizing s with
  | zero => rfl
  | succ k ih => unfold State.drainRing; split; rfl; split; rfl; simp [ih]

@[simp] theorem secret_execBacklogDrain (ring : Ring) (ok : Bool) (s : State) : secretOf (execBacklogDrain ring ok s) = some s.lantern.secret := by unfold execBacklogDrain; simp

@[simp] theorem secret_State_setPendingCores (s : State) (l : List Nat) : (State.setPendingCores s l).lantern.secret = s.lantern.secret := by unfold State.setPendingCores; simp

@[simp] theorem secret_State_startEpochBarrier (s : State) (k : Nat) : (State.startEpochBarrier s k).lantern.secret = s.lantern.secret := by unfold State.startEpochBarrier; simp

@[simp] theorem secret_State_sendNotices (s : State) : (State.sendNotices s).lantern.secret = s.lantern.secret := by unfold State.sendNotices; simp

@[simp] theorem secret_execEpochBoundary (s : State) : secretOf (execEpochBoundary s) = some s.lantern.secret := by unfold execEpochBoundary; simp

@[simp] theorem secret_execHsDone (msg : Msg) (s : State) : secretOf (execHsDone msg s) = some s.lantern.secret := by unfold execHsDone; simp

@[simp] theorem secret_execHsWaitExpiry (s : State) : secretOf (execHsWaitExpiry s) = some s.lantern.secret := by unfold execHsWaitExpiry; (repeat' split) <;> simp

@[simp] theorem secret_State_takeSynShadow (s : State) : (State.takeSynShadow s).lantern.secret = s.lantern.secret := by unfold State.takeSynShadow; simp

@[simp] theorem secret_State_applyLoads (s : State) : (State.applyLoads s).lantern.secret = s.lantern.secret := by unfold State.applyLoads; dsimp only; repeat' first | rfl | (apply foldl_secret; intro _ _) | split | simp

@[simp] theorem secret_State_closePrototypes (s : State) (k : Nat) : (State.closePrototypes s k).lantern.secret = s.lantern.secret := by unfold State.closePrototypes; simp

@[simp] theorem secret_State_closeBackgrounds (s : State) (k : Nat) : (State.closeBackgrounds s k).lantern.secret = s.lantern.secret := by unfold State.closeBackgrounds; simp

@[simp] theorem secret_State_agePool (s : State) (k : Nat) : (State.agePool s k).lantern.secret = s.lantern.secret := by unfold State.agePool; simp

@[simp] theorem secret_State_defer (s : State) (n l : Nat) : (State.defer s n l).lantern.secret = s.lantern.secret := by unfold State.defer; simp

@[simp] theorem secret_State_nextSeq (s : State) : (State.nextSeq s).2.lantern.secret = s.lantern.secret := by unfold State.nextSeq; simp

@[simp] theorem secret_State_takeCreations (s : State) (l : Nat) (ps : List Proto) (free : List (Nat × Nat)) (room : Nat) (acc : List (Nat × WriteItem)) :
    (s.takeCreations l ps free room acc).1.lantern.secret = s.lantern.secret := by
  induction ps generalizing s free room acc with
  | nil => rfl
  | cons p ps ih => unfold State.takeCreations; split <;> simp [ih]

@[simp] theorem secret_State_takeDue (s : State) (l : List DueEntry) (n : Nat) (acc : List (Nat × WriteItem)) : (s.takeDue l n acc).1.lantern.secret = s.lantern.secret := by
  induction l generalizing s n acc with
  | nil => cases n <;> rfl
  | cons x t ih => cases n with
    | zero => rfl
    | succ n => unfold State.takeDue; rw [ih]; split <;> simp

@[simp] theorem secret_State_commitLib (s : State) (l : Nat) : (s.commitLib l).lantern.secret = s.lantern.secret := by
  unfold State.commitLib
  dsimp only
  rw [foldl_secret]
  · rw [secret_State_takeDue, secret_State_takeCreations]; simp
  · intro a g; split <;> simp

@[simp] theorem secret_State_dropCommit (s : State) : (State.dropCommit s).lantern.secret = s.lantern.secret := by unfold State.dropCommit; simp

@[simp] theorem secret_State_startCommit (s : State) : (State.startCommit s).lantern.secret = s.lantern.secret := by unfold State.startCommit; simp

@[simp] theorem secret_State_closePoint (s : State) (k : Nat) : (State.closePoint s k).lantern.secret = s.lantern.secret := by unfold State.closePoint; simp

@[simp] theorem secret_execClosePoint (s : State) : secretOf (execClosePoint s) = some s.lantern.secret := by unfold execClosePoint; (repeat' split) <;> simp

@[simp] theorem secret_State_commitNowWrite (s : State) : (State.commitNowWrite s).lantern.secret = s.lantern.secret := by unfold State.commitNowWrite; simp

@[simp] theorem secret_execCommitNow (s : State) : secretOf (execCommitNow s) = some s.lantern.secret := by unfold execCommitNow; simp

@[simp] theorem secret_State_confDrop (s : State) (st : Nat) : (State.confDrop s st).1.lantern.secret = s.lantern.secret := by unfold State.confDrop; simp

@[simp] theorem secret_State_noteVerdict (s : State) (h : HoldSlot) (v : Nat × Nat × Nat) : (State.noteVerdict s h v).lantern.secret = s.lantern.secret := by unfold State.noteVerdict; simp

@[simp] theorem secret_execExportOp (ring : Ring) (idx : Word) (s : State) : secretOf (execExportOp ring idx s) = some s.lantern.secret := by unfold execExportOp; simp

@[simp] theorem secret_State_lcapWrite (s : State) (hold : Bool) (value : Word) : (State.lcapWrite s hold value).lantern.secret = s.lantern.secret := by unfold State.lcapWrite; simp

@[simp] theorem secret_execChiselLcapWrite (hold : Bool) (value : Word) (s : State) : secretOf (execChiselLcapWrite hold value s) = some s.lantern.secret := by unfold execChiselLcapWrite; simp

@[simp] theorem secret_State_seedLib (s : State) (l : Nat) (on : Bool) : (State.seedLib s l on).lantern.secret = s.lantern.secret := by unfold State.seedLib; simp

@[simp] theorem secret_State_libLearnWrite (s : State) (l : Nat) (value : Word) : (State.libLearnWrite s l value).lantern.secret = s.lantern.secret := by unfold State.libLearnWrite; simp

@[simp] theorem secret_execChiselLibLearnWrite (lib : Lib) (value : Word) (s : State) : secretOf (execChiselLibLearnWrite lib value s) = some s.lantern.secret := by unfold execChiselLibLearnWrite; simp

end Sys2Proof.Machine
end

