-- ==== Sys2Proof/Laws/KeyStoreLantern.lean ====
section
/-! SUPPORT.  The key store (R466), continued: the operations of Lantern, LanternLib. -/

namespace Sys2Proof.Machine

@[simp] theorem secret_State_setBank (s : State) (n st : Nat) : (State.setBank s n st).lantern.secret = s.lantern.secret := by unfold State.setBank; simp

@[simp] theorem secret_State_setHdr (s : State) (n : Nat) (h : List Byte) : (State.setHdr s n h).lantern.secret = s.lantern.secret := by unfold State.setHdr; simp

@[simp] theorem secret_State_emptyBank (s : State) (n : Nat) : (State.emptyBank s n).lantern.secret = s.lantern.secret := by unfold State.emptyBank; simp

@[simp] theorem secret_State_enterRecovery (s : State) : (State.enterRecovery s).lantern.secret = s.lantern.secret := by unfold State.enterRecovery; simp

@[simp] theorem secret_State_chooseBank (s : State) (aGood bGood : Bool) (cause : Nat) : (State.chooseBank s aGood bGood cause).lantern.secret = s.lantern.secret := by unfold State.chooseBank; dsimp only; (repeat' split) <;> simp

@[simp] theorem secret_State_startNotices (s : State) : (State.startNotices s).lantern.secret = s.lantern.secret := by unfold State.startNotices; simp

@[simp] theorem secret_State_startBank (s : State) (b : Boot) : (State.startBank s b).lantern.secret = s.lantern.secret := by unfold State.startBank; simp

@[simp] theorem secret_State_dropCandidate (s : State) : (State.dropCandidate s).lantern.secret = s.lantern.secret := by unfold State.dropCandidate; (repeat' split) <;> simp

theorem secret_loseFirmware (s : State) (o : Option FwJob) : (match o with
    | none => s
    | some j => (({ s with lantern := { s.lantern with fwJob := none, updateLost := s.lantern.updateLost ++ [0] } } : State).emptyBank j.bank).alarm
        F.LANTERN_ALARM_UPDATE_LOST 0).lantern.secret = s.lantern.secret := by
  cases o <;> simp

@[simp] theorem secret_State_loseDownloads (s : State) : (s.loseDownloads).lantern.secret = s.lantern.secret := by
  unfold State.loseDownloads
  have h := secret_loseFirmware s s.lantern.fwJob
  revert h
  generalize (match s.lantern.fwJob with
    | none => s
    | some j => (({ s with lantern := { s.lantern with fwJob := none, updateLost := s.lantern.updateLost ++ [0] } } : State).emptyBank j.bank).alarm
        F.LANTERN_ALARM_UPDATE_LOST 0) = a
  intro h
  dsimp only
  (repeat' split) <;> simp [h]

@[simp] theorem secret_State_rollbackSwitch (s : State) : (State.rollbackSwitch s).lantern.secret = s.lantern.secret := by unfold State.rollbackSwitch; (repeat' split) <;> simp

@[simp] theorem secret_State_thirdRestart (s : State) (aGood bGood : Bool) : (State.thirdRestart s aGood bGood).lantern.secret = s.lantern.secret := by unfold State.thirdRestart; (repeat' split) <;> simp

@[simp] theorem secret_State_unplanned (s : State) (cause : Nat) (aGood bGood : Bool) : (State.unplanned s cause aGood bGood).lantern.secret = s.lantern.secret := by unfold State.unplanned; simp

@[simp] theorem secret_execWatchdogExpiry (aGood bGood : Bool) (s : State) : secretOf (execWatchdogExpiry aGood bGood s) = some s.lantern.secret := by unfold execWatchdogExpiry; simp

@[simp] theorem secret_execFlintMFault (sram aGood bGood : Bool) (s : State) : secretOf (execFlintMFault sram aGood bGood s) = some s.lantern.secret := by unfold execFlintMFault; simp

@[simp] theorem secret_execMbxInWrite (chan : Chan) (word : Word) (s : State) : secretOf (execMbxInWrite chan word s) = some s.lantern.secret := by unfold execMbxInWrite; simp

@[simp] theorem secret_State_outRead (s : State) (n : Nat) : (State.outRead s n).lantern.secret = s.lantern.secret := by unfold State.outRead; simp

@[simp] theorem secret_execMbxOutRead (chan : Chan) (s : State) : secretOf (execMbxOutRead chan s) = some s.lantern.secret := by unfold execMbxOutRead; simp

@[simp] theorem secret_State_popFront (s : State) (n : Nat) : (State.popFront s n).lantern.secret = s.lantern.secret := by unfold State.popFront; dsimp only; (repeat' split) <;> simp

@[simp] theorem secret_State_settle (s : State) (n k : Nat) : (s.settle n k).lantern.secret = s.lantern.secret := by
  induction k generalizing s with
  | zero => rfl
  | succ k ih => unfold State.settle; split; rfl; split; rfl; simp [ih]

@[simp] theorem secret_execMbxWordTake (chan : Chan) (s : State) : secretOf (execMbxWordTake chan s) = some s.lantern.secret := by unfold execMbxWordTake; simp

@[simp] theorem secret_execReplyWrite (chan : Chan) (s : State) : secretOf (execReplyWrite chan s) = some s.lantern.secret := by unfold execReplyWrite; dsimp only; (repeat' split) <;> simp

theorem secret_State_command (s : State) (chan : Chan) (op : Nat) (body : State → Nat → List Nat → State)
    (h : ∀ a tag args, (body a tag args).lantern.secret = a.lantern.secret) : (s.command chan op body).lantern.secret = s.lantern.secret := by
  unfold State.command; dsimp only; (repeat' split) <;> simp [h]

@[simp] theorem secret_State_waits (s : State) (n tag : Nat) : (State.waits s n tag).1.lantern.secret = s.lantern.secret := by unfold State.waits; simp

@[simp] theorem secret_execSync (chan : Chan) (s : State) : secretOf (execSync chan s) = some s.lantern.secret := by unfold execSync; (try dsimp only); (repeat' split) <;> first | rfl | (simp; done) | (simp only [secretOf_next]; congr 1; apply secret_State_command; intro _ _ _; (try dsimp only); (repeat' split) <;> first | rfl | (simp; done) | (apply secret_State_onUpdate; intro _; (repeat' split) <;> simp))

@[simp] theorem secret_execVersion (chan : Chan) (s : State) : secretOf (execVersion chan s) = some s.lantern.secret := by unfold execVersion; (try dsimp only); (repeat' split) <;> first | rfl | (simp; done) | (simp only [secretOf_next]; congr 1; apply secret_State_command; intro _ _ _; (try dsimp only); (repeat' split) <;> first | rfl | (simp; done) | (apply secret_State_onUpdate; intro _; (repeat' split) <;> simp))

@[simp] theorem secret_execLoadProgram (chan : Chan) (image : List Byte) (nets : List NetDef) (dmaOk : Bool) (s : State) : secretOf (execLoadProgram chan image nets dmaOk s) = some s.lantern.secret := by unfold execLoadProgram; (try dsimp only); (repeat' split) <;> first | rfl | (simp; done) | (simp only [secretOf_next]; congr 1; apply secret_State_command; intro _ _ _; (try dsimp only); (repeat' split) <;> first | rfl | (simp; done) | (apply secret_State_onUpdate; intro _; (repeat' split) <;> simp))

@[simp] theorem secret_execInspect (chan : Chan) (bad : Option (BitVec 9)) (dmaOk : Bool) (s : State) : secretOf (execInspect chan bad dmaOk s) = some s.lantern.secret := by unfold execInspect; (try dsimp only); (repeat' split) <;> first | rfl | (simp; done) | (simp only [secretOf_next]; congr 1; apply secret_State_command; intro _ _ _; (try dsimp only); (repeat' split) <;> first | rfl | (simp; done) | (apply secret_State_onUpdate; intro _; (repeat' split) <;> simp))

@[simp] theorem secret_execFwDownload (chan : Chan) (image : List Byte) (dmaOk : Bool) (s : State) : secretOf (execFwDownload chan image dmaOk s) = some s.lantern.secret := by unfold execFwDownload; (try dsimp only); (repeat' split) <;> first | rfl | (simp; done) | (simp only [secretOf_next]; congr 1; apply secret_State_command; intro _ _ _; (try dsimp only); (repeat' split) <;> first | rfl | (simp; done) | (apply secret_State_onUpdate; intro _; (repeat' split) <;> simp))

@[simp] theorem secret_execFwDownloadDone (ok : Bool) (s : State) : secretOf (execFwDownloadDone ok s) = some s.lantern.secret := by unfold execFwDownloadDone; (repeat' split) <;> simp

@[simp] theorem secret_execFwVerify (chan : Chan) (sigOk : Bool) (s : State) : secretOf (execFwVerify chan sigOk s) = some s.lantern.secret := by unfold execFwVerify; (try dsimp only); (repeat' split) <;> first | rfl | (simp; done) | (simp only [secretOf_next]; congr 1; apply secret_State_command; intro _ _ _; (try dsimp only); (repeat' split) <;> first | rfl | (simp; done) | (apply secret_State_onUpdate; intro _; (repeat' split) <;> simp))

@[simp] theorem secret_execFwActivate (chan : Chan) (s : State) : secretOf (execFwActivate chan s) = some s.lantern.secret := by unfold execFwActivate; (try dsimp only); (repeat' split) <;> first | rfl | (simp; done) | (simp only [secretOf_next]; congr 1; apply secret_State_command; intro _ _ _; (try dsimp only); (repeat' split) <;> first | rfl | (simp; done) | (apply secret_State_onUpdate; intro _; (repeat' split) <;> simp))

@[simp] theorem secret_execBankSwitchDone (aGood bGood : Bool) (s : State) : secretOf (execBankSwitchDone aGood bGood s) = some s.lantern.secret := by unfold execBankSwitchDone; dsimp only; (repeat' split) <;> simp

@[simp] theorem secret_execFwConfirm (chan : Chan) (s : State) : secretOf (execFwConfirm chan s) = some s.lantern.secret := by unfold execFwConfirm; (try dsimp only); (repeat' split) <;> first | rfl | (simp; done) | (simp only [secretOf_next]; congr 1; apply secret_State_command; intro _ _ _; (try dsimp only); (repeat' split) <;> first | rfl | (simp; done) | (apply secret_State_onUpdate; intro _; (repeat' split) <;> simp))

@[simp] theorem secret_execFwRollback (chan : Chan) (s : State) : secretOf (execFwRollback chan s) = some s.lantern.secret := by unfold execFwRollback; (try dsimp only); (repeat' split) <;> first | rfl | (simp; done) | (simp only [secretOf_next]; congr 1; apply secret_State_command; intro _ _ _; (try dsimp only); (repeat' split) <;> first | rfl | (simp; done) | (apply secret_State_onUpdate; intro _; (repeat' split) <;> simp))

@[simp] theorem secret_execTrialExpiry (s : State) : secretOf (execTrialExpiry s) = some s.lantern.secret := by unfold execTrialExpiry; simp

@[simp] theorem secret_execUpdateStatus (chan : Chan) (s : State) : secretOf (execUpdateStatus chan s) = some s.lantern.secret := by unfold execUpdateStatus; (try dsimp only); (repeat' split) <;> first | rfl | (simp; done) | (simp only [secretOf_next]; congr 1; apply secret_State_command; intro _ _ _; (try dsimp only); (repeat' split) <;> first | rfl | (simp; done) | (apply secret_State_onUpdate; intro _; (repeat' split) <;> simp))

@[simp] theorem secret_State_badTag (s : State) (m : Msg) : (State.badTag s m).lantern.secret = s.lantern.secret := by unfold State.badTag; simp

@[simp] theorem secret_State_gmbxStore (s : State) (n : Nat) (w : Word) : (State.gmbxStore s n w).lantern.secret = s.lantern.secret := by unfold State.gmbxStore; simp

@[simp] theorem secret_State_coreWrite (s : State) (m : Msg) : (State.coreWrite s m).lantern.secret = s.lantern.secret := by unfold State.coreWrite; simp

@[simp] theorem secret_State_coreRequest (s : State) (m : Msg) : (State.coreRequest s m).lantern.secret = s.lantern.secret := by unfold State.coreRequest; simp

@[simp] theorem secret_State_takeLantern (s : State) (m : Msg) : (State.takeLantern s m).lantern.secret = s.lantern.secret := by unfold State.takeLantern; simp

@[simp] theorem secret_execGmbxCoreWrite (msg : Msg) (s : State) : secretOf (execGmbxCoreWrite msg s) = some s.lantern.secret := by unfold execGmbxCoreWrite; simp

@[simp] theorem secret_execGmbxCoreRequest (msg : Msg) (s : State) : secretOf (execGmbxCoreRequest msg s) = some s.lantern.secret := by unfold execGmbxCoreRequest; simp

@[simp] theorem secret_execGmbxDataWrite (box : BitVec 3) (word : Word) (s : State) : secretOf (execGmbxDataWrite box word s) = some s.lantern.secret := by unfold execGmbxDataWrite; simp

@[simp] theorem secret_State_gmbxRead (s : State) (n : Nat) : (State.gmbxRead s n).lantern.secret = s.lantern.secret := by unfold State.gmbxRead; simp

@[simp] theorem secret_execGmbxDataRead (box : BitVec 3) (s : State) : secretOf (execGmbxDataRead box s) = some s.lantern.secret := by unfold execGmbxDataRead; simp

@[simp] theorem secret_State_formatBench (s : State) (b : Nat) : (State.formatBench s b).lantern.secret = s.lantern.secret := by unfold State.formatBench; dsimp only; repeat' first | rfl | (apply foldl_secret; intro _ _) | split | simp

@[simp] theorem secret_execLibDownload (chan : Chan) (image : List Byte) (dmaOk : Bool) (s : State) : secretOf (execLibDownload chan image dmaOk s) = some s.lantern.secret := by unfold execLibDownload; (try dsimp only); (repeat' split) <;> first | rfl | (simp; done) | (simp only [secretOf_next]; congr 1; apply secret_State_command; intro _ _ _; (try dsimp only); (repeat' split) <;> first | rfl | (simp; done) | (apply secret_State_onUpdate; intro _; (repeat' split) <;> simp))

@[simp] theorem secret_execLibDownloadDone (s : State) : secretOf (execLibDownloadDone s) = some s.lantern.secret := by unfold execLibDownloadDone; (repeat' split) <;> simp

theorem secret_State_onUpdate (s : State) (n tag : Nat) (args states : List Nat) (body : LibJob → State)
    (h : ∀ j, (body j).lantern.secret = s.lantern.secret) : (s.onUpdate n tag args states body).lantern.secret = s.lantern.secret := by
  unfold State.onUpdate; (repeat' split) <;> simp [h]

@[simp] theorem secret_execLibVerify (chan : Chan) (sigOk : Bool) (s : State) : secretOf (execLibVerify chan sigOk s) = some s.lantern.secret := by unfold execLibVerify; (try dsimp only); (repeat' split) <;> first | rfl | (simp; done) | (simp only [secretOf_next]; congr 1; apply secret_State_command; intro _ _ _; (try dsimp only); (repeat' split) <;> first | rfl | (simp; done) | (apply secret_State_onUpdate; intro _; (repeat' split) <;> simp))

@[simp] theorem secret_State_swapBenches (s : State) (l : Nat) (new : List Nat) : (State.swapBenches s l new).lantern.secret = s.lantern.secret := by unfold State.swapBenches; simp

@[simp] theorem secret_State_setLibCfg (s : State) (l : Nat) (active : Bool) (kind pstep novel mask : Nat) : (State.setLibCfg s l active kind pstep novel mask).lantern.secret = s.lantern.secret := by unfold State.setLibCfg; simp

@[simp] theorem secret_execLibActivate (chan : Chan) (s : State) : secretOf (execLibActivate chan s) = some s.lantern.secret := by unfold execLibActivate; (try dsimp only); (repeat' split) <;> first | rfl | (simp; done) | (simp only [secretOf_next]; congr 1; apply secret_State_command; intro _ _ _; (try dsimp only); (repeat' split) <;> first | rfl | (simp; done) | (apply secret_State_onUpdate; intro _; (repeat' split) <;> simp))

@[simp] theorem secret_State_releaseHeld (s : State) (bs : List Nat) : (State.releaseHeld s bs).lantern.secret = s.lantern.secret := by unfold State.releaseHeld; simp

@[simp] theorem secret_execLibConfirm (chan : Chan) (s : State) : secretOf (execLibConfirm chan s) = some s.lantern.secret := by unfold execLibConfirm; (try dsimp only); (repeat' split) <;> first | rfl | (simp; done) | (simp only [secretOf_next]; congr 1; apply secret_State_command; intro _ _ _; (try dsimp only); (repeat' split) <;> first | rfl | (simp; done) | (apply secret_State_onUpdate; intro _; (repeat' split) <;> simp))

@[simp] theorem secret_State_libRestore (s : State) (j : LibJob) : (State.libRestore s j).lantern.secret = s.lantern.secret := by unfold State.libRestore; simp

@[simp] theorem secret_State_libBack (s : State) (j : LibJob) : (State.libBack s j).lantern.secret = s.lantern.secret := by unfold State.libBack; simp

@[simp] theorem secret_execLibRollback (chan : Chan) (s : State) : secretOf (execLibRollback chan s) = some s.lantern.secret := by unfold execLibRollback; (try dsimp only); (repeat' split) <;> first | rfl | (simp; done) | (simp only [secretOf_next]; congr 1; apply secret_State_command; intro _ _ _; (try dsimp only); (repeat' split) <;> first | rfl | (simp; done) | (apply secret_State_onUpdate; intro _; (repeat' split) <;> simp))

@[simp] theorem secret_execLibAbort (chan : Chan) (s : State) : secretOf (execLibAbort chan s) = some s.lantern.secret := by unfold execLibAbort; (try dsimp only); (repeat' split) <;> first | rfl | (simp; done) | (simp only [secretOf_next]; congr 1; apply secret_State_command; intro _ _ _; (try dsimp only); (repeat' split) <;> first | rfl | (simp; done) | (apply secret_State_onUpdate; intro _; (repeat' split) <;> simp))

@[simp] theorem secret_State_resetUpdates (s : State) : (State.resetUpdates s).lantern.secret = s.lantern.secret := by unfold State.resetUpdates; dsimp only; (repeat' split) <;> simp

end Sys2Proof.Machine
end

