-- ==== Sys2Proof/Laws/KeyStoreSeam.lean ====
section
/-! SUPPORT.  The key store (R466), continued: the operations of Seam, Tunnel. -/

namespace Sys2Proof.Machine

@[simp] theorem secret_State_markNotReady (s : State) (k : Nat) (sel : Eval → Bool) : (State.markNotReady s k sel).lantern.secret = s.lantern.secret := by unfold State.markNotReady; simp

@[simp] theorem secret_State_moveBenchState (s : State) (k j : Nat) (st : BenchState) : (State.moveBenchState s k j st).lantern.secret = s.lantern.secret := by unfold State.moveBenchState; simp

@[simp] theorem secret_execTilePassStart (die : Die) (bench : BitVec 13) (tag : Word) (tile : BitVec 5) (pattern : List RefRead) (s : State) :
    secretOf (execTilePassStart die bench tag tile pattern s) = some s.lantern.secret := by
  unfold execTilePassStart
  dsimp only
  split
  · rfl
  · split
    · rfl
    · split
      · rfl
      · split
        · rw [secretOf_next, secret_State_setEval]
        · split
          · rfl
          · split
            · rfl
            · rw [secretOf_next, secret_State_setEval, secret_State_takeSlots]
              split
              · rfl
              · rw [secret_State_recalibrate]

@[simp] theorem secret_execTilePassComplete (die : Die) (bench : BitVec 13) (tag : Word) (tile : BitVec 5) (noise : List (BitVec 11 × Int)) (s : State) : secretOf (execTilePassComplete die bench tag tile noise s) = some s.lantern.secret := by unfold execTilePassComplete; dsimp only; (repeat' split) <;> simp

@[simp] theorem secret_execShaftLinkRetire (die : Die) (link : BitVec 1) (s : State) : secretOf (execShaftLinkRetire die link s) = some s.lantern.secret := by unfold execShaftLinkRetire; simp

@[simp] theorem secret_execShaftLinkDown (die : Die) (link : BitVec 1) (s : State) : secretOf (execShaftLinkDown die link s) = some s.lantern.secret := by unfold execShaftLinkDown; simp

@[simp] theorem secret_State_freeColumn (s : State) (k l e : Nat) : (State.freeColumn s k l e).2.lantern.secret = s.lantern.secret := by unfold State.freeColumn; (repeat' split) <;> simp

@[simp] theorem secret_State_remapColumn (s : State) (k l e : Nat) : (State.remapColumn s k l e).lantern.secret = s.lantern.secret := by unfold State.remapColumn; dsimp only; (repeat' split) <;> simp

@[simp] theorem secret_State_queueColumn (s : State) (k l e : Nat) (late : Bool) : (State.queueColumn s k l e late).lantern.secret = s.lantern.secret := by unfold State.queueColumn; simp

@[simp] theorem secret_State_afterCalibration (s : State) (k p : Nat) (cells : List CellRead) (fits : List ColFit) (withheld : Bool) : (State.afterCalibration s k p cells fits withheld).lantern.secret = s.lantern.secret := by unfold State.afterCalibration; dsimp only; (repeat' split) <;> simp

@[simp] theorem secret_execBatchStart (die : Die) (bench : BitVec 13) (s : State) : secretOf (execBatchStart die bench s) = some s.lantern.secret := by unfold execBatchStart; dsimp only; repeat' first | rfl | (apply foldl_secret; intro _ _) | split | simp

@[simp] theorem secret_State_swapTiles (s : State) (k l m : Nat) : (State.swapTiles s k l m).lantern.secret = s.lantern.secret := by unfold State.swapTiles; simp

@[simp] theorem secret_State_offlineAfter (s : State) (k : Nat) (bench : Option Nat) : (State.offlineAfter s k bench).lantern.secret = s.lantern.secret := by unfold State.offlineAfter; (repeat' split) <;> simp

@[simp] theorem secret_State_finishBatch (s : State) (k : Nat) (b : Batch) : (s.finishBatch k b).lantern.secret = s.lantern.secret := by
  unfold State.finishBatch
  extract_lets jobs r s1 failing d checking s2 s3 s4 s5 s6 worn s7 again
  have h1 : s1.lantern.secret = s.lantern.secret := by
    refine (foldl_fst_secret (fun a x => ?_) _ _).trans rfl
    exact secret_State_writeCol _ _ _ _ _ _
  have h2 : s2.lantern.secret = s.lantern.secret := by simp only [s2, secret_State_setDie, h1]
  have h3 : s3.lantern.secret = s.lantern.secret := by
    simp only [s3, secret_State_bump]; split <;> simp [h2]
  have h4 : s4.lantern.secret = s.lantern.secret := by
    simp only [s4]; split <;> simp [h3]
  have h5 : s5.lantern.secret = s.lantern.secret := by
    simp only [s5]
    split
    · refine (foldl_secret (fun a p => secret_State_setTile _ _ _ _) _ _).trans ?_
      simp [h4]
    · exact h4
  have h6 : s6.lantern.secret = s.lantern.secret := by
    simp only [s6]
    split
    · refine (foldl_secret (fun a x => ?_) _ _).trans h5
      split
      · split <;> simp
      · rfl
    · exact h5
  have h7 : s7.lantern.secret = s.lantern.secret := by
    simp only [s7]; split <;> simp [h6]
  rw [secret_State_offlineAfter]
  refine (foldl_secret (fun a x => ?_) _ _).trans h7
  split <;> simp

@[simp] theorem secret_execProgramLoop (die : Die) (target : ProgTarget) (left : List LoopCell) (s : State) : secretOf (execProgramLoop die target left s) = some s.lantern.secret := by unfold execProgramLoop; dsimp only; repeat' first | rfl | (apply foldl_secret; intro _ _) | split | simp

@[simp] theorem secret_State_benchRefused (s : State) (k j : Nat) : (State.benchRefused s k j).lantern.secret = s.lantern.secret := by unfold State.benchRefused; simp

@[simp] theorem secret_execOffline (die : Die) (s : State) : secretOf (execOffline die s) = some s.lantern.secret := by unfold execOffline; simp

@[simp] theorem secret_execOnline (die : Die) (s : State) : secretOf (execOnline die s) = some s.lantern.secret := by unfold execOnline; simp

@[simp] theorem secret_execCheck (die : Die) (s : State) : secretOf (execCheck die s) = some s.lantern.secret := by unfold execCheck; simp

@[simp] theorem secret_execDieReady (die : Die) (links : BitVec 2) (copies : BitVec 2) (s : State) : secretOf (execDieReady die links copies s) = some s.lantern.secret := by unfold execDieReady; simp

@[simp] theorem secret_execBenchCheckStart (die : Die) (s : State) : secretOf (execBenchCheckStart die s) = some s.lantern.secret := by unfold execBenchCheckStart; dsimp only; (repeat' split) <;> simp

@[simp] theorem secret_State_checkEntry (s : State) (b c : Nat) (cells : List CellRead) : (State.checkEntry s b c cells).lantern.secret = s.lantern.secret := by unfold State.checkEntry; (repeat' split) <;> simp

@[simp] theorem secret_execBenchCheckDone (die : Die) (bench : BitVec 13) (cells : List CellRead) (copies : List KeyCopy) (s : State) : secretOf (execBenchCheckDone die bench cells copies s) = some s.lantern.secret := by unfold execBenchCheckDone; dsimp only; (repeat' split) <;> simp

@[simp] theorem secret_execFullCalibration (die : Die) (phys : BitVec 16) (cells : List CellRead) (fits : List ColFit) (withheld : Bool) (s : State) : secretOf (execFullCalibration die phys cells fits withheld s) = some s.lantern.secret := by unfold execFullCalibration; simp

@[simp] theorem secret_execRecalibrationDue (die : Die) (tile : BitVec 15) (pattern : List RefRead) (s : State) : secretOf (execRecalibrationDue die tile pattern s) = some s.lantern.secret := by unfold execRecalibrationDue; simp

@[simp] theorem secret_execPatrolTile (die : Die) (cells : List CellRead) (fits : List ColFit) (withheld : Bool) (s : State) : secretOf (execPatrolTile die cells fits withheld s) = some s.lantern.secret := by unfold execPatrolTile; simp

@[simp] theorem secret_State_beginRound (s : State) (k : Nat) : (State.beginRound s k).lantern.secret = s.lantern.secret := by unfold State.beginRound; simp

@[simp] theorem secret_execPatrolRound (die : Die) (badSpares : List (BitVec 16)) (s : State) : secretOf (execPatrolRound die badSpares s) = some s.lantern.secret := by unfold execPatrolRound; simp

@[simp] theorem secret_execRefresh (die : Die) (s : State) : secretOf (execRefresh die s) = some s.lantern.secret := by
  unfold execRefresh
  dsimp only
  split
  · rfl
  · split
    · rfl
    · split
      · simp
      · split
        · refine congrArg some ((foldl_fst_secret (fun a x => ?_) _ _).trans ?_)
          · exact secret_State_freeColumn _ _ _ _
          · exact secret_State_setQueue _ _ _
        · rw [secretOf_next, secret_State_takeSlots, secret_State_setDie, secret_State_upkeepWrite]
          refine congrArg some ((foldl_fst_secret (fun a x => ?_) _ _).trans ?_)
          · exact secret_State_freeColumn _ _ _ _
          · exact secret_State_setQueue _ _ _

@[simp] theorem secret_State_fillTile (s : State) (k q : Nat) (four : Bool) (colmap : List (Nat × Nat)) (cols : List (Nat × BitVec 2048)) (stuck : List CellRead) : (State.fillTile s k q four colmap cols stuck).lantern.secret = s.lantern.secret := by unfold State.fillTile; simp

@[simp] theorem secret_execStagingFill (die : Die) (tile : BitVec 15) (stuck : List CellRead) (fits : List ColFit) (s : State) : secretOf (execStagingFill die tile stuck fits s) = some s.lantern.secret := by unfold execStagingFill; dsimp only; (repeat' split) <;> simp

@[simp] theorem secret_execStagingSwap (die : Die) (tile : BitVec 15) (s : State) : secretOf (execStagingSwap die tile s) = some s.lantern.secret := by unfold execStagingSwap; dsimp only; (repeat' split) <;> simp

@[simp] theorem secret_execTileReplace (die : Die) (tile : BitVec 15) (stuck : List CellRead) (s : State) : secretOf (execTileReplace die tile stuck s) = some s.lantern.secret := by unfold execTileReplace; dsimp only; (repeat' split) <;> simp

@[simp] theorem secret_State_copyBench (s : State) (l p b x : Nat) : (s.copyBench l p b x).lantern.secret = s.lantern.secret := by
  unfold State.copyBench
  extract_lets four cols items s1 s2 s3 live s4
  have h1 : s1.lantern.secret = s.lantern.secret := foldl_secret (fun a c => secret_State_setEntry _ _ _ _) _ _
  have h2 : s2.lantern.secret = s.lantern.secret := by simp only [s2, secret_State_assignBench, secret_State_setBenches, h1]
  have h3 : s3.lantern.secret = s.lantern.secret := by
    refine (foldl_secret (fun a c => ?_) _ _).trans h2
    rw [secret_State_setEntryState, secret_State_writeEntry]
  have h4 : s4.lantern.secret = s.lantern.secret := by
    refine (foldl_secret (fun a c => ?_) _ _).trans h3
    split
    · rw [secret_State_setShadow, secret_State_setShadow]
    · rfl
  exact (foldl_secret (fun a g => secret_State_queueBatch _ _ _) _ _).trans h4

@[simp] theorem secret_State_mirrorAway (s : State) (l p b : Nat) : (State.mirrorAway s l p b).lantern.secret = s.lantern.secret := by unfold State.mirrorAway; (repeat' split) <;> simp

@[simp] theorem secret_execBenchMove (die : Die) (bench : BitVec 13) (s : State) : secretOf (execBenchMove die bench s) = some s.lantern.secret := by unfold execBenchMove; dsimp only; (repeat' split) <;> simp

@[simp] theorem secret_State_retirePump (s : State) (k p : Nat) : (State.retirePump s k p).lantern.secret = s.lantern.secret := by unfold State.retirePump; simp

@[simp] theorem secret_execPumpSoftStart (die : Die) (pump : BitVec 4) (outcome : PumpStart) (s : State) : secretOf (execPumpSoftStart die pump outcome s) = some s.lantern.secret := by unfold execPumpSoftStart; (repeat' split) <;> simp

@[simp] theorem secret_execPumpStop (die : Die) (pump : BitVec 4) (s : State) : secretOf (execPumpStop die pump s) = some s.lantern.secret := by unfold execPumpStop; simp

@[simp] theorem secret_execOscRead (die : Die) (slowdown : List (BitVec 16)) (s : State) : secretOf (execOscRead die slowdown s) = some s.lantern.secret := by unfold execOscRead; simp

@[simp] theorem secret_execServiceDayAdvance (s : State) : secretOf (execServiceDayAdvance s) = some s.lantern.secret := by unfold execServiceDayAdvance; simp

@[simp] theorem secret_State_newPlan (s : State) (k : Nat) (m : Measure) : (s.newPlan k m).lantern.secret = s.lantern.secret := by
  unfold State.newPlan
  extract_lets d slow v f0 f a0 a1 a hrs r0 rc c0 c s1 d2 s2 mine
  have h2 : s2.lantern.secret = s.lantern.secret := by
    simp only [s2, s1, secret_State_alarm, secret_State_setDie, secret_State_bump, secret_State_setFld]
  refine (foldl_secret (fun a p => ?_) _ _).trans h2
  dsimp only
  split
  · exact secret_State_setTile _ _ _ _
  · split
    · refine (foldl_secret (fun z e => ?_) _ _).trans (secret_State_setTile _ _ _ _)
      split
      · exact secret_State_remapColumn _ _ _ _
      · rfl
    · exact secret_State_setTile _ _ _ _

@[simp] theorem secret_execPlanDue (measures : List Measure) (s : State) : secretOf (execPlanDue measures s) = some s.lantern.secret := by unfold execPlanDue; simp

@[simp] theorem secret_execReplan (die : Die) (measure : Measure) (s : State) : secretOf (execReplan die measure s) = some s.lantern.secret := by unfold execReplan; simp

@[simp] theorem secret_execRecalNow (die : Die) (s : State) : secretOf (execRecalNow die s) = some s.lantern.secret := by unfold execRecalNow; simp

@[simp] theorem secret_execPatrolNow (die : Die) (s : State) : secretOf (execPatrolNow die s) = some s.lantern.secret := by unfold execPatrolNow; simp

@[simp] theorem secret_State_setState (s : State) (st : Nat) : (State.setState s st).lantern.secret = s.lantern.secret := by unfold State.setState; simp

@[simp] theorem secret_State_showPort (s : State) (p : Nat) (up : Bool) : (State.showPort s p up).lantern.secret = s.lantern.secret := by unfold State.showPort; simp

@[simp] theorem secret_State_portFalls (s : State) (p : Nat) : (State.portFalls s p).lantern.secret = s.lantern.secret := by unfold State.portFalls; simp

@[simp] theorem secret_State_laneFault (s : State) (p lane : Nat) : (State.laneFault s p lane).lantern.secret = s.lantern.secret := by unfold State.laneFault; simp

@[simp] theorem secret_execTunnelLaneFault (port : TPort) (lane : BitVec 3) (s : State) : secretOf (execTunnelLaneFault port lane s) = some s.lantern.secret := by unfold execTunnelLaneFault; simp

@[simp] theorem secret_State_showShares (s : State) : (State.showShares s).lantern.secret = s.lantern.secret := by unfold State.showShares; simp

@[simp] theorem secret_State_settleToken (s : State) (l : Nat) : (State.settleToken s l).lantern.secret = s.lantern.secret := by unfold State.settleToken; dsimp only; (repeat' split) <;> simp

@[simp] theorem secret_State_takeReserve (s : State) : (State.takeReserve s).lantern.secret = s.lantern.secret := by unfold State.takeReserve; simp

@[simp] theorem secret_State_settleChain (s : State) : (State.settleChain s).lantern.secret = s.lantern.secret := by unfold State.settleChain; simp

@[simp] theorem secret_State_joinWrite (s : State) : (State.joinWrite s).lantern.secret = s.lantern.secret := by unfold State.joinWrite; simp

@[simp] theorem secret_execJoin (s : State) : secretOf (execJoin s) = some s.lantern.secret := by unfold execJoin; simp

@[simp] theorem secret_State_leaveWrite (s : State) : (State.leaveWrite s).lantern.secret = s.lantern.secret := by unfold State.leaveWrite; simp

@[simp] theorem secret_execLeave (s : State) : secretOf (execLeave s) = some s.lantern.secret := by unfold execLeave; simp

@[simp] theorem secret_State_takeToken (s : State) (l : Nat) : (State.takeToken s l).lantern.secret = s.lantern.secret := by unfold State.takeToken; simp

@[simp] theorem secret_execTokenTake (lib : Lib) (s : State) : secretOf (execTokenTake lib s) = some s.lantern.secret := by unfold execTokenTake; simp

@[simp] theorem secret_execTunnelPortUp (port : TPort) (s : State) : secretOf (execTunnelPortUp port s) = some s.lantern.secret := by unfold execTunnelPortUp; simp

@[simp] theorem secret_State_endIfAnswered (s : State) (tag : Nat) : (State.endIfAnswered s tag).lantern.secret = s.lantern.secret := by unfold State.endIfAnswered; (repeat' split) <;> simp

@[simp] theorem secret_State_giveUp (s : State) (gone : List Nat) : (State.giveUp s gone).lantern.secret = s.lantern.secret := by unfold State.giveUp; simp

@[simp] theorem secret_State_dropAppend (s : State) (w : AppendWait) : (State.dropAppend s w).lantern.secret = s.lantern.secret := by unfold State.dropAppend; dsimp only; (repeat' split) <;> simp

@[simp] theorem secret_State_loseMember (s : State) (m : Nat) : (State.loseMember s m).lantern.secret = s.lantern.secret := by unfold State.loseMember; simp

@[simp] theorem secret_execMatchTimeout (s : State) : secretOf (execMatchTimeout s) = some s.lantern.secret := by unfold execMatchTimeout; simp

@[simp] theorem secret_execPortDownTimeout (port : TPort) (s : State) : secretOf (execPortDownTimeout port s) = some s.lantern.secret := by unfold execPortDownTimeout; dsimp only; (repeat' split) <;> simp

@[simp] theorem secret_execCheckingTimeout (s : State) : secretOf (execCheckingTimeout s) = some s.lantern.secret := by unfold execCheckingTimeout; (repeat' split) <;> simp

@[simp] theorem secret_execAnswerTimeout (tag : Word) (s : State) : secretOf (execAnswerTimeout tag s) = some s.lantern.secret := by unfold execAnswerTimeout; (repeat' split) <;> simp

@[simp] theorem secret_execAppendAckTimeout (tag : Word) (s : State) : secretOf (execAppendAckTimeout tag s) = some s.lantern.secret := by unfold execAppendAckTimeout; simp

theorem secret_State_takeTunnelFrame (s : State) (port : TPort) (type : Nat) (f : Frame) (crcOk : Bool) (act : State → State)
    (h : ∀ a, (act a).lantern.secret = a.lantern.secret) : (s.takeTunnelFrame port type f crcOk act).lantern.secret = s.lantern.secret := by
  unfold State.takeTunnelFrame
  dsimp only
  (repeat' split) <;> simp [h]

@[simp] theorem secret_State_takeHello (s : State) (p : Nat) (h : HelloRec) (copies : List KeyCopy) : (State.takeHello s p h copies).lantern.secret = s.lantern.secret := by unfold State.takeHello; simp

@[simp] theorem secret_State_takeQuery (s : State) (f : Frame) : (State.takeQuery s f).lantern.secret = s.lantern.secret := by unfold State.takeQuery; simp

@[simp] theorem secret_State_takeAnswer (s : State) (f : Frame) : (State.takeAnswer s f).lantern.secret = s.lantern.secret := by unfold State.takeAnswer; (repeat' split) <;> simp

@[simp] theorem secret_State_takeAppend (s : State) (f : Frame) : (s.takeAppend f).lantern.secret = s.lantern.secret := by
  unfold State.takeAppend
  dsimp only
  split
  · (repeat' split) <;> simp
  · have hf := secret_State_fileAppend s (f.arg0.toNat % 16) (payloadKey s.dim f.payload) f.arg1.toNat
    split
    · next e => rw [e] at hf; simpa using hf
    · next e => rw [e] at hf; simpa using hf
    · next e => rw [e] at hf; split <;> simpa using hf
    · rfl

@[simp] theorem secret_State_takeAck (s : State) (f : Frame) : (State.takeAck s f).lantern.secret = s.lantern.secret := by unfold State.takeAck; dsimp only; (repeat' split) <;> simp

@[simp] theorem secret_State_receiveToken (s : State) (f : Frame) : (State.receiveToken s f).lantern.secret = s.lantern.secret := by unfold State.receiveToken; simp

@[simp] theorem secret_execToken (port : TPort) (frame : Frame) (crcOk : Bool) (s : State) : secretOf (execToken port frame crcOk s) = some s.lantern.secret := by
  unfold execToken
  have ht := secret_State_takeTunnelFrame s port ftTOKEN frame crcOk (fun a => a.receiveToken frame) (fun a => secret_State_receiveToken _ _)
  dsimp only
  split
  · rw [secretOf_next, secret_State_receiveToken, ht]
  · exact congrArg some ht

@[simp] theorem secret_State_takeMirror (s : State) (f : Frame) : (State.takeMirror s f).lantern.secret = s.lantern.secret := by unfold State.takeMirror; dsimp only; (repeat' split) <;> simp

@[simp] theorem secret_State_applyBenchOp (s : State) (f : Frame) : (State.applyBenchOp s f).lantern.secret = s.lantern.secret := by unfold State.applyBenchOp; dsimp only; (repeat' split) <;> simp

@[simp] theorem secret_execBenchOp (port : TPort) (frame : Frame) (crcOk : Bool) (s : State) : secretOf (execBenchOp port frame crcOk s) = some s.lantern.secret := by
  unfold execBenchOp
  exact congrArg some (secret_State_takeTunnelFrame _ _ _ _ _ _ fun a => secret_State_applyBenchOp _ _)

@[simp] theorem secret_execChain (port : TPort) (frame : Frame) (crcOk : Bool) (s : State) : secretOf (execChain port frame crcOk s) = some s.lantern.secret := by
  unfold execChain
  exact congrArg some (secret_State_takeTunnelFrame _ _ _ _ _ _ fun a => rfl)

@[simp] theorem secret_State_chainCommand (s : State) (b : Barrier) (aligned : Bool) : (State.chainCommand s b aligned).lantern.secret = s.lantern.secret := by unfold State.chainCommand; (repeat' split) <;> simp

@[simp] theorem secret_State_endBarrier (s : State) (b : Barrier) : (State.endBarrier s b).lantern.secret = s.lantern.secret := by unfold State.endBarrier; simp

@[simp] theorem secret_execCascSyncHigh (s : State) : secretOf (execCascSyncHigh s) = some s.lantern.secret := by unfold execCascSyncHigh; (repeat' split) <;> simp

@[simp] theorem secret_execSyncTimeout (s : State) : secretOf (execSyncTimeout s) = some s.lantern.secret := by unfold execSyncTimeout; (repeat' split) <;> simp

@[simp] theorem secret_State_takeNak (s : State) (p : Nat) (f : Frame) : (State.takeNak s p f).lantern.secret = s.lantern.secret := by unfold State.takeNak; simp

@[simp] theorem secret_execIdle (port : TPort) (frame : Frame) (crcOk : Bool) (s : State) : secretOf (execIdle port frame crcOk s) = some s.lantern.secret := by
  unfold execIdle
  exact congrArg some (secret_State_takeTunnelFrame _ _ _ _ _ _ fun a => rfl)

@[simp] theorem secret_execIdleFrameSend (port : TPort) (s : State) : secretOf (execIdleFrameSend port s) = some s.lantern.secret := by unfold execIdleFrameSend; simp

end Sys2Proof.Machine
end

