-- ==== Sys2Proof/Laws/KeyStorePower.lean ====
section
/-! SUPPORT.  The key store (R466), continued: the operations of PowerOps, Power, Boot. -/

namespace Sys2Proof.Machine

@[simp] theorem secret_State_spoilBatch (s : State) (k : Nat) (b : Batch) : (State.spoilBatch s k b).lantern.secret = s.lantern.secret := by unfold State.spoilBatch; simp

@[simp] theorem secret_State_volatileReset (s : State) (hbmLost : Bool) : (s.volatileReset hbmLost).lantern.secret = s.lantern.secret := by
  unfold State.volatileReset
  extract_lets s1 e1 e2 s2 s3 s4
  have h1 : s1.lantern.secret = s.lantern.secret := by
    refine foldl_secret (fun a k => foldl_secret (fun x b => secret_State_spoilBatch _ _ _) _ _) _ _
  have h2 : s2.lantern.secret = s.lantern.secret := by simp only [s2, LanternSt.kept, secret_mk, secret_fold, h1]
  have h3 : s3.lantern.secret = s.lantern.secret := by
    simp only [s3]; split <;> simp [h2]
  have h4 : s4.lantern.secret = s.lantern.secret := by
    refine (foldl_secret (fun a k => ?_) _ _).trans h3
    split <;> simp
  rw [secret_State_resetUpdates, secret_State_setFld, h4]

@[simp] theorem secret_State_writeJournal (s : State) (closed : Bool) : (State.writeJournal s closed).lantern.secret = s.lantern.secret := by unfold State.writeJournal; simp

@[simp] theorem secret_State_startFlush (s : State) : (State.startFlush s).lantern.secret = s.lantern.secret := by unfold State.startFlush; simp

@[simp] theorem secret_State_journalAtLoss (s : State) : (State.journalAtLoss s).lantern.secret = s.lantern.secret := by unfold State.journalAtLoss; simp

@[simp] theorem secret_State_powerDown (s : State) : (State.powerDown s).lantern.secret = s.lantern.secret := by unfold State.powerDown; simp

@[simp] theorem secret_State_setOutcome (s : State) (result refuser : Nat) : (State.setOutcome s result refuser).lantern.secret = s.lantern.secret := by unfold State.setOutcome; simp

@[simp] theorem secret_State_startExit (s : State) (src : Nat) : (State.startExit s src).lantern.secret = s.lantern.secret := by unfold State.startExit; simp

@[simp] theorem secret_State_unsuspend (s : State) (n : Nat) : (State.unsuspend s n).lantern.secret = s.lantern.secret := by unfold State.unsuspend; simp

@[simp] theorem secret_State_entryBack (s : State) (refuser : Nat) : (State.entryBack s refuser).lantern.secret = s.lantern.secret := by unfold State.entryBack; simp

@[simp] theorem secret_State_wake (s : State) (src bit : Nat) (powerReturn : Bool) : (State.wake s src bit powerReturn).lantern.secret = s.lantern.secret := by unfold State.wake; simp

@[simp] theorem secret_State_lastWake (s : State) : (State.lastWake s).lantern.secret = s.lantern.secret := by unfold State.lastWake; simp

@[simp] theorem secret_State_quiesce (s : State) (n : Nat) : (State.quiesce s n).lantern.secret = s.lantern.secret := by unfold State.quiesce; dsimp only; (repeat' split) <;> simp

@[simp] theorem secret_State_startEntry (s : State) (t : Nat) : (State.startEntry s t).lantern.secret = s.lantern.secret := by unfold State.startEntry; simp

@[simp] theorem secret_State_enterCmd (s : State) (t : Nat) : (State.enterCmd s t).lantern.secret = s.lantern.secret := by unfold State.enterCmd; (repeat' split) <;> simp

@[simp] theorem secret_State_runCmd (s : State) (path : Path) : (State.runCmd s path).lantern.secret = s.lantern.secret := by unfold State.runCmd; simp

@[simp] theorem secret_State_powerCmd (s : State) (path : Path) (t : Nat) : (State.powerCmd s path t).lantern.secret = s.lantern.secret := by unfold State.powerCmd; simp

@[simp] theorem secret_State_dropLater (s : State) (n : Nat) : (State.dropLater s n).lantern.secret = s.lantern.secret := by unfold State.dropLater; simp

@[simp] theorem secret_State_setThrottle (s : State) (k l : Nat) : (State.setThrottle s k l).lantern.secret = s.lantern.secret := by unfold State.setThrottle; simp

@[simp] theorem secret_State_trip (s : State) (n : Nat) (reading : BitVec 12) : (State.trip s n reading).lantern.secret = s.lantern.secret := by unfold State.trip; simp

@[simp] theorem secret_State_takeSample (s : State) (readings : List (BitVec 12)) : (State.takeSample s readings).lantern.secret = s.lantern.secret := by unfold State.takeSample; simp

@[simp] theorem secret_execTempSample (readings : List (BitVec 12)) (s : State) : secretOf (execTempSample readings s) = some s.lantern.secret := by unfold execTempSample; dsimp only; (repeat' split) <;> simp

@[simp] theorem secret_execTripLockoutExpiry (s : State) : secretOf (execTripLockoutExpiry s) = some s.lantern.secret := by unfold execTripLockoutExpiry; simp

@[simp] theorem secret_execPowerRun (path : Path) (s : State) : secretOf (execPowerRun path s) = some s.lantern.secret := by unfold execPowerRun; simp

@[simp] theorem secret_execPowerIdle (path : Path) (s : State) : secretOf (execPowerIdle path s) = some s.lantern.secret := by unfold execPowerIdle; simp

@[simp] theorem secret_execPowerSleep (path : Path) (s : State) : secretOf (execPowerSleep path s) = some s.lantern.secret := by unfold execPowerSleep; simp

@[simp] theorem secret_execPowerDeepSleep (path : Path) (s : State) : secretOf (execPowerDeepSleep path s) = some s.lantern.secret := by unfold execPowerDeepSleep; simp

@[simp] theorem secret_execPowerOff (path : Path) (s : State) : secretOf (execPowerOff path s) = some s.lantern.secret := by unfold execPowerOff; simp

@[simp] theorem secret_State_quiesced (s : State) : (State.quiesced s).lantern.secret = s.lantern.secret := by unfold State.quiesced; simp

@[simp] theorem secret_execStreamQuiesceDone (s : State) : secretOf (execStreamQuiesceDone s) = some s.lantern.secret := by unfold execStreamQuiesceDone; simp

@[simp] theorem secret_execEntryAbort (refuser : BitVec 4) (s : State) : secretOf (execEntryAbort refuser s) = some s.lantern.secret := by unfold execEntryAbort; simp

@[simp] theorem secret_State_lanesIdle (s : State) : (State.lanesIdle s).lantern.secret = s.lantern.secret := by unfold State.lanesIdle; simp

@[simp] theorem secret_State_journalWrite (s : State) : (State.journalWrite s).lantern.secret = s.lantern.secret := by unfold State.journalWrite; simp

@[simp] theorem secret_State_enterLow (s : State) (t : Nat) : (State.enterLow s t).lantern.secret = s.lantern.secret := by unfold State.enterLow; (repeat' split) <;> simp

@[simp] theorem secret_State_enterOff (s : State) : (State.enterOff s).lantern.secret = s.lantern.secret := by unfold State.enterOff; (repeat' split) <;> simp

@[simp] theorem secret_execPowerEntryDone (s : State) : secretOf (execPowerEntryDone s) = some s.lantern.secret := by unfold execPowerEntryDone; simp

@[simp] theorem secret_State_recheckDies (s : State) : (State.recheckDies s).lantern.secret = s.lantern.secret := by unfold State.recheckDies; simp

@[simp] theorem secret_State_returnToRun (s : State) (lines : List Doorbell) : (State.returnToRun s lines).lantern.secret = s.lantern.secret := by unfold State.returnToRun; simp

@[simp] theorem secret_execPowerExitDone (lines : List Doorbell) (s : State) : secretOf (execPowerExitDone lines s) = some s.lantern.secret := by unfold execPowerExitDone; simp

@[simp] theorem secret_execWakeN (s : State) : secretOf (execWakeN s) = some s.lantern.secret := by unfold execWakeN; simp

@[simp] theorem secret_execWakeTimerExpiry (s : State) : secretOf (execWakeTimerExpiry s) = some s.lantern.secret := by unfold execWakeTimerExpiry; simp

@[simp] theorem secret_execPfwNFall (s : State) : secretOf (execPfwNFall s) = some s.lantern.secret := by unfold execPfwNFall; simp

@[simp] theorem secret_execPfwNRise (s : State) : secretOf (execPfwNRise s) = some s.lantern.secret := by unfold execPfwNRise; simp

@[simp] theorem secret_execJournalFlushDone (s : State) : secretOf (execJournalFlushDone s) = some s.lantern.secret := by unfold execJournalFlushDone; simp

@[simp] theorem secret_execJournalPeriodic (s : State) : secretOf (execJournalPeriodic s) = some s.lantern.secret := by unfold execJournalPeriodic; simp

@[simp] theorem secret_State_seqFault (s : State) (step : Nat) (stuck early : Bool) : (State.seqFault s step stuck early).lantern.secret = s.lantern.secret := by unfold State.seqFault; simp

@[simp] theorem secret_State_railDown (s : State) (stuck : Bool) (early : Option Nat) : (State.railDown s stuck early).lantern.secret = s.lantern.secret := by unfold State.railDown; dsimp only; (repeat' split) <;> simp

@[simp] theorem secret_State_enterTripped (s : State) : (State.enterTripped s).lantern.secret = s.lantern.secret := by unfold State.enterTripped; simp

@[simp] theorem secret_execRailOffStep (stuck : Bool) (early : Option (BitVec 3)) (s : State) : secretOf (execRailOffStep stuck early s) = some s.lantern.secret := by unfold execRailOffStep; simp

@[simp] theorem secret_execRailOnStep (s : State) : secretOf (execRailOnStep s) = some s.lantern.secret := by unfold execRailOnStep; simp

@[simp] theorem secret_State_standbyReset (s : State) : (State.standbyReset s).lantern.secret = s.lantern.secret := by unfold State.standbyReset; simp

@[simp] theorem secret_execPor (s : State) : secretOf (execPor s) = some s.lantern.secret := by unfold execPor; simp

@[simp] theorem secret_execBrownout (s : State) : secretOf (execBrownout s) = some s.lantern.secret := by unfold execBrownout; simp

@[simp] theorem secret_State_collapse (s : State) : (State.collapse s).lantern.secret = s.lantern.secret := by unfold State.collapse; simp

@[simp] theorem secret_execRailLow (s : State) : secretOf (execRailLow s) = some s.lantern.secret := by unfold execRailLow; simp

@[simp] theorem secret_execPowerLoss (vstbyLost : Bool) (s : State) : secretOf (execPowerLoss vstbyLost s) = some s.lantern.secret := by unfold execPowerLoss; simp

@[simp] theorem secret_State_faultWindow (s : State) (x : DueWindow) : (State.faultWindow s x).lantern.secret = s.lantern.secret := by unfold State.faultWindow; simp

@[simp] theorem secret_State_faultRequest (s : State) (r : Request) : (State.faultRequest s r).lantern.secret = s.lantern.secret := by unfold State.faultRequest; (repeat' split) <;> simp

@[simp] theorem secret_State_sumpRestart (s : State) : (State.sumpRestart s).lantern.secret = s.lantern.secret := by unfold State.sumpRestart; simp

@[simp] theorem secret_execSumpFault (s : State) : secretOf (execSumpFault s) = some s.lantern.secret := by unfold execSumpFault; simp

@[simp] theorem secret_execSumpRestartDone (s : State) : secretOf (execSumpRestartDone s) = some s.lantern.secret := by unfold execSumpRestartDone; simp

@[simp] theorem secret_State_loseUpdates (s : State) : (State.loseUpdates s).lantern.secret = s.lantern.secret := by unfold State.loseUpdates; simp

@[simp] theorem secret_execChiselFault (s : State) : secretOf (execChiselFault s) = some s.lantern.secret := by unfold execChiselFault; simp

@[simp] theorem secret_execChiselReady (s : State) : secretOf (execChiselReady s) = some s.lantern.secret := by unfold execChiselReady; simp

@[simp] theorem secret_State_allUnready (s : State) : (State.allUnready s).lantern.secret = s.lantern.secret := by unfold State.allUnready; simp

@[simp] theorem secret_execFatalDeviceFault (cause : Fin 3) (s : State) : secretOf (execFatalDeviceFault cause s) = some s.lantern.secret := by unfold execFatalDeviceFault; simp

@[simp] theorem secret_execHbmTrained (ok : Bool) (s : State) : secretOf (execHbmTrained ok s) = some s.lantern.secret := by unfold execHbmTrained; simp

@[simp] theorem secret_execFaultAgeOut (s : State) : secretOf (execFaultAgeOut s) = some s.lantern.secret := by unfold execFaultAgeOut; simp

@[simp] theorem secret_execAlarmDeliver (ok : Bool) (s : State) : secretOf (execAlarmDeliver ok s) = some s.lantern.secret := by unfold execAlarmDeliver; dsimp only; (repeat' split) <;> simp

@[simp] theorem secret_execLogRecordWrite (ok : Bool) (s : State) : secretOf (execLogRecordWrite ok s) = some s.lantern.secret := by unfold execLogRecordWrite; (repeat' split) <;> simp

@[simp] theorem secret_execPmbAlert (words : List (BitVec 16)) (s : State) : secretOf (execPmbAlert words s) = some s.lantern.secret := by unfold execPmbAlert; simp

@[simp] theorem secret_execVoutRequest (core : Bool) (slowdown : BitVec 16) (ok : Bool) (s : State) : secretOf (execVoutRequest core slowdown ok s) = some s.lantern.secret := by unfold execVoutRequest; simp

@[simp] theorem secret_execResetNAssert (s : State) : secretOf (execResetNAssert s) = some s.lantern.secret := by unfold execResetNAssert; simp

@[simp] theorem secret_State_restoreJournal (s : State) : (State.restoreJournal s).lantern.secret = s.lantern.secret := by unfold State.restoreJournal; simp

@[simp] theorem secret_State_tripAlarm (s : State) : (State.tripAlarm s).lantern.secret = s.lantern.secret := by unfold State.tripAlarm; simp

@[simp] theorem secret_State_alarmIf (s : State) (b : Bool) (f : Fld) (unit : Nat) : (State.alarmIf s b f unit).lantern.secret = s.lantern.secret := by unfold State.alarmIf; simp

@[simp] theorem secret_State_powerAlarms (s : State) : (State.powerAlarms s).lantern.secret = s.lantern.secret := by unfold State.powerAlarms; simp

@[simp] theorem secret_State_updateAlarms (s : State) : (State.updateAlarms s).lantern.secret = s.lantern.secret := by unfold State.updateAlarms; simp

@[simp] theorem secret_State_rejectTrial (s : State) : (State.rejectTrial s).lantern.secret = s.lantern.secret := by unfold State.rejectTrial; (repeat' split) <;> simp

@[simp] theorem secret_State_release (s : State) (aGood bGood : Bool) : (State.release s aGood bGood).lantern.secret = s.lantern.secret := by unfold State.release; simp

@[simp] theorem secret_execResetNRelease (aGood bGood : Bool) (s : State) : secretOf (execResetNRelease aGood bGood s) = some s.lantern.secret := by unfold execResetNRelease; simp

@[simp] theorem secret_State_placeAreas (s : State) : (State.placeAreas s).lantern.secret = s.lantern.secret := by unfold State.placeAreas; simp

@[simp] theorem secret_execBootDone (copiesOk : Bool) (s : State) : secretOf (execBootDone copiesOk s) = some s.lantern.secret := by unfold execBootDone; (repeat' split) <;> simp

@[simp] theorem secret_State_linkLost (s : State) : (State.linkLost s).lantern.secret = s.lantern.secret := by unfold State.linkLost; simp

@[simp] theorem secret_execPciePerst (s : State) : secretOf (execPciePerst s) = some s.lantern.secret := by unfold execPciePerst; simp

@[simp] theorem secret_execPcieLinkDown (s : State) : secretOf (execPcieLinkDown s) = some s.lantern.secret := by unfold execPcieLinkDown; simp

@[simp] theorem secret_execPcieLinkUp (speed : BitVec 4) (width : BitVec 5) (s : State) : secretOf (execPcieLinkUp speed width s) = some s.lantern.secret := by unfold execPcieLinkUp; simp

end Sys2Proof.Machine
end

