-- ==== Sys2Proof/Laws/KeyStoreAccess.lean ====
section
/-! SUPPORT.  The key store (R466), continued: the operations of Pins, Access. -/

namespace Sys2Proof.Machine

@[simp] theorem secret_State_boundaryPass (s : State) (t : Nat) : (State.boundaryPass s t).lantern.secret = s.lantern.secret := by unfold State.boundaryPass; simp

@[simp] theorem secret_State_creep (target n : Nat) (s : State) : (State.creep target n s).lantern.secret = s.lantern.secret := by
  induction n generalizing s with
  | zero => rfl
  | succ k ih => unfold State.creep; split <;> simp [ih]

@[simp] theorem secret_State_reachTime (s : State) (target : Nat) : (State.reachTime s target).lantern.secret = s.lantern.secret := by unfold State.reachTime; simp

@[simp] theorem secret_execTickBoundary (s : State) : secretOf (execTickBoundary s) = some s.lantern.secret := by unfold execTickBoundary; (repeat' split) <;> simp

@[simp] theorem secret_State_idle (s : State) : (State.idle s).lantern.secret = s.lantern.secret := by unfold State.idle; dsimp only; (repeat' split) <;> simp

@[simp] theorem secret_execTickStart (s : State) : secretOf (execTickStart s) = some s.lantern.secret := by unfold execTickStart; simp

@[simp] theorem secret_State_notePps (s : State) (off : Int) : (State.notePps s off).lantern.secret = s.lantern.secret := by unfold State.notePps; simp

@[simp] theorem secret_execTimePpsEdge (s : State) : secretOf (execTimePpsEdge s) = some s.lantern.secret := by unfold execTimePpsEdge; simp

@[simp] theorem secret_execRef10mLost (s : State) : secretOf (execRef10mLost s) = some s.lantern.secret := by unfold execRef10mLost; simp

@[simp] theorem secret_execRef10mReturn (s : State) : secretOf (execRef10mReturn s) = some s.lantern.secret := by unfold execRef10mReturn; simp

@[simp] theorem secret_execPpsLost (s : State) : secretOf (execPpsLost s) = some s.lantern.secret := by unfold execPpsLost; simp

@[simp] theorem secret_State_tapLoad (s : State) (opcode : BitVec 8) (takes : Bool) (dr : Word) : (State.tapLoad s opcode takes dr).lantern.secret = s.lantern.secret := by unfold State.tapLoad; dsimp only; (repeat' split) <;> simp

@[simp] theorem secret_State_tapTest (s : State) (opcode : BitVec 8) (shift pins : BitVec 226) : (State.tapTest s opcode shift pins).lantern.secret = s.lantern.secret := by unfold State.tapTest; simp

@[simp] theorem secret_execExtest (shift pins : BitVec 226) (s : State) : secretOf (execExtest shift pins s) = some s.lantern.secret := by unfold execExtest; simp

@[simp] theorem secret_execIdcode (s : State) : secretOf (execIdcode s) = some s.lantern.secret := by unfold execIdcode; simp

@[simp] theorem secret_execSamplePreload (shift pins : BitVec 226) (s : State) : secretOf (execSamplePreload shift pins s) = some s.lantern.secret := by unfold execSamplePreload; simp

@[simp] theorem secret_execClamp (s : State) : secretOf (execClamp s) = some s.lantern.secret := by unfold execClamp; simp

@[simp] theorem secret_execHighz (s : State) : secretOf (execHighz s) = some s.lantern.secret := by unfold execHighz; simp

@[simp] theorem secret_execExtestPulse (shift pins : BitVec 226) (s : State) : secretOf (execExtestPulse shift pins s) = some s.lantern.secret := by unfold execExtestPulse; simp

@[simp] theorem secret_execExtestTrain (shift pins : BitVec 226) (s : State) : secretOf (execExtestTrain shift pins s) = some s.lantern.secret := by unfold execExtestTrain; simp

@[simp] theorem secret_execBypass (s : State) : secretOf (execBypass s) = some s.lantern.secret := by unfold execBypass; simp

@[simp] theorem secret_execTestLogicReset (s : State) : secretOf (execTestLogicReset s) = some s.lantern.secret := by unfold execTestLogicReset; simp

@[simp] theorem secret_State_prbsRefuse (s : State) (p : Nat) : (State.prbsRefuse s p).lantern.secret = s.lantern.secret := by unfold State.prbsRefuse; simp

@[simp] theorem secret_execPrbsOff (p : Fin 6) (s : State) : secretOf (execPrbsOff p s) = some s.lantern.secret := by unfold execPrbsOff; simp

@[simp] theorem secret_execPrbsCheck (p : Fin 6) (s : State) : secretOf (execPrbsCheck p s) = some s.lantern.secret := by unfold execPrbsCheck; simp

@[simp] theorem secret_execPrbsGenerate (p : Fin 6) (s : State) : secretOf (execPrbsGenerate p s) = some s.lantern.secret := by unfold execPrbsGenerate; simp

@[simp] theorem secret_execPrbsLock (p : Fin 6) (errors : BitVec 32) (s : State) : secretOf (execPrbsLock p errors s) = some s.lantern.secret := by unfold execPrbsLock; simp

@[simp] theorem secret_after (s : State) (o : Out) (h : secretOf o = some s.lantern.secret) : (after s o).lantern.secret = s.lantern.secret := by
  cases o with
  | next t => simpa [after] using h
  | fault r => rfl
  | refused r => rfl

@[simp] theorem secret_State_setLatches (s : State) (p : Path) (m : List (Nat × Word)) : (State.setLatches s p m).lantern.secret = s.lantern.secret := by unfold State.setLatches; (repeat' split) <;> simp

@[simp] theorem secret_State_setHolds (s : State) (p : Path) (m : List (Nat × Word)) : (State.setHolds s p m).lantern.secret = s.lantern.secret := by unfold State.setHolds; (repeat' split) <;> simp

@[simp] theorem secret_State_readClear (s : State) (a : Nat) : (State.readClear s a).lantern.secret = s.lantern.secret := by unfold State.readClear; (repeat' split) <;> simp

@[simp] theorem secret_State_liveRead (s : State) (a : Nat) : (State.liveRead s a).2.lantern.secret = s.lantern.secret := by unfold State.liveRead; (repeat' split) <;> simp

@[simp] theorem secret_State_readReg (s : State) (path : Path) (a : Nat) : (State.readReg s path a).2.lantern.secret = s.lantern.secret := by unfold State.readReg; (repeat' split) <;> simp

@[simp] theorem secret_State_countAsleep (s : State) : (State.countAsleep s).lantern.secret = s.lantern.secret := by unfold State.countAsleep; simp

@[simp] theorem secret_State_readAccess (s : State) (path : Path) (a : Nat) : (State.readAccess s path a).2.lantern.secret = s.lantern.secret := by unfold State.readAccess; simp

@[simp] theorem secret_State_store (s : State) (a : Nat) (v : Word) : (State.store s a v).lantern.secret = s.lantern.secret := by unfold State.store; (repeat' split) <;> simp

@[simp] theorem secret_State_writePortCtrl (s : State) (p : Nat) (v : Word) : (State.writePortCtrl s p v).lantern.secret = s.lantern.secret := by unfold State.writePortCtrl; simp

@[simp] theorem secret_State_writeStreamCfg (s : State) (n : Nat) (v : Word) : (State.writeStreamCfg s n v).lantern.secret = s.lantern.secret := by unfold State.writeStreamCfg; simp

@[simp] theorem secret_State_writeAdit (s : State) (o : Nat) (v : Word) : (State.writeAdit s o v).lantern.secret = s.lantern.secret := by unfold State.writeAdit; simp

@[simp] theorem secret_State_groupCmd (s : State) (g cmd : Nat) : (State.groupCmd s g cmd).lantern.secret = s.lantern.secret := by unfold State.groupCmd; (repeat' split) <;> simp

@[simp] theorem secret_State_writeGallery (s : State) (o : Nat) (v : Word) : (State.writeGallery s o v).lantern.secret = s.lantern.secret := by unfold State.writeGallery; simp

@[simp] theorem secret_State_benchCmd (s : State) (k cmd : Nat) : (State.benchCmd s k cmd).lantern.secret = s.lantern.secret := by unfold State.benchCmd; (repeat' split) <;> simp

@[simp] theorem secret_State_upkeepCtrl (s : State) (k : Nat) (v : Word) : (State.upkeepCtrl s k v).lantern.secret = s.lantern.secret := by unfold State.upkeepCtrl; simp

@[simp] theorem secret_State_writeSeam (s : State) (k o : Nat) (v : Word) : (State.writeSeam s k o v).lantern.secret = s.lantern.secret := by unfold State.writeSeam; simp

@[simp] theorem secret_State_writeSump (s : State) (o : Nat) (v : Word) : (State.writeSump s o v).lantern.secret = s.lantern.secret := by unfold State.writeSump; simp

@[simp] theorem secret_State_writeChiselCfg (s : State) (v : Word) : (State.writeChiselCfg s v).lantern.secret = s.lantern.secret := by unfold State.writeChiselCfg; simp

@[simp] theorem secret_State_writeChisel (s : State) (o : Nat) (v : Word) : (State.writeChisel s o v).lantern.secret = s.lantern.secret := by unfold State.writeChisel; simp

@[simp] theorem secret_State_writeTimer (s : State) (v : Word) : (State.writeTimer s v).lantern.secret = s.lantern.secret := by unfold State.writeTimer; simp

@[simp] theorem secret_State_writePower (s : State) (path : Path) (o : Nat) (v : Word) : (State.writePower s path o v).lantern.secret = s.lantern.secret := by unfold State.writePower; simp

@[simp] theorem secret_State_writeTunnelLib (s : State) (l : Nat) (v : Word) : (State.writeTunnelLib s l v).lantern.secret = s.lantern.secret := by unfold State.writeTunnelLib; simp

@[simp] theorem secret_State_writeTunnel (s : State) (o : Nat) (v : Word) : (State.writeTunnel s o v).lantern.secret = s.lantern.secret := by unfold State.writeTunnel; simp

@[simp] theorem secret_State_tickRefuse (s : State) : (State.tickRefuse s).lantern.secret = s.lantern.secret := by unfold State.tickRefuse; simp

@[simp] theorem secret_State_writePrbs (s : State) (p : Fin 6) (mode : Nat) : (State.writePrbs s p mode).lantern.secret = s.lantern.secret := by unfold State.writePrbs; (repeat' split) <;> simp

@[simp] theorem secret_State_writeTest (s : State) (o : Nat) (v : Word) : (State.writeTest s o v).lantern.secret = s.lantern.secret := by unfold State.writeTest; simp

@[simp] theorem secret_State_writeLantern (s : State) (o : Nat) (v : Word) : (State.writeLantern s o v).lantern.secret = s.lantern.secret := by unfold State.writeLantern; simp

@[simp] theorem secret_State_writeRingCfg (s : State) (r : Nat) (v : Word) : (State.writeRingCfg s r v).lantern.secret = s.lantern.secret := by unfold State.writeRingCfg; simp

@[simp] theorem secret_State_writeMsix (s : State) (o : Nat) (v : Word) : (State.writeMsix s o v).lantern.secret = s.lantern.secret := by unfold State.writeMsix; simp

@[simp] theorem secret_State_writeHost (s : State) (o : Nat) (v : Word) : (State.writeHost s o v).lantern.secret = s.lantern.secret := by unfold State.writeHost; simp

@[simp] theorem secret_State_writePair (s : State) (a : Nat) (v : Nat) : (State.writePair s a v).lantern.secret = s.lantern.secret := by unfold State.writePair; simp

@[simp] theorem secret_State_holdLo (s : State) (path : Path) (a : Nat) (v : Word) : (State.holdLo s path a v).lantern.secret = s.lantern.secret := by unfold State.holdLo; simp

@[simp] theorem secret_State_commitHi (s : State) (path : Path) (lo : Nat) (v : Word) : (State.commitHi s path lo v).lantern.secret = s.lantern.secret := by unfold State.commitHi; simp

@[simp] theorem secret_State_writeReg (s : State) (path : Path) (a : Nat) (v : Word) : (State.writeReg s path a v).lantern.secret = s.lantern.secret := by unfold State.writeReg; (repeat' split) <;> simp

@[simp] theorem secret_State_writeOne (s : State) (path : Path) (a : Nat) (v : Word) : (State.writeOne s path a v).lantern.secret = s.lantern.secret := by unfold State.writeOne; simp

@[simp] theorem secret_State_writeAccess (s : State) (path : Path) (a bytes : Nat) (v : Word64) : (State.writeAccess s path a bytes v).lantern.secret = s.lantern.secret := by unfold State.writeAccess; simp

@[simp] theorem secret_execRegisterWrite (path : Path) (addr : BitVec 25) (bytes : Nat) (value : Word64) (s : State) : secretOf (execRegisterWrite path addr bytes value s) = some s.lantern.secret := by unfold execRegisterWrite; simp

@[simp] theorem secret_State_afterRead (s : State) (a event : Nat) : (State.afterRead s a event).lantern.secret = s.lantern.secret := by unfold State.afterRead; (repeat' split) <;> simp

@[simp] theorem secret_execCounterReadClear (path : Path) (addr : BitVec 25) (event : Nat) (s : State) : secretOf (execCounterReadClear path addr event s) = some s.lantern.secret := by unfold execCounterReadClear; simp

@[simp] theorem secret_execReadLoLatch (path : Path) (addr : BitVec 25) (s : State) : secretOf (execReadLoLatch path addr s) = some s.lantern.secret := by unfold execReadLoLatch; simp

@[simp] theorem secret_execWriteLoHold (path : Path) (addr : BitVec 25) (value : Word) (s : State) : secretOf (execWriteLoHold path addr value s) = some s.lantern.secret := by unfold execWriteLoHold; simp

@[simp] theorem secret_execWriteHiCommit (path : Path) (addr : BitVec 25) (value : Word) (s : State) : secretOf (execWriteHiCommit path addr value s) = some s.lantern.secret := by unfold execWriteHiCommit; simp

@[simp] theorem secret_State_mportEnd (s : State) (data : Word) (status : BitVec 8) : (State.mportEnd s data status).lantern.secret = s.lantern.secret := by unfold State.mportEnd; simp

@[simp] theorem secret_State_mportReadAccess (s : State) (addr : Word) (badOp : Bool) : (State.mportReadAccess s addr badOp).2.lantern.secret = s.lantern.secret := by unfold State.mportReadAccess; simp

@[simp] theorem secret_State_mportWriteAccess (s : State) (addr value : Word) (badOp : Bool) : (State.mportWriteAccess s addr value badOp).lantern.secret = s.lantern.secret := by unfold State.mportWriteAccess; simp

@[simp] theorem secret_execMportRead (addr : Word) (badOp : Bool) (s : State) : secretOf (execMportRead addr badOp s) = some s.lantern.secret := by unfold execMportRead; simp

@[simp] theorem secret_execMportWrite (addr value : Word) (badOp : Bool) (s : State) : secretOf (execMportWrite addr value badOp s) = some s.lantern.secret := by unfold execMportWrite; simp

@[simp] theorem secret_execMportAbort (addr : Word) (write : Option Word) (cycle : BitVec 7) (s : State) : secretOf (execMportAbort addr write cycle s) = some s.lantern.secret := by unfold execMportAbort; (repeat' split) <;> simp

end Sys2Proof.Machine
end

