-- ==== Sys2Proof/Laws/Seam.lean ====
section
/-! SUPPORT.  What the Seam dies' shared operations can change, and how benches, tiles and the tile map read after they change. -/

namespace Sys2Proof.Machine

/-- Results of a lost die end; nothing but the die's own record changes. -/
theorem markNotReady_eq (s : State) (k : Nat) (f : Eval → Bool) : s.markNotReady k f = { s with seam := (s.markNotReady k f).seam } := rfl

theorem reg_markNotReady (s : State) (k : Nat) (f : Eval → Bool) (a : Nat) : (s.markNotReady k f).reg a = s.reg a := rfl

theorem fld_markNotReady (s : State) (k : Nat) (f : Eval → Bool) (g : Fld) : (s.markNotReady k f).fld g = s.fld g := rfl

theorem regBit_markNotReady (s : State) (k : Nat) (f : Eval → Bool) (a i : Nat) : (s.markNotReady k f).regBit a i = s.regBit a i := rfl

theorem regBit_setFld_apart (s : State) (f : Fld) (v a i : Nat) (h : a ≠ f.addr ∨ i < f.lo ∨ f.lo + f.w ≤ i) : (s.setFld f v).regBit a i = s.regBit a i := by
  unfold State.regBit State.setFld
  by_cases ha : a = f.addr
  · subst ha
    rw [State.reg_setReg_same, getLsbD_putField, if_neg (by omega)]
  · rw [State.reg_setReg_ne _ _ ha]

theorem benchSt_setReg (s : State) (a : Nat) (v : Word) (k j : Nat) : (s.setReg a v).benchSt k j = s.benchSt k j := rfl

theorem moveBenchState_state (s : State) (k j : Nat) (st : BenchState) : (s.moveBenchState k j st).benchSt k j = { s.benchSt k j with state := st } := by
  have e : ∀ v, (s.setBench k j v).benchSt k j = v := fun v => (benchSt_setReg _ _ _ _ _).trans (State.benchSt_putBench_same _ _ _ _)
  unfold State.moveBenchState
  dsimp only
  split
  · exact e _
  · show (s.setBench k j { s.benchSt k j with state := st }).benchSt k j = _; exact e _

theorem moveBenchState_keeps (s : State) (k j : Nat) (st : BenchState) : s.moveBenchState k j st = { s with regs := (s.moveBenchState k j st).regs, seam := (s.moveBenchState k j st).seam } := by
  unfold State.moveBenchState
  dsimp only
  split
  · simp only [State.setBit, State.setRegBit, State.setFld, State.setReg, State.setBench, State.putBench]
  · rw [markNotReady_eq]; simp only [State.setBit, State.setRegBit, State.setFld, State.setReg, State.setBench, State.putBench]

theorem setMap_same (s : State) (k l p : Nat) : (s.setMap k l p).physTile k l = p := tget_tset_same _ _ _ _

theorem setMap_ne (s : State) (k l m p : Nat) (h : k * logicalTiles + m ≠ k * logicalTiles + l) : (s.setMap k l p).physTile k m = s.physTile k m := tget_tset_ne _ _ _ h

theorem freeColumn_none (s : State) (k l e : Nat) (h : s.benchOfTile l = none) : s.freeColumn k l e = (true, s) := by
  unfold State.freeColumn; rw [h]

/-- `t` differs from `s` in registers, the Seam dies' records and the alarm backlog alone. -/
def OnlySeam (s t : State) : Prop := t = { s with regs := t.regs, seam := t.seam, alarmQ := t.alarmQ, aseq := t.aseq, alarmLost := t.alarmLost }

theorem OnlySeam.refl (s : State) : OnlySeam s s := rfl

theorem OnlySeam.trans {s t u : State} (h1 : OnlySeam s t) (h2 : OnlySeam t u) : OnlySeam s u := by
  unfold OnlySeam at *
  exact h2.trans (by rw [h1])

theorem OnlySeam.foldl {α : Type} (f : State → α → State) (h : ∀ a x, OnlySeam a (f a x)) (l : List α) : ∀ s, OnlySeam s (l.foldl f s) := by
  induction l with
  | nil => exact OnlySeam.refl
  | cons x t ih => intro s; exact (h s x).trans (ih _)

theorem onlySeam_alarm (s : State) (f : Fld) (u : Nat) : OnlySeam s (s.alarm f u) := by
  have := State.alarm_keeps s f u
  unfold OnlySeam; generalize s.alarm f u = t at *; rw [this]

theorem onlySeam_retire (s : State) (k p : Nat) : OnlySeam s (s.retireTile k p) :=
  (show OnlySeam s (s.setTile k p { s.tileSt k p with retired := true }) from rfl).trans (onlySeam_alarm _ _ _)

theorem retire_benchSt (s : State) (k p k2 j : Nat) : (s.retireTile k p).benchSt k2 j = s.benchSt k2 j := by
  unfold State.retireTile
  rw [State.alarm_keeps]; rfl

theorem onlySeam_benchLib {s t : State} (h : OnlySeam s t) (b : Nat) : t.benchLib b = s.benchLib b := by
  unfold OnlySeam at h; rw [h]; rfl

theorem onlySeam_bench (s : State) (k j : Nat) (st : BenchState) : OnlySeam s (s.moveBenchState k j st) := by
  have := moveBenchState_keeps s k j st
  unfold OnlySeam; generalize s.moveBenchState k j st = t at *; rw [this]

end Sys2Proof.Machine
end

