-- ==== Sys2Proof/Laws/Lantern.lean ====
section
/-! SUPPORT.  Lantern's channels: the front command, its execution, and resync. -/

namespace Sys2Proof.Machine

/-- A channel is one of 32. -/
theorem chan_lt (c : Chan) : c.toNat < 32 := c.isLt


/-- A write of one register leaves every bit of another. -/
theorem regBit_setReg_ne (s : State) (a : Nat) (v : Word) (c j : Nat) (h : c ≠ a) : (s.setReg a v).regBit c j = s.regBit c j := by
  unfold State.regBit; rw [State.reg_setReg_ne _ _ h]

/-- A channel's front command is the head of its queue with its arguments, and leaves it with them. -/
theorem front_queue {s : State} {n : Nat} {h : Word} {l : List Word} (hf : s.front n = some (h, l)) :
    ∃ t, (s.chan n).queue = h :: t ∧ l = t.take (cmdNargs h) ∧ l.length = cmdNargs h ∧ s.popFront n = s.setChan n { s.chan n with queue := t.drop (cmdNargs h) } := by
  unfold State.front at hf; dsimp only at hf
  unfold State.popFront; dsimp only
  cases hq : (s.chan n).queue with
  | nil => rw [hq] at hf; cases hf
  | cons x t =>
    rw [hq] at hf; dsimp only at hf ⊢
    split at hf
    · cases hf
    · rename_i hn
      simp only [Option.some.injEq, Prod.mk.injEq] at hf
      obtain ⟨rfl, rfl⟩ := hf
      refine ⟨t, rfl, rfl, ?_, rfl⟩
      rw [List.length_take]; simp only [Bool.or_eq_true, decide_eq_true_eq, not_or, Nat.not_lt] at hn
      exact Nat.min_eq_left hn.2

/-- Taking the front command changes its channel alone. -/
theorem popFront_eq {s : State} {c : Chan} {op tag : Nat} {args : List Nat} (h : CommandFirst s c op tag args) : ∃ q, s.popFront c.toNat = s.setChan c.toNat q := by
  obtain ⟨h, l, hf, _⟩ := h
  obtain ⟨t, _, _, _, e⟩ := front_queue hf
  exact ⟨_, e⟩

/-- A command first in its channel runs its body on the state without it. -/
theorem command_first {s : State} {c : Chan} {op tag : Nat} {args : List Nat} (h : CommandFirst s c op tag args) (body : State → Nat → List Nat → State) :
    s.command c op body = (body (s.popFront c.toNat) tag args).settle c.toNat 16 := by
  obtain ⟨h, l, hf, ho, ht, hg, ha⟩ := h
  unfold State.command; dsimp only; rw [hf]; dsimp only
  rw [if_neg (by simp [ho, ht]), hg, ha]

/-- A command's effect, once the state without it is known to differ in its channel alone. -/
theorem executes {i : Instr} {s : State} {c : Chan} {op tag : Nat} {args : List Nat} {body : State → Nat → List Nat → State} {f : State → State}
    (h : CommandFirst s c op tag args) (e : exec i s = .next (s.command c op body)) (hb : ∀ q, body (s.setChan c.toNat q) tag args = f (s.setChan c.toNat q)) : Executes i s c f := by
  unfold Executes; obtain ⟨q, hq⟩ := popFront_eq h
  rw [e, command_first h, hq, hb q]

/-- A channel reads as it was set. -/
theorem chan_setChan (s : State) (n : Nat) (v : ChanSt) : (s.setChan n v).chan n = v := by simp [State.chan, State.setChan]

/-- Setting a channel leaves the others. -/
theorem chan_setChan_ne (s : State) (n m : Nat) (v : ChanSt) (h : m ≠ n) : (s.setChan n v).chan m = s.chan m := by simp [State.chan, State.setChan, tget_tset_ne _ _ _ h]

/-- Resync changes one channel and alarms. -/
theorem chan_enterResync (s : State) (n m : Nat) : (s.enterResync n).chan m = (s.setChan n { s.chan n with queue := [], resync := true }).chan m := by
  unfold State.enterResync State.chan; rw [State.alarm_keeps]; rfl

/-- After every listed channel has entered resync, each is empty and in resync. -/
theorem resyncAll (l : List Nat) (n : Nat) : ∀ u : State, (n ∈ l ∨ u.chan n = { queue := [], replies := [], resync := true, busy := false }) →
    (l.foldl (fun (a : State) n => (a.setChan n {}).enterResync n) u).chan n = { queue := [], replies := [], resync := true, busy := false } := by
  induction l with
  | nil => intro u h; exact h.resolve_left (by simp)
  | cons x l ih =>
    intro u h; rw [List.foldl_cons]; refine ih _ ?_
    by_cases e : n = x
    · subst e; right; rw [chan_enterResync, chan_setChan, chan_setChan]
    · rcases h with h | h
      · left; exact (List.mem_cons.mp h).resolve_left e
      · right; rw [chan_enterResync, chan_setChan_ne _ _ _ _ e, chan_setChan_ne _ _ _ _ e, h]

/-- What each step keeps, all of them keep. -/
theorem foldl_keeps2 {α : Type} (P : State → α) (f : State → Nat → State) (hf : ∀ a n, P (f a n) = P a) (l : List Nat) : ∀ u, P (l.foldl f u) = P u := by
  induction l with
  | nil => intro u; rfl
  | cons x l ih => intro u; rw [List.foldl_cons, ih, hf]

/-- Resync of an emptied channel changes Lantern's channels alone. -/
theorem resync_lantern (a : State) (n : Nat) : (((a.setChan n {}).enterResync n).lantern = { a.lantern with chans := ((a.setChan n {}).enterResync n).lantern.chans }) := by
  unfold State.enterResync; rw [State.alarm_keeps]; rfl

/-- An alarm of Lantern leaves its other status fields. -/
theorem fld_lanternAlarm (s : State) (f g : Fld) (u : Nat) (hf : f.addr = R.LANTERN_ALARM) (h : g.addr < 0x20 ∧ g.addr ≠ 4) : (s.alarm f u).fld g = s.fld g :=
  State.fld_alarm s f g u (by rw [hf]; exact h.2) (show g.addr ≠ 0x1200010 by omega) (by simp only [lostRegs, List.mem_cons, List.not_mem_nil, or_false, not_or]; exact ⟨show g.addr ≠ 0x1200074 by omega, show g.addr ≠ 0x120000C by omega, show g.addr ≠ 0x1200010 by omega⟩)

/-- Resync of an emptied channel leaves Lantern's status fields. -/
theorem resync_fld (a : State) (n : Nat) (g : Fld) (h : g.addr < 0x20 ∧ g.addr ≠ 4) : ((a.setChan n {}).enterResync n).fld g = a.fld g := by
  unfold State.enterResync
  rw [fld_lanternAlarm _ _ _ _ rfl h, State.fld_bump_other _ _ _ _ (.inl (show g.addr ≠ 0x28 by omega))]; rfl

end Sys2Proof.Machine
end

