-- ==== Sys2Proof/Laws/Memory.lean ====
section
/-! SUPPORT.  Host memory, HBM and SRAM: what a read gives after a write, and that every memory operation keeps the canonical form. -/

namespace Sys2Proof.Machine

/-! ### Tables under a fold of writes -/

variable {α : Type} [DecidableEq α]

theorem tableWf_foldl (d : Nat → α) {β : Type} (k : β → Nat) (v : β → α) (l : List β) : ∀ m : List (Nat × α), tableWf d m = true →
    tableWf d (l.foldl (fun m x => tset d m (k x) (v x)) m) = true := by
  induction l with
  | nil => exact fun m h => h
  | cons x t ih => exact fun m h => ih _ (tableWf_tset d _ _ h)

theorem tget_foldl_ne (d : Nat → α) {β : Type} (k : β → Nat) (v : β → α) (a : Nat) (l : List β) : ∀ m : List (Nat × α), (∀ x ∈ l, a ≠ k x) →
    tget d (l.foldl (fun m x => tset d m (k x) (v x)) m) a = tget d m a := by
  induction l with
  | nil => exact fun m _ => rfl
  | cons x t ih =>
    intro m h
    rw [List.foldl_cons, ih _ (fun y hy => h y (List.mem_cons_of_mem _ hy)), tget_tset_ne _ _ _ (h x List.mem_cons_self)]

theorem tget_foldl_bytes (m : List (Nat × Byte)) (a : Nat) (bs : List Byte) (j : Nat) (h : j < bs.length) :
    tget (fun _ => 0#8) ((List.range bs.length).foldl (fun m i => tset (fun _ => 0#8) m (a + i) (bs.getD i 0)) m) (a + j) = bs.getD j 0 := by
  have key : ∀ n, j < n → tget (fun _ => 0#8) ((List.range n).foldl (fun m i => tset (fun _ => 0#8) m (a + i) (bs.getD i 0)) m) (a + j) = bs.getD j 0 := by
    intro n
    induction n with
    | zero => intro h; omega
    | succ n ih =>
      intro hn
      rw [List.range_succ, List.foldl_append, List.foldl_cons, List.foldl_nil]
      by_cases e : j = n
      · rw [e, tget_tset_same]
      · rw [tget_tset_ne _ _ _ (by omega), ih (by omega)]
  exact key _ h

/-! ### Host memory -/

theorem map_tdel (m : List Host.Cell) (k : Nat) : (tdel m k).map (fun c => (c.1, some c.2)) = tdel (m.map (fun c => (c.1, some c.2))) k := by
  induction m with
  | nil => rfl
  | cons e t ih =>
    obtain ⟨a, b⟩ := e
    simp only [tdel, List.map_cons]
    split
    · exact ih
    · rw [List.map_cons, ih]

theorem map_tins (m : List Host.Cell) (k : Nat) (v : Byte) : (tins m k v).map (fun c => (c.1, some c.2)) = tins (m.map (fun c => (c.1, some c.2))) k (some v) := by
  induction m with
  | nil => rfl
  | cons e t ih =>
    obtain ⟨a, b⟩ := e
    simp only [tins, List.map_cons]
    split
    · rfl
    · rw [List.map_cons, ih]

/-- A byte written is a table store. -/
theorem map_cellSet (m : List Host.Cell) (k : Nat) (v : Byte) :
    (cellSet m k v).map (fun c => (c.1, some c.2)) = tset (fun _ => none) (m.map (fun c => (c.1, some c.2))) k (some v) := by
  unfold cellSet tset
  rw [map_tins, map_tdel, if_neg (by simp)]

theorem cellGet_cellSet (m : List Host.Cell) (k a : Nat) (v : Byte) : cellGet (cellSet m k v) a = if a = k then some v else cellGet m a := by
  unfold cellGet
  rw [map_cellSet, tget_tset]

theorem cellsWf_cellSet {m : List Host.Cell} (k : Nat) (v : Byte) (h : cellsWf m = true) : cellsWf (cellSet m k v) = true := by
  unfold cellsWf at *
  rw [map_cellSet]
  exact tableWf_tset _ _ _ h

theorem cellsWf_cellsSet (bs : List Byte) : ∀ (m : List Host.Cell) (a : Nat), cellsWf m = true → cellsWf (cellsSet m a bs) = true := by
  induction bs with
  | nil => exact fun m a h => h
  | cons b t ih => exact fun m a h => ih _ _ (cellsWf_cellSet _ _ h)

theorem cellGet_cellsSet (bs : List Byte) : ∀ (m : List Host.Cell) (a x : Nat),
    cellGet (cellsSet m a bs) x = if a ≤ x ∧ x < a + bs.length then some (bs.getD (x - a) 0) else cellGet m x := by
  induction bs with
  | nil => intro m a x; rw [if_neg (by simp only [List.length_nil]; omega)]; rfl
  | cons b t ih =>
    intro m a x
    show cellGet (cellsSet (cellSet m a b) (a + 1) t) x = _
    rw [ih, cellGet_cellSet]
    by_cases h : x = a
    · subst h
      rw [if_neg (by omega), if_pos rfl, if_pos (by simp), Nat.sub_self]
      rfl
    · by_cases h2 : a + 1 ≤ x ∧ x < a + 1 + t.length
      · rw [if_pos h2, if_pos (by simp only [List.length_cons]; omega), show x - a = (x - (a + 1)) + 1 by omega]
        rfl
      · rw [if_neg h2, if_neg h, if_neg (by simp only [List.length_cons]; omega)]

/-- A byte of host memory after a write: the byte written in its range, the byte before elsewhere. -/
theorem State.hostByte_hostWrite (s : State) (a : Nat) (bs : List Byte) (x : Nat) :
    (s.hostWrite a bs).hostByte x = if a ≤ x ∧ x < a + bs.length then some (bs.getD (x - a) 0) else s.hostByte x := cellGet_cellsSet bs _ _ _

@[simp] theorem State.fld_hostWrite (s : State) (a : Nat) (bs : List Byte) (f : Fld) : (s.hostWrite a bs).fld f = s.fld f := (rfl)
@[simp] theorem State.reg_hostWrite (s : State) (a : Nat) (bs : List Byte) (x : Nat) : (s.hostWrite a bs).reg x = s.reg x := (rfl)
@[simp] theorem State.ring_hostWrite (s : State) (a : Nat) (bs : List Byte) (r : Nat) : (s.hostWrite a bs).ring r = s.ring r := (rfl)
@[simp] theorem State.fld_statusLine (s : State) (r : Nat) (f : Fld) : (s.statusLine r).fld f = s.fld f := (rfl)
@[simp] theorem State.ring_statusLine (s : State) (r q : Nat) : (s.statusLine r).ring q = s.ring q := (rfl)

theorem bytesLE_length (n : Nat) : ∀ v, (bytesLE n v).length = n := by
  induction n with
  | zero => exact fun v => rfl
  | succ n ih => exact fun v => by rw [bytesLE, List.length_cons, ih]

theorem bytesLE_getD (n : Nat) : ∀ (v j : Nat), j < n → (bytesLE n v).getD j 0 = BitVec.ofNat 8 (v / 256 ^ j) := by
  induction n with
  | zero => intro v j h; omega
  | succ n ih =>
    intro v j h
    cases j with
    | zero => rw [bytesLE, Nat.pow_zero, Nat.div_one]; rfl
    | succ j => rw [bytesLE, List.getD_cons_succ, ih _ _ (by omega), Nat.div_div_eq_div_mul, Nat.pow_succ, Nat.mul_comm]

/-! ### SRAM -/

theorem CoreSt.byte_store (k : CoreSt) (a : Nat) (bs : List Byte) (j : Nat) (h : j < bs.length) : (k.store a bs).byte (a + j) = bs.getD j 0 :=
  tget_foldl_bytes _ _ _ _ h

theorem CoreSt.byte_store_ne (k : CoreSt) (a : Nat) (bs : List Byte) (x : Nat) (h : x < a ∨ a + bs.length ≤ x) : (k.store a bs).byte x = k.byte x := by
  unfold CoreSt.byte CoreSt.store
  refine tget_foldl_ne _ (fun i => a + i) (fun i => bs.getD i 0) x _ _ (fun i hi => ?_)
  have := List.mem_range.1 hi
  omega

theorem CoreSt.memWf_store {k : CoreSt} (a : Nat) (bs : List Byte) (h : k.memWf = true) : (k.store a bs).memWf = true := by
  unfold CoreSt.memWf CoreSt.store at *
  rw [Bool.and_eq_true] at *
  exact ⟨tableWf_foldl _ (fun i => a + i) (fun i => bs.getD i 0) _ _ h.1, tableWf_foldl _ (fun w => w) (fun _ => true) _ _ h.2⟩

/-! ### The memories of a state -/

theorem Memory.wf_iff (s : State) : Memory.wf s = true ↔ cellsWf s.hostMem = true ∧ tableWf (fun _ => 0#8) s.hbm = true ∧
    tableWf (fun _ => false) s.hbmPages = true ∧ tableWf regReset s.regs = true ∧ ∀ c ∈ s.cores, c.2.memWf = true := by
  unfold Memory.wf
  simp only [Bool.and_eq_true, List.all_eq_true, and_assoc]

theorem Memory.wf_reset : Memory.wf State.reset = true := (rfl)

theorem Memory.wf_hostWrite {s : State} (a : Nat) (bs : List Byte) (h : Memory.wf s = true) : Memory.wf (s.hostWrite a bs) = true := by
  rw [Memory.wf_iff] at *
  exact ⟨cellsWf_cellsSet bs _ _ h.1, h.2⟩

theorem Memory.wf_hbmWrite {s : State} (a : Nat) (bs : List Byte) (h : Memory.wf s = true) : Memory.wf (s.hbmWrite a bs) = true := by
  rw [Memory.wf_iff] at *
  exact ⟨h.1, tableWf_foldl _ (fun i => a + i) (fun i => bs.getD i 0) _ _ (tableWf_tfilter _ _ h.2.1),
    tableWf_foldl _ (fun p => p) (fun _ => true) _ _ h.2.2.1, h.2.2.2⟩

theorem Memory.wf_setReg {s : State} (a : Nat) (v : Word) (h : Memory.wf s = true) : Memory.wf (s.setReg a v) = true := by
  rw [Memory.wf_iff] at *
  exact ⟨h.1, h.2.1, h.2.2.1, tableWf_tset _ _ _ h.2.2.2.1, h.2.2.2.2⟩

theorem Memory.wf_setCore {s : State} (c : Nat) (k : CoreSt) (h : Memory.wf s = true) (hk : k.memWf = true) : Memory.wf (s.setCore c k) = true := by
  rw [Memory.wf_iff] at *
  refine ⟨h.1, h.2.1, h.2.2.1, h.2.2.2.1, fun e he => ?_⟩
  unfold State.setCore tset at he
  dsimp only at he
  split at he
  · exact h.2.2.2.2 e (mem_tdel he).1
  · rcases mem_tins he with e1 | e1
    · rw [e1]; exact hk
    · exact h.2.2.2.2 e (mem_tdel e1).1

/-! ### Rings -/

theorem ring_setRing (s : State) (r : Nat) (v : RingSt) : (s.setRing r v).ring r = v := by simp [State.ring, State.setRing]

theorem ring_setRing_ne (s : State) (r q : Nat) (v : RingSt) (h : q ≠ r) : (s.setRing r v).ring q = s.ring q := by
  simp [State.ring, State.setRing, tget_tset_ne _ _ _ h]

/-- A ring's change of state changes no field outside its STATUS register. -/
theorem setRingState_fld (s : State) (r st : Nat) (f : Fld) (h : f.addr ≠ R.HOST_RING_STATUS r) : (s.setRingState r st).fld f = s.fld f := by
  unfold State.setRingState
  dsimp only
  split
  · rw [State.fld_statusLine, State.fld_setFld_other _ _ _ _ (Or.inl h)]
  · rw [State.fld_setFld_other _ _ _ _ (Or.inl h)]

theorem setRingState_state (s : State) (r st : Nat) (h : st < 8) : (s.setRingState r st).ringState r = st := by
  have e : ((s.setFld (F.HOST_RING_STATUS_STATE r) st)).fld (F.HOST_RING_STATUS_STATE r) = st := by
    rw [State.fld_setFld_same _ _ _ (by show 29 + 3 ≤ 32; decide)]
    exact Nat.mod_eq_of_lt h
  unfold State.setRingState State.ringState
  dsimp only
  split
  · rw [State.fld_statusLine, e]
  · exact e

theorem setRingState_ring (s : State) (r st q : Nat) : (s.setRingState r st).ring q = s.ring q := by
  unfold State.setRingState
  dsimp only
  split <;> rfl

end Sys2Proof.Machine
end

