-- ==== Sys2Proof/Laws/Tunnel.lean ====
section
/-! SUPPORT.  What taking a Tunnel frame does, case by case (R363 to R365). -/

namespace Sys2Proof.Machine

@[simp] theorem tport_setTPort (s : State) (p : Nat) (v : TPortSt) : (s.setTPort p v).tport p = v := by simp [State.tport, State.setTPort]

theorem tport_setTPort_ne (s : State) (p q : Nat) (h : q ≠ p) (v : TPortSt) : (s.setTPort p v).tport q = s.tport q := by simp [State.tport, State.setTPort, tget_tset_ne _ _ _ h]

theorem takeFrame_bad (s : State) (q : TPort) (ty : Nat) (f : Frame) (act : State → State) (h : f.type.toNat = ty) (hu : s.portUp q.toNat = true) :
    s.takeTunnelFrame q ty f false act = s.nakSent q.toNat (s.bump (F.TUNNEL_PORT_CRC_COUNT q.toNat) 1) := by
  unfold State.takeTunnelFrame State.nakSent State.peerOf; simp [h, hu]

theorem takeFrame_dup (s : State) (q : TPort) (ty : Nat) (f : Frame) (act : State → State) (h : f.type.toNat = ty) (hu : s.portUp q.toNat = true) (hl : f.lseq.toNat = (s.tport q.toNat).rxSeq) :
    s.takeTunnelFrame q ty f true act = s.ackTaken q.toNat f := by
  unfold State.takeTunnelFrame State.ackTaken; simp only [h, hu, hl]; simp

theorem takeFrame_gap (s : State) (q : TPort) (ty : Nat) (f : Frame) (act : State → State) (h : f.type.toNat = ty) (hu : s.portUp q.toNat = true) (hi : ty ≠ ftIDLE) (hl : f.lseq.toNat ≠ (s.tport q.toNat).rxSeq)
    (hg : f.lseq.toNat ≠ ((s.tport q.toNat).rxSeq + 1) % 65536) : s.takeTunnelFrame q ty f true act = s.nakSent q.toNat (s.ackTaken q.toNat f) := by
  unfold State.takeTunnelFrame State.ackTaken State.nakSent State.peerOf; simp only [h, hu]; rw [if_neg (by simp), if_neg (by simp), if_neg hi, if_neg hl, if_pos hg]

theorem takeFrame_ord (s : State) (q : TPort) (ty : Nat) (f : Frame) (act : State → State) (h : f.type.toNat = ty) (hu : s.portUp q.toNat = true) (hi : ty ≠ ftIDLE)
    (hg : f.lseq.toNat = ((s.tport q.toNat).rxSeq + 1) % 65536) : s.takeTunnelFrame q ty f true act = (if s.addressed f then act (s.frameTaken q.toNat f) else s.frameTaken q.toNat f).forward q.toNat f := by
  unfold State.takeTunnelFrame State.frameTaken State.ackTaken; simp only [h, hu]; rw [if_neg (by simp), if_neg (by simp), if_neg hi, if_neg (by omega), if_neg (by omega)]
  rfl

theorem takeFrame_down (s : State) (q : TPort) (ty : Nat) (f : Frame) (ok : Bool) (act : State → State) (hu : s.portUp q.toNat = false) : s.takeTunnelFrame q ty f ok act = s := by
  unfold State.takeTunnelFrame; simp [hu]

theorem nakSent_rx (s : State) (p : Nat) (a : State) : ((s.nakSent p a).tport p).rxSeq = (a.tport p).rxSeq := by
  unfold State.nakSent State.sendFrame; split
  · rfl
  · simp only [tport_setTPort]

theorem ackTaken_rx (s : State) (p : Nat) (f : Frame) : ((s.ackTaken p f).tport p).rxSeq = (s.tport p).rxSeq := by
  unfold State.ackTaken; simp only [tport_setTPort]

theorem fld_setRegBit_apart (s : State) (f : Fld) (a i : Nat) (b : Bool) (h : f.addr ≠ a ∨ f.lo + f.w ≤ i ∨ i + 1 ≤ f.lo) : (s.setRegBit a i b).fld f = s.fld f :=
  State.fld_setFld_other s ⟨a, i, 1⟩ f (if b then 1 else 0) h

end Sys2Proof.Machine
end

