-- ==== Sys2Proof/Tests/Slice0.lean ====
section
/-! SUPPORT.  Tests: an ill-formed command for each check of WellFormed, one step on small states, and a witness for the hypotheses of each
statement. -/

namespace Sys2Proof.Tests

open Sys2Proof Sys2Proof.Machine

/-! ### WellFormed: an ill-formed command for each check -/

/-- A frame of a type, without payload. -/
def frameOf (ty : BitVec 8) : Frame := { type := ty, src := 0, dst := 0, lseq := 0, ack := 0, req := 0, arg0 := 0, arg1 := 0, payload := [] }

/-- A message to an address with `n` payload flits. -/
def msgOf (tag : BitVec 12) (dest : BitVec 14) (n : Nat) : Msg := { tick := 0, tag := tag, src := 0, dest := dest, payload := List.replicate n 0 }

theorem test_wf_access : (Instr.registerWrite .bar0 0 4 0x100000000).wellFormed = false ∧ (Instr.registerWrite .bar0 0 0 0).wellFormed = false ∧
    (Instr.registerWrite .bar0 0 4 0xFFFFFFFF).wellFormed = true := by decide
theorem test_wf_round : (Instr.aditRound 0 0 [1, 2] [2] 0).wellFormed = false ∧ (Instr.aditRound 0 0 [1, 2] [1] 0).wellFormed = true := by decide
theorem test_wf_msg : (Instr.msgEject (msgOf 0 0 9)).wellFormed = false ∧ (Instr.sliver (msgOf 0 0 9)).wellFormed = false ∧ (Instr.msgEject (msgOf 0 0 8)).wellFormed = true := by decide
theorem test_wf_positions : (Instr.selftestDone 0 [132] false).wellFormed = false ∧ (Instr.selftestDone 0 [131] false).wellFormed = true := by decide
theorem test_wf_snapshot : (Instr.snapshot [3, 3]).wellFormed = false ∧ (Instr.snapshot [3, 4]).wellFormed = true := by decide
theorem test_wf_region : (Instr.barrierComplete .group 64).wellFormed = false ∧ (Instr.barrierComplete .device 1).wellFormed = false ∧ (Instr.barrierComplete .group 63).wellFormed = true := by decide
theorem test_wf_pattern : (Instr.recalibrationDue 0 0 (List.replicate 65 ⟨0, 0, 0, 0⟩)).wellFormed = false ∧ (Instr.recalibrationDue 0 0 (List.replicate 64 ⟨0, 0, 0, 0⟩)).wellFormed = true := by decide
theorem test_wf_cells : (Instr.tileReplace 0 0 [⟨0, 1064, 0, 0⟩]).wellFormed = false ∧ (Instr.tileReplace 0 0 [⟨0, 1063, 0, 0⟩]).wellFormed = true := by decide
theorem test_wf_fits : (Instr.stagingFill 0 0 [] [⟨5, 0, 0, false⟩, ⟨5, 0, 0, true⟩]).wellFormed = false ∧ (Instr.stagingFill 0 0 [] [⟨5, 0, 0, false⟩]).wellFormed = true := by decide
theorem test_wf_tile : (Instr.patrolRound 0 [34816]).wellFormed = false ∧ (Instr.patrolRound 0 [34815]).wellFormed = true := by decide
theorem test_wf_oscillators : (Instr.oscRead 0 (List.replicate 15 0)).wellFormed = false ∧ (Instr.oscRead 0 (List.replicate 16 0)).wellFormed = true := by decide
theorem test_wf_dies : (Instr.planDue []).wellFormed = false := by decide
theorem test_wf_entries : (Instr.verify 0 [(0, 1), (0, 1)]).wellFormed = false ∧ (Instr.verify 0 [(0, 1), (1, 1)]).wellFormed = true := by decide
theorem test_wf_frame : (Instr.query 0 (frameOf 3) true).wellFormed = false ∧ (Instr.query 0 (frameOf 2) true).wellFormed = true ∧ (Instr.idle 0 (frameOf 1) true).wellFormed = false := by decide
theorem test_wf_lines : (Instr.doorbellPoll [⟨1, none, []⟩, ⟨1, none, []⟩]).wellFormed = false ∧ (Instr.doorbellPoll [⟨1, none, []⟩, ⟨2, none, []⟩]).wellFormed = true := by decide
theorem test_wf_readings : (Instr.tempSample [0]).wellFormed = false ∧ (Instr.tempSample (List.replicate 9 0)).wellFormed = true := by decide
theorem test_wf_refuser : (Instr.entryAbort 5).wellFormed = false ∧ (Instr.entryAbort 9).wellFormed = false ∧ (Instr.entryAbort 8).wellFormed = true := by decide
theorem test_wf_railStep : (Instr.railOffStep false (some 0)).wellFormed = false ∧ (Instr.railOffStep false (some 7)).wellFormed = true := by decide
theorem test_wf_rails : (Instr.pmbAlert (List.replicate 10 0)).wellFormed = false ∧ (Instr.pmbAlert (List.replicate 9 0)).wellFormed = true := by decide
theorem test_wf_cut : (Instr.mportAbort 0 none 88).wellFormed = false ∧ (Instr.mportAbort 0 none 87).wellFormed = true := by decide
theorem test_wf_link : (Instr.pcieLinkUp 6 16).wellFormed = false ∧ (Instr.pcieLinkUp 4 3).wellFormed = false ∧ (Instr.pcieLinkUp 4 16).wellFormed = true := by decide

end Sys2Proof.Tests
end

section
/-! PROOFS.  The state as shipped, the step and the counters (00_scope R12, R19 to R21). -/

namespace Sys2Proof.Machine

/-- Settles O55: a count writes one field, and the field reads back the saturated sum. -/
theorem countersSaturate : Obligations.CountersSaturate := by
  unfold Obligations.CountersSaturate
  intro s f n hf
  have sum := s.fld_bump_same f n hf
  refine ⟨sum, fun full => ?_, ⟨rfl, fun a ha => ?_⟩, fun i hi => ?_⟩
  · rw [sum, full]
    omega
  · exact s.reg_bump_ne f n (by simpa using ha)
  · exact regBit_setFld_apart s f _ _ _ (.inr hi)

/-- Settles O54: the state after reset lists no register, so each reads its reset value, and a part held in reset opens no path. -/
theorem resetStateIsAPartAsShipped : Obligations.ResetStateIsAPartAsShipped := by
  unfold Obligations.ResetStateIsAPartAsShipped
  have keys : KeyStoreSound State.reset.lantern.secret := by
    refine ⟨?_, ?_, ?_⟩ <;> simp [State.reset, LanternSt.secret]
  exact ⟨fun _ => rfl, Memory.wf_reset, keys, rfl, rfl, rfl, rfl, rfl, rfl, rfl, fun _ => rfl⟩

/-- Settles O51: `step` is a match on the queue, and the table spells no word. -/
theorem stepRunsTheFrontCommand : Obligations.StepRunsTheFrontCommand := by
  unfold Obligations.StepRunsTheFrontCommand
  refine ⟨fun _ _ _ => rfl, fun s empty => ?_, fun _ _ _ => ⟨rfl, rfl⟩⟩
  unfold step
  rw [empty]

end Sys2Proof.Machine
end

section
/-! PROOFS.  No command and no step stops the machine (00_scope R15, R16). -/

namespace Sys2Proof.Machine

/-- An outcome whose key store can be read is a next state. -/
theorem next_of_secretOf {o : Host.Outcome State Fault Refusal} {k : List OwnerKey × List Nat} (h : secretOf o = some k) : ∃ t, o = .next t := by
  cases o with
  | next t => exact ⟨t, rfl⟩
  | fault r => cases h
  | refused r => cases h

/-- Every command answers a next state. A command whose meaning is one state answers it as it stands; of the others the key store's laws say that the
store can be read afterwards. -/
theorem exec_answers (i : Instr) (s : State) : ∃ t, exec i s = .next t := by
  cases i
  case hello | query | answer | appendAck | lost | mirror | nak | confirm | loadShadow | keyEnrol => exact ⟨_, rfl⟩
  case append port frame ok =>
    show ∃ t, execAppend port frame ok s = .next t
    unfold execAppend
    split <;> exact ⟨_, rfl⟩
  all_goals exact next_of_secretOf (k := s.lantern.secret) (by unfold exec; simp)

theorem step_answers (s : State) : ∃ t, step s = .next t := by
  unfold step
  cases s.pending with
  | nil => exact ⟨s.idle, rfl⟩
  | cons c rest => exact exec_answers c _

theorem safeRun (n : Nat) : ∀ s, SafeRun n s := by
  induction n with
  | zero => exact fun s => ⟨s, rfl⟩
  | succ n ih =>
    intro s
    obtain ⟨t, first⟩ := step_answers s
    obtain ⟨u, rest⟩ := ih t
    refine ⟨u, ?_⟩
    unfold Host.Core.run
    dsimp only
    rw [first]
    exact rest

/-- Settles O52: a step runs a command or idles, and a run is steps. -/
theorem everyCommandAnswersANextState : Obligations.EveryCommandAnswersANextState := by
  unfold Obligations.EveryCommandAnswersANextState
  exact ⟨exec_answers, step_answers, safeRun⟩

end Sys2Proof.Machine
end

section
/-! PROOFS.  Register accesses: where an access goes, the access codes, counters that a read clears, the latches and holds of R22, and MPORT
transactions (00_scope R14 to R22; 16_pins_package_test R526, R527). -/

namespace Sys2Proof.Machine

variable {s : State} {p : Path}

/-! ### Where an access goes: closed path, bad address, sleeping block, register -/

theorem pathOpen_mport : s.pathOpen .mport = s.alive := Bool.and_true _

theorem pathOpen_of_not_alive (dead : s.alive = false) : s.pathOpen p = false := by
  unfold State.pathOpen
  rw [dead]
  rfl

theorem alive_of_pathOpen (path : s.pathOpen p = true) : s.alive = true := by
  unfold State.pathOpen at path
  exact (Bool.and_eq_true_iff.1 path).1

theorem writeOne_closed (shut : s.pathOpen p = false) (a : Nat) (v : Word) : s.writeOne p a v = s := by
  unfold State.writeOne
  rw [shut]
  rfl

theorem writeOne_misaligned (path : s.pathOpen p = true) {a : Nat} (odd : a % 4 ≠ 0) (v : Word) : s.writeOne p a v = s.accessError := by
  unfold State.writeOne
  rw [path, if_neg (by decide), if_pos odd]

theorem writeOne_asleep (path : s.pathOpen p = true) {a : Nat} (al : a % 4 = 0) (far : s.reachable a = false) (v : Word) :
    s.writeOne p a v = s.countAsleep := by
  unfold State.writeOne
  rw [path, far, if_neg (by decide), if_neg (by omega), if_pos (by decide)]

theorem writeOne_reached (path : s.pathOpen p = true) {a : Nat} (al : a % 4 = 0) (near : s.reachable a = true) (v : Word) :
    s.writeOne p a v = s.writeReg p a v := by
  unfold State.writeOne
  rw [path, near, if_neg (by decide), if_neg (by omega), if_neg (by decide)]

theorem readAccess_closed (shut : s.pathOpen p = false) (a : Nat) : s.readAccess p a = (0, s) := by
  unfold State.readAccess
  rw [shut]
  rfl

theorem readAccess_misaligned (path : s.pathOpen p = true) {a : Nat} (odd : a % 4 ≠ 0) : s.readAccess p a = (0, s.accessError) := by
  unfold State.readAccess
  rw [path, if_neg (by decide), if_pos odd]

theorem readAccess_asleep (path : s.pathOpen p = true) {a : Nat} (al : a % 4 = 0) (far : s.reachable a = false) :
    s.readAccess p a = (0, s.countAsleep) := by
  unfold State.readAccess
  rw [path, far, if_neg (by decide), if_neg (by omega), if_pos (by decide)]

theorem readAccess_reached (path : s.pathOpen p = true) {a : Nat} (al : a % 4 = 0) (near : s.reachable a = true) :
    s.readAccess p a = s.readReg p a := by
  unfold State.readAccess
  rw [path, near, if_neg (by decide), if_neg (by omega), if_neg (by decide)]

/-! ### The commands of an access -/

theorem exec_registerWrite (s : State) (p : Path) (a : BitVec 25) (n : Nat) (v : Word64) :
    exec (.registerWrite p a n v) s = .next (s.writeAccess p a.toNat n v) := rfl

theorem exec_writeLoHold (s : State) (p : Path) (a : BitVec 25) (w : Word) : exec (.writeLoHold p a w) s = .next (s.writeOne p a.toNat w) := rfl

theorem exec_writeHiCommit (s : State) (p : Path) (a : BitVec 25) (w : Word) : exec (.writeHiCommit p a w) s = .next (s.writeOne p a.toNat w) := rfl

theorem exec_readLoLatch (path : s.pathOpen p = true) (a : BitVec 25) :
    exec (.readLoLatch p a) s = .next { (s.readAccess p a.toNat).2 with rdata := (s.readAccess p a.toNat).1.setWidth 64 } := by
  show execReadLoLatch p a s = _
  unfold execReadLoLatch
  simp only [path, if_true]

theorem exec_readLoLatch_closed (shut : s.pathOpen p = false) (a : BitVec 25) : exec (.readLoLatch p a) s = .next s := by
  show execReadLoLatch p a s = _
  unfold execReadLoLatch
  simp only [readAccess_closed shut, shut, Bool.false_eq_true, if_false]

theorem exec_counterReadClear_misaligned (path : s.pathOpen p = true) {a : BitVec 25} (odd : a.toNat % 4 ≠ 0) (k : Nat) :
    exec (.counterReadClear p a k) s = .next { s.accessError with rdata := 0 } := by
  show execCounterReadClear p a k s = _
  unfold execCounterReadClear
  simp [readAccess_misaligned path odd, odd, path]

theorem exec_counterReadClear_dead (dead : s.alive = false) (a : BitVec 25) (k : Nat) : exec (.counterReadClear p a k) s = .next s := by
  have shut : s.pathOpen p = false := pathOpen_of_not_alive dead
  show execCounterReadClear p a k s = _
  unfold execCounterReadClear
  simp [readAccess_closed shut, dead, shut]

/-- A read of an open path that reaches an aligned register, with what lands on the register in the same cycle. -/
theorem exec_counterReadClear (path : s.pathOpen p = true) {a : BitVec 25} (al : a.toNat % 4 = 0) (near : s.reachable a.toNat = true) (k : Nat) :
    exec (.counterReadClear p a k) s =
      .next { (s.readReg p a.toNat).2.afterRead a.toNat k with rdata := (s.readReg p a.toNat).1.setWidth 64 } := by
  show execCounterReadClear p a k s = _
  unfold execCounterReadClear
  simp [readAccess_reached path al near, alive_of_pathOpen path, al, path]

theorem writeAccess_four (s : State) (p : Path) (a : Nat) (v : Word64) : s.writeAccess p a 4 v = s.writeOne p a (v.extractLsb' 0 32) := by
  unfold State.writeAccess
  rw [if_pos rfl]

/-- An access through a closed path does nothing, whatever its size. -/
theorem writeAccess_closed (shut : s.pathOpen p = false) (a n : Nat) (v : Word64) : s.writeAccess p a n v = s := by
  unfold State.writeAccess
  rw [writeOne_closed shut, shut]
  simp

/-- An access that is not of 4 or 8 bytes, or not aligned to its size, is counted and ignored (R15). -/
theorem writeAccess_bad (path : s.pathOpen p = true) {a n : Nat} (bad : (n ≠ 4 ∧ n ≠ 8) ∨ a % n ≠ 0) (v : Word64) :
    s.writeAccess p a n v = s.accessError := by
  by_cases four : n = 4
  · subst four
    rw [writeAccess_four, writeOne_misaligned path (by omega)]
  · have eight : ¬ (n = 8 ∧ a % 8 = 0) := by
      rintro ⟨rfl, al⟩
      omega
    unfold State.writeAccess
    rw [if_neg four, path, if_neg (by decide), if_neg eight]

theorem writeAccess_eight_asleep (path : s.pathOpen p = true) {a : Nat} (al : a % 8 = 0) (far : s.reachable a = false) (v : Word64) :
    s.writeAccess p a 8 v = s.countAsleep := by
  unfold State.writeAccess
  rw [if_neg (by decide), path, if_neg (by decide), if_pos ⟨rfl, al⟩, far]
  rfl

/-! ### Access codes -/

theorem onlyRegs_setReg (s : State) (a : Nat) (v : Word) : OnlyRegs s (s.setReg a v) [a] :=
  ⟨rfl, fun _ other => s.reg_setReg_ne v (by simpa using other)⟩

theorem store_eq {a : Nat} {r : RegRow} (row : regRow a = some r) (v : Word) :
    s.store a v = s.setReg a (((s.reg a &&& ~~~BitVec.ofNat 32 r.rw) ||| (v &&& BitVec.ofNat 32 r.rw)) &&& ~~~(v &&& BitVec.ofNat 32 r.w1c)) := by
  unfold State.store
  rw [row]

/-- A write stores the RW bits, clears the W1C bits written 1 and leaves the others (R20, Table SCOPE-6). -/
theorem getLsbD_store {a : Nat} {r : RegRow} (row : regRow a = some r) (v : Word) {i : Nat} (hi : i < 32) : ((s.store a v).reg a).getLsbD i =
    if r.w1c.testBit i && v.getLsbD i then false else if r.rw.testBit i then v.getLsbD i else (s.reg a).getLsbD i := by
  rw [store_eq row, s.reg_setReg_same]
  simp only [BitVec.getLsbD_and, BitVec.getLsbD_or, BitVec.getLsbD_not, BitVec.getLsbD_ofNat, hi, decide_true, Bool.true_and]
  cases r.w1c.testBit i <;> cases r.rw.testBit i <;> cases v.getLsbD i <;> simp

/-- The plain registers of the statement: a write of each is a store of its bits. -/
def plainRegs : List Nat :=
  [R.GAL_EJECT_WAIT, R.SUMP_SLIVER_WAIT, R.POWER_ALERT_EN, R.ADIT_TIMEOUT, R.TUNNEL_ANS_WAIT, R.CHISEL_CLOSE_WAIT, R.LANTERN_TRIAL_WAIT,
   R.ADIT_ALARM, R.GAL_ALARM, R.SUMP_ALARM, R.TUNNEL_ALARM, R.SEAM_ALARM 7]

theorem writeReg_plain {a : Nat} (ha : a ∈ plainRegs) (v : Word) : s.writeReg p a v = s.store a v := by
  simp only [plainRegs, List.mem_cons, List.not_mem_nil, or_false] at ha
  rcases ha with rfl | rfl | rfl | rfl | rfl | rfl | rfl | rfl | rfl | rfl | rfl | rfl <;> rfl

theorem plainRegs_aligned : ∀ a ∈ plainRegs, a < 2 ^ 25 ∧ a % 4 = 0 := by decide

theorem toNat_ofNat_addr {a : Nat} (small : a < 2 ^ 25) : (BitVec.ofNat 25 a).toNat = a := by
  rw [BitVec.toNat_ofNat, Nat.mod_eq_of_lt small]

/-! ### Counters that a read clears -/

/-- The counters of the statement: each is one saturating RC field of 32 bits, alone in its register. -/
def counterRegs : List Nat :=
  [R.HOST_ACCESS_ERR, R.GAL_EDGE_BADDEST, R.CHISEL_LATE, R.TUNNEL_FWD, R.SUMP_FALSE_HITS, R.LANTERN_BADTAG, R.TEST_MPORT_ABORT, R.SEAM_TRUNC 0]

theorem counterRegs_aligned : ∀ a ∈ counterRegs, a < 2 ^ 25 ∧ a % 4 = 0 ∧ a ≠ R.POWER_STATUS := by decide

theorem row_counter : ∀ a ∈ counterRegs, ∃ r, regRow a = some r ∧ r.rc = 2 ^ 32 - 1 ∧ r.rd = 2 ^ 32 - 1 := by
  intro a ha
  simp only [counterRegs, List.mem_cons, List.not_mem_nil, or_false] at ha
  rcases ha with rfl | rfl | rfl | rfl | rfl | rfl | rfl | rfl <;> exact ⟨_, rfl, rfl, rfl⟩

theorem counterRegs_unpaired : ∀ a ∈ counterRegs, isPairLo a = false ∧ (decide (4 ≤ a) && isPairLo (a - 4)) = false := by decide

theorem view_counter {a : Nat} (ha : a ∈ counterRegs) : s.view a = some (s.reg a) := by
  simp only [counterRegs, List.mem_cons, List.not_mem_nil, or_false] at ha
  rcases ha with rfl | rfl | rfl | rfl | rfl | rfl | rfl | rfl <;> rfl

theorem liveRead_counter {a : Nat} (ha : a ∈ counterRegs) : s.liveRead a = (s.reg a, s) := by
  obtain ⟨r, row, -, rd⟩ := row_counter a ha
  unfold State.liveRead
  rw [row, view_counter ha]
  simp only [rd]
  congr 1
  exact BitVec.and_allOnes

theorem readClear_counter {a : Nat} (ha : a ∈ counterRegs) : s.readClear a = s.setReg a 0 := by
  have clears : s.readClear a = s.setReg a (s.reg a &&& ~~~BitVec.ofNat 32 (2 ^ 32 - 1)) := by
    simp only [counterRegs, List.mem_cons, List.not_mem_nil, or_false] at ha
    rcases ha with rfl | rfl | rfl | rfl | rfl | rfl | rfl | rfl <;> rfl
  rw [clears]
  congr 1
  exact BitVec.and_zero

theorem readReg_counter {a : Nat} (ha : a ∈ counterRegs) : s.readReg p a = (s.reg a, s.setReg a 0) := by
  obtain ⟨lo, hi⟩ := counterRegs_unpaired a ha
  unfold State.readReg
  rw [lo, hi, liveRead_counter ha]
  simp [readClear_counter ha]

theorem reachable_setReg {a : Nat} (v : Word) (b : Nat) (other : R.POWER_STATUS ≠ a) : (s.setReg a v).reachable b = s.reachable b := by
  have level : (s.setReg a v).powerLevel = s.powerLevel := by
    unfold State.powerLevel
    rw [s.fld_setReg_ne F.POWER_STATUS_STATE v other, s.setReg_power]
  unfold State.reachable State.reaches
  rw [level]

theorem afterRead_counter {a : Nat} (ha : a ∈ counterRegs) (near : s.reachable a = true) {k : Nat} (happened : k ≠ 0) :
    s.afterRead a k = s.bump ⟨a, 0, 32⟩ k := by
  have guard : (decide (k = 0) || !s.reachable a) = false := by simp [happened, near]
  unfold State.afterRead
  simp only [counterRegs, List.mem_cons, List.not_mem_nil, or_false] at ha
  rcases ha with rfl | rfl | rfl | rfl | rfl | rfl | rfl | rfl <;> (dsimp only; rw [guard]; rfl)

/-- A register that is one field of 32 bits reads as its field. -/
theorem reg_eq_fld (s : State) (a : Nat) : s.reg a = BitVec.ofNat 32 (s.fld ⟨a, 0, 32⟩) := by
  unfold State.fld
  rw [BitVec.ofNat_toNat, BitVec.extractLsb'_eq_self, BitVec.setWidth_eq]

/-- A counter that was cleared holds the events of the cycle, up to all ones (R20, R21). -/
theorem reg_bump_cleared (s : State) (a k : Nat) : ((s.setReg a 0).bump ⟨a, 0, 32⟩ k).reg a = BitVec.ofNat 32 (min k (2 ^ 32 - 1)) := by
  have cleared : (s.setReg a 0).fld ⟨a, 0, 32⟩ = 0 := by
    unfold State.fld
    rw [s.reg_setReg_same]
    rfl
  rw [reg_eq_fld, State.fld_bump_same _ ⟨a, 0, 32⟩ k (Nat.le_refl 32), cleared, Nat.zero_add]

/-- What a counter's read leaves: the events of its cycle in the register, and nothing else changed. -/
theorem counter_after_read {a : Nat} (ha : a ∈ counterRegs) (near : s.reachable a = true) (k : Nat) :
    ((s.setReg a 0).afterRead a k).reg a = BitVec.ofNat 32 (min k (2 ^ 32 - 1)) ∧ OnlyRegs s ((s.setReg a 0).afterRead a k) [a] := by
  by_cases quiet : k = 0
  · subst quiet
    have same : (s.setReg a 0).afterRead a 0 = s.setReg a 0 := rfl
    rw [same]
    exact ⟨s.reg_setReg_same a 0, onlyRegs_setReg s a 0⟩
  · rw [afterRead_counter ha ((reachable_setReg 0 a (counterRegs_aligned a ha).2.2.symm).trans near) quiet]
    refine ⟨reg_bump_cleared s a k, rfl, fun b other => ?_⟩
    have apart : b ≠ a := by simpa using other
    rw [State.reg_bump_ne _ _ _ apart, s.reg_setReg_ne 0 apart]

/-! ### Latches and holds (R22) -/

theorem wordAt_cons (b : Nat) (w : Word) (m : List (Nat × Word)) (a : Nat) :
    wordAt ((b, w) :: m) a = if b = a then some w else wordAt m a := rfl

theorem wordAt_tdel_same (m : List (Nat × Word)) (a : Nat) : wordAt (tdel m a) a = none := by
  induction m with
  | nil => rfl
  | cons e m ih =>
    obtain ⟨b, w⟩ := e
    by_cases same : b = a
    · rwa [tdel, if_pos same]
    · rw [tdel, if_neg same, wordAt_cons, if_neg same, ih]

theorem wordAt_tins_same (m : List (Nat × Word)) (a : Nat) (w : Word) (fresh : ∀ e ∈ m, e.1 ≠ a) : wordAt (tins m a w) a = some w := by
  induction m with
  | nil => exact if_pos rfl
  | cons e m ih =>
    obtain ⟨b, u⟩ := e
    have apart : b ≠ a := fresh (b, u) List.mem_cons_self
    by_cases first : a < b
    · rw [tins, if_pos first, wordAt_cons, if_pos rfl]
    · rw [tins, if_neg first, wordAt_cons, if_neg apart, ih (fun x hx => fresh x (List.mem_cons_of_mem _ hx))]

/-- A word put in place of another under its key is the word found there. -/
theorem wordAt_put (m : List (Nat × Word)) (a : Nat) (w : Word) : wordAt (tins (tdel m a) a w) a = some w :=
  wordAt_tins_same _ a w (fun _ he => (mem_tdel he).2)

theorem latches_setLatches (s : State) (p : Path) (m : List (Nat × Word)) : (s.setLatches p m).latches p = m := by cases p <;> rfl

theorem latches_setLatches_ne (s : State) {p q : Path} (other : q ≠ p) (m : List (Nat × Word)) : (s.setLatches p m).latches q = s.latches q := by
  cases p <;> cases q
  case bar0.bar0 | mport.mport => exact absurd rfl other
  all_goals rfl

theorem setLatches_keeps (s : State) (p : Path) (m : List (Nat × Word)) :
    s.setLatches p m = { s with latchB := (s.setLatches p m).latchB, latchM := (s.setLatches p m).latchM } := by cases p <;> rfl

theorem holds_setHolds (s : State) (p : Path) (m : List (Nat × Word)) : (s.setHolds p m).holds p = m := by cases p <;> rfl

theorem holds_setHolds_ne (s : State) {p q : Path} (other : q ≠ p) (m : List (Nat × Word)) : (s.setHolds p m).holds q = s.holds q := by
  cases p <;> cases q
  case bar0.bar0 | mport.mport => exact absurd rfl other
  all_goals rfl

theorem setHolds_keeps (s : State) (p : Path) (m : List (Nat × Word)) :
    s.setHolds p m = { s with holdB := (s.setHolds p m).holdB, holdM := (s.setHolds p m).holdM } := by cases p <;> rfl

/-- A read of a LO register latches the high half for its path. -/
theorem readReg_lo {a : Nat} (lo : isPairLo a = true) {x y : Word} (atLo : s.liveRead a = (x, s)) (atHi : s.liveRead (a + 4) = (y, s)) :
    s.readReg p a = (x, s.setLatches p (tins (tdel (s.latches p) a) a y)) := by
  unfold State.readReg
  rw [if_pos lo, atLo]
  dsimp only
  rw [atHi]

/-- A read of a HI register answers the latch of its path. -/
theorem readReg_hi_latched {a : Nat} (low : 4 ≤ a) (pair : isPairLo (a - 4) = true) (lo : isPairLo a = false) {w : Word}
    (latch : wordAt (s.latches p) (a - 4) = some w) : s.readReg p a = (w, s) := by
  unfold State.readReg
  rw [lo, pair, if_neg (by decide), if_pos (by simpa using low), latch]

/-- A read of a HI register reads live where nothing is latched. -/
theorem readReg_hi_live {a : Nat} (low : 4 ≤ a) (pair : isPairLo (a - 4) = true) (lo : isPairLo a = false)
    (latch : wordAt (s.latches p) (a - 4) = none) : s.readReg p a = s.liveRead a := by
  unfold State.readReg
  rw [lo, pair, if_neg (by decide), if_pos (by simpa using low), latch]

theorem writeReg_lo {a : Nat} (pair : isPairRw a = true) (free : a ≠ R.TEST_TICK_T0_LO) (w : Word) :
    s.writeReg p a w = s.setHolds p (tins (tdel (s.holds p) a) a w) := by
  unfold State.writeReg State.holdLo
  rw [if_pos pair, if_neg (fun h => free h.1)]

/-- Two words packed as low and high half of a 64-bit value unpack again. -/
theorem unpack_halves (x y : Word) : BitVec.ofNat 32 (x.toNat + 2 ^ 32 * y.toNat) = x ∧ BitVec.ofNat 32 ((x.toNat + 2 ^ 32 * y.toNat) / 2 ^ 32) = y := by
  constructor <;> apply BitVec.eq_of_toNat_eq <;> rw [BitVec.toNat_ofNat] <;> omega

theorem writeReg_timeNextHi (s : State) (p : Path) (w : Word) : s.writeReg p R.TEST_TIME_NEXT_HI w =
    (s.setHolds p (tdel (s.holds p) R.TEST_TIME_NEXT_LO)).set64 R.TEST_TIME_NEXT_LO
      (((wordAt (s.holds p) R.TEST_TIME_NEXT_LO).getD (s.reg R.TEST_TIME_NEXT_LO)).toNat + 2 ^ 32 * w.toNat) := rfl

/-! ### MPORT transactions (R526, R527) -/

theorem mportStatus_bad {a : Word} {b : Bool} (bad : b = true ∨ a.toNat % 4 ≠ 0) : s.mportStatus a b = mpBAD := by
  unfold State.mportStatus
  rw [if_pos (by simpa using bad)]

theorem mportStatus_asleep {a : Word} (al : a.toNat % 4 = 0) (far : s.reachable a.toNat = false) : s.mportStatus a false = mpASLEEP := by
  unfold State.mportStatus
  rw [if_neg (by simpa using al), far]
  rfl

theorem mportStatus_ok {a : Word} (al : a.toNat % 4 = 0) (near : s.reachable a.toNat = true) : s.mportStatus a false = mpOK := by
  unfold State.mportStatus
  rw [if_neg (by simpa using al), if_pos near]

theorem exec_mportRead (live : s.alive = true) (a : Word) (b : Bool) :
    exec (.mportRead a b) s = .next ((s.mportReadAccess a b).2.mportEnd (s.mportReadAccess a b).1 (s.mportStatus a b)) := by
  show execMportRead a b s = _
  unfold execMportRead
  rw [live]
  rfl

theorem exec_mportWrite (live : s.alive = true) (a w : Word) (b : Bool) :
    exec (.mportWrite a w b) s = .next ((s.mportWriteAccess a w b).mportEnd 0 (s.mportStatus a b)) := by
  show execMportWrite a w b s = _
  unfold execMportWrite
  rw [live]
  rfl

theorem exec_mport_dead (dead : s.alive = false) (a w : Word) (b : Bool) : exec (.mportRead a b) s = .next s ∧ exec (.mportWrite a w b) s = .next s := by
  show execMportRead a b s = _ ∧ execMportWrite a w b s = _
  unfold execMportRead execMportWrite
  rw [dead]
  exact ⟨rfl, rfl⟩

end Sys2Proof.Machine
end

section
/-! PROOFS.  The commands of a register access, by what the access meets. -/

namespace Sys2Proof.Machine

/-- An access error is counted and raises its alarm (R15). -/
theorem onlyAlarm_accessError (s : State) : OnlyAlarm (s.bump F.HOST_ACCESS_ERR_COUNT 1) s.accessError F.HOST_ALARM_ACCESS_ERR :=
  onlyAlarm _ _ 0 rfl (by decide) (by decide) (by decide)

/-- An access that finds its block asleep is counted (R481). -/
theorem onlyRegs_countAsleep (s : State) : OnlyRegs s s.countAsleep [R.POWER_ASLEEP_ACCESS] := onlyRegs_setReg s _ _

theorem fld_countAsleep (s : State) :
    s.countAsleep.fld F.POWER_ASLEEP_ACCESS_COUNT = min (s.fld F.POWER_ASLEEP_ACCESS_COUNT + 1) (2 ^ F.POWER_ASLEEP_ACCESS_COUNT.w - 1) :=
  s.fld_bump_same _ 1 (by decide)

theorem exec_registerWrite_plain {s : State} {p : Path} {a : Nat} {r : RegRow} (v : Word64) (ha : a ∈ plainRegs) (row : regRow a = some r)
    (path : s.pathOpen p = true) (near : s.reachable a = true) : Answers (.registerWrite p (BitVec.ofNat 25 a) 4 v) s (fun t => OnlyRegs s t [a] ∧
      ∀ i, i < 32 → (t.reg a).getLsbD i = if r.w1c.testBit i && v.getLsbD i then false else if r.rw.testBit i then v.getLsbD i else (s.reg a).getLsbD i) := by
  obtain ⟨small, al⟩ := plainRegs_aligned a ha
  refine ⟨s.store a (v.extractLsb' 0 32), ?_, ?_, fun i hi => ?_⟩
  · rw [exec_registerWrite, writeAccess_four, toNat_ofNat_addr small, writeOne_reached path al near, writeReg_plain ha]
  · rw [store_eq row]
    exact onlyRegs_setReg s a _
  · have low : (v.extractLsb' 0 32).getLsbD i = v.getLsbD i := by simp [hi]
    rw [getLsbD_store row _ hi, low]

theorem exec_counterReadClear_counter {s : State} {p : Path} {a : Nat} (k : Nat) (ha : a ∈ counterRegs) (path : s.pathOpen p = true)
    (near : s.reachable a = true) : Answers (.counterReadClear p (BitVec.ofNat 25 a) k) s (fun t => t.rdata = (s.reg a).setWidth 64 ∧
      t.reg a = BitVec.ofNat 32 (min k (2 ^ 32 - 1)) ∧ (∀ b, b ≠ a → t.reg b = s.reg b) ∧ t = { s with regs := t.regs, rdata := t.rdata }) := by
  obtain ⟨small, al, -⟩ := counterRegs_aligned a ha
  obtain ⟨count, frame, others⟩ := counter_after_read ha near k
  have addr := toNat_ofNat_addr small
  refine ⟨{ (s.setReg a 0).afterRead a k with rdata := (s.reg a).setWidth 64 }, ?_, rfl, count, fun b other => others b (by simpa using other), ?_⟩
  · rw [exec_counterReadClear path (by rw [addr]; exact al) (by rw [addr]; exact near), addr, readReg_counter ha]
  · rw [frame]

theorem exec_readLoLatch_lo {s : State} {p : Path} {a : BitVec 25} {lo hi : Word} (q : Path) (pair : isPairLo a.toNat = true) (al : a.toNat % 4 = 0)
    (path : s.pathOpen p = true) (near : s.reachable a.toNat = true) (atLo : s.liveRead a.toNat = (lo, s)) (atHi : s.liveRead (a.toNat + 4) = (hi, s)) :
    Answers (.readLoLatch p a) s (fun t => t.rdata = lo.setWidth 64 ∧ wordAt (t.latches p) a.toNat = some hi ∧ (q ≠ p → t.latches q = s.latches q) ∧
      t = { s with latchB := t.latchB, latchM := t.latchM, rdata := t.rdata }) := by
  let u := s.setLatches p (tins (tdel (s.latches p) a.toNat) a.toNat hi)
  have same : ∀ r, ({ u with rdata := lo.setWidth 64 } : State).latches r = u.latches r := fun r => by cases r <;> rfl
  refine ⟨{ u with rdata := lo.setWidth 64 }, ?_, rfl, ?_, fun other => ?_, ?_⟩
  · rw [exec_readLoLatch path, readAccess_reached path al near, readReg_lo pair atLo atHi]
  · rw [same, latches_setLatches, wordAt_put]
  · rw [same, latches_setLatches_ne s other]
  · show _ = { s with latchB := u.latchB, latchM := u.latchM, rdata := lo.setWidth 64 }
    rw [show u = { s with latchB := u.latchB, latchM := u.latchM } from setLatches_keeps s p _]

theorem exec_writeLoHold_held {s : State} {p : Path} {a : BitVec 25} (q : Path) (w : Word) (pair : isPairRw a.toNat = true)
    (free : a.toNat ≠ R.TEST_TICK_T0_LO) (al : a.toNat % 4 = 0) (path : s.pathOpen p = true) (near : s.reachable a.toNat = true) :
    Answers (.writeLoHold p a w) s (fun t => wordAt (t.holds p) a.toNat = some w ∧ (q ≠ p → t.holds q = s.holds q) ∧
      t = { s with holdB := t.holdB, holdM := t.holdM }) := by
  refine ⟨s.setHolds p (tins (tdel (s.holds p) a.toNat) a.toNat w), ?_, ?_, fun other => holds_setHolds_ne s other _, setHolds_keeps s p _⟩
  · rw [exec_writeLoHold, writeOne_reached path al near, writeReg_lo pair free]
  · rw [holds_setHolds, wordAt_put]

theorem holds_set64 (s : State) (a v : Nat) (p : Path) : (s.set64 a v).holds p = s.holds p := by cases p <;> rfl

theorem exec_writeHiCommit_timeNext {s : State} {p : Path} (q : Path) (w : Word) (path : s.pathOpen p = true) (near : s.reachable R.TEST_TIME_NEXT_HI = true) :
    Answers (.writeHiCommit p (BitVec.ofNat 25 R.TEST_TIME_NEXT_HI) w) s (fun t => t.reg R.TEST_TIME_NEXT_HI = w ∧
      t.reg R.TEST_TIME_NEXT_LO = (wordAt (s.holds p) R.TEST_TIME_NEXT_LO).getD (s.reg R.TEST_TIME_NEXT_LO) ∧ wordAt (t.holds p) R.TEST_TIME_NEXT_LO = none ∧
      (q ≠ p → t.holds q = s.holds q) ∧ (∀ a, a ∉ [R.TEST_TIME_NEXT_LO, R.TEST_TIME_NEXT_HI] → t.reg a = s.reg a) ∧
      t = { s with regs := t.regs, holdB := t.holdB, holdM := t.holdM }) := by
  let low := (wordAt (s.holds p) R.TEST_TIME_NEXT_LO).getD (s.reg R.TEST_TIME_NEXT_LO)
  let u := s.setHolds p (tdel (s.holds p) R.TEST_TIME_NEXT_LO)
  have keeps : u = { s with holdB := u.holdB, holdM := u.holdM } := setHolds_keeps s p _
  obtain ⟨unpackLo, unpackHi⟩ := unpack_halves low w
  refine ⟨u.set64 R.TEST_TIME_NEXT_LO (low.toNat + 2 ^ 32 * w.toNat), ?_, ?_, ?_, ?_, fun other => ?_, fun a ha => ?_, ?_⟩
  · rw [exec_writeHiCommit, toNat_ofNat_addr (by decide), writeOne_reached path (by decide) near, writeReg_timeNextHi]
  · exact (State.reg_setReg_same _ _ _).trans unpackHi
  · exact (State.reg_setReg_ne _ _ (by decide)).trans ((State.reg_setReg_same _ _ _).trans unpackLo)
  · rw [holds_set64, holds_setHolds, wordAt_tdel_same]
  · rw [holds_set64, holds_setHolds_ne s other]
  · simp only [List.mem_cons, List.not_mem_nil, or_false, not_or] at ha
    rw [State.reg_set64_ne _ _ _ ha.1 ha.2, keeps]
    rfl
  · show _ = { s with regs := _, holdB := u.holdB, holdM := u.holdM }
    rw [keeps]
    rfl

theorem exec_mport_bad {s : State} (live : s.alive = true) (a w : Word) {b : Bool} (bad : b = true ∨ a.toNat % 4 ≠ 0) :
    exec (.mportRead a b) s = .next { s with test := { s.test with mdata := 0, mstatus := mpBAD } } ∧
      exec (.mportWrite a w b) s = .next { s with test := { s.test with mdata := 0, mstatus := mpBAD } } := by
  rw [exec_mportRead live, exec_mportWrite live]
  unfold State.mportReadAccess State.mportWriteAccess
  rw [mportStatus_bad bad, if_pos rfl, if_pos rfl]
  exact ⟨rfl, rfl⟩

theorem exec_mport_asleep {s : State} (live : s.alive = true) {a : Word} (w : Word) (al : a.toNat % 4 = 0) (far : s.reachable a.toNat = false) :
    exec (.mportRead a false) s = .next (s.countAsleep.mportEnd 0 mpASLEEP) ∧ exec (.mportWrite a w false) s = .next (s.countAsleep.mportEnd 0 mpASLEEP) := by
  have path : s.pathOpen .mport = true := pathOpen_mport.trans live
  rw [exec_mportRead live, exec_mportWrite live]
  unfold State.mportReadAccess State.mportWriteAccess
  rw [mportStatus_asleep al far, if_neg (by decide), if_neg (by decide), readAccess_asleep path al far, writeOne_asleep path al far]
  exact ⟨rfl, rfl⟩

theorem exec_mport_ok {s : State} (live : s.alive = true) {a : Word} (w : Word) (al : a.toNat % 4 = 0) (near : s.reachable a.toNat = true) :
    exec (.mportRead a false) s = .next ((s.readReg .mport a.toNat).2.mportEnd (s.readReg .mport a.toNat).1 mpOK) ∧
      exec (.mportWrite a w false) s = .next ((s.writeReg .mport a.toNat w).mportEnd 0 mpOK) := by
  have path : s.pathOpen .mport = true := pathOpen_mport.trans live
  rw [exec_mportRead live, exec_mportWrite live]
  unfold State.mportReadAccess State.mportWriteAccess
  rw [mportStatus_ok al near, if_neg (by decide), if_neg (by decide), readAccess_reached path al near, writeOne_reached path al near]
  exact ⟨rfl, rfl⟩

/-- Settles O49: each clause is the lemma of its kind of access. -/
theorem registerAccessesFollowTheirCodes : Obligations.RegisterAccessesFollowTheirCodes := by
  unfold Obligations.RegisterAccessesFollowTheirCodes
  refine ⟨fun s p a n v w shut => ?closed, fun s a k p dead => exec_counterReadClear_dead dead a k, fun s p a n v path bad => ?badWrite,
    fun s p a k w path odd => ?misaligned, fun s => ⟨onlyAlarm_accessError s, onlyRegs_countAsleep s, fld_countAsleep s⟩,
    fun s p a v w path al far => ?asleep, fun s p a r v ha row path near => exec_registerWrite_plain v ha row path near,
    fun s p a k ha path near => exec_counterReadClear_counter k ha path near,
    fun s p q a lo hi pair al path near atLo atHi => exec_readLoLatch_lo q pair al path near atLo atHi,
    fun s p a w low pair lo al path near => ⟨fun latch => ?latched, fun latch live => ?live⟩,
    fun s p q a w pair free al path near => exec_writeLoHold_held q w pair free al path near,
    fun s p q w path near => exec_writeHiCommit_timeNext q w path near, fun s a w b dead => exec_mport_dead dead a w b,
    fun s a w b live bad => exec_mport_bad live a w bad, fun s a w live al far => exec_mport_asleep live w al far,
    fun s a w live al near => exec_mport_ok live w al near⟩
  case closed =>
    rw [exec_registerWrite, writeAccess_closed shut, exec_readLoLatch_closed shut, exec_writeLoHold, exec_writeHiCommit, writeOne_closed shut]
    exact ⟨rfl, rfl, rfl, rfl⟩
  case badWrite => rw [exec_registerWrite, writeAccess_bad path bad]
  case misaligned =>
    rw [exec_readLoLatch path, readAccess_misaligned path odd, exec_counterReadClear_misaligned path odd, exec_writeLoHold, exec_writeHiCommit,
      writeOne_misaligned path odd]
    exact ⟨rfl, rfl, rfl, rfl⟩
  case asleep =>
    have al4 : a.toNat % 4 = 0 := by omega
    rw [exec_registerWrite, exec_registerWrite, writeAccess_four, writeOne_asleep path al4 far, writeAccess_eight_asleep path al far, exec_writeLoHold,
      writeOne_asleep path al4 far, exec_readLoLatch path, readAccess_asleep path al4 far]
    exact ⟨rfl, rfl, rfl, rfl⟩
  case latched => rw [exec_readLoLatch path, readAccess_reached path al near, readReg_hi_latched low pair lo latch]
  case live => rw [exec_readLoLatch path, readAccess_reached path al near, readReg_hi_live low pair lo latch, live]

end Sys2Proof.Machine
end

section
/-! PROOFS.  RESET_N: what a reset clears and what it keeps (00_scope R19; 15_power_health R547). -/

namespace Sys2Proof.Machine

/-! ### What a reset keeps of a register (R19, R547) -/

theorem mask_same (x m : Word) : (x &&& m) ||| (x &&& ~~~m) = x := by
  apply BitVec.eq_of_getLsbD_eq
  intro i hi
  rw [BitVec.getLsbD_or, BitVec.getLsbD_and, BitVec.getLsbD_and, BitVec.getLsbD_not]
  cases x.getLsbD i <;> cases m.getLsbD i <;> simp [hi]

theorem mask_twice (x y m : Word) : (((x &&& m) ||| (y &&& ~~~m)) &&& m) ||| (y &&& ~~~m) = (x &&& m) ||| (y &&& ~~~m) := by
  apply BitVec.eq_of_getLsbD_eq
  intro i hi
  simp only [BitVec.getLsbD_or, BitVec.getLsbD_and, BitVec.getLsbD_not]
  cases x.getLsbD i <;> cases y.getLsbD i <;> cases m.getLsbD i <;> simp

theorem resetValue_regReset (a : Nat) : resetValue a (regReset a) = regReset a := mask_same _ _

theorem resetValue_twice (a : Nat) (v : Word) : resetValue a (resetValue a v) = resetValue a v := mask_twice _ _ _

/-! ### Tables with every value changed -/

theorem tget_absent {α : Type} (d : Nat → α) (m : List (Nat × α)) (a : Nat) (absent : ∀ e ∈ m, e.1 ≠ a) : tget d m a = d a := by
  induction m with
  | nil => rfl
  | cons e m ih =>
    rw [tget, if_neg (absent e List.mem_cons_self), ih (fun x hx => absent x (List.mem_cons_of_mem _ hx))]

/-- A read of a remapped table, when the change keeps the default: the change of what was read before. -/
theorem tget_remap {α : Type} [DecidableEq α] (d : Nat → α) (f : Nat → α → α) (m : List (Nat × α)) (a : Nat) (wf : tableWf d m = true)
    (keeps : f a (d a) = d a) : tget d (remap d f m) a = f a (tget d m a) := by
  induction m with
  | nil => exact keeps.symm
  | cons e m ih =>
    obtain ⟨k, v⟩ := e
    obtain ⟨-, rising, wf'⟩ := (tableWf_cons d (k, v) m).1 wf
    have tail := ih wf'
    unfold remap at tail ⊢
    rw [List.map_cons, List.filter_cons]
    by_cases here : k = a
    · subst here
      have absent : ∀ x ∈ m, x.1 ≠ k := fun x hx => Nat.ne_of_gt (rising x hx)
      rw [tget_absent d m k absent, keeps] at tail
      by_cases gone : f k v = d k
      · rw [if_neg (by simpa using gone), tail, tget, if_pos rfl, gone]
      · rw [if_pos (by simpa using gone), tget, if_pos rfl, tget, if_pos rfl]
    · rw [tget, if_neg here, ← tail]
      split
      · rw [tget, if_neg here]
      · rfl

/-! ### What the steps of a reset touch -/

/-- `t` differs from `s` in free values and the Seam dies' records alone. -/
def OnlyCells (s t : State) : Prop := t = { s with free := t.free, seam := t.seam }

theorem OnlyCells.refl (s : State) : OnlyCells s s := rfl

theorem OnlyCells.trans {s t u : State} (h1 : OnlyCells s t) (h2 : OnlyCells t u) : OnlyCells s u := by
  unfold OnlyCells at *
  exact h2.trans (by rw [h1])

theorem OnlyCells.foldl {α : Type} (f : State → α → State) (l : List α) (h : ∀ a x, OnlyCells a (f a x)) : ∀ s, OnlyCells s (l.foldl f s) := by
  induction l with
  | nil => exact OnlyCells.refl
  | cons x l ih => exact fun s => (h s x).trans (ih _)

theorem OnlyCells.same {s t : State} (h : OnlyCells s t) : t.regs = s.regs ∧ t.lantern = s.lantern ∧ t.sump = s.sump ∧ t.alarmQ = s.alarmQ ∧
    t.faults = s.faults ∧ t.aseq = s.aseq ∧ t.hostMem = s.hostMem ∧ t.pending = s.pending := by
  unfold OnlyCells at h
  rw [h]
  exact ⟨rfl, rfl, rfl, rfl, rfl, rfl, rfl, rfl⟩

theorem onlyCells_spoilBatch (s : State) (k : Nat) (b : Batch) : OnlyCells s (s.spoilBatch k b) := by
  unfold State.spoilBatch
  refine OnlyCells.foldl _ _ (fun a x => ?_) s
  rfl

/-- `t` differs from `s` in registers at the addresses `l` and in the Seam dies' records alone. -/
def OnlyRegsSeam (s t : State) (l : List Nat) : Prop := t = { s with regs := t.regs, seam := t.seam } ∧ ∀ a, a ∉ l → t.reg a = s.reg a

theorem OnlyRegsSeam.refl (s : State) (l : List Nat) : OnlyRegsSeam s s l := ⟨rfl, fun _ _ => rfl⟩

theorem OnlyRegsSeam.trans {s t u : State} {l : List Nat} (h1 : OnlyRegsSeam s t l) (h2 : OnlyRegsSeam t u l) : OnlyRegsSeam s u l :=
  ⟨h2.1.trans (by rw [h1.1]), fun a ha => (h2.2 a ha).trans (h1.2 a ha)⟩

theorem OnlyRegsSeam.foldl {α : Type} {r : List Nat} (f : State → α → State) (l : List α) (h : ∀ s x, x ∈ l → OnlyRegsSeam s (f s x) r) :
    ∀ s, OnlyRegsSeam s (l.foldl f s) r := by
  induction l with
  | nil => exact fun s => OnlyRegsSeam.refl s r
  | cons x l ih =>
    exact fun s => (h s x List.mem_cons_self).trans (ih (fun s y hy => h s y (List.mem_cons_of_mem _ hy)) _)

/-- The registers that a reset writes after the others have taken their values: the chain's state, its reserved tiles, the queues. -/
def resetShown : List Nat := [R.TUNNEL_STATUS, R.TUNNEL_MIRROR] ++ (List.range 8).map R.SEAM_UPKEEP_STATUS

theorem onlyRegsSeam_setFld (s : State) (f : Fld) (v : Nat) {l : List Nat} (listed : f.addr ∈ l) : OnlyRegsSeam s (s.setFld f v) l :=
  ⟨rfl, fun _ ha => s.reg_setFld_ne f v (fun same => ha (same ▸ listed))⟩

theorem onlyRegsSeam_setState (s : State) (st : Nat) : OnlyRegsSeam s (s.setState st) resetShown :=
  (onlyRegsSeam_setFld s F.TUNNEL_STATUS_STATE st (by decide)).trans (onlyRegsSeam_setFld _ F.TUNNEL_STATUS_READY _ (by decide))

theorem onlyRegsSeam_setQueue (s : State) {k : Nat} (die : k < 8) (q : List RefreshJob) : OnlyRegsSeam s (s.setQueue k q) resetShown := by
  have listed : R.SEAM_UPKEEP_STATUS k ∈ resetShown := by
    unfold resetShown
    exact List.mem_append_right _ (List.mem_map_of_mem (List.mem_range.2 die))
  exact (show OnlyRegsSeam s (s.setDie k { s.die k with refreshQ := q }) resetShown from ⟨rfl, fun _ _ => rfl⟩).trans
    (onlyRegsSeam_setFld _ (F.SEAM_UPKEEP_STATUS_QUEUED k) _ listed)

theorem resetUpdates_none {s : State} (fw : s.lantern.fwJob = none) (lib : s.lantern.libJob = none) : s.resetUpdates = s := by
  unfold State.resetUpdates
  rw [fw]
  dsimp only
  rw [lib]

/-- Everything that a reset discards is gone: messages, HBM, latches, holds, rings, queries and networks (R19). -/
def VolatileGone (t : State) : Prop :=
  t.fabric = [] ∧ t.hbm = [] ∧ t.hbmPages = [] ∧ t.latchB = [] ∧ t.latchM = [] ∧ t.holdB = [] ∧ t.holdM = [] ∧ t.host.rings = [] ∧ t.asm = [] ∧
    t.nets = [] ∧ t.groups = [] ∧ t.sump.active = [] ∧ t.sump.ordQ = []

/-- What a reset leaves alone: the alarm backlog, fault histories, ASEQ, host memory, the waiting commands and the entries (R547). -/
def RecordsKept (s t : State) : Prop :=
  t.alarmQ = s.alarmQ ∧ t.faults = s.faults ∧ t.aseq = s.aseq ∧ t.hostMem = s.hostMem ∧ t.pending = s.pending ∧ t.sump.entries = s.sump.entries

/-- A reset with no update in progress clears the state to `w`, in which every register holds its non-volatile bits; only the registers that show what
was kept are written after that. -/
theorem volatileReset_clears {s : State} (lost : Bool) (fw : s.lantern.fwJob = none) (lib : s.lantern.libJob = none) :
    ∃ w : State, OnlyRegsSeam w (s.volatileReset lost) resetShown ∧ w.regs = remap regReset resetValue s.regs ∧ VolatileGone w ∧ RecordsKept s w := by
  unfold State.volatileReset
  extract_lets s1 _ _ s2 s3 s4
  have cells : OnlyCells s s1 := OnlyCells.foldl _ _ (fun a k => OnlyCells.foldl _ _ (fun x b => onlyCells_spoilBatch x k b) a) s
  clear_value s1
  obtain ⟨regs, kept, sump, alarmQ, faults, aseq, hostMem, pending⟩ := cells.same
  have chain : OnlyRegsSeam s2 s3 resetShown := by
    unfold s3
    split
    · exact onlyRegsSeam_setState s2 _
    · exact OnlyRegsSeam.refl s2 _
  have queues : OnlyRegsSeam s3 s4 resetShown := by
    refine OnlyRegsSeam.foldl _ _ (fun a k hk => ?_) s3
    split
    · exact OnlyRegsSeam.refl a _
    · exact onlyRegsSeam_setQueue a (List.mem_range.1 hk) _
  have shown := (chain.trans queues).trans (onlyRegsSeam_setFld s4 F.TUNNEL_MIRROR_RESERVED s4.tunnel.reserved.length (by decide))
  generalize s4.setFld F.TUNNEL_MIRROR_RESERVED s4.tunnel.reserved.length = u at shown ⊢
  have jobs : u.lantern = s2.lantern := by rw [shown.1]
  have fwNone : u.lantern.fwJob = none := by rw [jobs, ← fw, ← kept]; rfl
  have libNone : u.lantern.libJob = none := by rw [jobs, ← lib, ← kept]; rfl
  rw [resetUpdates_none fwNone libNone]
  refine ⟨s2, shown, ?_⟩
  dsimp only [s2]
  unfold VolatileGone RecordsKept
  rw [regs, sump]
  exact ⟨rfl, ⟨rfl, rfl, rfl, rfl, rfl, rfl, rfl, rfl, rfl, rfl, rfl, rfl, rfl⟩, alarmQ, faults, aseq, hostMem, pending, rfl⟩

theorem volatileReset_gone {s : State} (lost : Bool) (fw : s.lantern.fwJob = none) (lib : s.lantern.libJob = none) :
    VolatileGone (s.volatileReset lost) ∧ RecordsKept s (s.volatileReset lost) := by
  obtain ⟨w, shown, -, gone, kept⟩ := volatileReset_clears lost fw lib
  rw [shown.1]
  exact ⟨gone, kept⟩

/-- A register after a reset: its non-volatile bits stay, the others take their reset values (R19, R547). -/
theorem reg_volatileReset {s : State} (lost : Bool) (fw : s.lantern.fwJob = none) (lib : s.lantern.libJob = none) (wf : Memory.wf s = true)
    {a : Nat} (ha : a ∉ resetShown) : (s.volatileReset lost).reg a = resetValue a (s.reg a) := by
  obtain ⟨w, shown, regs, -⟩ := volatileReset_clears lost fw lib
  obtain ⟨-, -, -, listed, -⟩ := (Memory.wf_iff s).1 wf
  rw [shown.2 a ha, State.reg_eq, regs, tget_remap regReset resetValue s.regs a listed (resetValue_regReset a), State.reg_eq]

theorem exec_resetNAssert_ignored {s : State} (no : s.resettable = false) : exec .resetNAssert s = .next s := by
  show execResetNAssert s = _
  unfold execResetNAssert
  rw [no]
  rfl

/-- RESET_N acts: the volatile reset, with the part held in reset for RESET_N's sake (R547). -/
theorem exec_resetNAssert_acts {s : State} (acts : s.resettable = true) : ∃ lost : Bool, exec .resetNAssert s = .next { s.volatileReset lost with
    power := { (s.volatileReset lost).power with inReset := true, from_ := s.powerLevel, source := 7, hbmLost := lost } } := by
  refine ⟨s.fatal && s.fld F.POWER_FAULT_CAUSE == 2, ?_⟩
  show execResetNAssert s = _
  unfold execResetNAssert
  rw [acts, if_neg (by decide)]

theorem alive_inReset {s : State} (held : s.power.inReset = true) : s.alive = false := by
  unfold State.alive
  rw [held, Bool.or_true, Bool.true_or]
  rfl

/-- RESET_N acts with no update in progress: everything volatile is gone, every register but those shown afterwards keeps its non-volatile bits, and
the records stay (R19, R547). -/
theorem exec_resetNAssert_resets {s : State} (acts : s.resettable = true) (fw : s.lantern.fwJob = none) (lib : s.lantern.libJob = none)
    (wf : Memory.wf s = true) : Answers .resetNAssert s (fun t => t.alive = false ∧ t.power.inReset = true ∧ t.power.source = 7 ∧
      t.power.from_ = s.powerLevel ∧ (∀ a, a ∉ resetShown → t.reg a = resetValue a (s.reg a)) ∧ VolatileGone t ∧ RecordsKept s t ∧
      t.lantern.secret = s.lantern.secret) := by
  obtain ⟨lost, resets⟩ := exec_resetNAssert_acts acts
  obtain ⟨gone, kept⟩ := volatileReset_gone lost fw lib
  have regs : ∀ a, a ∉ resetShown → (s.volatileReset lost).reg a = resetValue a (s.reg a) := fun a ha => reg_volatileReset lost fw lib wf ha
  have secret := secret_State_volatileReset s lost
  generalize s.volatileReset lost = u at resets gone kept regs secret
  exact ⟨_, resets, alive_inReset rfl, rfl, rfl, rfl, regs, gone, kept, secret⟩

end Sys2Proof.Machine
end

section
/-! PROOFS.  The release of RESET_N, the choice of a bank and the boot's end (14_lantern_mailboxes_updates R448, R468, R470). -/

namespace Sys2Proof.Machine

/-! ### The release of RESET_N (R448) -/

theorem exec_resetNRelease_out {s : State} (a b : Bool) (out : s.power.inReset = false) : exec (.resetNRelease a b) s = .next s := by
  show execResetNRelease a b s = _
  unfold execResetNRelease
  rw [out]
  rfl

theorem exec_resetNRelease_waits {s : State} (a b : Bool) (held : s.power.inReset = true) (pins : s.test.pinsHeld = true) :
    exec (.resetNRelease a b) s = .next { s with test := { s.test with waitRelease := some (a, b) } } := by
  show execResetNRelease a b s = _
  unfold execResetNRelease
  rw [held, pins]
  rfl

theorem exec_resetNRelease_acts {s : State} (a b : Bool) (held : s.power.inReset = true) (pins : s.test.pinsHeld = false) :
    exec (.resetNRelease a b) s = .next (s.release a b) := by
  show execResetNRelease a b s = _
  unfold execResetNRelease
  rw [held, pins]
  rfl

theorem updateAlarms_none {s : State} (lost : s.lantern.updateLost = []) (back : s.lantern.rolledBack = []) : s.updateAlarms = s := by
  unfold State.updateAlarms
  rw [lost]
  dsimp only [List.foldl_nil]
  rw [back]
  rfl

/-- The state in which a release begins: out of reset, with no release waiting. -/
def State.outOfReset (s : State) : State := { s with power := { s.power with inReset := false }, test := { s.test with waitRelease := none } }

theorem reg_outOfReset (s : State) (a : Nat) : s.outOfReset.reg a = s.reg a := rfl

theorem lantern_outOfReset (s : State) : s.outOfReset.lantern = s.lantern := rfl

theorem inReset_outOfReset (s : State) : s.outOfReset.power.inReset = false := rfl

/-- The brownout has been reported. -/
def State.brownReported (s : State) : State := { s with power := { s.power with brown := false } }

/-- What the release shows of the power failure warning and of the wake, before the bank is chosen. -/
def State.releaseShown (s : State) (pfw : Bool) : State := (s.setBit F.POWER_STATUS_PFW pfw).lastWake.brownReported

/-- A release from a state other than Off and TRIPPED, with no update to report. -/
theorem release_eq {s : State} (a b : Bool) (notOff : s.power.from_ < 4) (lost : s.lantern.updateLost = []) (back : s.lantern.rolledBack = []) :
    s.release a b = (s.outOfReset.rejectTrial.releaseShown s.power.pfwLow).chooseBank a b 0 := by
  unfold State.release
  dsimp only
  rw [if_neg (by omega)]
  exact congrArg (fun x : State => (x.rejectTrial.releaseShown s.power.pfwLow).chooseBank a b 0) (updateAlarms_none (s := s.outOfReset) lost back)

theorem reg_lastWake (s : State) {a : Nat} (other : a ≠ R.POWER_LAST_WAKE) : s.lastWake.reg a = s.reg a := by
  unfold State.lastWake
  rw [State.reg_setBit_ne _ _ _ other, State.reg_setFld_ne _ _ _ other, State.reg_setFld_ne _ _ _ other, State.reg_setFld_ne _ _ _ other]

theorem fld_of_reg {s t : State} {f : Fld} (same : t.reg f.addr = s.reg f.addr) : t.fld f = s.fld f := by
  unfold State.fld
  rw [same]

theorem bit_of_reg {s t : State} {f : Fld} (same : t.reg f.addr = s.reg f.addr) : t.bit f = s.bit f := by
  unfold State.bit
  rw [fld_of_reg same]

theorem reg_brownReported (s : State) (a : Nat) : s.brownReported.reg a = s.reg a := rfl

theorem lantern_brownReported (s : State) : s.brownReported.lantern = s.lantern := rfl

theorem inReset_brownReported (s : State) : s.brownReported.power.inReset = s.power.inReset := rfl

theorem lantern_lastWake (s : State) : s.lastWake.lantern = s.lantern := by
  unfold State.lastWake
  rw [State.setBit_lantern, State.setFld_lantern, State.setFld_lantern, State.setFld_lantern]

theorem power_lastWake (s : State) : s.lastWake.power = s.power := by
  unfold State.lastWake
  rw [State.setBit_power, State.setFld_power, State.setFld_power, State.setFld_power]

theorem lantern_releaseShown (s : State) (pfw : Bool) : (s.releaseShown pfw).lantern = s.lantern := by
  unfold State.releaseShown
  rw [lantern_brownReported, lantern_lastWake, State.setBit_lantern]

theorem inReset_releaseShown (s : State) (pfw : Bool) : (s.releaseShown pfw).power.inReset = s.power.inReset := by
  unfold State.releaseShown
  rw [inReset_brownReported, power_lastWake, State.setBit_power]

theorem reg_releaseShown (s : State) (pfw : Bool) {a : Nat} (ha : a ∉ [R.POWER_STATUS, R.POWER_LAST_WAKE]) : (s.releaseShown pfw).reg a = s.reg a := by
  simp only [List.mem_cons, List.not_mem_nil, or_false, not_or] at ha
  unfold State.releaseShown
  rw [reg_brownReported, reg_lastWake _ ha.2, s.reg_setBit_ne F.POWER_STATUS_PFW pfw ha.1]

theorem bit_releaseShown (s : State) (pfw : Bool) : (s.releaseShown pfw).bit F.POWER_STATUS_PFW = pfw := by
  have wake : (s.releaseShown pfw).reg R.POWER_STATUS = (s.setBit F.POWER_STATUS_PFW pfw).reg R.POWER_STATUS := by
    unfold State.releaseShown
    rw [reg_brownReported, reg_lastWake _ (by decide)]
  exact (bit_of_reg wake).trans (s.bit_setBit_same F.POWER_STATUS_PFW pfw rfl (by decide))

/-! ### Banks (Table LANTERN-7) -/

theorem bankState_congr {s t : State} (same : t.reg R.LANTERN_BANKS = s.reg R.LANTERN_BANKS) (n : Nat) : t.bankState n = s.bankState n := by
  unfold State.bankState
  split <;> exact fld_of_reg same

theorem bankIn_congr {s t : State} (same : t.reg R.LANTERN_BANKS = s.reg R.LANTERN_BANKS) (st : Nat) : t.bankIn st = s.bankIn st := by
  unfold State.bankIn
  simp only [bankState_congr same]

/-- The checks of a bank read its header, the key store and the lowest SVN alone. -/
theorem bankPasses_congr {s t : State} (hdrs : t.lantern.hdrs = s.lantern.hdrs) (keys : t.lantern.keys = s.lantern.keys)
    (revoked : t.lantern.revoked = s.lantern.revoked) (svn : t.reg R.LANTERN_SVN = s.reg R.LANTERN_SVN) (n : Nat) (sig : Bool) :
    t.bankPasses n sig = s.bankPasses n sig := by
  unfold State.bankPasses State.hdrPasses State.slotFilled State.bankHdr
  rw [hdrs, keys, revoked, fld_of_reg (f := F.LANTERN_SVN_MIN_SVN) svn]

theorem bankIn_some {s : State} {st n : Nat} (found : s.bankIn st = some n) : n = 0 ∨ n = 1 := by
  unfold State.bankIn at found
  simpa using List.mem_of_find?_eq_some found

/-- With one bank REJECTED and the other ACTIVE, that one is the ACTIVE bank and none is in FALLBACK. -/
theorem bankIn_after_rejection {s : State} {n : Nat} (bank : n = 0 ∨ n = 1) (rejected : s.bankState n = fbREJECTED) (active : s.bankState (1 - n) = fbACTIVE) :
    s.bankIn fbACTIVE = some (1 - n) ∧ s.bankIn fbFALLBACK = none := by
  unfold State.bankIn
  rcases bank with rfl | rfl
  · rw [List.find?_cons, rejected, List.find?_cons, active]
    exact ⟨rfl, by rw [List.find?_cons, rejected, List.find?_cons, active]; rfl⟩
  · rw [List.find?_cons, active]
    exact ⟨rfl, by rw [List.find?_cons, active, List.find?_cons, rejected]; rfl⟩

theorem bankState_setBank_same (s : State) (n : Nat) {st : Nat} (small : st < 8) : (s.setBank n st).bankState n = st := by
  unfold State.setBank State.bankState
  split <;> exact (s.fld_setFld_same _ st (by decide)).trans (Nat.mod_eq_of_lt small)

theorem bankState_setBank_other (s : State) {n : Nat} (bank : n = 0 ∨ n = 1) (st : Nat) : (s.setBank (1 - n) st).bankState n = s.bankState n := by
  rcases bank with rfl | rfl
  · exact s.fld_setFld_other F.LANTERN_BANKS_B F.LANTERN_BANKS_A st (by decide)
  · exact s.fld_setFld_other F.LANTERN_BANKS_A F.LANTERN_BANKS_B st (by decide)

theorem reg_setBank (s : State) (n st : Nat) {a : Nat} (other : a ≠ R.LANTERN_BANKS) : (s.setBank n st).reg a = s.reg a := by
  unfold State.setBank
  split <;> exact s.reg_setFld_ne _ st other

theorem rejectTrial_none {s : State} (noTrial : s.bankIn fbTRIAL = none) : s.rejectTrial = s := by
  unfold State.rejectTrial
  rw [noTrial]

/-- Bank `n` REJECTED and the other ACTIVE, with the alarm of R470. -/
def State.trialRejected (s : State) (n : Nat) : State :=
  ((s.setBank n fbREJECTED).setBank (1 - n) fbACTIVE).alarm F.LANTERN_ALARM_FW_ROLLBACK n

/-- The rollback of the firmware stands to be reported at the next start. -/
def State.rollbackNoted (s : State) : State := { s with lantern := { s.lantern with rolledBack := s.lantern.rolledBack ++ [0] } }

theorem reg_rollbackNoted (s : State) (a : Nat) : s.rollbackNoted.reg a = s.reg a := rfl

theorem power_rollbackNoted (s : State) : s.rollbackNoted.power = s.power := rfl

theorem lantern_rollbackNoted (s : State) : s.rollbackNoted.lantern = { s.lantern with rolledBack := s.lantern.rolledBack ++ [0] } := rfl

/-- At boot a bank in TRIAL is rejected (R470). -/
theorem rejectTrial_some {s : State} {n : Nat} (trial : s.bankIn fbTRIAL = some n) : s.rejectTrial = (s.trialRejected n).rollbackNoted := by
  unfold State.rejectTrial
  rw [trial]
  rfl

theorem svn_trialRejected (s : State) (n : Nat) : (s.trialRejected n).reg R.LANTERN_SVN = s.reg R.LANTERN_SVN := by
  unfold State.trialRejected
  rw [State.reg_alarm _ _ _ _ (by decide) (by decide) (by decide), reg_setBank _ _ _ (by decide), reg_setBank _ _ _ (by decide)]

theorem trialRejected_keeps (s : State) (n : Nat) : (s.trialRejected n).power = s.power ∧ (s.trialRejected n).lantern = s.lantern := by
  unfold State.trialRejected State.setBank
  rw [State.alarm_keeps]
  simp only [State.setFld_power, State.setFld_lantern, and_self]

theorem bankState_rollbackAlarm (s : State) (u n : Nat) : (s.alarm F.LANTERN_ALARM_FW_ROLLBACK u).bankState n = s.bankState n :=
  bankState_congr (s.reg_alarm _ u R.LANTERN_BANKS (by decide) (by decide) (by decide)) n

theorem bankState_trialRejected (s : State) {n : Nat} (bank : n = 0 ∨ n = 1) :
    (s.trialRejected n).bankState n = fbREJECTED ∧ (s.trialRejected n).bankState (1 - n) = fbACTIVE := by
  unfold State.trialRejected
  rw [bankState_rollbackAlarm, bankState_rollbackAlarm, bankState_setBank_other _ bank, bankState_setBank_same _ n (by decide), bankState_setBank_same _ (1 - n) (by decide)]
  exact ⟨rfl, rfl⟩

theorem bit_trialRejected (s : State) (n : Nat) : (s.trialRejected n).bit F.LANTERN_ALARM_FW_ROLLBACK = true :=
  State.bit_alarm _ _ n rfl (by decide) (by decide) (by decide)

/-! ### The choice of a bank (R448) -/

theorem chooseBank_active {s : State} {n : Nat} (a b : Bool) (cause : Nat) (active : s.bankIn fbACTIVE = some n)
    (pass : s.bankPasses n (if n = 0 then a else b) = true) :
    s.chooseBank a b cause = { s with lantern := { s.lantern with boot := some { bank := n, cause := cause } } } := by
  unfold State.chooseBank
  simp only [active, Option.filter_some, pass, if_true]

theorem chooseBank_recovery {s : State} {n : Nat} (a b : Bool) (cause : Nat) (active : s.bankIn fbACTIVE = some n)
    (fail : s.bankPasses n (if n = 0 then a else b) = false) (fallback : s.bankIn fbFALLBACK = none) : s.chooseBank a b cause = s.enterRecovery := by
  unfold State.chooseBank
  simp only [active, fallback, Option.filter_some, fail, Option.filter_none, Bool.false_eq_true, if_false]

theorem reg_enterRecovery (s : State) {a : Nat} (status : a ≠ R.LANTERN_STATUS) (run : a ≠ R.LANTERN_FW_RUN) : s.enterRecovery.reg a = s.reg a := by
  unfold State.enterRecovery
  rw [State.reg_setFld_ne _ _ _ run, State.reg_setBit_ne _ _ _ status, State.reg_setBit_ne _ _ _ status, State.reg_setBit_ne _ _ _ status,
    State.reg_setBit_ne _ _ _ status]
  rfl

theorem power_enterRecovery (s : State) : s.enterRecovery.power = s.power := by
  unfold State.enterRecovery
  simp only [State.setFld_power, State.setBit_power]

/-! ### What a release leads to -/

/-- The bank that is ACTIVE passes its checks: it boots, and nothing else but the wake's report changes (R448). -/
theorem exec_resetNRelease_boots {s : State} {n : Nat} (a b : Bool) (held : s.power.inReset = true) (pins : s.test.pinsHeld = false) (notOff : s.power.from_ < 4)
    (lost : s.lantern.updateLost = []) (back : s.lantern.rolledBack = []) (trial : s.bankIn fbTRIAL = none) (active : s.bankIn fbACTIVE = some n)
    (pass : s.bankPasses n (if n = 0 then a else b) = true) : Answers (.resetNRelease a b) s (fun t => t.power.inReset = false ∧
      t.lantern.boot = some { bank := n } ∧ t.bit F.POWER_STATUS_PFW = s.power.pfwLow ∧ ∀ r, r ∉ [R.POWER_STATUS, R.POWER_LAST_WAKE] → t.reg r = s.reg r) := by
  have before : s.outOfReset.reg R.LANTERN_BANKS = s.reg R.LANTERN_BANKS := reg_outOfReset s _
  have release : exec (.resetNRelease a b) s = .next ((s.outOfReset.releaseShown s.power.pfwLow).chooseBank a b 0) := by
    rw [exec_resetNRelease_acts a b held pins, release_eq a b notOff lost back, rejectTrial_none ((bankIn_congr before _).trans trial)]
  obtain ⟨u, shown⟩ : ∃ u, u = s.outOfReset.releaseShown s.power.pfwLow := ⟨_, rfl⟩
  have regs : ∀ r, r ∉ [R.POWER_STATUS, R.POWER_LAST_WAKE] → u.reg r = s.reg r := fun r hr => by
    rw [shown, reg_releaseShown _ _ hr, reg_outOfReset]
  have lantern : u.lantern = s.lantern := by rw [shown, lantern_releaseShown, lantern_outOfReset]
  have out : u.power.inReset = false := by rw [shown, inReset_releaseShown, inReset_outOfReset]
  have pfw : u.bit F.POWER_STATUS_PFW = s.power.pfwLow := by rw [shown, bit_releaseShown]
  have active' : u.bankIn fbACTIVE = some n := (bankIn_congr (regs _ (by decide)) _).trans active
  have pass' : u.bankPasses n (if n = 0 then a else b) = true := by
    rw [bankPasses_congr (by rw [lantern]) (by rw [lantern]) (by rw [lantern]) (regs _ (by decide)), pass]
  refine ⟨{ u with lantern := { u.lantern with boot := some { bank := n } } }, ?_, out, rfl, pfw, regs⟩
  rw [release, ← shown, chooseBank_active a b 0 active' pass']

/-- A release with a bank in TRIAL: the bank is rejected, and the other boots if it passes (R448, R470). -/
theorem exec_resetNRelease_rejects {s : State} {n : Nat} (a b : Bool) (held : s.power.inReset = true) (pins : s.test.pinsHeld = false)
    (notOff : s.power.from_ < 4) (lost : s.lantern.updateLost = []) (back : s.lantern.rolledBack = []) (trial : s.bankIn fbTRIAL = some n) :
    Answers (.resetNRelease a b) s (fun t => t.power.inReset = false ∧ t.bankState n = fbREJECTED ∧ t.bit F.LANTERN_ALARM_FW_ROLLBACK = true ∧
      (s.bankPasses (1 - n) (if n = 0 then b else a) = true → t.lantern.boot = some { bank := 1 - n } ∧ t.bankState (1 - n) = fbACTIVE)) := by
  have bank := bankIn_some trial
  have trial' : s.outOfReset.bankIn fbTRIAL = some n := (bankIn_congr (reg_outOfReset s _) _).trans trial
  obtain ⟨v, reject⟩ : ∃ v, v = s.outOfReset.trialRejected n := ⟨_, rfl⟩
  obtain ⟨u, shown⟩ : ∃ u, u = v.rollbackNoted.releaseShown s.power.pfwLow := ⟨_, rfl⟩
  have regs : ∀ r, r ∉ [R.POWER_STATUS, R.POWER_LAST_WAKE] → u.reg r = v.reg r := fun r hr => by rw [shown, reg_releaseShown _ _ hr, reg_rollbackNoted]
  have states := bankState_trialRejected s.outOfReset bank
  obtain ⟨power, lantern⟩ := trialRejected_keeps s.outOfReset n
  rw [← reject] at states power lantern
  have rejected : u.bankState n = fbREJECTED := (bankState_congr (regs _ (by decide)) n).trans states.1
  have active : u.bankState (1 - n) = fbACTIVE := (bankState_congr (regs _ (by decide)) (1 - n)).trans states.2
  have alarm : u.bit F.LANTERN_ALARM_FW_ROLLBACK = true := by rw [bit_of_reg (regs _ (by decide)), reject, bit_trialRejected]
  have out : u.power.inReset = false := by rw [shown, inReset_releaseShown, power_rollbackNoted, power, inReset_outOfReset]
  have noted : u.lantern = { s.lantern with rolledBack := s.lantern.rolledBack ++ [0] } := by
    rw [shown, lantern_releaseShown, lantern_rollbackNoted, lantern, lantern_outOfReset]
  have svn : u.reg R.LANTERN_SVN = s.reg R.LANTERN_SVN := by rw [regs _ (by decide), reject, svn_trialRejected, reg_outOfReset]
  have passes : ∀ sig, u.bankPasses (1 - n) sig = s.bankPasses (1 - n) sig :=
    bankPasses_congr (by rw [noted]) (by rw [noted]) (by rw [noted]) svn (1 - n)
  obtain ⟨boots, noFallback⟩ := bankIn_after_rejection bank rejected active
  have release : exec (.resetNRelease a b) s = .next (u.chooseBank a b 0) := by
    rw [exec_resetNRelease_acts a b held pins, release_eq a b notOff lost back, rejectTrial_some trial', ← reject, ← shown]
  have sig : (if 1 - n = 0 then a else b) = if n = 0 then b else a := by rcases bank with rfl | rfl <;> rfl
  by_cases pass : s.bankPasses (1 - n) (if n = 0 then b else a) = true
  · refine ⟨{ u with lantern := { u.lantern with boot := some { bank := 1 - n } } }, ?_, out, rejected, alarm, fun _ => ⟨rfl, active⟩⟩
    rw [release, chooseBank_active a b 0 boots (by rw [sig, passes, pass])]
  · refine ⟨u.enterRecovery, ?_, ?_, ?_, ?_, fun yes => absurd yes pass⟩
    · rw [release, chooseBank_recovery a b 0 boots (by rw [sig, passes]; simpa using pass) noFallback]
    · rw [power_enterRecovery, out]
    · rw [bankState_congr (reg_enterRecovery u (by decide) (by decide)), rejected]
    · rw [bit_of_reg (reg_enterRecovery u (by decide) (by decide)), alarm]

/-! ### The boot's end and the areas it places (R448) -/

theorem exec_bootDone_ignored {s : State} (c : Bool) (no : s.lantern.boot = none ∨ s.alive = false) : exec (.bootDone c) s = .next s := by
  show execBootDone c s = _
  unfold execBootDone
  cases boot : s.lantern.boot with
  | none => rfl
  | some b =>
    have dead : s.alive = false := no.resolve_left (by rw [boot]; simp)
    rw [dead]
    rfl

theorem exec_bootDone_switch {s : State} {b : Boot} (c : Bool) (boot : s.lantern.boot = some b) (switch : b.switch = true) :
    exec (.bootDone c) s = .next s := by
  show execBootDone c s = _
  unfold execBootDone
  rw [boot]
  dsimp only
  rw [switch, Bool.or_true, if_pos rfl]

theorem exec_bootDone_starts {s : State} {b : Boot} (c : Bool) (boot : s.lantern.boot = some b) (live : s.alive = true) (switch : b.switch = false) :
    exec (.bootDone c) s = .next ((s.alarmIf (!c) F.LANTERN_ALARM_RECORD_ERR 0).placeAreas.startBank b) := by
  show execBootDone c s = _
  unfold execBootDone
  rw [boot]
  dsimp only
  rw [live, switch, if_neg (by decide)]

theorem onlyRegs_placeAreas (s : State) : OnlyRegs s { s.placeAreas with free := s.free } [R.SUMP_MIRROR_BASE, R.CHISEL_BG_BASE] := by
  refine ⟨rfl, fun a ha => ?_⟩
  simp only [List.mem_cons, List.not_mem_nil, or_false, not_or] at ha
  exact (State.reg_setReg_ne _ _ ha.2).trans (State.reg_setReg_ne _ _ ha.1)

end Sys2Proof.Machine
end

section
/-! PROOFS.  The host link (13_host_rings R414, R416, R431), and the statement of reset, boot and link. -/

namespace Sys2Proof.Machine

/-! ### The host link (R414, R431) -/

theorem exec_link_dead {s : State} (dead : s.alive = false) :
    exec .pcieLinkDown s = .next s ∧ exec .pciePerst s = .next { s with host := { s.host with perst := true } } := by
  show execPcieLinkDown s = _ ∧ execPciePerst s = _
  unfold execPcieLinkDown execPciePerst
  dsimp only
  rw [dead]
  exact ⟨rfl, rfl⟩

theorem exec_pcieLinkDown {s : State} (live : s.alive = true) : exec .pcieLinkDown s = .next s.linkLost := by
  show execPcieLinkDown s = _
  unfold execPcieLinkDown
  rw [live]
  rfl

theorem foldl_fixed_of_mem {α β : Type} {f : α → β → α} {a : α} {l : List β} (fixed : ∀ x ∈ l, f a x = a) : l.foldl f a = a := by
  induction l with
  | nil => rfl
  | cons x l ih => rw [List.foldl_cons, fixed x List.mem_cons_self, ih (fun y hy => fixed y (List.mem_cons_of_mem _ hy))]

/-- The link's status with the link up or down, at a speed and width. -/
def State.showLink (s : State) (up : Bool) (speed width : Nat) : State :=
  ((s.setBit F.HOST_STATUS_LINK_READY up).setFld F.HOST_STATUS_SPEED speed).setFld F.HOST_STATUS_WIDTH width

theorem onlyRegs_showLink (s : State) (up : Bool) (speed width : Nat) : OnlyRegs s (s.showLink up speed width) [R.HOST_STATUS] := by
  refine ⟨rfl, fun a ha => ?_⟩
  have other : a ≠ R.HOST_STATUS := by simpa using ha
  exact (State.reg_setFld_ne _ _ _ other).trans ((State.reg_setFld_ne _ _ _ other).trans (State.reg_setBit_ne _ _ _ other))

theorem linkUp_showLink (s : State) (up : Bool) (speed width : Nat) : (s.showLink up speed width).linkUp = up := by
  unfold State.linkUp State.showLink
  rw [State.bit_setFld_other _ _ _ _ (by decide), State.bit_setFld_other _ _ _ _ (by decide), State.bit_setBit_same _ _ _ rfl (by decide)]

theorem speed_showLink (s : State) (up : Bool) (speed width : Nat) : (s.showLink up speed width).fld F.HOST_STATUS_SPEED = speed % 2 ^ 4 := by
  unfold State.showLink
  rw [State.fld_setFld_other _ _ _ _ (by decide), State.fld_setFld_same _ _ _ (by decide)]

theorem width_showLink (s : State) (up : Bool) (speed width : Nat) : (s.showLink up speed width).fld F.HOST_STATUS_WIDTH = width % 2 ^ 5 :=
  State.fld_setFld_same _ _ _ (by decide)

/-- With every ring DISABLED the loss of the link clears its status and nothing else. -/
theorem linkLost_idle {s : State} (idle : ∀ r, r < 64 → s.ringState r = ringDISABLED) : s.linkLost = s.showLink false 0 0 := by
  refine foldl_fixed_of_mem (fun r hr => if_pos ?_)
  have other : R.HOST_RING_STATUS r ∉ [R.HOST_STATUS] := by
    rw [List.mem_singleton]
    show 0x101010 + 0x40 * r ≠ 0x100000
    omega
  rw [← idle r (List.mem_range.1 hr)]
  exact fld_of_reg ((onlyRegs_showLink s false 0 0).2 _ other)

theorem tget_filter {α : Type} (d : Nat → α) (gone : Nat → Bool) (m : List (Nat × α)) (a : Nat) :
    tget d (m.filter (fun e => !gone e.1)) a = if gone a then d a else tget d m a := by
  induction m with
  | nil => simp [tget]
  | cons e m ih =>
    obtain ⟨k, v⟩ := e
    rw [List.filter_cons]
    by_cases here : k = a
    · subst here
      cases out : gone k <;> simp_all [tget]
    · cases gone k <;> simp [tget, here, ih]

theorem exec_pciePerst {s : State} (live : s.alive = true) : ∃ u : State, u = ({ s with host := { s.host with perst := true } } : State).linkLost ∧
    Answers .pciePerst s (fun t => t = { u with regs := t.regs } ∧ ∀ a, (isMsix a = true → t.reg a = regReset a) ∧ (isMsix a = false → t.reg a = u.reg a)) := by
  obtain ⟨u, lost⟩ : ∃ u, u = ({ s with host := { s.host with perst := true } } : State).linkLost := ⟨_, rfl⟩
  refine ⟨u, lost, { u with regs := u.regs.filter (fun e => !isMsix e.1) }, ?_, rfl, fun a => ?_⟩
  · show execPciePerst s = _
    unfold execPciePerst
    dsimp only
    rw [live, if_neg (by decide), lost]
  · rw [State.reg_eq, State.reg_eq, tget_filter]
    exact ⟨fun msix => if_pos msix, fun other => if_neg (by simpa using other)⟩

theorem exec_pcieLinkUp_ignored {s : State} (v : BitVec 4) (w : BitVec 5) (no : s.alive = false ∨ s.linkUp = true) :
    exec (.pcieLinkUp v w) s = .next s := by
  show execPcieLinkUp v w s = _
  unfold execPcieLinkUp
  rw [if_pos (by simpa using no)]

theorem exec_pcieLinkUp {s : State} (v : BitVec 4) (w : BitVec 5) (live : s.alive = true) (down : s.linkUp = false) :
    Answers (.pcieLinkUp v w) s (fun t => t = { s with regs := t.regs, host := { s.host with perst := false } } ∧ (∀ a, a ≠ R.HOST_STATUS → t.reg a = s.reg a) ∧
      t.linkUp = true ∧ t.fld F.HOST_STATUS_SPEED = v.toNat ∧ t.fld F.HOST_STATUS_WIDTH = w.toNat) := by
  let u := s.showLink true v.toNat w.toNat
  refine ⟨{ u with host := { u.host with perst := false } }, ?_, rfl, fun a other => (onlyRegs_showLink s true _ _).2 a (by simpa using other),
    linkUp_showLink s true _ _, (speed_showLink s true _ _).trans (Nat.mod_eq_of_lt v.isLt), (width_showLink s true _ _).trans (Nat.mod_eq_of_lt w.isLt)⟩
  show execPcieLinkUp v w s = _
  unfold execPcieLinkUp
  rw [live, down, if_neg (by decide)]
  rfl

/-- Settles O46: the reset, its release, the boot's end and the host link, each by the lemmas of its command. -/
theorem resetBootAndTheHostLinkAct : Obligations.ResetBootAndTheHostLinkAct := by
  unfold Obligations.ResetBootAndTheHostLinkAct
  refine ⟨fun s no => exec_resetNAssert_ignored no, fun a v => ⟨resetValue_regReset a, resetValue_twice a v⟩, fun s acts fw lib wf => ?reset,
    fun s a b out => exec_resetNRelease_out a b out, fun s a b held pins => exec_resetNRelease_waits a b held pins,
    fun s a b n held pins notOff lost back trial active pass => exec_resetNRelease_boots a b held pins notOff lost back trial active pass,
    fun s a b n held pins notOff lost back trial => exec_resetNRelease_rejects a b held pins notOff lost back trial,
    fun s c no => exec_bootDone_ignored c no,
    fun s b boot live switch => ⟨exec_bootDone_starts true boot live switch, exec_bootDone_starts false boot live switch⟩,
    fun s b c boot switch => exec_bootDone_switch c boot switch, onlyRegs_placeAreas, fun s dead => exec_link_dead dead,
    fun s live => ⟨exec_pcieLinkDown live, fun idle => ?idle⟩, fun s live => exec_pciePerst live, fun s v w no => exec_pcieLinkUp_ignored v w no,
    fun s v w live down => exec_pcieLinkUp v w live down⟩
  case reset =>
    obtain ⟨t, resets, dead, held, source, from_, regs, gone, kept, secret⟩ := exec_resetNAssert_resets acts fw lib wf
    obtain ⟨fabric, hbm, hbmPages, latchB, latchM, holdB, holdM, rings, asm, nets, groups, active, ordQ⟩ := gone
    obtain ⟨alarmQ, faults, aseq, hostMem, pending, entries⟩ := kept
    exact ⟨t, resets, dead, held, source, from_, regs, fabric, hbm, hbmPages, latchB, latchM, holdB, holdM, rings, asm, nets, groups, active, ordQ,
      alarmQ, faults, aseq, hostMem, pending, entries, secret⟩
  case idle =>
    rw [linkLost_idle idle]
    exact ⟨onlyRegs_showLink s false 0 0, linkUp_showLink s false 0 0⟩

end Sys2Proof.Machine
end

section
/-! PROOFS.  The sliver instructions and the planes of thin (02_hypervector_algebra R60, R68, R70, R73, R74; 05_flint_instructions Table FLINT-5). -/

namespace Sys2Proof.Machine

/-! ### Thin (R73) -/

theorem getLsbD_thinTally (t : List (Nat × Int)) (th : Nat) {i : Nat} (dim : i < 256) :
    (thinTally t th).1.getLsbD i = decide ((th : Int) < (tallyGet t i).natAbs) ∧ (thinTally t th).2.getLsbD i = decide (tallyGet t i < -(th : Int)) :=
  ⟨sliverOf_getLsbD _ i dim, sliverOf_getLsbD _ i dim⟩

/-- Settles O58: both planes are comparisons of the counter with θ. -/
theorem thinZeroesOneMagnitudeEachStep : Obligations.ThinZeroesOneMagnitudeEachStep := by
  unfold Obligations.ThinZeroesOneMagnitudeEachStep
  intro t i dim
  refine ⟨?zero, fun th => ?step⟩
  case zero =>
    obtain ⟨mag, sign⟩ := getLsbD_thinTally t 0 dim
    rw [mag, sign]
    exact ⟨decide_eq_decide.2 (by omega), decide_eq_decide.2 (by omega)⟩
  case step =>
    obtain ⟨mag, sign⟩ := getLsbD_thinTally t th dim
    obtain ⟨magNext, signNext⟩ := getLsbD_thinTally t (th + 1) dim
    rw [mag, sign, magNext, signNext, ← Bool.decide_and, ← Bool.decide_and, decide_eq_true_iff, decide_eq_true_iff]
    exact ⟨decide_eq_decide.2 (by omega), decide_eq_decide.2 (by omega), by omega⟩

/-! ### Words and rotations of a sliver -/

theorem getLsbD_wordMask (n : Nat) {j : Nat} (bit : j < 256) :
    ((0xFFFFFFFF#256) <<< (32 * n)).getLsbD j = decide (32 * n ≤ j ∧ j < 32 * n + 32) := by
  rw [BitVec.getLsbD_shiftLeft, show (0xFFFFFFFF#256) = BitVec.ofNat 256 (2 ^ 32 - 1) from rfl, BitVec.getLsbD_ofNat, Nat.testBit_two_pow_sub_one]
  by_cases low : j < 32 * n
  · simp [low]
  · have inside : j - 32 * n < 256 := by omega
    have bound : j - 32 * n < 32 ↔ 32 * n ≤ j ∧ j < 32 * n + 32 := by omega
    simp only [bit, low, inside, bound, decide_true, decide_false, Bool.not_false, Bool.true_and]

theorem getLsbD_insWord (a : Sliver) (n : Nat) (w : Word) {j : Nat} (bit : j < 256) :
    (insWord a n w).getLsbD j = if 32 * n ≤ j ∧ j < 32 * n + 32 then w.getLsbD (j - 32 * n) else a.getLsbD j := by
  have word : ((w.setWidth 256) <<< (32 * n)).getLsbD j = (decide (32 * n ≤ j) && w.getLsbD (j - 32 * n)) := by
    have inside : j - 32 * n < 256 := by omega
    simp only [BitVec.getLsbD_shiftLeft, BitVec.getLsbD_setWidth, bit, inside, decide_true, Bool.true_and, ← decide_not, Nat.not_lt]
  unfold insWord
  rw [BitVec.getLsbD_or, BitVec.getLsbD_and, BitVec.getLsbD_not, getLsbD_wordMask n bit, word]
  by_cases inWord : 32 * n ≤ j ∧ j < 32 * n + 32
  · simp [inWord]
  · rw [if_neg inWord, decide_eq_false inWord]
    by_cases below : 32 * n ≤ j
    · rw [BitVec.getLsbD_of_ge w _ (by omega)]
      simp [bit]
    · simp [bit, below]

/-- A word of a sliver reads what was inserted there, the other words as before. -/
theorem extract_insWord (a : Sliver) {n m : Nat} (w : Word) (hm : m < 8) :
    (insWord a n w).extractLsb' (32 * m) 32 = if m = n then w else a.extractLsb' (32 * m) 32 := by
  apply BitVec.eq_of_getLsbD_eq
  intro i hi
  rw [BitVec.getLsbD_extractLsb', getLsbD_insWord a n w (by omega)]
  by_cases same : m = n
  · subst same
    rw [if_pos (by omega), if_pos rfl]
    simp [hi]
  · rw [if_neg (by omega), if_neg same, BitVec.getLsbD_extractLsb']

theorem getLsbD_rotateLeft_mod (a : Sliver) (n : Nat) {j : Nat} (bit : j < 256) :
    (a.rotateLeft (n % 256)).getLsbD j = a.getLsbD ((j + 256 - n % 256) % 256) := by
  rw [BitVec.getLsbD_rotateLeft, Nat.mod_mod]
  by_cases low : j < n % 256
  · rw [decide_eq_true low, cond_true]
    congr 1
    omega
  · rw [decide_eq_false low, cond_false, decide_eq_true bit, Bool.true_and]
    congr 1
    omega

/-! ### Instructions by the core they leave -/

section

variable {mk : Issue → Instr} {reads late : List Nat} {cycles n : Nat} {f : CoreSt → CoreSt}

/-- An instruction whose act is one update of the core completes. -/
theorem completesOn_of_core (run : ∀ i s, exec (mk i) s = .next (s.issue i reads (fun k => .done { core := f k, cycles := cycles, haz := late, hazWait := n })))
    (pc : ∀ k, (f k).pc = k.pc) : CompletesOn mk reads cycles f late n :=
  completes_of_act _ run (fun _ _ k _ => ⟨_, rfl, rfl, rfl, rfl, congrArg (· + 4) (pc k), rfl, rfl, rfl⟩)

variable {odd : Bool} {ok bad : CoreSt → Prop}
  (run : ∀ i s, exec (mk i) s = .next (s.issue i reads (fun k => if odd = true then .exc excILLEGAL 0 else .done { core := f k, cycles := cycles })))

include run

/-- An instruction that takes only even pair registers completes where they are even. -/
theorem completes_of_even (pc : ∀ k, (f k).pc = k.pc) (even : ∀ k, ok k → odd = false) :
    Completes mk reads ok cycles f (fun k => k.pc + 4) [] 0 := by
  refine completes_of_act _ run (fun _ _ k h => ⟨{ core := f k, cycles := cycles }, ?_, rfl, rfl, rfl, congrArg (· + 4) (pc k), rfl, rfl, rfl⟩)
  exact if_neg (by rw [even k h]; decide)

/-- An instruction that takes only even pair registers is illegal with an odd one (R164). -/
theorem traps_of_odd (isOdd : ∀ k, bad k → odd = true) : Traps mk bad excILLEGAL (fun _ => 0) :=
  traps_of_act _ run (fun _ _ k h => if_pos (isOdd k h))

end

/-- Settles O7: each instruction is one update of its core; the last clauses read the inserted word and the rotation bit by bit. -/
theorem sliverLogicWritesItsRegister : Obligations.SliverLogicWritesItsRegister := by
  unfold Obligations.SliverLogicWritesItsRegister
  refine ⟨?vmov, ?vnot, ?vand, ?vor, ?vxor, ?vandn, ?vrot, ?vperm, ?vext, ?vins,
    fun a n m w _ hm => extract_insWord a w hm, fun a n j bit => getLsbD_rotateLeft_mod a n bit⟩
  case vrot =>
    intro vd va vb sx
    refine completesOn_of_core (fun i s => ?_) (fun k => k.setV_pc vd _)
    show execVrot i vd va vb sx s = _
    simp only [execVrot, rotSliver, Nat.mod_mod]
  case vext => exact fun vd va vb sx n => completesOn_of_core (fun _ _ => rfl) (fun k => k.setS_pc sx _)
  case vins => exact fun vd va vb sx n => completesOn_of_core (fun _ _ => rfl) (fun k => k.setV_pc vd _)
  all_goals exact fun vd va vb sx => completesOn_of_core (fun _ _ => rfl) (fun k => k.setV_pc vd _)

/-! ### Ternary slivers (R60, R68, R74) -/

theorem satS32_eq (x : Int) : satS32 x = max (-2147483648) (min 2147483647 x) := clampInt_eq (by decide)

/-- A B1 sliver taken as T2 has every dimension nonzero, so a bind with it keeps the pair's M plane (Table HDV-3). -/
theorem t2Bind_b1 (a : Sliver) (p : Sliver × Sliver) : t2Bind (~~~0#256, a) p = (p.1, (a ^^^ p.2) &&& p.1) := by
  unfold t2Bind
  have all : ~~~0#256 &&& p.1 = p.1 := by rw [BitVec.not_zero, BitVec.allOnes_and]
  simp only [all]

theorem CoreSt.readT2_readT2 (k : CoreSt) (p q : Sliver × Sliver) :
    (k.readT2 p).readT2 q = { k with t2 := k.t2 || (~~~p.1 &&& p.2) != 0 || (~~~q.1 &&& q.2) != 0 } := rfl

theorem exec_vtbind (vd va vb : VReg) (sx : SReg) (i : Issue) (s : State) : exec (.vtbind i vd va vb sx) s =
    .next (s.issue i (hazPair va ++ hazPair vb) (fun k => if (VReg.odd_ vd || VReg.odd_ va || VReg.odd_ vb) = true then .exc excILLEGAL 0 else
      .done {
        core := (((k.readT2 (k.pair va)).readT2 (k.pair vb)).setV vd (k.v va &&& k.v vb)).setV (vd + 1)
          ((k.v (va + 1) ^^^ k.v (vb + 1)) &&& (k.v va &&& k.v vb))
        cycles := 2 })) := rfl

theorem exec_vbtbind (vd va vb : VReg) (sx : SReg) (i : Issue) (s : State) : exec (.vbtbind i vd va vb sx) s =
    .next (s.issue i (hazV va ++ hazPair vb) (fun k => if (VReg.odd_ vd || VReg.odd_ vb) = true then .exc excILLEGAL 0 else
      .done { core := ((k.readT2 (k.pair vb)).setV vd (k.v vb)).setV (vd + 1) ((k.v va ^^^ k.v (vb + 1)) &&& k.v vb), cycles := 2 })) := by
  show execVbtbind i vd va vb sx s = _
  simp only [execVbtbind, t2Bind_b1]
  rfl

theorem exec_vdott2 (vd va vb : VReg) (sx : SReg) (i : Issue) (s : State) : exec (.vdott2 i vd va vb sx) s =
    .next (s.issue i (hazPair va ++ hazPair vb) (fun k => if (VReg.odd_ va || VReg.odd_ vb) = true then .exc excILLEGAL 0 else
      .done {
        core := ((k.readT2 (k.pair va)).readT2 (k.pair vb)).setS sx
          (BitVec.ofInt 32 ((popc (k.v va &&& k.v vb) : Int) - 2 * popc ((k.v (va + 1) ^^^ k.v (vb + 1)) &&& (k.v va &&& k.v vb))))
        cycles := 2 })) := rfl

/-- Settles O8: the counts are one update of their core, and the ternary instructions stand behind the check of their pair registers. -/
theorem ternaryAndCountingSliverInstructions : Obligations.TernaryAndCountingSliverInstructions := by
  unfold Obligations.TernaryAndCountingSliverInstructions
  refine ⟨?vpop, ?vpopand, ?vpopxor, ?vdot8, fun vd va vb sx => ?vtbind, fun vd va vb sx => ?vtbindOdd, fun vd va vb sx => ?vbtbind,
    fun vd va vb sx => ?vbtbindOdd, fun vd va vb sx => ?vdott2, fun vd va vb sx => ?vdott2Odd⟩
  case vdot8 =>
    intro vd va vb sx
    refine completesOn_of_core (fun i s => ?_) (fun k => k.setS_pc sx _)
    show execVdot8 i vd va vb sx s = _
    simp only [execVdot8, satS32_eq]
    rfl
  case vtbind => exact completes_of_even (exec_vtbind vd va vb sx) (fun _ => rfl) (fun _ ⟨d, a, b⟩ => by simp only [VReg.odd_, d, a, b, Bool.or_self])
  case vtbindOdd => exact traps_of_odd (exec_vtbind vd va vb sx) (fun _ h => by simpa only [VReg.odd_, Bool.or_eq_true, or_assoc] using h)
  case vbtbind => exact completes_of_even (exec_vbtbind vd va vb sx) (fun _ => rfl) (fun _ ⟨d, b⟩ => by simp only [VReg.odd_, d, b, Bool.or_self])
  case vbtbindOdd => exact traps_of_odd (exec_vbtbind vd va vb sx) (fun _ h => by simpa only [VReg.odd_, Bool.or_eq_true] using h)
  case vdott2 => exact completes_of_even (exec_vdott2 vd va vb sx) (fun k => CoreSt.setS_pc _ sx _) (fun _ ⟨a, b⟩ => by simp only [VReg.odd_, a, b, Bool.or_self])
  case vdott2Odd => exact traps_of_odd (exec_vdott2 vd va vb sx) (fun _ h => by simpa only [VReg.odd_, Bool.or_eq_true] using h)
  all_goals exact fun vd va vb sx => completesOn_of_core (fun _ _ => rfl) (fun k => k.setS_pc sx _)

end Sys2Proof.Machine
end

section
/-! PROOFS.  The tick counter and the timestamp's inputs (02_hypervector_algebra R78; 16_pins_package_test R524, R525). -/

namespace Sys2Proof.Machine

/-! ### Ticks as spans of timestamps (R78) -/

theorem tickPeriod_bounds (s : State) : 5000 ≤ s.tickPeriod ∧ s.tickPeriod ≤ 100000 := by
  unfold State.tickPeriod
  omega

theorem tickStart_le_iff (s : State) {ts : Nat} (t : Nat) (from0 : s.t0 ≤ ts) : s.tickStart t ≤ ts ↔ t ≤ s.tickOf ts := by
  have positive : 0 < s.tickPeriod := Nat.lt_of_lt_of_le (by decide) (tickPeriod_bounds s).1
  unfold State.tickStart State.tickOf
  rw [Nat.le_div_iff_mul_le positive]
  omega

/-- A timestamp from T0 on lies in the span of its tick, and of no other. -/
theorem tickOf_eq_iff (s : State) {ts : Nat} (t : Nat) (from0 : s.t0 ≤ ts) : s.tickOf ts = t ↔ s.tickStart t ≤ ts ∧ ts < s.tickStart (t + 1) := by
  rw [← Nat.not_le, tickStart_le_iff s t from0, tickStart_le_iff s (t + 1) from0]
  omega

/-! ### START (R525) -/

theorem exec_tickStart_refused {s : State} (reached : Reached s 9) (given : s.ticking = true ∨ s.test.start.isSome = true) :
    Answers .tickStart s (fun t => OnlyAlarm s t F.TEST_ALARM_TICK_REFUSED) := by
  refine ⟨s.alarm F.TEST_ALARM_TICK_REFUSED 0, ?_, onlyAlarm s _ 0 rfl (by decide) (by decide) (by decide)⟩
  show execTickStart s = _
  unfold execTickStart
  rw [gate_reached s reached, if_pos (by simpa using given)]

theorem exec_tickStart {s : State} (reached : Reached s 9) (stopped : s.ticking = false) (free : s.test.start = none) :
    exec .tickStart s = .next { s with test := { s.test with start := some s.tickSetup } } := by
  show execTickStart s = _
  unfold execTickStart
  rw [gate_reached s reached, stopped, free, if_neg (by decide)]

/-- The start set up is tick 0 at T0, or the first tick to begin after the present timestamp. -/
theorem tickSetup_spec (s : State) : s.tickSetup.1 = s.tickStart s.tickSetup.2 ∧ (s.now ≤ s.t0 → s.tickSetup.2 = 0) ∧
    (s.t0 < s.now → s.now < s.tickSetup.1 ∧ ∀ j, j < s.tickSetup.2 → s.tickStart j ≤ s.now) := by
  unfold State.tickSetup
  by_cases early : s.now ≤ s.t0
  · rw [if_pos early]
    refine ⟨?_, fun _ => rfl, fun late => absurd early (Nat.not_le.2 late)⟩
    unfold State.tickStart
    omega
  · have from0 : s.t0 ≤ s.now := by omega
    rw [if_neg early]
    refine ⟨rfl, fun h => absurd h early, fun _ => ⟨((tickOf_eq_iff s _ from0).1 rfl).2, fun j before => ?_⟩⟩
    exact (tickStart_le_iff s j from0).2 (Nat.le_of_lt_succ before)

/-! ### Time passing up to a boundary (R524) -/

theorem get64_of_reg {s t : State} {a : Nat} (lo : t.reg a = s.reg a) (hi : t.reg (a + 4) = s.reg (a + 4)) : t.get64 a = s.get64 a := by
  unfold State.get64
  rw [lo, hi]

theorem now_setFld (s : State) (f : Fld) (v : Nat) (lo : R.TEST_TIME_NOW_LO ≠ f.addr) (hi : R.TEST_TIME_NOW_HI ≠ f.addr) : (s.setFld f v).now = s.now :=
  get64_of_reg (s.reg_setFld_ne f v lo) (s.reg_setFld_ne f v hi)

theorem now_bump64_uptime (s : State) (n : Nat) : (s.bump64 R.POWER_UPTIME_LO n).now = s.now :=
  get64_of_reg (s.reg_bump64_ne _ n (by decide) (by decide)) (s.reg_bump64_ne _ n (by decide) (by decide))

theorem slewGain_zero (sub n : Nat) : slewGain 0 sub n = 0 := by
  unfold slewGain
  rw [if_pos (Int.le_refl 0)]
  exact Int.min_eq_left (Int.natCast_nonneg _)

/-- With no slew in progress the timestamp counts the units that pass. -/
theorem now_elapse {s : State} (live : s.alive = true) (still : s.test.slew = 0) (n : Nat) : (s.elapse n).now = (s.now + n) % 2 ^ 64 := by
  have count : ∀ (a : State) (test : TestSt), ({ a.set64 R.TEST_TIME_NOW_LO (s.now + n) with test := test } : State).now = (s.now + n) % 2 ^ 64 :=
    fun a _ => a.get64_set64_same _ _
  have units : ((n : Int) + 0).toNat = n := by omega
  unfold State.elapse
  simp only [live, still, slewGain_zero, units, Bool.not_true, Bool.false_eq_true, if_false]
  split <;> split <;> simp only [now_setFld _ F.LANTERN_STATUS_HEARTBEAT _ (by decide) (by decide), now_bump64_uptime, count]

theorem creep_reached {s : State} {target : Nat} (reached : target ≤ s.now) (n : Nat) : s.creep target n = s := by
  cases n with
  | zero => rfl
  | succ n => exact if_pos reached

/-- With no slew in progress the timestamp moves exactly to the target, and stays where it has passed it. -/
theorem now_reachTime {s : State} {target : Nat} (live : s.alive = true) (still : s.test.slew = 0) (small : target < 2 ^ 64) :
    (s.reachTime target).now = max s.now target := by
  have span : (((target - s.now : Nat) : Int) - max 0 0).toNat = target - s.now := by omega
  unfold State.reachTime
  simp only [still, slewGain_zero, span]
  by_cases passed : target ≤ s.now
  · rw [if_pos (by omega), creep_reached passed, Nat.max_eq_left passed]
  · have arrives : (s.elapse (target - s.now)).now = target := by
      rw [now_elapse live still]
      omega
    rw [if_neg (by omega), creep_reached (by omega), arrives]
    omega

/-! ### The boundary (R78) -/

/-- As `foldl_keeps`, over a list of any type. -/
theorem foldl_same {α β γ : Type} (p : α → γ) (f : α → β → α) (keeps : ∀ a x, p (f a x) = p a) (l : List β) (a : α) : p (l.foldl f a) = p a := by
  rw [← List.foldl_hom p (g₂ := fun c _ => c) (fun x y => (keeps x y).symm), List.foldl_fixed]

/-- What the statements read of a state after a boundary: its registers and the test block. -/
def State.shown (s : State) : List (Nat × Word) × TestSt := (s.regs, s.test)

theorem shown_takeSynShadow (s : State) : s.takeSynShadow.shown = s.shown := by
  unfold State.takeSynShadow
  dsimp only
  exact (apply_ite State.shown _ _ _).trans (ite_self _)

/-- The registers after a boundary show its tick, and no start stands set up. -/
theorem shown_boundaryPass (s : State) (t : Nat) :
    (s.boundaryPass t).shown = (((s.set64 R.TEST_TICK_NOW_LO t).setBit F.TEST_TIME_STATUS_TICKS_STARTED true).regs, { s.test with start := none }) := by
  unfold State.boundaryPass
  dsimp only
  rw [shown_takeSynShadow, foldl_same State.shown, foldl_same State.shown]
  · rfl
  · exact fun _ _ => rfl
  · exact fun _ _ => rfl

theorem reg_boundaryPass (s : State) (t a : Nat) :
    (s.boundaryPass t).reg a = ((s.set64 R.TEST_TICK_NOW_LO t).setBit F.TEST_TIME_STATUS_TICKS_STARTED true).reg a :=
  State.reg_congr _ (congrArg Prod.fst (shown_boundaryPass s t)) a

theorem now_boundaryPass (s : State) (t : Nat) : (s.boundaryPass t).now = s.now := by
  have other : ∀ a, a ∈ [R.TEST_TIME_NOW_LO, R.TEST_TIME_NOW_HI] → (s.boundaryPass t).reg a = s.reg a := by
    intro a ha
    have apart : a ≠ R.TEST_TIME_STATUS ∧ a ≠ R.TEST_TICK_NOW_LO ∧ a ≠ R.TEST_TICK_NOW_HI := by
      revert a
      decide
    rw [reg_boundaryPass, State.reg_setBit_ne _ _ _ apart.1, State.reg_set64_ne _ _ _ apart.2.1 apart.2.2]
  exact get64_of_reg (other _ (by decide)) (other _ (by decide))

theorem tick_boundaryPass (s : State) {t : Nat} (small : t < 2 ^ 64) : (s.boundaryPass t).tick = t := by
  have shows : (s.boundaryPass t).tick = (s.set64 R.TEST_TICK_NOW_LO t).get64 R.TEST_TICK_NOW_LO :=
    get64_of_reg ((reg_boundaryPass s t _).trans (State.reg_setBit_ne _ _ _ (by decide))) ((reg_boundaryPass s t _).trans (State.reg_setBit_ne _ _ _ (by decide)))
  rw [shows, State.get64_set64_same, Nat.mod_eq_of_lt small]

theorem ticking_boundaryPass (s : State) (t : Nat) : (s.boundaryPass t).ticking = true :=
  (bit_of_reg (reg_boundaryPass s t _)).trans (State.bit_setBit_same _ _ true rfl (by decide))

theorem exec_tickBoundary_ignored {s : State} (no : s.alive = false ∨ (s.ticking = false ∧ s.test.start = none)) : exec .tickBoundary s = .next s := by
  show execTickBoundary s = _
  unfold execTickBoundary
  rcases no with dead | ⟨stopped, free⟩
  · rw [dead]
    cases s.tickAhead <;> rfl
  · have nothing : s.tickAhead = none := by
      unfold State.tickAhead
      rw [stopped, free]
      rfl
    rw [nothing]

theorem exec_tickBoundary {s : State} {ts m : Nat} (live : s.alive = true) (ahead : s.tickAhead = some (ts, m)) :
    exec .tickBoundary s = .next ((s.reachTime ts).boundaryPass m) := by
  show execTickBoundary s = _
  unfold execTickBoundary
  rw [ahead, live]
  rfl

/-- The boundary ahead is that of the next tick, or of the start set up. -/
theorem tickAhead_eq_some {s : State} {ts m : Nat} (ahead : (s.ticking = true ∧ ts = s.tickStart (s.tick + 1) ∧ m = s.tick + 1) ∨
    (s.ticking = false ∧ s.test.start = some (ts, m))) : s.tickAhead = some (ts, m) := by
  unfold State.tickAhead
  rcases ahead with ⟨running, rfl, rfl⟩ | ⟨stopped, start⟩
  · rw [if_pos running]
  · rw [stopped, start]
    rfl

/-! ### PPS edges (R524) -/

theorem secondOffset_spec (t : Nat) : (secondOffset t).natAbs ≤ 50000000 ∧ ((t : Int) - secondOffset t) % 100000000 = 0 := by
  unfold secondOffset second
  dsimp only
  split <;> omega

/-- The registers after a PPS edge: its offset, its count and the lock it shows. -/
def State.ppsShown (s : State) (off : Int) : State :=
  ((s.setReg R.TEST_TIME_OFFSET (BitVec.ofInt 32 off)).setFld F.TEST_TIME_STATUS_PPS_COUNT (s.fld F.TEST_TIME_STATUS_PPS_COUNT + 1)).setBit
    F.TEST_TIME_STATUS_PPS_LOCK (decide (off.natAbs ≤ 2))

theorem regs_notePps (s : State) (off : Int) : (s.notePps off).regs = (s.ppsShown off).regs := rfl

theorem reg_notePps (s : State) (off : Int) (a : Nat) : (s.notePps off).reg a = (s.ppsShown off).reg a := State.reg_congr _ (regs_notePps s off) a

theorem reg_notePps_ne (s : State) (off : Int) {a : Nat} (status : a ≠ R.TEST_TIME_STATUS) (offset : a ≠ R.TEST_TIME_OFFSET) :
    (s.notePps off).reg a = s.reg a := by
  rw [reg_notePps]
  unfold State.ppsShown
  rw [State.reg_setBit_ne _ _ _ status, State.reg_setFld_ne _ _ _ status, State.reg_setReg_ne _ _ offset]

theorem offset_notePps (s : State) (off : Int) : (s.notePps off).reg R.TEST_TIME_OFFSET = BitVec.ofInt 32 off := by
  rw [reg_notePps]
  unfold State.ppsShown
  rw [State.reg_setBit_ne _ _ _ (by decide), State.reg_setFld_ne _ _ _ (by decide), State.reg_setReg_same]

theorem lock_notePps (s : State) (off : Int) : (s.notePps off).bit F.TEST_TIME_STATUS_PPS_LOCK = decide (off.natAbs ≤ 2) := by
  rw [bit_of_reg (reg_notePps s off _)]
  exact State.bit_setBit_same _ _ _ rfl (by decide)

theorem count_notePps (s : State) (off : Int) : (s.notePps off).fld F.TEST_TIME_STATUS_PPS_COUNT =
    (s.fld F.TEST_TIME_STATUS_PPS_COUNT + 1) % 2 ^ F.TEST_TIME_STATUS_PPS_COUNT.w := by
  rw [fld_of_reg (reg_notePps s off _)]
  unfold State.ppsShown
  rw [State.fld_setBit_other _ _ _ _ (.inr (.inl (by decide))), State.fld_setFld_same _ _ _ (by decide)]

theorem now_notePps (s : State) (off : Int) : (s.notePps off).now = s.now :=
  get64_of_reg (reg_notePps_ne s off (by decide) (by decide)) (reg_notePps_ne s off (by decide) (by decide))

theorem test_notePps (s : State) (off : Int) : (s.notePps off).test = { s.test with ppsAt := s.now } := by
  have edge : (s.notePps off).test = { s.test with ppsAt := (s.ppsShown off).now } := rfl
  have same : (s.ppsShown off).now = (s.notePps off).now := get64_of_reg (reg_notePps s off _).symm (reg_notePps s off _).symm
  rw [edge, same, now_notePps]

theorem exec_pps_ignored {s : State} (no : s.alive = false ∨ s.bit F.TEST_TIME_CTRL_PPS_EN = false) :
    exec .timePpsEdge s = .next s ∧ exec .ppsLost s = .next s := by
  have edge : (!s.alive || !s.bit F.TEST_TIME_CTRL_PPS_EN) = true := by simpa using no
  show execTimePpsEdge s = _ ∧ execPpsLost s = _
  unfold execTimePpsEdge execPpsLost
  rw [edge]
  exact ⟨rfl, rfl⟩

/-- The state a PPS edge sets the timestamp in, before it is counted. -/
def State.ppsSet (s : State) : State :=
  (s.set64 R.TEST_TIME_NOW_LO (s.get64 R.TEST_TIME_NEXT_LO)).set64 R.TEST_TIME_NEXT_LO (s.get64 R.TEST_TIME_NEXT_LO + second)

theorem now_ppsSet (s : State) : s.ppsSet.now = s.get64 R.TEST_TIME_NEXT_LO := by
  have shows : s.ppsSet.now = (s.set64 R.TEST_TIME_NOW_LO (s.get64 R.TEST_TIME_NEXT_LO)).get64 R.TEST_TIME_NOW_LO :=
    get64_of_reg (State.reg_set64_ne _ _ _ (by decide) (by decide)) (State.reg_set64_ne _ _ _ (by decide) (by decide))
  rw [shows, State.get64_set64_same, Nat.mod_eq_of_lt (s.get64_lt _)]

theorem next_ppsSet (s : State) : s.ppsSet.get64 R.TEST_TIME_NEXT_LO = (s.get64 R.TEST_TIME_NEXT_LO + 100000000) % 2 ^ 64 :=
  State.get64_set64_same _ _ _

theorem fld_ppsSet (s : State) (f : Fld) (status : f.addr = R.TEST_TIME_STATUS) : s.ppsSet.fld f = s.fld f := by
  refine fld_of_reg ?_
  rw [status]
  exact (State.reg_set64_ne _ _ _ (by decide) (by decide)).trans (State.reg_set64_ne _ _ _ (by decide) (by decide))

theorem test_ppsSet (s : State) : s.ppsSet.test = s.test := by
  unfold State.ppsSet
  rw [State.set64_test, State.set64_test]

theorem start_none_eq {s : State} (free : s.test.start = none) : ({ s with test := { s.test with start := none } } : State) = s := by
  rw [← free]

theorem exec_timePpsEdge_sets {s : State} (live : s.alive = true) (on : s.bit F.TEST_TIME_CTRL_PPS_EN = true) (stopped : s.ticking = false)
    (free : s.test.start = none) : exec .timePpsEdge s = .next (s.ppsSet.notePps (secondOffset (s.get64 R.TEST_TIME_NEXT_LO))) := by
  have start : s.ppsSet.test.start = none := by rw [test_ppsSet, free]
  show execTimePpsEdge s = _
  unfold execTimePpsEdge
  rw [live, on, stopped, if_neg (by decide), if_pos (by decide)]
  dsimp only
  rw [← State.ppsSet, start, start_none_eq start]

theorem exec_timePpsEdge_before {s : State} (live : s.alive = true) (on : s.bit F.TEST_TIME_CTRL_PPS_EN = true) (stopped : s.ticking = false)
    (free : s.test.start = none) : Answers .timePpsEdge s (fun t => t.now = s.get64 R.TEST_TIME_NEXT_LO ∧
      t.get64 R.TEST_TIME_NEXT_LO = (s.get64 R.TEST_TIME_NEXT_LO + 100000000) % 2 ^ 64 ∧ t.test = { s.test with ppsAt := t.now } ∧
      t.bit F.TEST_TIME_STATUS_PPS_LOCK = decide ((secondOffset t.now).natAbs ≤ 2) ∧
      t.fld F.TEST_TIME_STATUS_PPS_COUNT = (s.fld F.TEST_TIME_STATUS_PPS_COUNT + 1) % 2 ^ F.TEST_TIME_STATUS_PPS_COUNT.w) := by
  have now := (now_notePps s.ppsSet (secondOffset (s.get64 R.TEST_TIME_NEXT_LO))).trans (now_ppsSet s)
  refine ⟨_, exec_timePpsEdge_sets live on stopped free, now, ?_, ?_, ?_, ?_⟩
  · exact (get64_of_reg (reg_notePps_ne _ _ (by decide) (by decide)) (reg_notePps_ne _ _ (by decide) (by decide))).trans (next_ppsSet s)
  · rw [test_notePps, now_notePps, test_ppsSet]
  · rw [lock_notePps, now]
  · rw [count_notePps, fld_ppsSet s _ rfl]

/-- The state in which a PPS edge after the start has set up its slew. -/
def State.ppsSlewed (s : State) : State := { s.notePps (secondOffset s.now) with
  test := { (s.notePps (secondOffset s.now)).test with slew := if (secondOffset s.now).natAbs ≤ 2 then 0 else -(secondOffset s.now), slewSub := 0 } }

theorem regs_ppsSlewed (s : State) : s.ppsSlewed.regs = (s.notePps (secondOffset s.now)).regs := rfl

theorem alarmQ_ppsSlewed (s : State) : s.ppsSlewed.alarmQ = s.alarmQ := rfl

theorem test_ppsSlewed (s : State) : s.ppsSlewed.test =
    { s.test with ppsAt := s.now, slew := if (secondOffset s.now).natAbs ≤ 2 then 0 else -(secondOffset s.now), slewSub := 0 } := by
  unfold State.ppsSlewed
  rw [test_notePps]

theorem exec_timePpsEdge_slews {s : State} (live : s.alive = true) (on : s.bit F.TEST_TIME_CTRL_PPS_EN = true) (running : s.ticking = true) :
    exec .timePpsEdge s = .next (s.ppsSlewed.alarmIf (decide (100000 < (secondOffset s.now).natAbs)) F.TEST_ALARM_PPS_JUMP 0) := by
  show execTimePpsEdge s = _
  unfold execTimePpsEdge
  rw [live, on, running, if_neg (by decide), if_neg (by decide)]
  rfl

/-- An alarm that may be raised leaves every register but an alarm's own alone. -/
theorem reg_alarmIf (s : State) (b : Bool) (f : Fld) (u : Nat) {a : Nat} (own : a ≠ f.addr) (summary : a ≠ R.POWER_SUMMARY) (lost : a ∉ lostRegs) :
    (s.alarmIf b f u).reg a = s.reg a := by
  cases b with
  | false => rfl
  | true => exact s.reg_alarm f u a own summary lost

theorem test_alarmIf (s : State) (b : Bool) (f : Fld) (u : Nat) : (s.alarmIf b f u).test = s.test := by
  cases b with
  | false => rfl
  | true =>
    show (s.alarm f u).test = s.test
    rw [State.alarm_keeps]

theorem exec_timePpsEdge_after {s : State} (live : s.alive = true) (on : s.bit F.TEST_TIME_CTRL_PPS_EN = true) (running : s.ticking = true) :
    Answers .timePpsEdge s (fun t => t.now = s.now ∧
      t.test = { s.test with ppsAt := s.now, slew := if (secondOffset s.now).natAbs ≤ 2 then 0 else -(secondOffset s.now), slewSub := 0 } ∧
      t.bit F.TEST_TIME_STATUS_PPS_LOCK = decide ((secondOffset s.now).natAbs ≤ 2) ∧ t.reg R.TEST_TIME_OFFSET = BitVec.ofInt 32 (secondOffset s.now) ∧
      (100000 < (secondOffset s.now).natAbs → t.bit F.TEST_ALARM_PPS_JUMP = true) ∧
      ((secondOffset s.now).natAbs ≤ 100000 → t.alarmQ = s.alarmQ ∧ t.bit F.TEST_ALARM_PPS_JUMP = s.bit F.TEST_ALARM_PPS_JUMP)) := by
  have other : ∀ a, a ∈ [R.TEST_TIME_NOW_LO, R.TEST_TIME_NOW_HI, R.TEST_TIME_STATUS, R.TEST_TIME_OFFSET] →
      (s.ppsSlewed.alarmIf (decide (100000 < (secondOffset s.now).natAbs)) F.TEST_ALARM_PPS_JUMP 0).reg a = (s.notePps (secondOffset s.now)).reg a := by
    intro a ha
    have apart : a ≠ R.TEST_ALARM ∧ a ≠ R.POWER_SUMMARY ∧ a ∉ lostRegs := by
      revert a
      decide
    exact (reg_alarmIf s.ppsSlewed _ _ _ apart.1 apart.2.1 apart.2.2).trans (State.reg_congr _ (regs_ppsSlewed s) a)
  refine ⟨_, exec_timePpsEdge_slews live on running, ?_, ?_, ?_, ?_, fun jump => ?_, fun small => ?_⟩
  · exact (get64_of_reg (other _ (by decide)) (other _ (by decide))).trans (now_notePps s _)
  · rw [test_alarmIf, test_ppsSlewed]
  · exact (bit_of_reg (other _ (by decide))).trans (lock_notePps s _)
  · exact (other _ (by decide)).trans (offset_notePps s _)
  · rw [decide_eq_true jump]
    exact State.bit_alarm _ _ _ rfl (by decide) (by decide) (by decide)
  · rw [decide_eq_false (Nat.not_lt.2 small)]
    exact ⟨alarmQ_ppsSlewed s, bit_of_reg ((State.reg_congr _ (regs_ppsSlewed s) _).trans (reg_notePps_ne s _ (by decide) (by decide)))⟩

theorem exec_ppsLost_early {s : State} (early : s.now < s.test.ppsAt + 150000000) : exec .ppsLost s = .next s := by
  show execPpsLost s = _
  unfold execPpsLost
  rw [if_pos (by simp [early])]

theorem exec_ppsLost {s : State} (live : s.alive = true) (on : s.bit F.TEST_TIME_CTRL_PPS_EN = true) (late : s.test.ppsAt + 150000000 ≤ s.now) :
    Answers .ppsLost s (fun t => OnlyAlarm s t F.TEST_ALARM_PPS_LOST) := by
  refine ⟨s.alarm F.TEST_ALARM_PPS_LOST 0, ?_, onlyAlarm s _ 0 rfl (by decide) (by decide) (by decide)⟩
  show execPpsLost s = _
  unfold execPpsLost
  rw [if_neg (by simp [live, on, late])]

/-! ### The 10 MHz input (R524) -/

theorem exec_ref10m_ignored {s : State} (no : s.alive = false ∨ s.bit F.TEST_TIME_CTRL_REF10M_EN = false) :
    exec .ref10mLost s = .next s ∧ exec .ref10mReturn s = .next s := by
  show execRef10mLost s = _ ∧ execRef10mReturn s = _
  unfold execRef10mLost execRef10mReturn
  rw [if_pos (by simpa using no), if_pos (by simpa using no)]
  exact ⟨rfl, rfl⟩

theorem exec_ref10mLost {s : State} (live : s.alive = true) (on : s.bit F.TEST_TIME_CTRL_REF10M_EN = true) : Answers .ref10mLost s (fun t =>
    OnlyAlarm (s.setBit F.TEST_TIME_STATUS_ON_10M false) t F.TEST_ALARM_REF10M_LOST ∧ t.bit F.TEST_TIME_STATUS_ON_10M = false) := by
  let u := s.setBit F.TEST_TIME_STATUS_ON_10M false
  refine ⟨u.alarm F.TEST_ALARM_REF10M_LOST 0, ?_, onlyAlarm u _ 0 rfl (by decide) (by decide) (by decide), ?_⟩
  · show execRef10mLost s = _
    unfold execRef10mLost
    rw [live, on]
    rfl
  · exact (bit_of_reg (u.reg_alarm _ 0 _ (by decide) (by decide) (by decide))).trans (s.bit_setBit_same _ false rfl (by decide))

theorem exec_ref10mReturn {s : State} (live : s.alive = true) (on : s.bit F.TEST_TIME_CTRL_REF10M_EN = true) :
    Answers .ref10mReturn s (fun t => OnlyRegs s t [R.TEST_TIME_STATUS] ∧ t.bit F.TEST_TIME_STATUS_ON_10M = true) := by
  refine ⟨s.setBit F.TEST_TIME_STATUS_ON_10M true, ?_, onlyRegs_setReg s _ _, s.bit_setBit_same _ true rfl (by decide)⟩
  show execRef10mReturn s = _
  unfold execRef10mReturn
  rw [live, on]
  rfl

/-- Settles O47: the spans of the ticks, and one lemma for each command and state it meets. -/
theorem ticksAndTimestampsFollowTheirInputs : Obligations.TicksAndTimestampsFollowTheirInputs := by
  unfold Obligations.TicksAndTimestampsFollowTheirInputs
  refine ⟨fun s => ⟨(tickPeriod_bounds s).1, (tickPeriod_bounds s).2, fun ts t from0 => tickOf_eq_iff s t from0⟩,
    fun s reached given => exec_tickStart_refused reached given,
    fun s reached stopped free => ⟨_, _, exec_tickStart reached stopped free, tickSetup_spec s⟩,
    fun s no => exec_tickBoundary_ignored no, fun s ts m live ahead smallTick smallTime => ?boundary, secondOffset_spec,
    fun s no => exec_pps_ignored no, fun s live on stopped free => exec_timePpsEdge_before live on stopped free,
    fun s live on running => exec_timePpsEdge_after live on running, fun s no => exec_ref10m_ignored no,
    fun s live on => ⟨exec_ref10mLost live on, exec_ref10mReturn live on⟩, fun s early => exec_ppsLost_early early,
    fun s live on late => exec_ppsLost live on late⟩
  case boundary =>
    refine ⟨_, exec_tickBoundary live (tickAhead_eq_some ahead), tick_boundaryPass _ smallTick, ticking_boundaryPass _ _, ?_, fun still => ?_⟩
    · exact congrArg (fun p => p.2.start) (shown_boundaryPass _ m)
    · rw [now_boundaryPass, now_reachTime live still smallTime]

end Sys2Proof.Machine
end

section
/-! PROOFS.  Adit's ports: what readiness, alignment and errors of a port can change (03_adit_ingest R90 to R98, R123; 16_pins_package_test R538). -/

namespace Sys2Proof.Machine

/-! ### Registers alone -/

theorem OnlyRegs.trans {s t u : State} {l : List Nat} (h1 : OnlyRegs s t l) (h2 : OnlyRegs t u l) : OnlyRegs s u l :=
  ⟨h2.1.trans (by rw [h1.1]), fun a ha => (h2.2 a ha).trans (h1.2 a ha)⟩

theorem OnlyRegs.widen {s t : State} {l m : List Nat} (h : OnlyRegs s t l) (sub : l ⊆ m) : OnlyRegs s t m :=
  ⟨h.1, fun a ha => h.2 a (fun mem => ha (sub mem))⟩

theorem OnlyRegs.port {s t : State} {l : List Nat} (h : OnlyRegs s t l) (p : Nat) : t.port p = s.port p := by
  rw [h.1]
  rfl

theorem onlyRegs_setFld (s : State) (f : Fld) (v : Nat) {l : List Nat} (listed : f.addr ∈ l) : OnlyRegs s (s.setFld f v) l :=
  (onlyRegs_setReg s f.addr _).widen (by simpa using listed)

theorem onlyRegs_setRegBit (s : State) (a i : Nat) (b : Bool) {l : List Nat} (listed : a ∈ l) : OnlyRegs s (s.setRegBit a i b) l :=
  (onlyRegs_setReg s a _).widen (by simpa using listed)

theorem regBit_of_reg {s t : State} {a : Nat} (same : t.reg a = s.reg a) (i : Nat) : t.regBit a i = s.regBit a i := by
  unfold State.regBit
  rw [same]

/-- A bit of a register that lies outside the field written reads as before. -/
theorem State.regBit_setBit_apart (s : State) (f : Fld) (b : Bool) (a i : Nat) (apart : i < f.lo ∨ f.lo + f.w ≤ i) :
    (s.setBit f b).regBit a i = s.regBit a i := by
  by_cases own : a = f.addr
  · subst own
    unfold State.setBit State.setFld State.regBit
    rw [State.reg_setReg_same, getLsbD_putField, if_neg (by omega)]
  · exact regBit_of_reg (s.reg_setBit_ne f b own) i

/-- An alarm of Adit leaves Adit's other registers as they are. -/
theorem reg_aditAlarm (s : State) {f : Fld} (own : f.addr = R.ADIT_ALARM) (u : Nat) {a : Nat} (other : a ≠ R.ADIT_ALARM) (adit : a < 0x400000) :
    (s.alarm f u).reg a = s.reg a := by
  have below : ∀ b ∈ R.POWER_SUMMARY :: lostRegs, a ≠ b := fun b listed => by
    have : ∀ b ∈ R.POWER_SUMMARY :: lostRegs, 0x400000 ≤ b := by decide
    have := this b listed
    omega
  exact s.reg_alarm f u a (own ▸ other) (below _ List.mem_cons_self) (fun listed => below a (List.mem_cons_of_mem _ listed) rfl)

/-! ### One port -/

/-- `t` differs from `s` in port `p`, which is `v`, and in the registers at the addresses `l`, and in nothing else. -/
def OnlyPort (s t : State) (p : Nat) (v : PortSt) (l : List Nat) : Prop :=
  t = { s with regs := t.regs, ports := t.ports } ∧ t.port p = v ∧ (∀ q, q ≠ p → t.port q = s.port q) ∧ ∀ a, a ∉ l → t.reg a = s.reg a

theorem onlyPort_setPort (s : State) (p : Nat) (v : PortSt) (l : List Nat) : OnlyPort s (s.setPort p v) p v l :=
  ⟨rfl, s.port_setPort_same p v, fun _ other => s.port_setPort_ne v other, fun _ _ => rfl⟩

theorem OnlyPort.thenRegs {s t u : State} {p : Nat} {v : PortSt} {l : List Nat} (h1 : OnlyPort s t p v l) (h2 : OnlyRegs t u l) : OnlyPort s u p v l := by
  obtain ⟨frame, own, others, regs⟩ := h1
  refine ⟨by rw [h2.1, frame], (h2.port p).trans own, fun q other => (h2.port q).trans (others q other), fun a ha => (h2.2 a ha).trans (regs a ha)⟩

theorem OnlyRegs.thenPort {s t u : State} {p : Nat} {v : PortSt} {l : List Nat} (h1 : OnlyRegs s t l) (h2 : OnlyPort t u p v l) : OnlyPort s u p v l := by
  obtain ⟨frame, own, others, regs⟩ := h2
  refine ⟨frame.trans (by rw [h1.1]), own, fun q other => (others q other).trans (h1.port q), fun a ha => (regs a ha).trans (h1.2 a ha)⟩

/-! ### Readiness (R98) -/

/-- The registers in which a port's alignment and readiness show. -/
def statusRegs (p : Nat) : List Nat := [R.ADIT_PORT_STATUS p, R.ADIT_STATUS]

theorem portStatus_ne_status (p : Nat) : R.ADIT_PORT_STATUS p ≠ R.ADIT_STATUS := by
  unfold R.ADIT_PORT_STATUS R.ADIT_STATUS
  omega

theorem portStatus_ne_alarm (p : Nat) : R.ADIT_PORT_STATUS p ≠ R.ADIT_ALARM := by
  unfold R.ADIT_PORT_STATUS R.ADIT_ALARM
  omega

theorem portStatus_adit (p : Port) : R.ADIT_PORT_STATUS p.toNat < 0x400000 := by
  have := p.isLt
  unfold R.ADIT_PORT_STATUS
  omega

theorem portStatus_listed (p : Nat) : R.ADIT_PORT_STATUS p ∈ statusRegs p := List.mem_cons_self

theorem onlyRegs_portReady (s : State) (p : Nat) : OnlyRegs s (s.portReady p) (statusRegs p) := by
  unfold State.portReady
  exact (onlyRegs_setFld s _ _ (portStatus_listed p)).trans (onlyRegs_setRegBit _ _ _ _ (List.mem_cons_of_mem _ List.mem_cons_self))

/-- Every bit of a port's status but READY stays when readiness is shown. -/
theorem regBit_portReady (s : State) (p : Nat) {i : Nat} (apart : 1 ≤ i) :
    (s.portReady p).regBit (R.ADIT_PORT_STATUS p) i = s.regBit (R.ADIT_PORT_STATUS p) i := by
  unfold State.portReady
  dsimp only
  rw [State.regBit_setRegBit_other _ _ _ _ _ _ (.inl (portStatus_ne_status p)), State.regBit_setBit_apart _ _ _ _ _ (.inr apart)]

theorem bit_portReady (s : State) (p : Nat) {g : Fld} (own : g.addr = R.ADIT_PORT_STATUS p) (one : g.w = 1) (apart : 1 ≤ g.lo) :
    (s.portReady p).bit g = s.bit g := by
  rw [State.bit_eq_regBit _ g one, State.bit_eq_regBit _ g one, own, regBit_portReady s p apart]

/-- A port that is not aligned is not ready (R98). -/
theorem ready_portReady_unaligned (s : State) (p : Nat) (off : s.bit (F.ADIT_PORT_STATUS_ALIGNED p) = false) :
    (s.portReady p).bit (F.ADIT_PORT_STATUS_READY p) = false := by
  unfold State.portReady
  dsimp only
  rw [off, Bool.and_false, Bool.false_and, State.bit_setRegBit_ne _ _ _ _ _ (portStatus_ne_status p)]
  exact State.bit_setBit_same _ _ _ rfl (by decide : 0 < 32)

/-! ### Alignment (R92, R93, R96) -/

/-- A port's state once it has lost alignment. -/
def PortSt.unaligned (q : PortSt) : PortSt := { q with waitSysref := true, roundSeen := false }

/-- A port's state once it has realigned. -/
def PortSt.realigned (q : PortSt) : PortSt := { q with waitSysref := false, prevRound := none, roundIdx := 0, errs := [], roundSeen := false }

theorem onlyPort_unalign (s : State) (p : Nat) : OnlyPort s (s.unalign p) p (s.port p).unaligned (statusRegs p) := by
  unfold State.unalign
  exact ((onlyRegs_setFld s _ _ (portStatus_listed p)).thenPort (onlyPort_setPort _ p _ _)).thenRegs (onlyRegs_portReady _ p)

theorem regBit_unalign (s : State) (p : Nat) {i : Nat} (apart : 2 ≤ i) :
    (s.unalign p).regBit (R.ADIT_PORT_STATUS p) i = s.regBit (R.ADIT_PORT_STATUS p) i := by
  unfold State.unalign
  rw [regBit_portReady _ p (by omega), State.regBit_setPort, State.regBit_setBit_apart _ _ _ _ _ (.inr apart)]

theorem aligned_unalign (s : State) (p : Nat) : (s.unalign p).bit (F.ADIT_PORT_STATUS_ALIGNED p) = false := by
  unfold State.unalign
  rw [bit_portReady _ p rfl rfl (by decide : 1 ≤ 1), State.bit_setPort]
  exact State.bit_setBit_same _ _ _ rfl (by decide : 1 < 32)

theorem ready_unalign (s : State) (p : Nat) : (s.unalign p).bit (F.ADIT_PORT_STATUS_READY p) = false := by
  unfold State.unalign
  refine ready_portReady_unaligned _ p ?_
  rw [State.bit_setPort]
  exact State.bit_setBit_same _ _ _ rfl (by decide : 1 < 32)

theorem onlyPort_align (s : State) (p : Nat) : OnlyPort s (s.align p) p (s.port p).realigned (statusRegs p) := by
  unfold State.align
  exact (((onlyPort_setPort s p _ _).thenRegs (onlyRegs_setFld _ _ _ (portStatus_listed p))).thenRegs (onlyRegs_setFld _ _ _ (portStatus_listed p))).thenRegs
    (onlyRegs_portReady _ p)

theorem captured_align (s : State) (p : Nat) : (s.align p).bit (F.ADIT_PORT_STATUS_SYSREF_CAPTURED p) = true := by
  unfold State.align
  rw [bit_portReady _ p rfl rfl (by decide : 1 ≤ 2)]
  exact State.bit_setBit_same _ _ _ rfl (by decide : 2 < 32)

theorem aligned_align (s : State) (p : Nat) : (s.align p).bit (F.ADIT_PORT_STATUS_ALIGNED p) = true := by
  unfold State.align
  rw [bit_portReady _ p rfl rfl (by decide : 1 ≤ 1), State.bit_setBit_other _ _ _ _ (.inr (.inl (by decide : 1 + 1 ≤ 2)))]
  exact State.bit_setBit_same _ _ _ rfl (by decide : 1 < 32)

/-! ### Enabling and lanes (R97, R123, R538) -/

theorem onlyRegs_prbsOff (s : State) (p : Nat) : OnlyRegs s (s.prbsOff p) [R.TEST_PRBS_CTRL p] := by
  unfold State.prbsOff
  exact (onlyRegs_setFld s (F.TEST_PRBS_CTRL_MODE p) 0 List.mem_cons_self).trans (onlyRegs_setFld _ (F.TEST_PRBS_CTRL_LOCK p) 0 List.mem_cons_self)

theorem mode_prbsOff (s : State) (p : Nat) : (s.prbsOff p).fld (F.TEST_PRBS_CTRL_MODE p) = 0 := by
  unfold State.prbsOff
  rw [State.fld_setFld_other _ _ _ _ (.inr (.inl (by decide : 0 + 2 ≤ 31)))]
  exact State.fld_setFld_same _ _ _ (by decide : 0 + 2 ≤ 32)

/-- The state a port is enabled in. -/
def State.portEnabled (s : State) (p : Nat) : State :=
  ((s.setBit (F.ADIT_PORT_CTRL_EN p) true).setPort p { s.port p with stopping := false }).prbsOff p

theorem onlyPort_portEnabled (s : State) (p : Nat) :
    OnlyPort s (s.portEnabled p) p { s.port p with stopping := false } [R.ADIT_PORT_CTRL p, R.TEST_PRBS_CTRL p] :=
  ((onlyRegs_setFld s _ _ List.mem_cons_self).thenPort (onlyPort_setPort _ p _ _)).thenRegs ((onlyRegs_prbsOff _ p).widen (List.subset_cons_self _ _))

theorem en_portEnabled (s : State) (p : Port) : (s.portEnabled p.toNat).bit (F.ADIT_PORT_CTRL_EN p.toNat) = true := by
  have apart : R.ADIT_PORT_CTRL p.toNat ∉ [R.TEST_PRBS_CTRL p.toNat] := by
    have := p.isLt
    unfold R.ADIT_PORT_CTRL R.TEST_PRBS_CTRL
    rw [List.mem_singleton]
    omega
  exact (bit_of_reg ((onlyRegs_prbsOff _ _).2 _ apart)).trans (State.bit_setBit_same s _ true rfl (by decide : 0 < 32))

section
variable {s : State} {p : Port}

theorem exec_portEnable (reached : Reached s 2) (usable : s.lanesSpent p.toNat = false) : exec (.portEnable p) s = .next (s.portEnabled p.toNat) := by
  show execPortEnable p s = _
  unfold execPortEnable
  dsimp only
  rw [gate_reached s reached, usable]
  rfl

theorem exec_portEnable_refused (reached : Reached s 2) (spent : s.lanesSpent p.toNat = true) :
    Answers (.portEnable p) s (fun t => OnlyAlarm s t F.ADIT_ALARM_RATE_REFUSED) := by
  refine ⟨s.alarm F.ADIT_ALARM_RATE_REFUSED p.toNat, ?_, onlyAlarm s _ _ rfl (by decide) (by decide) (by decide)⟩
  show execPortEnable p s = _
  unfold execPortEnable
  dsimp only
  rw [gate_reached s reached, spent, if_pos rfl]

theorem exec_portDisable (reached : Reached s 2) (on : s.bit (F.ADIT_PORT_CTRL_EN p.toNat) = true) :
    exec (.portDisable p) s = .next ((s.setBit (F.ADIT_PORT_CTRL_EN p.toNat) false).setPort p.toNat { s.port p.toNat with stopping := true }) := by
  show execPortDisable p s = _
  unfold execPortDisable
  dsimp only
  rw [gate_reached s reached, on]
  rfl

theorem exec_portIntakeStop (stopping : (s.port p.toNat).stopping = true) :
    exec (.portIntakeStop p) s = .next ((s.setPort p.toNat { s.port p.toNat with stopping := false }).suspendPort p.toNat) := by
  show execPortIntakeStop p s = _
  unfold execPortIntakeStop
  dsimp only
  rw [stopping]
  rfl

theorem exec_resync (reached : Reached s 2) : exec (.resync p) s = .next (s.unalign p.toNat) := gate_reached s reached _

theorem exec_lanesWrite {l : BitVec 2} (reached : Reached s 2) (good : laneMask l.toNat &&& s.fld (F.ADIT_PORT_STATUS_LANE_RETIRED p.toNat) = 0)
    (stopped : s.bit (F.ADIT_PORT_CTRL_EN p.toNat) = false) :
    exec (.lanesWrite p l) s = .next ((s.setFld (F.ADIT_PORT_CTRL_LANES p.toNat) l.toNat).portReady p.toNat) := by
  show execLanesWrite p l s = _
  unfold execLanesWrite
  dsimp only
  rw [gate_reached s reached, good, stopped]
  rfl

end

/-- The state LANES is written in. -/
theorem lanesWritten_spec (s : State) (p : Nat) (l : BitVec 2) :
    OnlyRegs s ((s.setFld (F.ADIT_PORT_CTRL_LANES p) l.toNat).portReady p) [R.ADIT_PORT_CTRL p, R.ADIT_PORT_STATUS p, R.ADIT_STATUS] ∧
      ((s.setFld (F.ADIT_PORT_CTRL_LANES p) l.toNat).portReady p).fld (F.ADIT_PORT_CTRL_LANES p) = l.toNat := by
  have apart : R.ADIT_PORT_CTRL p ∉ statusRegs p := by
    unfold statusRegs R.ADIT_PORT_CTRL R.ADIT_PORT_STATUS R.ADIT_STATUS
    rw [List.mem_pair]
    omega
  refine ⟨(onlyRegs_setFld s _ _ List.mem_cons_self).trans ((onlyRegs_portReady _ p).widen (List.subset_cons_self _ _)), ?_⟩
  rw [fld_of_reg ((onlyRegs_portReady _ p).2 _ apart), State.fld_setFld_same _ _ _ (by decide : 2 + 2 ≤ 32)]
  exact Nat.mod_eq_of_lt l.isLt

/-! ### SYSREF (R96, R98) -/

section
variable {s : State} {p : Port}

/-- What a SYSREF edge does to an enabled port whose lanes in use are good (R96, R98). -/
theorem exec_sysrefEdge (live : s.alive = true) (awake : s.powerLevel < 2) (on : s.bit (F.ADIT_PORT_CTRL_EN p.toNat) = true)
    (used : laneMask (s.fld (F.ADIT_PORT_CTRL_LANES p.toNat)) ≠ 0)
    (good : laneMask (s.fld (F.ADIT_PORT_CTRL_LANES p.toNat)) &&& s.fld (F.ADIT_PORT_STATUS_LANE_RETIRED p.toNat) = 0)
    (idle : (s.port p.toNat).waitSysref = false) (b : Bool) {u : State}
    (up : u = s.setFld (F.ADIT_PORT_STATUS_LANE_UP p.toNat) (laneMask (s.fld (F.ADIT_PORT_CTRL_LANES p.toNat)))) :
    exec (.sysrefEdge p b) s = .next (if !s.bit (F.ADIT_PORT_STATUS_ALIGNED p.toNat) then u.align p.toNat else if b then u
      else (((((u.bump (F.ADIT_PORT_SLIP_COUNT p.toNat) 1).alarm F.ADIT_ALARM_SYSREF_SLIP p.toNat).unalign p.toNat).align p.toNat).syncResetPort p.toNat)) := by
  have acts : (!s.alive || decide (2 ≤ s.powerLevel) || !s.bit (F.ADIT_PORT_CTRL_EN p.toNat) || laneMask (s.fld (F.ADIT_PORT_CTRL_LANES p.toNat)) == 0 ||
      laneMask (s.fld (F.ADIT_PORT_CTRL_LANES p.toNat)) &&& s.fld (F.ADIT_PORT_STATUS_LANE_RETIRED p.toNat) != 0) = false := by
    simp [live, awake, on, used, good]
  show execSysrefEdge p b s = _
  unfold execSysrefEdge
  dsimp only
  rw [acts, idle, ← up]
  cases s.bit (F.ADIT_PORT_STATUS_ALIGNED p.toNat) <;> cases b <;> rfl

/-! ### Lane faults (R97) -/

theorem exec_aditLaneFault_transient {l : BitVec 3} (few : s.recentFaults (.aditLane p.toNat l.toNat) < 2) :
    exec (.aditLaneFault p l) s = .next ((s.recordFault (.aditLane p.toNat l.toNat) false).2.unalign p.toNat) := by
  have transient : decide (2 ≤ s.recentFaults (.aditLane p.toNat l.toNat)) = false := decide_eq_false (Nat.not_le.2 few)
  show execAditLaneFault p l s = _
  unfold execAditLaneFault
  dsimp only
  rw [State.recordFault_eq, Bool.false_or, transient]
  rfl

end

/-- Lane `l` of port `p` shows as retired and down, the port is not ready, and the alarm stands (R97). -/
def LaneRetired (t : State) (p l : Nat) : Prop :=
  t.regBit (R.ADIT_PORT_STATUS p) (8 + l) = true ∧ t.regBit (R.ADIT_PORT_STATUS p) (16 + l) = false ∧ t.bit (F.ADIT_PORT_STATUS_READY p) = false ∧
    t.bit F.ADIT_ALARM_LANE_RETIRED = true

theorem laneRetired_alarm {t : State} {p : Port} {l : Nat} (h : LaneRetired t p.toNat l) (u : Nat) :
    LaneRetired (t.alarm F.ADIT_ALARM_LANE_RETIRED u) p.toNat l := by
  obtain ⟨retired, down, off, -⟩ := h
  have status : (t.alarm F.ADIT_ALARM_LANE_RETIRED u).reg (R.ADIT_PORT_STATUS p.toNat) = t.reg (R.ADIT_PORT_STATUS p.toNat) :=
    reg_aditAlarm t rfl u (portStatus_ne_alarm p.toNat) (portStatus_adit p)
  exact ⟨(regBit_of_reg status _).trans retired, (regBit_of_reg status _).trans down, (bit_of_reg status).trans off,
    State.bit_alarm t _ u rfl (by decide) (by decide) (by decide)⟩

theorem laneRetired_onlyStreams {t u : State} {p l : Nat} (h : LaneRetired t p l) (same : OnlyStreams t u) : LaneRetired u p l := by
  obtain ⟨retired, down, off, raised⟩ := h
  exact ⟨(same.regBit _ _).trans retired, (same.regBit _ _).trans down, (same.bit _).trans off, (same.bit _).trans raised⟩

/-- The state in which lane `l` shows as retired and down, and the alarm is raised. -/
def State.laneMarked (s : State) (p l : Nat) : State :=
  ((s.setRegBit (R.ADIT_PORT_STATUS p) (8 + l) true).setRegBit (R.ADIT_PORT_STATUS p) (16 + l) false).alarm F.ADIT_ALARM_LANE_RETIRED (p * 8 + l)

/-- The state in which the port has also lost its alignment. -/
def State.laneOut (s : State) (p l : Nat) : State := (s.laneMarked p l).unalign p

theorem laneMarked_spec (s : State) (p : Port) (l : BitVec 3) :
    (s.laneMarked p.toNat l.toNat).regBit (R.ADIT_PORT_STATUS p.toNat) (8 + l.toNat) = true ∧
      (s.laneMarked p.toNat l.toNat).regBit (R.ADIT_PORT_STATUS p.toNat) (16 + l.toNat) = false ∧
      (s.laneMarked p.toNat l.toNat).bit F.ADIT_ALARM_LANE_RETIRED = true := by
  have lane : l.toNat < 8 := l.isLt
  have status := fun t : State => reg_aditAlarm t (f := F.ADIT_ALARM_LANE_RETIRED) rfl (p.toNat * 8 + l.toNat) (portStatus_ne_alarm p.toNat) (portStatus_adit p)
  unfold State.laneMarked
  refine ⟨?_, ?_, State.bit_alarm _ _ _ rfl (by decide) (by decide) (by decide)⟩
  · rw [regBit_of_reg (status _), State.regBit_setRegBit_other _ _ _ _ _ _ (.inr (by omega)), State.regBit_setRegBit_same _ _ _ _ (by omega)]
  · rw [regBit_of_reg (status _), State.regBit_setRegBit_same _ _ _ _ (by omega)]

theorem laneRetired_laneOut (s : State) (p : Port) (l : BitVec 3) : LaneRetired (s.laneOut p.toNat l.toNat) p.toNat l.toNat := by
  have apart : R.ADIT_ALARM ∉ statusRegs p.toNat := by
    unfold statusRegs
    rw [List.mem_pair]
    exact fun e => e.elim (fun e => portStatus_ne_alarm p.toNat e.symm) (by decide)
  obtain ⟨retired, down, raised⟩ := laneMarked_spec s p l
  obtain ⟨-, -, -, others⟩ := onlyPort_unalign (s.laneMarked p.toNat l.toNat) p.toNat
  exact ⟨(regBit_unalign _ _ (by omega)).trans retired, (regBit_unalign _ _ (by omega)).trans down, ready_unalign _ _,
    (bit_of_reg (others _ apart)).trans raised⟩

theorem exec_aditLaneFault_permanent {s u : State} {p : Port} {l : BitVec 3} (many : 2 ≤ s.recentFaults (.aditLane p.toNat l.toNat))
    (out : u = (s.recordFault (.aditLane p.toNat l.toNat) false).2.laneOut p.toNat l.toNat) : exec (.aditLaneFault p l) s =
      .next ((if u.lanesSpent p.toNat then u.alarm F.ADIT_ALARM_LANE_RETIRED (p.toNat * 8 + l.toNat) else u).suspendPort p.toNat) := by
  have permanent : decide (2 ≤ s.recentFaults (.aditLane p.toNat l.toNat)) = true := decide_eq_true many
  show execAditLaneFault p l s = _
  unfold execAditLaneFault
  dsimp only
  rw [State.recordFault_eq, Bool.false_or, permanent, out]
  rfl

/-! ### Rounds and idle units (R91, R92) -/

section
variable {s : State} {p : Port} {h : Word64}

theorem exec_aditRound_good (isOpen : s.portOpen p.toNat = true) (mark : hdrMark h = 0xAD17) (x : List (BitVec 24)) (bad : List Nat) (n : Nat) :
    exec (.aditRound p h x bad n) s = .next ((s.bump (F.ADIT_PORT_CRC_COUNT p.toNat) n).takeRound p.toNat h x bad) := by
  show execAditRound p h x bad n s = _
  unfold execAditRound
  dsimp only
  rw [isOpen, mark]
  rfl

theorem exec_aditRound_badMark (isOpen : s.portOpen p.toNat = true) (noRound : hdrMark h ≠ 0xAD17) (noIdle : hdrMark h ≠ 0xAD00) (x : List (BitVec 24))
    (bad : List Nat) (n : Nat) : exec (.aditRound p h x bad n) s =
      .next ((((s.bump (F.ADIT_PORT_CRC_COUNT p.toNat) n).bump (F.ADIT_PORT_FRAME_COUNT p.toNat) 1).alarm F.ADIT_ALARM_FRAME_ERR p.toNat).noteErr p.toNat) := by
  show execAditRound p h x bad n s = _
  unfold execAditRound
  dsimp only
  rw [isOpen, if_neg noRound, if_neg noIdle]
  rfl

theorem exec_aditIdleUnit_badMark (isOpen : s.portOpen p.toNat = true) (noRound : hdrMark h ≠ 0xAD17) (noIdle : hdrMark h ≠ 0xAD00) :
    exec (.aditIdleUnit p h) s = .next (((s.bump (F.ADIT_PORT_FRAME_COUNT p.toNat) 1).alarm F.ADIT_ALARM_FRAME_ERR p.toNat).noteErr p.toNat) := by
  show execAditIdleUnit p h s = _
  unfold execAditIdleUnit
  dsimp only
  rw [isOpen, beq_false_of_ne noRound, beq_false_of_ne noIdle]
  rfl

theorem exec_aditIdleUnit_idle (mark : hdrMark h = 0xAD00) : exec (.aditIdleUnit p h) s = .next s := by
  show execAditIdleUnit p h s = _
  unfold execAditIdleUnit
  dsimp only
  rw [mark, beq_self_eq_true, Bool.or_true, Bool.true_or, if_pos rfl]

end

/-- A round that repeats the last one, or comes before it, is discarded and counted (R91). -/
theorem takeRound_late (s : State) (p : Nat) (h : Word64) (x : List (BitVec 24)) (bad : List Nat) {r0 : Nat} (last : (s.port p).prevRound = some r0)
    (late : (hdrRound h + 2 ^ 24 - r0) % 2 ^ 24 = 0 ∨ 2 ^ 23 ≤ (hdrRound h + 2 ^ 24 - r0) % 2 ^ 24) :
    s.takeRound p h x bad = (s.bump (F.ADIT_PORT_LATE_COUNT p) 1).noteErr p := by
  have discarded : (!(some r0).isNone && ((hdrRound h + 2 ^ 24 - r0) % 2 ^ 24 == 0 || decide (2 ^ 23 ≤ (hdrRound h + 2 ^ 24 - r0) % 2 ^ 24))) = true := by
    simpa using late
  unfold State.takeRound
  dsimp only
  rw [last, if_pos discarded]

/-! ### Complete ticks (R94) -/

/-- Completing ticks moves the port's mark forward and sends the events of those ticks, and does nothing else. -/
theorem completeTicks_spec (s : State) (p t : Nat) : ((s.completeTicks p t).port p).complete = max (s.port p).complete t ∧
    s.completeTicks p t = { s with regs := (s.completeTicks p t).regs, ports := (s.completeTicks p t).ports, streams := (s.completeTicks p t).streams,
                                   fabric := (s.completeTicks p t).fabric } := by
  unfold State.completeTicks
  dsimp only
  split
  next passed => exact ⟨(Nat.max_eq_left passed).symm, rfl⟩
  next ahead =>
    have sent := OnlySent.foldl (fun a n => a.sendEvents n t) (fun a n => sendEvents_sent a n t) (s.portStreams p) (s.setPort p { s.port p with complete := t })
    refine ⟨?_, ?_⟩
    · rw [sent.port, State.port_setPort_same, Nat.max_eq_right (by omega)]
    · rw [sent.1]
      rfl

theorem exec_aditTickTimeout {s : State} {p : Port} (running : s.ticking = true) (late : s.t0 + s.aditTimeout ≤ s.now) :
    exec (.aditTickTimeout p) s = .next (s.completeTicks p.toNat ((s.now - s.aditTimeout - s.t0) / s.tickPeriod)) := by
  have due : (!s.ticking || decide (s.now < s.t0 + s.aditTimeout)) = false := by simpa [running] using late
  show execAditTickTimeout p s = _
  unfold execAditTickTimeout
  dsimp only
  rw [due]
  rfl

/-- Settles O16: one lemma for each command and state it meets. -/
theorem aditPortCommandsAct : Obligations.AditPortCommandsAct := by
  unfold Obligations.AditPortCommandsAct
  refine ⟨fun p s reached usable => ?enable, fun p s reached spent => exec_portEnable_refused reached spent, fun p s reached on => ?disable,
    fun p s stopping => exec_portIntakeStop stopping, fun p s reached => ?resync,
    fun p l s reached good stopped => ⟨_, exec_lanesWrite reached good stopped, lanesWritten_spec s _ l⟩,
    fun p s live awake on used good off idle b => ?edge, fun p s live awake on used good aligned idle => ?boundary, fun p l s few => ?transient,
    fun p l s many => ?permanent, fun p h x bad n s isOpen mark => exec_aditRound_good isOpen mark x bad n,
    fun p h x bad s r0 last late => takeRound_late s p h x bad last late,
    fun p h x bad n s isOpen noRound noIdle => exec_aditRound_badMark isOpen noRound noIdle x bad n,
    fun p h s isOpen noRound noIdle => exec_aditIdleUnit_badMark isOpen noRound noIdle, fun p h s mark => exec_aditIdleUnit_idle mark,
    fun p s running late => ⟨_, exec_aditTickTimeout running late, completeTicks_spec s _ _⟩⟩
  case enable =>
    obtain ⟨frame, own, others, regs⟩ := onlyPort_portEnabled s p.toNat
    exact ⟨_, exec_portEnable reached usable, frame, en_portEnabled s p, mode_prbsOff _ _, own, others, fun a ctrl prbs => regs a (by simp [ctrl, prbs])⟩
  case disable =>
    obtain ⟨frame, own, others, regs⟩ := (onlyRegs_setFld s (F.ADIT_PORT_CTRL_EN p.toNat) 0 (List.mem_singleton_self _)).thenPort
      (onlyPort_setPort _ p.toNat { s.port p.toNat with stopping := true } _)
    exact ⟨_, exec_portDisable reached on, frame, State.bit_setBit_same s _ false rfl (by decide : 0 < 32), own, others,
      fun a ctrl => regs a (by simp [ctrl])⟩
  case resync =>
    obtain ⟨frame, own, others, regs⟩ := onlyPort_unalign s p.toNat
    exact ⟨_, exec_resync reached, frame, aligned_unalign s _, ready_unalign s _, own, others,
      fun a port device => regs a (by simp [statusRegs, port, device])⟩
  case edge =>
    obtain ⟨frame, own, -, -⟩ := (onlyRegs_setFld s (F.ADIT_PORT_STATUS_LANE_UP p.toNat) (laneMask (s.fld (F.ADIT_PORT_CTRL_LANES p.toNat)))
      (portStatus_listed p.toNat)).thenPort (onlyPort_align _ p.toNat)
    refine ⟨_, ?_, frame, aligned_align _ _, captured_align _ _, own⟩
    rw [exec_sysrefEdge live awake on used good idle b rfl, off]
    rfl
  case boundary =>
    rw [exec_sysrefEdge live awake on used good idle true rfl, exec_sysrefEdge live awake on used good idle false rfl, aligned]
    exact ⟨rfl, rfl⟩
  case transient =>
    obtain ⟨frame, -, -, -⟩ := onlyPort_unalign (s.recordFault (.aditLane p.toNat l.toNat) false).2 p.toNat
    exact ⟨_, exec_aditLaneFault_transient few, frame, aligned_unalign _ _, ready_unalign _ _⟩
  case permanent =>
    have out := laneRetired_laneOut (s.recordFault (.aditLane p.toNat l.toNat) false).2 p l
    refine ⟨_, exec_aditLaneFault_permanent many rfl, laneRetired_onlyStreams ?_ (suspendPort_only _ _)⟩
    split
    · exact laneRetired_alarm out _
    · exact out

end Sys2Proof.Machine
end

section
/-! PROOFS.  Adit's streams: enabling, stopping, profile changes, resuming, closing, release and context faults (03_adit_ingest R86, R87, R102,
R118, R123 to R126; 01_window_to_result R32, R33). -/

namespace Sys2Proof.Machine

/-! ### One stream -/

theorem onlyStream_setStream (s : State) (n : Nat) (v : StreamSt) : OnlyStream s (s.setStream n v) n v :=
  ⟨rfl, s.stream_setStream_same n v, fun _ other => s.stream_setStream_ne v other⟩

/-- `t` differs from `s` in stream `n`, which is `v`, and in the registers at the addresses `l`, and in nothing else. -/
def OnlyStreamRegs (s t : State) (n : Nat) (v : StreamSt) (l : List Nat) : Prop :=
  t = { s with regs := t.regs, streams := t.streams } ∧ t.stream n = v ∧ (∀ m, m ≠ n → t.stream m = s.stream m) ∧
    ∀ a, a ∉ l → t.reg a = s.reg a

theorem OnlyRegs.stream {s t : State} {l : List Nat} (h : OnlyRegs s t l) (n : Nat) : t.stream n = s.stream n := by
  rw [h.1]
  rfl

theorem OnlyRegs.thenStream {s t u : State} {n : Nat} {v : StreamSt} {l : List Nat} (h1 : OnlyRegs s t l) (h2 : OnlyStream t u n v) :
    OnlyStreamRegs s u n v l := by
  obtain ⟨frame, own, others⟩ := h2
  have same : ∀ a, u.reg a = t.reg a := State.reg_congr _ (by rw [frame])
  exact ⟨by rw [frame, h1.1], own, fun m other => (others m other).trans (h1.stream m), fun a ha => (same a).trans (h1.2 a ha)⟩

theorem OnlyStream.thenRegs {s t u : State} {n : Nat} {v : StreamSt} {l : List Nat} (h1 : OnlyStream s t n v) (h2 : OnlyRegs t u l) :
    OnlyStreamRegs s u n v l := by
  obtain ⟨frame, own, others⟩ := h1
  have same : ∀ a, t.reg a = s.reg a := State.reg_congr _ (by rw [frame])
  exact ⟨by rw [h2.1, frame], (h2.stream n).trans own, fun m other => (h2.stream m).trans (others m other), fun a ha => (h2.2 a ha).trans (same a)⟩

/-- A later write of the same stream leaves the later value. -/
theorem OnlyStream.again {s t u : State} {n : Nat} {v w : StreamSt} (h1 : OnlyStream s t n v) (h2 : OnlyStream t u n w) : OnlyStream s u n w :=
  ⟨by rw [h2.1, h1.1], h2.2.1, fun m other => (h2.2.2 m other).trans (h1.2.2 m other)⟩

/-- A stream after a synchronising reset (R108). -/
def StreamSt.resynced (st : StreamSt) (p : Profile) (warm : Bool) : StreamSt := { st with chain := st.chain.syncReset p warm }

theorem onlyStream_syncReset (s : State) (n : Nat) (warm : Bool) : OnlyStream s (s.syncReset n warm) n ((s.stream n).resynced (s.chainCfg n).1 warm) :=
  onlyStream_setStream s n _

/-- A stream that is written and then resets is the value written, with its chain reset. -/
theorem onlyStream_syncReset_setStream (s : State) (n : Nat) (v : StreamSt) (warm : Bool) :
    OnlyStream s ((s.setStream n v).syncReset n warm) n (v.resynced (s.chainCfg n).1 warm) := by
  have reset := (onlyStream_setStream s n v).again (onlyStream_syncReset _ n warm)
  rwa [State.stream_setStream_same] at reset

/-! ### Enabling, stopping, aborting (R87, R123, R124) -/

section
variable {s : State} {n : Stream}

/-- The stream as an enable starts it. -/
def State.startedStream (s : State) (n : Nat) (c : Chain) : StreamSt :=
  { s.stream n with
    stopWin := none, suspending := false, suspended := decide (s.fld F.POWER_STATUS_STATE ≠ 0), nextWin := none, wflags := [], owed := 0, chain := c,
    seq := none, frame := none, profPend := none, replayPos := s.now - s.delay n * s.tickPeriod }

/-- The state an enable leaves: the word stored with EN, and the stream started with a synchronising reset and a warm-up. -/
def State.streamEnabled (s : State) (n : Nat) (w : Word) : State :=
  let u := (s.setReg (R.ADIT_STREAM_CFG n) w).setBit (F.ADIT_STREAM_CFG_EN n) true
  u.setStream n (s.startedStream n ((s.stream n).chain.syncReset (u.chainCfg n).1 true))

theorem exec_streamEnable_starts {cfg : Word} (reached : Reached s 2) (stopped : s.enabled n.toNat = false) (sound : (s.stream n.toNat).retired = false)
    (good : (s.setReg (R.ADIT_STREAM_CFG n.toNat) (cfg &&& 0x5FF03FFF#32)).enableBroken n.toNat = false) :
    exec (.streamEnable n cfg) s = .next (s.streamEnabled n.toNat (cfg &&& 0x5FF03FFF#32)) := by
  show execStreamEnable n cfg s = _
  unfold execStreamEnable
  dsimp only
  rw [gate_reached s reached, stopped, if_neg Bool.false_ne_true, if_neg (by simp [sound, good])]
  rfl

theorem streamEnabled_spec (s : State) (n : Nat) (w : Word) : ∃ c, OnlyStreamRegs s (s.streamEnabled n w) n (s.startedStream n c) [R.ADIT_STREAM_CFG n] ∧
    (s.streamEnabled n w).reg (R.ADIT_STREAM_CFG n) = putField w 31 1 1 := by
  have stored : OnlyRegs s ((s.setReg (R.ADIT_STREAM_CFG n) w).setBit (F.ADIT_STREAM_CFG_EN n) true) [R.ADIT_STREAM_CFG n] :=
    (onlyRegs_setReg s _ w).trans (onlyRegs_setFld _ (F.ADIT_STREAM_CFG_EN n) 1 (List.mem_singleton_self _))
  refine ⟨_, stored.thenStream (onlyStream_setStream _ n _), ?_⟩
  exact (State.reg_setReg_same _ _ _).trans (by rw [State.reg_setReg_same]; rfl)

theorem exec_streamEnable_refused {cfg : Word} (reached : Reached s 2) (stopped : s.enabled n.toNat = false) (bad : (s.stream n.toNat).retired = true ∨
      (s.setReg (R.ADIT_STREAM_CFG n.toNat) (cfg &&& 0x5FF03FFF#32)).enableBroken n.toNat = true) :
    Answers (.streamEnable n cfg) s (fun t => OnlyAlarm (s.setReg (R.ADIT_STREAM_CFG n.toNat) (cfg &&& 0x5FF03FFF#32)) t F.ADIT_ALARM_RATE_REFUSED) := by
  refine ⟨(s.setReg (R.ADIT_STREAM_CFG n.toNat) (cfg &&& 0x5FF03FFF#32)).alarm F.ADIT_ALARM_RATE_REFUSED n.toNat, ?_,
    onlyAlarm _ _ _ rfl (by decide) (by decide) (by decide)⟩
  show execStreamEnable n cfg s = _
  unfold execStreamEnable
  dsimp only
  rw [gate_reached s reached, stopped, if_neg Bool.false_ne_true, if_pos (by simpa using bad)]

theorem exec_streamEnable_cancels {cfg : Word} (reached : Reached s 2) (on : s.enabled n.toNat = true) :
    exec (.streamEnable n cfg) s = .next (s.setStream n.toNat { s.stream n.toNat with stopWin := none }) := by
  show execStreamEnable n cfg s = _
  unfold execStreamEnable
  dsimp only
  rw [gate_reached s reached, on, if_pos rfl]

theorem exec_streamStop (reached : Reached s 2) (on : s.enabled n.toNat = true) (free : (s.stream n.toNat).stopWin = none) :
    exec (.streamStop n) s = .next (s.setStream n.toNat { s.stream n.toNat with stopWin := some (s.winOf n.toNat s.tick) }) := by
  show execStreamStop n s = _
  unfold execStreamStop
  dsimp only
  rw [gate_reached s reached, on, free]
  rfl

/-- A stream with nothing left to deliver, and no stop or window open. -/
def StreamSt.stopped (st : StreamSt) (badev : Nat) : StreamSt :=
  { st with events := [], badev := badev, stopWin := none, nextWin := none, wflags := [], owed := 0 }

theorem exec_streamStopEffect {w nw : Nat} (stop : (s.stream n.toNat).stopWin = some w) (next : (s.stream n.toNat).nextWin = some nw) (closed : w < nw)
    (ended : s.winEnd n.toNat w ≤ s.tick) : exec (.streamStopEffect n) s = .next ((s.setStream n.toNat
      ((s.stream n.toNat).stopped ((s.stream n.toNat).discard (s.source n.toNat == 5)).badev)).setBit (F.ADIT_STREAM_CFG_EN n.toNat) false) := by
  show execStreamStopEffect n s = _
  unfold execStreamStopEffect
  dsimp only
  rw [stop]
  dsimp only
  rw [if_neg (by simp [next, closed, ended])]
  rfl

theorem exec_abort (reached : Reached s 2) (on : s.enabled n.toNat = true) {u : State} (skipped : u = s.skipOpen n.toNat skABORTED) :
    exec (.abort n) s = .next ((u.setStream n.toNat ((u.stream n.toNat).stopped (sat32 ((u.stream n.toNat).badev + (u.stream n.toNat).events.length)))).setBit
      (F.ADIT_STREAM_CFG_EN n.toNat) false) := by
  show execAbort n s = _
  unfold execAbort
  dsimp only
  rw [gate_reached s reached, on, skipped]
  rfl

/-- What stopping a stream leaves: EN is 0 and the stream is stopped. -/
theorem stopped_spec (s : State) (n b : Nat) :
    OnlyStreamRegs s ((s.setStream n ((s.stream n).stopped b)).setBit (F.ADIT_STREAM_CFG_EN n) false) n ((s.stream n).stopped b) [R.ADIT_STREAM_CFG n] ∧
      ((s.setStream n ((s.stream n).stopped b)).setBit (F.ADIT_STREAM_CFG_EN n) false).enabled n = false :=
  ⟨(onlyStream_setStream s n _).thenRegs (onlyRegs_setFld _ _ _ (List.mem_singleton_self _)), State.bit_setBit_same _ _ false rfl (by decide : 31 < 32)⟩

/-! ### Profiles (R125, R129) -/

theorem exec_profileChange_held {p : BitVec 6} (reached : Reached s 2) (on : s.enabled n.toNat = true) :
    exec (.profileChange n p) s = .next (s.setStream n.toNat { s.stream n.toNat with profPend := some (p.toNat, s.winOf n.toNat s.tick) }) := by
  show execProfileChange n p s = _
  unfold execProfileChange
  dsimp only
  rw [gate_reached s reached, on, if_pos rfl]

theorem exec_profileChange_now {p : BitVec 6} (reached : Reached s 2) (off : s.enabled n.toNat = false) :
    exec (.profileChange n p) s = .next (s.setFld (F.ADIT_STREAM_CFG_PROFILE n.toNat) p.toNat) := by
  show execProfileChange n p s = _
  unfold execProfileChange
  dsimp only
  rw [gate_reached s reached, off]
  rfl

theorem streamProfile_setFld (s : State) (n q : Nat) : (s.setFld (F.ADIT_STREAM_CFG_PROFILE n) q).streamProfile n = q % 64 :=
  State.fld_setFld_same _ _ _ (by decide : 20 + 6 ≤ 32)

theorem exec_profileChangeEffect {q w : Nat} (pending : (s.stream n.toNat).profPend = some (q, w)) (boundary : w < s.winOf n.toNat s.tick) :
    exec (.profileChangeEffect n) s = .next (((s.setFld (F.ADIT_STREAM_CFG_PROFILE n.toNat) q).setStream n.toNat
      { s.stream n.toNat with profPend := none }).syncReset n.toNat true) := by
  show execProfileChangeEffect n s = _
  unfold execProfileChangeEffect
  dsimp only
  rw [pending]
  dsimp only
  rw [if_neg (Nat.not_le.2 boundary)]
  rfl

theorem exec_profileWrite {o : BitVec 17} (v : Word) (reached : Reached s 2) (inside : o.toNat % 2048 < 1040)
    (unused : ∀ n ∈ s.enabledStreams, s.streamProfile n ≠ o.toNat / 2048 ∨ s.source n = 5) :
    exec (.profileWrite o v) s = .next (s.setReg (0x280000 + 4 * o.toNat) v) := by
  have free : s.enabledStreams.any (fun n => s.streamProfile n == o.toNat / 2048 && s.source n != 5) = false := by
    rw [List.any_eq_false]
    intro n listed
    rcases unused n listed with other | bundle
    · simp [other]
    · simp [bundle]
  show execProfileWrite o v s = _
  unfold execProfileWrite
  dsimp only
  rw [gate_reached s reached, free, if_neg Bool.false_ne_true, if_neg (Nat.not_le.2 inside)]

theorem exec_profileWrite_busy {o : BitVec 17} (v : Word) (reached : Reached s 2)
    (used : ∃ n ∈ s.enabledStreams, s.streamProfile n = o.toNat / 2048 ∧ s.source n ≠ 5) :
    Answers (.profileWrite o v) s (fun t => OnlyAlarm s t F.ADIT_ALARM_PROFILE_BUSY) := by
  obtain ⟨n, listed, profile, sampled⟩ := used
  have busy : s.enabledStreams.any (fun n => s.streamProfile n == o.toNat / 2048 && s.source n != 5) = true :=
    List.any_eq_true.2 ⟨n, listed, by simp [profile, sampled]⟩
  refine ⟨s.alarm F.ADIT_ALARM_PROFILE_BUSY (o.toNat / 2048), ?_, onlyAlarm s _ _ rfl (by decide) (by decide) (by decide)⟩
  show execProfileWrite o v s = _
  unfold execProfileWrite
  dsimp only
  rw [gate_reached s reached, busy, if_pos rfl]

/-! ### Resuming (R86, R123) -/

theorem exec_streamResume (run : s.fld F.POWER_STATUS_STATE = 0) : exec (.streamResume n) s = .next (s.resumeStream n.toNat) := by
  show execStreamResume n s = _
  unfold execStreamResume
  rw [if_neg (not_not_intro run)]

/-- A suspended stream whose port, if it has one, is enabled and READY resumes with nothing to deliver and no window open. -/
theorem resumeStream_spec (s : State) (n : Nat) (waiting : (s.stream n).suspended = true)
    (port : isPortSource (s.source n) = true → s.bit (F.ADIT_PORT_CTRL_EN (s.source n)) = true ∧ s.bit (F.ADIT_PORT_STATUS_READY (s.source n)) = true) :
    ((s.resumeStream n).stream n).suspended = false ∧ ((s.resumeStream n).stream n).events = [] ∧ ((s.resumeStream n).stream n).nextWin = none := by
  have goes : (!(s.stream n).suspended ||
      (isPortSource (s.source n) && !(s.bit (F.ADIT_PORT_CTRL_EN (s.source n)) && s.bit (F.ADIT_PORT_STATUS_READY (s.source n))))) = false := by
    rw [waiting]
    cases fed : isPortSource (s.source n)
    · rfl
    · obtain ⟨on, ready⟩ := port fed
      rw [on, ready]
      rfl
  unfold State.resumeStream
  dsimp only
  rw [goes, if_neg Bool.false_ne_true, (onlyStream_syncReset_setStream s n _ false).2.1]
  exact ⟨rfl, rfl, rfl⟩

/-! ### Closing and release (R32, R102, R118) -/

theorem exec_aditCloseSend {w : Nat} (next : (s.stream n.toNat).nextWin = some w) (on : s.enabled n.toNat = true)
    (going : (s.stream n.toNat).suspended = false) (sound : (s.stream n.toNat).retired = false) (ticking : s.ticking = true) (fit : s.fatal = false)
    (due : s.closeDue n.toNat w = true) : exec (.aditCloseSend n) s = .next (s.closeWindow n.toNat w) := by
  show execAditCloseSend n s = _
  unfold execAditCloseSend
  dsimp only
  rw [next]
  dsimp only
  rw [on, going, sound, ticking, fit, due]
  rfl

theorem exec_aditRelease (on : s.enabled n.toNat = true) (fed : isPortSource (s.source n.toNat) = false) (ticking : s.ticking = true) :
    exec (.aditRelease n) s = .next (((s.replayAdvance n.toNat).dropBadNeurons n.toNat
      ((s.replayAdvance n.toNat).tick + 1 - (s.replayAdvance n.toNat).delay n.toNat)).sendEvents n.toNat
      ((s.replayAdvance n.toNat).tick + 1 - (s.replayAdvance n.toNat).delay n.toNat)) := by
  show execAditRelease n s = _
  unfold execAditRelease
  dsimp only
  rw [on, fed, ticking]
  rfl

/-- The released events of an unmapped stream leave it, and go nowhere (R32). -/
theorem sendEvents_unmapped (s : State) (n bound : Nat) (off : s.mapped n = false) :
    ((s.sendEvents n bound).stream n).events = (s.stream n).events.filter (fun e => !decide (e.1 < bound)) ∧ OnlyStreams s (s.sendEvents n bound) := by
  unfold State.sendEvents
  dsimp only
  split
  next nothing =>
    refine ⟨?_, OnlyStreams.refl s⟩
    rw [List.isEmpty_iff, List.filter_eq_nil_iff] at nothing
    exact (List.filter_eq_self.2 fun e listed => by simpa using nothing e listed).symm
  next =>
    rw [off, if_neg Bool.false_ne_true, State.stream_setStream_same]
    exact ⟨rfl, onlyStreams_set s n _⟩

/-! ### Context faults (R126) -/

/-- The context a stream runs in, as fault histories name it. -/
def State.contextUnit (s : State) (n : Nat) : FaultUnit := .context ((s.stream n).ctx.getD n)

theorem exec_ctxFault_transient (few : s.recentFaults (s.contextUnit n.toNat) < 2) :
    exec (.ctxFault n false true) s = .next ((s.recordFault (s.contextUnit n.toNat) false).2.syncReset n.toNat false) := by
  have transient : decide (2 ≤ s.recentFaults (s.contextUnit n.toNat)) = false := decide_eq_false (Nat.not_le.2 few)
  unfold State.contextUnit at transient ⊢
  show execCtxFault n false true s = _
  unfold execCtxFault
  dsimp only
  rw [State.recordFault_eq, Bool.false_or, transient]
  rfl

/-- A fault of a unit that failed a hard test is permanent, and changes no register (R496). -/
theorem recordFault_hard (s : State) (u : FaultUnit) : s.recordFault u true = (true, (s.recordFault u true).2) := by
  rw [State.recordFault_eq, Bool.true_or]

theorem fld_recordFault (s : State) (u : FaultUnit) (hard : Bool) (f : Fld) : (s.recordFault u hard).2.fld f = s.fld f := rfl

/-- The state in which a spare is reserved for the stream, the fault being recorded in `u`. -/
def State.spareReserved (s u : State) (n : Nat) : State :=
  ((u.setFld F.ADIT_SPARE_CTX_SPARES (u.fld F.ADIT_SPARE_CTX_SPARES - 1)).setStream n
    { (s.stream n).flagOpen (match (s.stream n).nextWin with | some w => w | none => s.winOf n s.tick) (2 ^ afCTX_MOVED) with
      movePend := some (66560 - u.fld F.ADIT_SPARE_CTX_SPARES, s.winOf n s.tick) }).alarm F.ADIT_ALARM_CTX_RETIRED n

theorem exec_ctxFault_spare (i : Bool) (spare : 0 < s.fld F.ADIT_SPARE_CTX_SPARES) :
    exec (.ctxFault n true i) s = .next (s.spareReserved (s.recordFault (s.contextUnit n.toNat) true).2 n.toNat) := by
  show execCtxFault n true i s = _
  unfold execCtxFault State.contextUnit
  dsimp only
  rw [recordFault_hard]
  dsimp only
  rw [if_neg (by decide), fld_recordFault, if_pos spare]
  rfl

theorem spares_spareReserved (s u : State) (n : Nat) : (s.spareReserved u n).fld F.ADIT_SPARE_CTX_SPARES = u.fld F.ADIT_SPARE_CTX_SPARES - 1 := by
  have small := u.fld_lt F.ADIT_SPARE_CTX_SPARES
  unfold State.spareReserved
  rw [fld_of_reg (reg_aditAlarm _ rfl n (by decide) (by decide)), State.fld_setStream, State.fld_setFld_same _ _ _ (by decide)]
  exact Nat.mod_eq_of_lt (by omega)

theorem exec_ctxFault_retires (i : Bool) (spent : s.fld F.ADIT_SPARE_CTX_SPARES = 0) : ∃ u : State, exec (.ctxFault n true i) s =
    .next ((u.setStream n.toNat { u.stream n.toNat with retired := true, nextWin := none, events := [] }).alarm F.ADIT_ALARM_STREAM_RETIRED n.toNat) := by
  refine ⟨(s.recordFault (s.contextUnit n.toNat) true).2.skipOpen n.toNat skSTREAM_RETIRED, ?_⟩
  show execCtxFault n true i s = _
  unfold execCtxFault State.contextUnit
  dsimp only
  rw [recordFault_hard]
  dsimp only
  rw [if_neg (by decide), fld_recordFault, if_neg (Nat.not_lt.2 (Nat.le_of_eq spent))]

/-- The stream once it runs in the spare context `c`, from window `w` on. -/
def StreamSt.moved (st : StreamSt) (c w : Nat) : StreamSt := ({ st with ctx := some c, movePend := none } : StreamSt).flagOpen w (2 ^ afCTX_MOVED)

theorem moved_spec (st : StreamSt) (c w : Nat) : (st.moved c w).ctx = some c ∧ (st.moved c w).movePend = none := by
  unfold StreamSt.moved StreamSt.flagOpen
  split
  · exact ⟨rfl, rfl⟩
  · split <;> exact ⟨rfl, rfl⟩

theorem exec_ctxMove {c w : Nat} (pending : (s.stream n.toNat).movePend = some (c, w)) (boundary : w < s.winOf n.toNat s.tick) :
    exec (.ctxMove n) s = .next ((s.setStream n.toNat ((s.stream n.toNat).moved c (s.winOf n.toNat s.tick))).syncReset n.toNat true) := by
  show execCtxMove n s = _
  unfold execCtxMove
  dsimp only
  rw [pending]
  dsimp only
  rw [if_neg (Nat.not_le.2 boundary)]
  rfl

end

/-- Settles O17: one lemma for each command and state it meets. -/
theorem aditStreamCommandsAct : Obligations.AditStreamCommandsAct := by
  unfold Obligations.AditStreamCommandsAct
  refine ⟨fun n cfg s reached stopped sound good => ?enable, fun n cfg s reached stopped bad => exec_streamEnable_refused reached stopped bad,
    fun n cfg s reached on => ⟨_, exec_streamEnable_cancels reached on, onlyStream_setStream s _ _⟩,
    fun n s reached on free => ⟨_, exec_streamStop reached on free, onlyStream_setStream s _ _⟩,
    fun n s w nw stop next closed ended => ?stopEffect, fun n s reached on => ?abort,
    fun n p s reached on => ⟨_, exec_profileChange_held reached on, onlyStream_setStream s _ _⟩, fun n p s reached off => ?profileNow,
    fun n s q w pending boundary => ?profileEffect,
    fun o v s reached inside unused => ⟨_, exec_profileWrite v reached inside unused, onlyRegs_setReg s _ v, s.reg_setReg_same _ v⟩,
    fun o v s reached used => exec_profileWrite_busy v reached used, fun n s run => exec_streamResume run,
    fun n s waiting port => ⟨resumeStream_only s n, resumeStream_spec s n waiting port⟩,
    fun n s w next on going sound ticking fit due => exec_aditCloseSend next on going sound ticking fit due,
    fun n s on fed ticking => exec_aditRelease on fed ticking, fun n bound s off => sendEvents_unmapped s n bound off,
    fun n s few => ?transient, fun n i s spare => ?spare, fun n i s spent => ?retires, fun n s c w pending boundary => ?move⟩
  case enable =>
    obtain ⟨c, ⟨frame, own, others, regs⟩, word⟩ := streamEnabled_spec s n.toNat (cfg &&& 0x5FF03FFF#32)
    refine ⟨_, exec_streamEnable_starts reached stopped sound good, frame, word, fun a ha => regs a (by simpa using ha), others, ?_⟩
    rw [own]
    exact ⟨rfl, rfl, rfl, rfl⟩
  case stopEffect =>
    obtain ⟨⟨frame, own, others, regs⟩, off⟩ := stopped_spec s n.toNat ((s.stream n.toNat).discard (s.source n.toNat == 5)).badev
    refine ⟨_, exec_streamStopEffect stop next closed ended, frame, off, ?_, ?_, ?_, others, fun a ha => regs a (by simpa using ha)⟩ <;> rw [own] <;> rfl
  case abort =>
    let u := s.skipOpen n.toNat skABORTED
    obtain ⟨⟨-, own, -, -⟩, off⟩ := stopped_spec u n.toNat (sat32 ((u.stream n.toNat).badev + (u.stream n.toNat).events.length))
    refine ⟨_, exec_abort reached on rfl, off, ?_⟩
    rw [own]
    exact ⟨rfl, rfl, rfl⟩
  case profileNow =>
    exact ⟨_, exec_profileChange_now reached off, onlyRegs_setFld s _ _ (List.mem_singleton_self _),
      (streamProfile_setFld s _ _).trans (Nat.mod_eq_of_lt p.isLt)⟩
  case profileEffect =>
    obtain ⟨frame, own, others, regs⟩ := (onlyRegs_setFld s (F.ADIT_STREAM_CFG_PROFILE n.toNat) q (List.mem_singleton_self _)).thenStream
      (onlyStream_syncReset_setStream _ n.toNat { s.stream n.toNat with profPend := none } true)
    refine ⟨_, exec_profileChangeEffect pending boundary, frame, streamProfile_setFld s _ q, ?_, others, fun a ha => regs a (by simpa using ha)⟩
    rw [own]
    rfl
  case transient =>
    obtain ⟨frame, own, others⟩ := onlyStream_syncReset (s.recordFault (s.contextUnit n.toNat) false).2 n.toNat false
    refine ⟨_, exec_ctxFault_transient few, by rw [frame]; rfl, others, ?_⟩
    rw [own]
    rfl
  case spare =>
    refine ⟨_, exec_ctxFault_spare i spare, spares_spareReserved _ _ _, ?_, ?_, fun m other => ?_⟩
    · unfold State.spareReserved
      rw [State.stream_alarm, State.stream_setStream_same]
      rfl
    · exact State.bit_alarm _ _ _ rfl (by decide) (by decide) (by decide)
    · unfold State.spareReserved
      rw [State.stream_alarm, State.stream_setStream_ne _ _ other]
      rfl
  case retires =>
    obtain ⟨u, run⟩ := exec_ctxFault_retires i spent
    refine ⟨_, run, ?_, ?_, State.bit_alarm _ _ _ rfl (by decide) (by decide) (by decide)⟩ <;> rw [State.stream_alarm, State.stream_setStream_same]
  case move =>
    obtain ⟨ctx, done⟩ := moved_spec (s.stream n.toNat) c (s.winOf n.toNat s.tick)
    obtain ⟨frame, own, others⟩ := onlyStream_syncReset_setStream s n.toNat ((s.stream n.toNat).moved c (s.winOf n.toNat s.tick)) true
    refine ⟨_, exec_ctxMove pending boundary, frame, ?_, ?_, others⟩ <;> rw [own]
    · exact ctx
    · exact done

end Sys2Proof.Machine
end

section
/-! PROOFS.  Host-fed ingest and the replay buffer: BUNDLE, FRAME, REPLAY_READ, PLAN and PLAN_DONE (03_adit_ingest R99 to R105, R119, R121;
13_host_rings R422, R424, R432). -/

namespace Sys2Proof.Machine

section
variable {s : State} {r : Ring} {i : Word} {d : Slot}

/-! ### BUNDLE (R99 to R104) -/

/-- What a taken BUNDLE descriptor comes to: a bad field, ingest not ready, a payload that could not be read, or the payload's own answer. -/
theorem exec_bundle (taken : s.takenDesc r.toNat i.toNat 0 = some d) (pl : List Byte) (ok : Bool) :
    exec (.bundle r i pl ok) s = .next (if ingestBad d 1 32 65560 then s.complete r.toNat i.toNat stBAD_DESC 0 0 0
      else if !s.bit F.ADIT_STATUS_HOST_INGEST_READY then s.complete r.toNat i.toNat stNOT_READY 0 0 0
      else if !ok then s.dmaError.complete r.toNat i.toNat stDMA_ERR 0 0 0
      else (s.takeBundle (slotField d 20 2) (slotField d 16 4) pl).2.2.complete r.toNat i.toNat
        (s.takeBundle (slotField d 20 2) (slotField d 16 4) pl).1 0 0 (s.takeBundle (slotField d 20 2) (slotField d 16 4) pl).2.1) := by
  show execBundle r i pl ok s = _
  unfold execBundle
  dsimp only
  rw [taken]
  dsimp only
  obtain ⟨status, result, t⟩ := s.takeBundle (slotField d 20 2) (slotField d 16 4) pl
  simp only [apply_ite Host.Outcome.next]

/-- A bundle of the wrong magic number, version, channel count, length or CRC is refused and changes nothing. -/
theorem takeBundle_badFormat (s : State) (n len : Nat) (pl : List Byte) (bad : sliceLE pl 0 2 ≠ 0x7D01 ∨ (sliceLE pl 2 1 ≠ 2 ∧ sliceLE pl 2 1 ≠ 3) ∨
      sliceLE pl 3 1 = 0 ∨ 4 < sliceLE pl 3 1 ∨ len ≠ 32 + 8 * sliceLE pl 16 2 ∨ 8191 < sliceLE pl 16 2 ∨
      (sliceLE pl 2 1 = 3 ∧ crc32 (pl.take 28 ++ [0, 0, 0, 0] ++ pl.drop 32) ≠ sliceLE pl 28 4)) : s.takeBundle n len pl = (0x05, 0, s) := by
  unfold State.takeBundle
  dsimp only
  refine if_pos ?_
  simp only [Bool.or_eq_true, Bool.and_eq_true, bne_iff_ne, beq_iff_eq, Bool.not_eq_true', Bool.or_eq_false_iff, beq_eq_false_iff_ne, decide_eq_true_eq]
  tauto

/-- A bundle that repeats the SEQ of the last one is refused, if not for its format, as a duplicate; it changes nothing either way. -/
theorem takeBundle_repeated (s : State) (n len : Nat) (pl : List Byte) (again : (s.stream n).seq = some (sliceLE pl 24 4)) :
    s.takeBundle n len pl = (0x06, 0, s) ∨ s.takeBundle n len pl = (0x05, 0, s) := by
  unfold State.takeBundle
  dsimp only
  split
  · exact .inr rfl
  · exact .inl rfl

/-! ### FRAME (R105) -/

/-- What a taken FRAME descriptor comes to. -/
theorem exec_frame (taken : s.takenDesc r.toNat i.toNat 0 = some d) (pl : List Byte) (ok : Bool) :
    exec (.frame r i pl ok) s = .next (if ingestBad d 2 32 12320 || !slotZero d 20 22 then s.complete r.toNat i.toNat stBAD_DESC 0 0 0
      else if !s.bit F.ADIT_STATUS_HOST_INGEST_READY then s.complete r.toNat i.toNat stNOT_READY 0 0 0
      else if !ok then s.dmaError.complete r.toNat i.toNat stDMA_ERR 0 0 0
      else (s.takeFrame (slotField d 16 4) pl).2.2.complete r.toNat i.toNat (s.takeFrame (slotField d 16 4) pl).1 0 0
        (s.takeFrame (slotField d 16 4) pl).2.1) := by
  show execFrame r i pl ok s = _
  unfold execFrame
  dsimp only
  rw [taken]
  dsimp only
  obtain ⟨status, result, t⟩ := s.takeFrame (slotField d 16 4) pl
  simp only [apply_ite Host.Outcome.next]

/-! ### REPLAY_READ (R121) -/

/-- A field of a REPLAY_READ descriptor is bad (R424, Table HOST-6). -/
def State.replayBad (s : State) (d : Slot) : Bool :=
  slotField d 0 1 != 3 || !slotZero d 1 4 || !slotZero d 8 20 || !slotZero d 23 24 || !slotZero d 40 56 || !s.isExportRing (slotField d 22 1)

theorem replayBad_eq_false (op : slotField d 0 1 = 3) (z1 : slotZero d 1 4 = true) (z2 : slotZero d 8 20 = true) (z3 : slotZero d 23 24 = true)
    (z4 : slotZero d 40 56 = true) (ring : s.isExportRing (slotField d 22 1) = true) : s.replayBad d = false := by
  unfold State.replayBad
  rw [op, z1, z2, z3, z4, ring]
  rfl

/-- The retained blocks that hold a sample of the span a descriptor asks for, oldest first. -/
def State.replayHits (s : State) (d : Slot) : List Block :=
  (s.stream (slotField d 20 2)).blocks.reverse.filter
    (fun k => decide (k.ts < slotField d 32 8) && decide (slotField d 24 8 < k.ts + 16 * s.procPeriod (slotField d 20 2)))

/-- The end of the newest retained block, 0 when none is retained. -/
def State.replayEnd (s : State) (n : Nat) : Nat :=
  match (s.stream n).blocks with | [] => 0 | k :: _ => k.ts + 16 * s.procPeriod n

/-- INCOMPLETE when the span asked for goes on beyond the newest block. -/
def State.replayFlags (s : State) (d : Slot) : Nat := if s.replayEnd (slotField d 20 2) < slotField d 32 8 then cfINCOMPLETE else 0

/-- What a read sends of the blocks `sent`, when `lost` of its span were overwritten. -/
def State.replayOutput (s : State) (r i : Nat) (d : Slot) (lost : Nat) (sent : List Block) : ExportReq :=
  { ring := r, idx := i, tag := slotField d 4 4, bytes := (sent.map blockExport).flatten,
    cflags := (if 0 < lost then cfOVERRUN else 0) + s.replayFlags d, aux := min lost 65535, result := sent.length }

/-- A good read outside a plan: the blocks of its span but the `lost` overwritten ones are sent, and with none to send it completes. -/
def State.replaySend (s : State) (r i : Nat) (d : Slot) (lost : Nat) : State :=
  if ((s.replayHits d).drop lost).isEmpty then s.complete r i stOK ((if 0 < lost then cfOVERRUN else 0) + s.replayFlags d) (min lost 65535) 0
  else s.exportOut (slotField d 22 1) (s.replayOutput r i d lost ((s.replayHits d).drop lost))

/-- What a taken REPLAY_READ descriptor comes to: a bad field, a plan in progress, or the blocks of its span. -/
theorem exec_replayRead (taken : s.takenDesc r.toNat i.toNat 0 = some d) (o : Nat) :
    exec (.replayRead r i o) s = .next (if s.replayBad d then s.complete r.toNat i.toNat stBAD_DESC 0 0 0
      else if s.bit F.ADIT_REPLAY_CTRL_PLANNING then s.complete r.toNat i.toNat stOK cfOVERRUN 0 0
      else s.replaySend r.toNat i.toNat d (min o (s.replayHits d).length)) := by
  show execReplayRead r i o s = _
  unfold execReplayRead
  dsimp only
  rw [taken]
  unfold State.replaySend
  simp only [apply_ite Host.Outcome.next]
  rfl

theorem exec_replayRead_none (taken : s.takenDesc r.toNat i.toNat 0 = some d) (good : s.replayBad d = false)
    (idle : s.bit F.ADIT_REPLAY_CTRL_PLANNING = false) (empty : (s.stream (slotField d 20 2)).blocks = []) (span : slotField d 32 8 = 0) :
    exec (.replayRead r i 0) s = .next (s.complete r.toNat i.toNat 0x00 0 0 0) := by
  have hits : s.replayHits d = [] := by
    unfold State.replayHits
    rw [empty]
    rfl
  have flags : s.replayFlags d = 0 := by
    unfold State.replayFlags
    rw [span]
    exact if_neg (Nat.not_lt_zero _)
  rw [exec_replayRead taken, if_neg (by simp [good]), if_neg (by simp [idle]), Nat.zero_min]
  unfold State.replaySend
  rw [hits, flags]
  rfl

theorem exec_replayRead_one {b : Block} (taken : s.takenDesc r.toNat i.toNat 0 = some d) (good : s.replayBad d = false)
    (idle : s.bit F.ADIT_REPLAY_CTRL_PLANNING = false) (one : (s.stream (slotField d 20 2)).blocks = [b]) (before : b.ts < slotField d 32 8)
    (after : slotField d 24 8 < b.ts + 16 * s.procPeriod (slotField d 20 2)) : exec (.replayRead r i 0) s = .next (s.exportOut (slotField d 22 1)
      { ring := r.toNat, idx := i.toNat, tag := slotField d 4 4, bytes := blockExport b,
        cflags := (if b.ts + 16 * s.procPeriod (slotField d 20 2) < slotField d 32 8 then 8 else 0), aux := 0, result := 1 }) := by
  have hits : s.replayHits d = [b] := by
    unfold State.replayHits
    rw [one]
    simp [before, after]
  have flags : s.replayFlags d = if b.ts + 16 * s.procPeriod (slotField d 20 2) < slotField d 32 8 then 8 else 0 := by
    unfold State.replayFlags State.replayEnd
    rw [one]
    rfl
  rw [exec_replayRead taken, if_neg (by simp [good]), if_neg (by simp [idle]), Nat.zero_min]
  unfold State.replaySend State.replayOutput
  rw [hits, flags, List.drop_zero, List.map_singleton, List.flatten_singleton, if_neg (Nat.lt_irrefl 0), Nat.zero_add]
  rfl

end

/-! ### PLAN and PLAN_DONE (R119) -/

/-- A fold that writes each listed stream from its own value leaves in a listed stream what every such write leaves. -/
theorem stream_foldl_setStream (f : StreamSt → StreamSt) (P : StreamSt → Prop) (made : ∀ st, P (f st)) (l : List Nat) (n : Nat) :
    ∀ s : State, n ∈ l ∨ P (s.stream n) → P ((l.foldl (fun a m => a.setStream m (f (a.stream m))) s).stream n) := by
  induction l with
  | nil => exact fun s found => found.resolve_left List.not_mem_nil
  | cons m t ih =>
    intro s found
    rw [List.foldl_cons]
    refine ih _ ?_
    by_cases first : n = m
    · subst first
      rw [State.stream_setStream_same]
      exact .inr (made _)
    · rw [State.stream_setStream_ne _ _ first]
      exact found.imp_left fun listed => (List.mem_cons.1 listed).resolve_left first

/-- The state with every stream's history discarded. -/
def State.historyGone (s : State) : State :=
  (s.streams.map Prod.fst).foldl (fun a n => a.setStream n { a.stream n with cap := 0, blocks := [] }) s

theorem historyGone_only (s : State) : OnlyStreams s s.historyGone := OnlyStreams.foldl _ (fun a n => onlyStreams_set a n _) _ s

theorem historyGone_stream (s : State) {n : Nat} (listed : n ∈ s.streams.map Prod.fst) :
    (s.historyGone.stream n).cap = 0 ∧ (s.historyGone.stream n).blocks = [] :=
  stream_foldl_setStream (fun st => { st with cap := 0, blocks := [] }) (fun st => st.cap = 0 ∧ st.blocks = []) (fun _ => ⟨rfl, rfl⟩) _ n s (.inl listed)

/-- The registers of a plan in progress, done, and ready to be read. -/
def State.showPlan (s : State) (planning planned ready : Bool) : State :=
  ((s.setBit F.ADIT_REPLAY_CTRL_PLANNING planning).setBit F.ADIT_REPLAY_CTRL_PLANNED planned).setBit F.ADIT_STATUS_REPLAY_READY ready

theorem showPlan_spec (s : State) (planning planned ready : Bool) :
    s.showPlan planning planned ready = { s with regs := (s.showPlan planning planned ready).regs } ∧
    (s.showPlan planning planned ready).bit F.ADIT_REPLAY_CTRL_PLANNING = planning ∧
    (s.showPlan planning planned ready).bit F.ADIT_REPLAY_CTRL_PLANNED = planned ∧
    (s.showPlan planning planned ready).bit F.ADIT_STATUS_REPLAY_READY = ready := by
  refine ⟨rfl, ?_, ?_, State.bit_setBit_same _ _ _ rfl (by decide)⟩
  · unfold State.showPlan
    rw [State.bit_setBit_other _ _ _ _ (by decide), State.bit_setBit_other _ _ _ _ (by decide), State.bit_setBit_same _ _ _ rfl (by decide)]
  · unfold State.showPlan
    rw [State.bit_setBit_other _ _ _ _ (by decide), State.bit_setBit_same _ _ _ rfl (by decide)]

/-- The state in which the plan has begun: no history is retained, and the sampled streams enabled now are the plan's. -/
def State.planBegun (s : State) : State := { s.historyGone with planSet := s.enabledStreams.filter (fun n => s.source n ≤ 4) }

theorem planBegun_keeps (s : State) : s.planBegun = { s with streams := s.planBegun.streams, planSet := s.planBegun.planSet } := by
  unfold State.planBegun
  rw [historyGone_only s]

theorem exec_plan {s : State} (reached : Reached s 2) : exec .plan s = .next (s.planBegun.showPlan true false false) :=
  gate_reached s reached _

/-- The share of the replay buffer that a plan gives a stream, in blocks. -/
def State.planShare (s : State) (n : Nat) : Nat :=
  if (s.planSet.map s.fsOut).sum = 0 then 0 else ((replayBlocks : Rat) * s.fsOut n / (s.planSet.map s.fsOut).sum).floor.toNat

/-- The state in which each stream of the plan has its share. -/
def State.shared (s : State) : State := s.planSet.foldl (fun a n => a.setStream n { a.stream n with cap := s.planShare n }) s

theorem shared_only (s : State) : OnlyStreams s s.shared := OnlyStreams.foldl _ (fun a n => onlyStreams_set a n _) _ s

/-- Sharing the buffer discards no block. -/
theorem blocks_shared (s : State) (n : Nat) : (s.shared.stream n).blocks = (s.stream n).blocks := by
  refine foldl_same (fun a : State => (a.stream n).blocks) _ (fun a m => ?_) s.planSet s
  by_cases own : n = m
  · subst own
    rw [State.stream_setStream_same]
  · rw [State.stream_setStream_ne _ _ own]

theorem exec_planDone {s : State} (planning : s.bit F.ADIT_REPLAY_CTRL_PLANNING = true) :
    exec .planDone s = .next (({ s.shared with planSet := [] } : State).showPlan false true s.power.hbm) := by
  have hbm : s.shared.power.hbm = s.power.hbm := by rw [shared_only s]
  show execPlanDone s = _
  unfold execPlanDone
  dsimp only
  rw [planning, ← hbm]
  rfl

/-- Settles O18: what each descriptor comes to, case by case, and the two ends of a plan. -/
theorem hostIngestCompletesItsDescriptors : Obligations.HostIngestCompletesItsDescriptors := by
  unfold Obligations.HostIngestCompletesItsDescriptors
  refine ⟨fun r i pl ok s d taken bad => ?bundleBad, fun r i pl ok s d taken good off => ?bundleOff, fun r i pl s d taken good ready => ?bundle,
    fun s n len pl bad => takeBundle_badFormat s n len pl bad, fun s n len pl again => ?status, fun s n len pl again => ?unchanged,
    fun r i pl ok s d taken bad => ?frameBad, fun r i pl s d taken good ready => ?frame, fun r i o s d taken bad => ?readBad,
    fun r i o s d taken op z1 z2 z3 z4 ring planning => ?readPlanning,
    fun r i s d taken op z1 z2 z3 z4 ring idle empty span => exec_replayRead_none taken (replayBad_eq_false op z1 z2 z3 z4 ring) idle empty span,
    fun r i s d b taken op z1 z2 z3 z4 ring idle one before after =>
      exec_replayRead_one taken (replayBad_eq_false op z1 z2 z3 z4 ring) idle one before after,
    fun s reached => ?plan, fun s on => ?planDone⟩
  case bundleBad =>
    rw [exec_bundle taken, if_pos bad]
    rfl
  case bundleOff =>
    rw [exec_bundle taken, if_neg (by simp [good]), if_pos (by simp [off])]
    rfl
  case bundle =>
    refine ⟨?_, ?_⟩ <;> rw [exec_bundle taken, if_neg (by simp [good]), if_neg (by simp [ready])]
    · rw [if_pos (by decide)]
      rfl
    · rw [if_neg (by decide)]
  case status => exact (takeBundle_repeated s n len pl again).imp (congrArg Prod.fst) (congrArg Prod.fst)
  case unchanged => exact (takeBundle_repeated s n len pl again).elim (congrArg Prod.snd) (congrArg Prod.snd)
  case frameBad =>
    rw [exec_frame taken, if_pos bad]
    rfl
  case frame =>
    refine ⟨?_, ?_⟩ <;> rw [exec_frame taken, if_neg (by simp [good]), if_neg (by simp [ready])]
    · rw [if_pos (by decide)]
      rfl
    · rw [if_neg (by decide)]
  case readBad =>
    rw [exec_replayRead taken, if_pos (by simp [State.replayBad, bad])]
    rfl
  case readPlanning =>
    rw [exec_replayRead taken, if_neg (by simp [replayBad_eq_false op z1 z2 z3 z4 ring]), if_pos planning]
    rfl
  case plan =>
    obtain ⟨frame, planning, planned, ready⟩ := showPlan_spec s.planBegun true false false
    refine ⟨_, exec_plan reached, ?_, planning, planned, ready, rfl, fun n listed => historyGone_stream s listed⟩
    rw [frame, planBegun_keeps s]
  case planDone =>
    obtain ⟨frame, planning, planned, ready⟩ := showPlan_spec { s.shared with planSet := [] } false true s.power.hbm
    refine ⟨_, exec_planDone on, ?_, planning, planned, ready, fun n _ => blocks_shared s n⟩
    rw [frame, shared_only s]

end Sys2Proof.Machine
end

section
/-! PROOFS.  A core's SRAM and registers after their writes, and the order in which RECV takes held messages (04_gallery_fabric R142, R145,
R147; 05_flint_instructions R164; 06_spiking_execution R192). -/

namespace Sys2Proof.Machine

/-! ### Memory and registers of a core -/

theorem byte_store (k : CoreSt) (a : Nat) (bs : List Byte) (x : Nat) :
    (k.store a bs).byte x = if a ≤ x ∧ x < a + bs.length then bs.getD (x - a) 0 else k.byte x :=
  foldl_tset_get _ a bs x bs.length le_rfl k.sram

theorem isWritten_store (k : CoreSt) (a : Nat) (bs : List Byte) (w : Nat) :
    (k.store a bs).isWritten w = true ↔ k.isWritten w = true ∨ ∃ x, a ≤ x ∧ x < a + bs.length ∧ x / 8 = w := by
  rw [← mem_wordsOf]
  exact foldl_true_get _ w k.written

/-- A byte of a stored list reads back. -/
theorem byte_store_inside (k : CoreSt) (a : Nat) (bs : List Byte) {j : Nat} (inside : j < bs.length) :
    (k.store a bs).byte (a + j) = bs.getD j 0 := by
  rw [byte_store, if_pos (by omega), Nat.add_sub_cancel_left]

theorem bytes_store_same (k : CoreSt) (a : Nat) (bs : List Byte) : (k.store a bs).bytes a bs.length = bs := by
  refine List.ext_getElem (by simp [CoreSt.bytes]) fun i _ inside => ?_
  have read : ((k.store a bs).bytes a bs.length)[i]'(by simpa [CoreSt.bytes] using inside) = (k.store a bs).byte (a + i) := by
    simp [CoreSt.bytes, CoreSt.byte]
  rw [read, byte_store_inside k a bs inside, List.getD_eq_getElem _ _ inside]

theorem s_setS (k : CoreSt) (r q : SReg) (v : Word) : (k.setS r v).s q = if q = r ∧ r ≠ 0 then v else k.s q := by
  unfold CoreSt.setS CoreSt.s
  by_cases zero : r = 0
  · simp [zero]
  · rw [if_neg zero]
    by_cases own : q = r
    · rw [own, if_neg zero, if_pos ⟨rfl, zero⟩, tget_tset_same]
    · have apart : q.toNat ≠ r.toNat := fun same => own (BitVec.eq_of_toNat_eq same)
      simp [own, tget_tset_ne _ _ _ apart]

theorem v_setV (k : CoreSt) (r q : VReg) (x : Sliver) : (k.setV r x).v q = if q = r then x else k.v q := by
  unfold CoreSt.setV CoreSt.v
  by_cases own : q = r
  · subst own
    simp
  · have apart : q.toNat ≠ r.toNat := fun same => own (BitVec.eq_of_toNat_eq same)
    rw [if_neg own, tget_tset_ne _ _ _ apart]

theorem setS_keeps (k : CoreSt) (r : SReg) (v : Word) : k.setS r v = { k with sregs := (k.setS r v).sregs } := by
  unfold CoreSt.setS
  split <;> rfl

/-- Settles O5: the tables' laws of a read after a write, for bytes, words written and registers. -/
theorem storedBytesReadBackAndOthersStand : Obligations.StoredBytesReadBackAndOthersStand := by
  unfold Obligations.StoredBytesReadBackAndOthersStand
  exact ⟨byte_store, isWritten_store, fun _ _ _ => rfl, bytes_store_same, s_setS, fun _ => rfl, v_setV, setS_keeps, fun _ _ _ => rfl⟩

/-! ### Held messages (R142, R145) -/

/-- A message that is placed stands last, in the inbox or in the overflow area. -/
theorem held_place (k : CoreSt) (m : Msg) : ∃ b, (k.place m).held = k.held ++ [(b, m)] := by
  unfold CoreSt.place
  split
  · exact ⟨false, rfl⟩
  · exact ⟨true, rfl⟩

/-- Draining the core port places its first messages, in their order, and leaves the others in it. -/
theorem held_drain (q : List (Nat × Msg)) : ∀ k : CoreSt, ∃ n : Nat,
    (k.drain q).held.map Prod.snd = k.held.map Prod.snd ++ (q.take n).map Prod.snd ∧ (k.drain q).portQ = q.drop n := by
  induction q with
  | nil => exact fun k => ⟨0, by simp [CoreSt.drain], rfl⟩
  | cons e r ih =>
    intro k
    obtain ⟨x, m⟩ := e
    unfold CoreSt.drain
    split
    · obtain ⟨b, last⟩ := held_place k m
      obtain ⟨n, held, left⟩ := ih (k.place m)
      exact ⟨n + 1, by simp [held, last], left⟩
    · exact ⟨0, by simp, rfl⟩

theorem sregs_drain (q : List (Nat × Msg)) : ∀ k : CoreSt, (k.drain q).sregs = k.sregs := by
  induction q with
  | nil => exact fun _ => rfl
  | cons e r ih =>
    intro k
    obtain ⟨x, m⟩ := e
    unfold CoreSt.drain
    split
    · rw [ih]
      unfold CoreSt.place
      split <;> rfl
    · rfl

/-- When nothing ejects into a free place, draining leaves SRAM as it is. -/
theorem sram_drain {k : CoreSt} {q : List (Nat × Msg)} (still : (k.drain q).held = k.held) : (k.drain q).sram = k.sram := by
  cases q with
  | nil => rfl
  | cons e r =>
    obtain ⟨x, m⟩ := e
    unfold CoreSt.drain at still ⊢
    split at still
    · obtain ⟨b, last⟩ := held_place k m
      obtain ⟨n, held, -⟩ := held_drain r (k.place m)
      rw [still, last] at held
      simpa using congrArg List.length held
    · next full => rw [if_neg full]

theorem length_flitBytes (l : List Word64) : (flitBytes l).length = 8 * l.length := by
  simp [flitBytes, List.length_flatMap, bytesLE_length, Nat.mul_comm]

/-! ### RECV -/

/-- A core after RECV has stored the first held message at `a`, reported it in `rd` and taken it away (R145). -/
def CoreSt.received (k : CoreSt) (rd : SReg) (a : Nat) (m : Msg) (rest : List (Bool × Msg)) : CoreSt :=
  ((k.store a (flitBytes (msgFlits m))).setS rd (recvWord m)).takeHeld rest

/-- How RECV completes: the core has received the message, and the core's program then acts on it. -/
def CoreSt.recvDone (k : CoreSt) (c : Nat) (rd : SReg) (a : Nat) (m : Msg) (rest : List (Bool × Msg)) : Done :=
  { core := k.received rd a m rest, cycles := 2 + m.payload.length, post := fun t => t.took c m }

/-- RECV of a held message that lands where the program may write: the core has received it, and its program then acts on it. -/
theorem exec_recv {i : Issue} {rd ra : SReg} {s : State} {k : CoreSt} {w : Nat} {b : Bool} {m : Msg} {rest : List (Bool × Msg)}
    (fetched : Fetches s i k w) (first : k.held = (b, m) :: rest) (aligned : (k.s ra).toNat % 8 = 0)
    (writable : memFault k (k.s ra).toNat (8 + 8 * m.payload.length) 8 = none) :
    ∃ t0 : State, exec (.recv i rd ra 0) s = .next (t0.took i.core.val m) ∧ OnlyCore s t0 i.core.val ∧ ∃ pc busy,
      t0.core i.core.val = { k.received rd (k.s ra).toNat m rest with pc := pc, busy := busy, haz := [], hazWait := 0 } := by
  obtain ⟨t0, ⟨only, core⟩, done, -⟩ := commit_post s i k (s.coreCycle i.core.val + (s.core i.core.val).interlock (hazS ra) + w)
    (k.recvDone i.core.val rd (k.s ra).toNat m rest)
  refine ⟨t0, ?_, only, _, _, core⟩
  have post : (k.recvDone i.core.val rd (k.s ra).toNat m rest).post t0 = t0.took i.core.val m := rfl
  rw [← post, ← done, ← issue_done fetched (hazS ra) _ _ _ rfl]
  · rfl
  · simp [aligned, first, writable, CoreSt.recvDone, CoreSt.received]

theorem received_spec (k : CoreSt) (rd : SReg) (a : Nat) (m : Msg) (rest : List (Bool × Msg)) :
    rest.map Prod.snd <+: (k.received rd a m rest).held.map Prod.snd ∧ (rd ≠ 0 → (k.received rd a m rest).s rd = recvWord m) ∧
    ∀ j, j < 8 + 8 * m.payload.length → (k.received rd a m rest).held = rest →
      (k.received rd a m rest).byte (a + j) = (flitBytes (msgFlits m)).getD j 0 := by
  refine ⟨?_, fun nonzero => ?_, fun j inside still => ?_⟩
  · obtain ⟨n, held, -⟩ := held_drain _ { (k.store a (flitBytes (msgFlits m))).setS rd (recvWord m) with
      held := rest, recvd := sat32 (((k.store a (flitBytes (msgFlits m))).setS rd (recvWord m)).recvd + 1) }
    exact ⟨_, held.symm⟩
  · have same : (k.received rd a m rest).s rd = ((k.store a (flitBytes (msgFlits m))).setS rd (recvWord m)).s rd := by
      unfold CoreSt.s CoreSt.received CoreSt.takeHeld
      rw [sregs_drain]
    rw [same, s_setS, if_pos ⟨rfl, nonzero⟩]
  · have sram : (k.received rd a m rest).sram = (k.store a (flitBytes (msgFlits m))).sram := by
      unfold CoreSt.received CoreSt.takeHeld
      rw [sram_drain still, setS_keeps]
    have same : (k.received rd a m rest).byte (a + j) = (k.store a (flitBytes (msgFlits m))).byte (a + j) := by
      unfold CoreSt.byte
      rw [sram]
    rw [same, byte_store_inside]
    rw [length_flitBytes, msgFlits, List.length_cons]
    omega

/-- Settles O57: placing appends, draining appends in order, and RECV takes the first message held. -/
theorem receiveTakesMessagesInTheOrderOfEjection : Obligations.ReceiveTakesMessagesInTheOrderOfEjection := by
  unfold Obligations.ReceiveTakesMessagesInTheOrderOfEjection
  refine ⟨held_place, fun k q => held_drain q k, fun i rd ra s k w b m rest fetched first aligned writable => ?_⟩
  obtain ⟨t0, run, only, pc, busy, core⟩ := exec_recv (rd := rd) fetched first aligned writable
  refine ⟨t0, _, run, rfl, only, ?_⟩
  rw [core]
  exact received_spec k rd _ m rest

end Sys2Proof.Machine
end

section
/-! PROOFS.  The commands of a core group: when each is taken, what it does, and its refusal elsewhere (04_gallery_fabric R151, Table GAL-8;
05_flint_instructions R186, R188; 15_power_health R479, R498). -/

namespace Sys2Proof.Machine

/-! ### A group's state and readiness -/

/-- The registers in which a group's state shows. -/
def groupRegs (g : Nat) : List Nat := [R.GAL_GROUP_STATUS g, R.GAL_GROUP_READY_LO, R.GAL_GROUP_READY_HI]

/-- The register of a group's ready bit. -/
def readyReg (g : Nat) : Nat := if g < 32 then R.GAL_GROUP_READY_LO else R.GAL_GROUP_READY_HI

theorem readyReg_listed (g : Nat) : readyReg g ∈ groupRegs g := by
  unfold readyReg groupRegs
  split <;> simp

theorem groupStatus_ne_readyReg (g : Nat) : R.GAL_GROUP_STATUS g ≠ readyReg g := by
  unfold readyReg R.GAL_GROUP_STATUS R.GAL_GROUP_READY_LO R.GAL_GROUP_READY_HI
  split <;> omega

theorem onlyRegs_setGroupState (s : State) (g st : Nat) : OnlyRegs s (s.setGroupState g st) (groupRegs g) :=
  (onlyRegs_setFld s _ _ List.mem_cons_self).trans (onlyRegs_setRegBit _ _ _ _ (readyReg_listed g))

theorem groupState_setGroupState (s : State) (g : Nat) {st : Nat} (small : st < 16) : (s.setGroupState g st).groupState g = st :=
  (State.fld_setRegBit_ne _ (F.GAL_GROUP_STATUS_STATE g) (readyReg g) _ _ (groupStatus_ne_readyReg g)).trans
    ((s.fld_setFld_same (F.GAL_GROUP_STATUS_STATE g) st (by decide : 16 + 4 ≤ 32)).trans (Nat.mod_eq_of_lt small))

theorem ready_setGroupState (s : State) (g st : Nat) :
    (s.setGroupState g st).regBit (readyReg g) (g % 32) = (decide (2 ≤ st) && decide (st ≤ 6)) :=
  State.regBit_setRegBit_same _ _ _ _ (Nat.mod_lt g (by decide))

theorem groupState_setLoaded (s : State) (g : Nat) (b : Bool) : (s.setBit (F.GAL_GROUP_STATUS_LOADED g) b).groupState g = s.groupState g :=
  s.fld_setBit_other _ _ b (.inr (.inr (by decide : 12 + 1 ≤ 16)))

theorem loaded_setLoaded (s : State) (g : Nat) (b : Bool) : (s.setBit (F.GAL_GROUP_STATUS_LOADED g) b).bit (F.GAL_GROUP_STATUS_LOADED g) = b :=
  s.bit_setBit_same _ b rfl (by decide : 12 < 32)

theorem groupState_setGrp (s : State) (g h : Nat) (v : GroupSt) : (s.setGrp h v).groupState g = s.groupState g := rfl

theorem core_setGroupState (s : State) (g st c : Nat) : (s.setGroupState g st).core c = s.core c := rfl

theorem grp_setGroupState (s : State) (g st h : Nat) : (s.setGroupState g st).grp h = s.grp h := rfl

/-- A bit of a register in which the group's state does not show reads as before. -/
theorem bit_setGroupState (s : State) (g st : Nat) {f : Fld} (other : f.addr ∉ groupRegs g) : (s.setGroupState g st).bit f = s.bit f :=
  bit_of_reg ((onlyRegs_setGroupState s g st).2 _ other)

theorem OnlyCores.lantern {s t : State} (h : OnlyCores s t) : t.lantern = s.lantern := by
  unfold OnlyCores at h
  rw [h]

section
variable {s : State} {g : Group}

/-! ### Commands taken (Table GAL-8) -/

/-- STOP parks the streams with no window to close at once (the model's choice, assumption 21). -/
theorem exec_stop (reached : Reached s 3) (awake : s.power.quiet = false) (running : s.groupState g.toNat = 4) (free : (s.grp g.toNat).pend = none) :
    exec (.stop g) s = .next (((s.groupStreams g.toNat).filter (fun n => !(s.enabled n && (s.stream n).nextWin.isSome))).foldl
      (fun a n => a.setBit (F.GAL_STREAM_MAP_PARKED n) true) (s.setGroupState g.toNat 5)) := by
  show groupGate g s _ = _
  rw [groupGate_ok s g _ reached awake, if_neg (by simp [running, free, gsRUNNING])]
  rfl

theorem exec_start (reached : Reached s 3) (awake : s.power.quiet = false) (loaded : s.bit (F.GAL_GROUP_STATUS_LOADED g.toNat) = true) :
    exec (.start g) s = .next (s.holdCmd g.toNat 2 gsIDLE) := by
  show groupGate g s _ = _
  rw [groupGate_ok s g _ reached awake, if_neg (by simp [loaded])]

theorem exec_freeze (reached : Reached s 3) (awake : s.power.quiet = false) : exec (.freeze g) s = .next (s.holdCmd g.toNat 5 gsRUNNING) :=
  groupGate_ok s g _ reached awake

theorem exec_thaw (reached : Reached s 3) (awake : s.power.quiet = false) : exec (.thaw g) s = .next (s.holdCmd g.toNat 6 gsFROZEN) :=
  groupGate_ok s g _ reached awake

theorem exec_reset (reached : Reached s 3) (awake : s.power.quiet = false) (still : s.groupState g.toNat = 2 ∨ s.groupState g.toNat = 6)
    (free : (s.grp g.toNat).pend = none) : exec (.reset g) s = .next (s.toTest g.toNat) := by
  show groupGate g s _ = _
  rw [groupGate_ok s g _ reached awake]
  exact if_pos ⟨still, by rw [free]; rfl⟩

theorem exec_selftest (reached : Reached s 3) (awake : s.power.quiet = false) (idle : s.groupState g.toNat = 2)
    (free : (s.grp g.toNat).pend = none) : exec (.selftest g) s = .next (s.toTest g.toNat) := by
  show groupGate g s _ = _
  rw [groupGate_ok s g _ reached awake]
  exact if_pos ⟨idle, by rw [free]; rfl⟩

/-- The group in TEST, holding no program, before its cores are reset (Table GAL-16). -/
def State.programGone (s : State) (g : Nat) : State :=
  ((s.setGroupState g gsTEST).setBit (F.GAL_GROUP_STATUS_LOADED g) false).setGrp g { s.grp g with halting := false, image := [], nets := [] }

theorem toTest_eq (s : State) (g : Nat) :
    s.toTest g = (groupCoresAt g).foldl (fun a c => a.setCore c ((a.core c).resetCore s.cycleNow true)) (s.programGone g) := by
  unfold State.toTest State.programGone
  dsimp only
  rw [State.grp_setBit, grp_setGroupState]

theorem groupState_programGone (s : State) (g : Nat) : (s.programGone g).groupState g = 0 := by
  unfold State.programGone
  rw [groupState_setGrp, groupState_setLoaded, groupState_setGroupState s g (by decide), gsTEST]

theorem loaded_programGone (s : State) (g : Nat) : (s.programGone g).bit (F.GAL_GROUP_STATUS_LOADED g) = false := by
  unfold State.programGone
  rw [State.bit_setGrp, loaded_setLoaded]

theorem grp_programGone (s : State) (g : Nat) : (s.programGone g).grp g = { s.grp g with halting := false, image := [], nets := [] } := by
  unfold State.programGone
  rw [State.grp_setGrp_same]

theorem core_programGone (s : State) (g c : Nat) : (s.programGone g).core c = s.core c := by
  unfold State.programGone
  rw [State.core_setGrp, State.core_setBit, core_setGroupState]

/-- In TEST every core of the group has been reset and the group holds no program (R151). -/
theorem toTest_spec (s : State) (g : Nat) : (s.toTest g).groupState g = 0 ∧ (s.toTest g).bit (F.GAL_GROUP_STATUS_LOADED g) = false ∧
    (s.toTest g).grp g = { s.grp g with halting := false, image := [], nets := [] } ∧
    ∀ c, (s.toTest g).core c = if c ∈ groupCoresAt g then (s.core c).resetCore s.cycleNow true else s.core c := by
  rw [toTest_eq]
  have cores := foldl_setCore_only (fun a c => (a.core c).resetCore s.cycleNow true) (groupCoresAt g) (s.programGone g)
  refine ⟨?_, ?_, ?_, fun c => ?_⟩
  · rw [cores.groupState, groupState_programGone]
  · rw [cores.bit, loaded_programGone]
  · rw [cores.grp, grp_programGone]
  · rw [foldl_setCore_get (fun k => k.resetCore s.cycleNow true) (fun _ => rfl), core_programGone]

/-! ### Commands refused -/

theorem stop_refused (reached : Reached s 3) (no : s.power.quiet = true ∨ s.groupState g.toNat ≠ 4 ∨ (s.grp g.toNat).pend ≠ none) :
    Answers (.stop g) s (fun t => OnlyAlarm s t F.GAL_ALARM_CMD_REFUSED) :=
  groupGate_refused s g _ reached fun awake => if_pos ((no.resolve_left (by simp [awake])).imp_right Option.isSome_iff_ne_none.2)

theorem start_refused (reached : Reached s 3)
    (no : s.power.quiet = true ∨ s.bit (F.GAL_GROUP_STATUS_LOADED g.toNat) = false ∨ s.groupState g.toNat ≠ 2 ∨ (s.grp g.toNat).pend ≠ none) :
    Answers (.start g) s (fun t => OnlyAlarm s t F.GAL_ALARM_CMD_REFUSED) := by
  refine groupGate_refused s g _ reached fun awake => ?_
  dsimp only
  split
  · rfl
  · next loaded => rw [holdCmd_refuse s g.toNat 2 gsIDLE ((no.resolve_left (by simp [awake])).resolve_left (by simpa using loaded))]

theorem freeze_refused (reached : Reached s 3) (no : s.power.quiet = true ∨ s.groupState g.toNat ≠ 4 ∨ (s.grp g.toNat).pend ≠ none) :
    Answers (.freeze g) s (fun t => OnlyAlarm s t F.GAL_ALARM_CMD_REFUSED) :=
  groupGate_refused s g _ reached fun awake => congrArg _ (holdCmd_refuse s g.toNat 5 gsRUNNING (no.resolve_left (by simp [awake])))

theorem thaw_refused (reached : Reached s 3) (no : s.power.quiet = true ∨ s.groupState g.toNat ≠ 6 ∨ (s.grp g.toNat).pend ≠ none) :
    Answers (.thaw g) s (fun t => OnlyAlarm s t F.GAL_ALARM_CMD_REFUSED) :=
  groupGate_refused s g _ reached fun awake => congrArg _ (holdCmd_refuse s g.toNat 6 gsFROZEN (no.resolve_left (by simp [awake])))

theorem reset_refused (reached : Reached s 3)
    (no : s.power.quiet = true ∨ (s.groupState g.toNat ≠ 2 ∧ s.groupState g.toNat ≠ 6) ∨ (s.grp g.toNat).pend ≠ none) :
    Answers (.reset g) s (fun t => OnlyAlarm s t F.GAL_ALARM_CMD_REFUSED) := by
  refine groupGate_refused s g _ reached fun awake => if_neg fun ⟨still, free⟩ => ?_
  rcases no.resolve_left (by simp [awake]) with moving | held
  · exact still.elim moving.1 moving.2
  · exact held (Option.isNone_iff_eq_none.1 free)

theorem selftest_refused (reached : Reached s 3) (no : s.power.quiet = true ∨ s.groupState g.toNat ≠ 2 ∨ (s.grp g.toNat).pend ≠ none) :
    Answers (.selftest g) s (fun t => OnlyAlarm s t F.GAL_ALARM_CMD_REFUSED) := by
  refine groupGate_refused s g _ reached fun awake => if_neg fun ⟨idle, free⟩ => ?_
  exact (no.resolve_left (by simp [awake])).elim (· idle) (· (Option.isNone_iff_eq_none.1 free))

/-! ### Ends of transitions and commands held to the tick boundary -/

theorem exec_stoppingDone (stopping : s.groupState g.toNat = 5) (parked : ∀ n ∈ s.groupStreams g.toNat, s.bit (F.GAL_STREAM_MAP_PARKED n) = true) :
    exec (.stoppingDone g) s = .next ((s.setGroupState g.toNat 2).setGrp g.toNat { s.grp g.toNat with halting := true }) := by
  show execStoppingDone g s = _
  unfold execStoppingDone
  dsimp only
  rw [if_neg]
  · rfl
  · simpa [stopping, gsSTOPPING] using parked

theorem exec_groupCmdEffect_start (held : (s.grp g.toNat).pend = some 2) : exec (.groupCmdEffect g) s = .next (s.startGroup g.toNat) := by
  show execGroupCmdEffect g s = _
  simp only [execGroupCmdEffect, held]

theorem exec_groupCmdEffect_freeze (held : (s.grp g.toNat).pend = some 5) : exec (.groupCmdEffect g) s = .next (s.freezeGroup g.toNat) := by
  show execGroupCmdEffect g s = _
  simp only [execGroupCmdEffect, held]

theorem exec_groupCmdEffect_thaw (held : (s.grp g.toNat).pend = some 6) : exec (.groupCmdEffect g) s = .next (s.thawGroup g.toNat) := by
  show execGroupCmdEffect g s = _
  simp only [execGroupCmdEffect, held]

/-- With Chisel not ready no notice is sent again, and a thaw only resumes the group. -/
theorem thawGroup_quietly (s : State) (g : Nat) (off : s.bit F.CHISEL_STATUS_READY = false) : ∃ a : State,
    a = (s.setGroupState g 4).setGrp g { s.grp g with pend := none } ∧ s.thawGroup g = (a.groupStreams g).foldl (fun a n => a.unparkLater n false) a := by
  refine ⟨_, rfl, ?_⟩
  have other : F.CHISEL_STATUS_READY.addr ∉ groupRegs g := by
    simp only [groupRegs, R.CHISEL_STATUS, R.GAL_GROUP_STATUS, R.GAL_GROUP_READY_LO, R.GAL_GROUP_READY_HI,
      List.mem_cons, List.not_mem_nil, or_false, not_or]
    omega
  unfold State.thawGroup
  dsimp only
  rw [State.bit_setGrp, bit_setGroupState s g _ other, off]
  rfl

/-- The group after a test that passed, before the cores that failed theirs are fenced: IDLE, its cores out of reset. -/
def State.testPassed (s : State) (g : Nat) : State :=
  (groupCoresAt g).foldl (fun a c => a.setCore c { a.core c with inReset := false }) (s.setGroupState g gsIDLE)

theorem testPassed_spec (s : State) (g : Nat) : (s.testPassed g).groupState g = 2 ∧
    ∀ c, (s.testPassed g).core c = if c ∈ groupCoresAt g then { s.core c with inReset := false } else s.core c := by
  unfold State.testPassed
  refine ⟨?_, fun c => ?_⟩
  · rw [(foldl_setCore_only (fun a c => { a.core c with inReset := false }) _ _).groupState, groupState_setGroupState s g (by decide), gsIDLE]
  · rw [foldl_setCore_get (fun k => { k with inReset := false }) (fun _ => rfl), core_setGroupState]

/-- A core that failed its test is fenced; a hard test makes the fault permanent (R154, R496). -/
def State.fenceFailed (s : State) (c : Nat) : State := (s.recordFault (.core c) true).2.fence c

theorem exec_selftestDone (inTest : s.groupState g.toNat = 0) (failed : List (BitVec 8)) (routerFault : Bool) :
    exec (.selftestDone g failed routerFault) s = .next (if routerFault then (s.setGroupState g.toNat gsFAILED).deviceFault 5 g.toNat
      else (failed.filter (fun p => p.toNat < 132)).foldl (fun a p => a.fenceFailed (coreAt g.toNat p.toNat)) (s.testPassed g.toNat)) := by
  show execSelftestDone g failed routerFault s = _
  unfold execSelftestDone
  dsimp only
  rw [if_neg (by simp [inTest, gsTEST]), apply_ite Host.Outcome.next]
  rfl

theorem exec_selftestDone_all (inTest : s.groupState g.toNat = 0) : exec (.selftestDone g [] false) s = .next (s.testPassed g.toNat) := by
  rw [exec_selftestDone inTest, if_neg (by decide), List.filter_nil, List.foldl_nil]

theorem exec_selftestDone_one (inTest : s.groupState g.toNat = 0) {p : BitVec 8} (position : p.toNat < 132) :
    exec (.selftestDone g [p] false) s = .next ((s.testPassed g.toNat).fenceFailed (coreAt g.toNat p.toNat)) := by
  rw [exec_selftestDone inTest, if_neg (by decide), List.filter_cons_of_pos (by simp [position]), List.filter_nil, List.foldl_cons, List.foldl_nil]

/-- The group that holds a program, before it is copied to its cores. -/
def State.programHeld (s : State) (g : Nat) (img : List Byte) (nets : List NetDef) : State :=
  ((s.setGroupState g gsIDLE).setBit (F.GAL_GROUP_STATUS_LOADED g) true).setGrp g
    { s.grp g with loading := none, image := img, nets := nets, halting := false }

/-- Every logical core of the group is loaded with the group's program (R186). -/
def State.coresLoaded (s : State) (g : Nat) : State := (List.range 128).foldl (fun a i => a.loadCore (a.physOf (128 * g + i))) s

theorem coresLoaded_only (s : State) (g : Nat) : OnlyCores s (s.coresLoaded g) := OnlyCores.foldl _ (fun a _ => loadCore_only a _) _ s

theorem lantern_programHeld (s : State) (g : Nat) (img : List Byte) (nets : List NetDef) : (s.programHeld g img nets).lantern = s.lantern := rfl

/-- A load that Lantern does not wait for ends (R186). -/
theorem exec_loadComplete {img : List Byte} {nets : List NetDef} (loading : (s.grp g.toNat).loading = some (img, nets))
    (state : s.groupState g.toNat = 3) (unasked : s.lantern.load = none) :
    exec (.loadComplete g) s = .next ((s.programHeld g.toNat img nets).coresLoaded g.toNat) := by
  have waits : ((s.programHeld g.toNat img nets).coresLoaded g.toNat).lantern.load = none := by
    rw [(coresLoaded_only _ _).lantern, lantern_programHeld, unasked]
  unfold State.coresLoaded State.programHeld at waits ⊢
  show execLoadComplete g s = _
  unfold execLoadComplete
  dsimp only
  rw [loading]
  dsimp only
  rw [if_neg (by simp [state, gsLOADING]), State.grp_setBit, grp_setGroupState, waits]
end

/-- Settles O19: command by command, the states it is taken in and its effect, then its refusals, then the transitions' ends. -/
theorem groupCommandsChangeTheirCoreGroup : Obligations.GroupCommandsChangeTheirCoreGroup := by
  unfold Obligations.GroupCommandsChangeTheirCoreGroup
  refine ⟨fun g s => exec_stop, fun g st s group small => ⟨groupState_setGroupState s g (by omega), ready_setGroupState s g st, onlyRegs_setGroupState s g st⟩,
    fun g s reached awake loaded idle free => ⟨_, exec_start reached awake loaded, onlyGroup_hold s _ 2 _ idle free⟩,
    fun g s reached awake running free => ⟨_, exec_freeze reached awake, onlyGroup_hold s _ 5 _ running free⟩,
    fun g s reached awake frozen free => ⟨_, exec_thaw reached awake, onlyGroup_hold s _ 6 _ frozen free⟩,
    fun g s => exec_reset, fun g s => exec_selftest, fun g s => toTest_spec s g.toNat, fun g s reached no i listed => ?waiting,
    fun g s reached => ?illegal, fun g s => exec_stoppingDone, fun g s held => ⟨_, exec_groupCmdEffect_start held, _, rfl, rfl⟩,
    fun g s held => ⟨_, exec_groupCmdEffect_freeze held, _, rfl, rfl⟩, fun g s held off => ⟨_, exec_groupCmdEffect_thaw held, thawGroup_quietly s g.toNat off⟩,
    fun g failed s inTest => exec_selftestDone inTest failed true, fun g s inTest => ⟨_, exec_selftestDone_all inTest, testPassed_spec s g.toNat⟩,
    fun g p s inTest position => ⟨_, exec_selftestDone_one inTest position, fence_fenced _ _⟩,
    fun g s img nets loading state unasked => ⟨_, exec_loadComplete loading state unasked, _, rfl, rfl⟩⟩
  case waiting =>
    simp only [List.mem_cons, List.not_mem_nil, or_false] at listed
    rcases listed with rfl | rfl | rfl | rfl | rfl | rfl
    · exact stop_refused reached (no.imp_right .inr)
    · exact start_refused reached (no.imp_right (.inr ∘ .inr))
    · exact reset_refused reached (no.imp_right .inr)
    · exact selftest_refused reached (no.imp_right .inr)
    · exact freeze_refused reached (no.imp_right .inr)
    · exact thaw_refused reached (no.imp_right .inr)
  case illegal =>
    exact ⟨fun state => ⟨stop_refused reached (.inr (.inl state)), freeze_refused reached (.inr (.inl state))⟩,
      fun state => thaw_refused reached (.inr (.inl state)),
      fun state => ⟨selftest_refused reached (.inr (.inl state)), start_refused reached (.inr (.inr (.inl state)))⟩,
      fun empty => start_refused reached (.inr (.inl empty)), fun idle frozen => reset_refused reached (.inr (.inl ⟨idle, frozen⟩))⟩

end Sys2Proof.Machine
end

section
/-! PROOFS.  Messages at a core's router, fetch replies, the stream map, the device's configuration, spares and snapshots (04_gallery_fabric
R142, R143, R146, R149, R152 to R157, R160; 13_host_rings R443). -/

namespace Sys2Proof.Machine

section
variable {s : State}

/-! ### Messages at a core's router (R142, R143, R146) -/

/-- The oldest message of its sender leaves the fabric for the router of the core it is for (the model's choice, assumption 20). -/
theorem exec_msgEject {m : Msg} {l : Nat} (oldest : s.oldest m = true) (core : endpoint m.dest.toNat = .core l) :
    exec (.msgEject m) s = .next (State.arrive { s with fabric := dropFirst m s.fabric } (s.physOf l) m) := by
  show execMsgEject m s = _
  unfold execMsgEject
  rw [if_neg (by simp [oldest]), core]
  rfl

theorem exec_msgEject_waits {m : Msg} (younger : s.oldest m = false) : exec (.msgEject m) s = .next s := by
  show execMsgEject m s = _
  unfold execMsgEject
  rw [if_pos (by simp [younger])]

theorem arrive_placed {c : Nat} (m : Msg) (takes : s.coreTakes c = true) (empty : (s.core c).portQ = []) (place : (s.core c).hasPlace = true) :
    s.arrive c m = s.setCore c ((s.core c).place m) := by
  unfold State.arrive
  dsimp only
  rw [if_neg (by simp [takes]), if_pos (by simp [empty, place])]

theorem arrive_waits {c : Nat} (m : Msg) (takes : s.coreTakes c = true) (full : (s.core c).hasPlace = false) :
    s.arrive c m = s.setCore c { s.core c with portQ := (s.core c).portQ ++ [(s.now, m)], ejwait := sat32 ((s.core c).ejwait + 1) } := by
  unfold State.arrive
  dsimp only
  rw [if_neg (by simp [takes]), if_neg (by simp [full])]

theorem arrive_sunk {c : Nat} (m : Msg) (sinks : s.coreTakes c = false) :
    s.arrive c m = (s.setCore c { s.core c with sunk := sat32 ((s.core c).sunk + 1) }).bump64 R.GAL_TOTAL_SUNK_LO 1 := by
  unfold State.arrive
  dsimp only
  rw [if_pos (by simp [sinks])]

/-- The one message that waits in the core port has waited its time: it is dropped (R143). -/
theorem exec_ejectWaitExpiry {c : CoreId} {x : Nat} {m : Msg} (waiting : (s.core c.val).portQ = [(x, m)]) (expired : x + s.ejectWait ≤ s.now) :
    exec (.ejectWaitExpiry c) s = .next (((s.setCore c.val { s.core c.val with portQ := [], drop := sat32 ((s.core c.val).drop + 1), loss := true }).bump64
      R.GAL_TOTAL_DROP_LO 1).alarm F.GAL_ALARM_EVENT_DROP ((s.core c.val).logical.getD 0x1FFF)) := by
  show execEjectWaitExpiry c s = _
  unfold execEjectWaitExpiry
  dsimp only
  rw [waiting]
  dsimp only
  rw [if_neg (by omega)]
  rfl

theorem dropped_spec (s : State) (c : Nat) (k : CoreSt) (u : Nat) {t : State}
    (dropped : t = ((s.setCore c k).bump64 R.GAL_TOTAL_DROP_LO 1).alarm F.GAL_ALARM_EVENT_DROP u) :
    t.core c = k ∧ (∀ d, d ≠ c → t.core d = s.core d) ∧ t.bit F.GAL_ALARM_EVENT_DROP = true ∧ t.fabric = s.fabric ∧ t.streams = s.streams := by
  subst dropped
  refine ⟨?_, fun d other => ?_, State.bit_alarm _ _ _ rfl (by decide) (by decide) (by decide), ?_, ?_⟩
  · rw [State.core_alarm]
    exact State.core_setCore_same s c k
  · rw [State.core_alarm]
    exact State.core_setCore_ne s k other
  · rw [State.alarm_keeps]
    rfl
  · rw [State.alarm_keeps]
    rfl

/-! ### Fetch replies (R149, R443) -/

theorem hbmUninit_setCore (s : State) (c : Nat) (k : CoreSt) (a n : Nat) : (s.setCore c k).hbmUninit a n = s.hbmUninit a n := rfl

theorem noteHbmRead_written {a n : Nat} (written : s.hbmUninit a n = false) (host : Bool) : s.noteHbmRead a n host = s := by
  have quiet : (pagesOf a n).countP (fun p => !tget (fun _ => false) s.hbmPages p) = 0 := by
    rw [List.countP_eq_zero]
    exact List.any_eq_false.1 written
  unfold State.noteHbmRead
  rw [quiet]
  rfl

theorem exec_fetchReply {c : CoreId} {k : BitVec 2} {e : Nat} {f : FetchReq}
    (outstanding : (s.core c.val).fetches.find? (fun f => f.1 == k.toNat) = some (e, f)) (serving : (s.core c.val).fenced = false)
    (written : s.hbmUninit f.hbm f.len = false) : exec (.fetchReply c k) s = .next (s.setCore c.val (CoreSt.store { s.core c.val with
      fetches := (s.core c.val).fetches.filter (fun g => g.1 != k.toNat), fetchDone := (s.core c.val).fetchDone ||| 2 ^ k.toNat } f.land (s.hbmBytes f.hbm f.len))) := by
  show execFetchReply c k s = _
  unfold execFetchReply
  dsimp only
  rw [outstanding]
  dsimp only
  rw [if_neg (by simp [serving]), noteHbmRead_written ((hbmUninit_setCore s _ _ _ _).trans written)]
  rfl

theorem exec_fetchReply_fenced {c : CoreId} {k : BitVec 2} {e : Nat} {f : FetchReq}
    (outstanding : (s.core c.val).fetches.find? (fun f => f.1 == k.toNat) = some (e, f)) (fenced : (s.core c.val).fenced = true) :
    exec (.fetchReply c k) s = .next ((s.setCore c.val { s.core c.val with
      fetches := (s.core c.val).fetches.filter (fun g => g.1 != k.toNat), sunk := sat32 ((s.core c.val).sunk + 1) }).bump64 R.GAL_TOTAL_SUNK_LO 1) := by
  show execFetchReply c k s = _
  unfold execFetchReply
  dsimp only
  rw [outstanding]
  dsimp only
  rw [if_pos fenced]

/-! ### The stream map (R152) -/

theorem exec_streamMapWrite_refused {n : Stream} {v : Word} (reached : Reached s 3) (unfit : s.mapFits v = false) :
    exec (.streamMapWrite n v) s = .next (s.galRefuse n.toNat) :=
  (gate_reached s reached _).trans (if_pos (by simp [unfit]))

theorem exec_streamMapWrite_held {n : Stream} {v : Word} (reached : Reached s 3) (fits : s.mapFits v = true) (on : s.enabled n.toNat = true) :
    exec (.streamMapWrite n v) s = .next ((s.setBit (F.GAL_STREAM_MAP_PENDING n.toNat) true).setStream n.toNat
      { s.stream n.toNat with mapPend := some (v, s.winOf n.toNat s.tick) }) :=
  (gate_reached s reached _).trans ((if_neg (by simp [fits])).trans (if_neg (by simp [on])))

theorem exec_streamMapWrite_now {n : Stream} {v : Word} (reached : Reached s 3) (fits : s.mapFits v = true) (off : s.enabled n.toNat = false) :
    exec (.streamMapWrite n v) s = .next (s.applyMap n.toNat v none) :=
  (gate_reached s reached _).trans ((if_neg (by simp [fits])).trans (if_pos (by simp [off])))

theorem exec_streamMapEffect {n : Stream} {v : Word} {w nw : Nat} (pending : (s.stream n.toNat).mapPend = some (v, w))
    (next : (s.stream n.toNat).nextWin = some nw) (closed : w < nw) (begun : s.winStart n.toNat nw ≤ s.tick) :
    exec (.streamMapEffect n) s = .next (s.applyMap n.toNat v (some (s.winStart n.toNat nw))) := by
  show execStreamMapEffect n s = _
  unfold execStreamMapEffect
  dsimp only
  rw [pending, next]
  exact if_neg (by omega)

/-- A map word with VALID 0 is stored, and nothing waits for a boundary. -/
theorem applyMap_invalid (s : State) (n : Nat) {v : Word} (f : Option Nat) (invalid : v.getLsbD 31 = false) :
    s.applyMap n v f = (s.setReg (R.GAL_STREAM_MAP n) (v &&& 0x81FF007F#32)).setStream n { s.stream n with mapPend := none } := by
  unfold State.applyMap
  dsimp only
  rw [if_pos (by rw [invalid]; rfl)]
  rfl

/-! ### The device's configuration (R153) -/

theorem exec_galCfgWrite_busy {what : GalCfg} (reached : Reached s 3) (busy : s.librariesEmpty = false ∨ ∃ g, g < 64 ∧ 3 ≤ s.groupState g) :
    exec (.galCfgWrite what) s = .next (s.alarm F.GAL_ALARM_CFG_BUSY 0) := by
  refine (gate_reached s reached _).trans (if_pos ?_)
  rw [Bool.or_eq_true, List.any_eq_true]
  rcases busy with held | ⟨g, group, atWork⟩
  · exact .inr (by simp [held])
  · exact .inl ⟨g, List.mem_range.2 group, decide_eq_true atWork⟩

theorem not_galBusy (empty : s.librariesEmpty = true) (idle : ∀ g, g < 64 → s.groupState g < 3) :
    ((List.range 64).any (fun g => decide (gsLOADING ≤ s.groupState g)) || !s.librariesEmpty) = false := by
  rw [Bool.or_eq_false_iff, List.any_eq_false]
  refine ⟨fun g listed => ?_, by simp [empty]⟩
  have resting := idle g (List.mem_range.1 listed)
  rw [decide_eq_true_eq, gsLOADING]
  omega

theorem exec_galCfgWrite_dsel {v : BitVec 2} (reached : Reached s 3) (empty : s.librariesEmpty = true) (idle : ∀ g, g < 64 → s.groupState g < 3)
    (changed : s.fld F.GAL_CFG_DSEL ≠ v.toNat) :
    exec (.galCfgWrite (.dsel v)) s = .next ((s.setFld F.GAL_CFG_DSEL v.toNat).trimMaps.discardPrograms) :=
  (gate_reached s reached _).trans ((if_neg (Bool.eq_false_iff.1 (not_galBusy empty idle))).trans (if_neg changed))

theorem exec_galCfgWrite_seed {v : Word64} (reached : Reached s 3) (empty : s.librariesEmpty = true) (idle : ∀ g, g < 64 → s.groupState g < 3)
    (changed : s.seed ≠ v) : exec (.galCfgWrite (.seed v)) s = .next ((s.set64 R.GAL_SEED_LO v.toNat).discardPrograms) :=
  (gate_reached s reached _).trans ((if_neg (Bool.eq_false_iff.1 (not_galBusy empty idle))).trans (if_neg changed))

/-- The group holds no program. -/
def NoProgram (s : State) (g : Nat) : Prop := s.bit (F.GAL_GROUP_STATUS_LOADED g) = false ∧ (s.grp g).image = [] ∧ (s.grp g).nets = []

/-- Discard the program of one core group. -/
def State.discardProgram (s : State) (g : Nat) : State :=
  (s.setBit (F.GAL_GROUP_STATUS_LOADED g) false).setGrp g { s.grp g with image := [], nets := [] }

theorem discardPrograms_eq (s : State) : s.discardPrograms = (List.range 64).foldl State.discardProgram s := rfl

theorem noProgram_discardProgram (s : State) (g : Nat) : NoProgram (s.discardProgram g) g := by
  unfold NoProgram State.discardProgram
  rw [State.bit_setGrp, loaded_setLoaded, State.grp_setGrp_same]
  exact ⟨rfl, rfl, rfl⟩

theorem NoProgram.discardProgram {g : Nat} (bare : NoProgram s g) (h : Nat) : NoProgram (s.discardProgram h) g := by
  by_cases own : g = h
  · subst own
    exact noProgram_discardProgram s g
  · obtain ⟨loaded, image, nets⟩ := bare
    have apart : R.GAL_GROUP_STATUS g ≠ R.GAL_GROUP_STATUS h := by
      unfold R.GAL_GROUP_STATUS
      omega
    unfold NoProgram State.discardProgram
    rw [State.bit_setGrp, State.bit_setBit_other _ _ _ _ (.inl apart), State.grp_setGrp_ne _ _ own, State.grp_setBit]
    exact ⟨loaded, image, nets⟩

/-- What one step of a fold establishes and every step keeps holds after the fold. -/
theorem foldl_establishes {α β : Type} (P : α → Prop) (f : α → β → α) {x : β} (made : ∀ a, P (f a x)) (kept : ∀ a y, P a → P (f a y)) {l : List β} :
    ∀ a, x ∈ l ∨ P a → P (l.foldl f a) := by
  induction l with
  | nil => exact fun a h => h.resolve_left (List.not_mem_nil)
  | cons y t ih =>
    intro a h
    refine ih _ ?_
    rcases h with listed | holds
    · rcases List.mem_cons.1 listed with rfl | later
      · exact .inr (made a)
      · exact .inl later
    · exact .inr (kept a y holds)

theorem noProgram_discardPrograms (s : State) {g : Nat} (group : g < 64) : NoProgram s.discardPrograms g := by
  rw [discardPrograms_eq]
  exact foldl_establishes (NoProgram · g) State.discardProgram (fun a => noProgram_discardProgram a g) (fun _ h bare => bare.discardProgram h) s
    (.inl (List.mem_range.2 group))

/-! ### Spares (R154 to R157) -/

/-- Which spares and neighbours a group has is the model's choice (assumption 23). -/
theorem exec_spareSubstitute_own {c : CoreId} (b : Bool) {l p : Nat} (fenced : (s.core c.val).fenced = true) (serves : (s.core c.val).logical = some l)
    (spare : s.spareOf (l / 128) = some p) : exec (.spareSubstitute c b) s = .next (s.substitute c.val p l b) := by
  show execSpareSubstitute c b s = _
  simp only [execSpareSubstitute, fenced, serves, spare]

theorem exec_spareSubstitute_borrowed {c : CoreId} (b : Bool) {l p : Nat} (fenced : (s.core c.val).fenced = true)
    (serves : (s.core c.val).logical = some l) (spent : s.spareOf (l / 128) = none) (borrowed : (neighbours (l / 128)).findSome? s.spareOf = some p) :
    exec (.spareSubstitute c b) s = .next ((s.alarm F.GAL_ALARM_SPARE_BORROWED l).substitute c.val p l b) := by
  show execSpareSubstitute c b s = _
  simp only [execSpareSubstitute, fenced, serves, spent, borrowed]

theorem exec_spareSubstitute_none {c : CoreId} {l : Nat} (fenced : (s.core c.val).fenced = true) (serves : (s.core c.val).logical = some l)
    (spent : s.spareOf (l / 128) = none) (alone : (neighbours (l / 128)).findSome? s.spareOf = none) :
    exec (.spareSubstitute c true) s = .next (s.alarm F.GAL_ALARM_NO_SPARE l) := by
  show execSpareSubstitute c true s = _
  simp only [execSpareSubstitute, fenced, serves, spent, alone, if_true]

theorem exec_spareStart {c : CoreId} (loaded : (s.core c.val).startPend = true) (serving : (s.core c.val).fenced = false) :
    exec (.spareStart c) s = .next ((s.setCore c.val { s.core c.val with startPend := false, started := true }).gapStreams ((s.core c.val).logical.getD 0)) := by
  show execSpareStart c s = _
  unfold execSpareStart
  dsimp only
  rw [if_neg (by simp [loaded, serving])]

/-- Setting a core and marking windows with GAP changes cores and streams alone. -/
theorem setCore_gapStreams_spec (s : State) (c : Nat) (k : CoreSt) (l : Nat) {t : State} (set : t = (s.setCore c k).gapStreams l) :
    t = { s with cores := t.cores, streams := t.streams } ∧ t.core c = k ∧ ∀ d, d ≠ c → t.core d = s.core d := by
  have only := gapStreams_only (s.setCore c k) l
  rw [← set] at only
  refine ⟨?_, ?_, fun d other => ?_⟩
  · unfold OnlyStreams at only
    rw [only]
    rfl
  · rw [only.core, State.core_setCore_same]
  · rw [only.core, State.core_setCore_ne _ _ other]

/-! ### Snapshots (R160) -/

theorem noteUninit_none (s : State) (c : Nat) : s.noteUninit c 0 = s := if_pos rfl

theorem snapCore_written {c : Nat} (written : ((s.core c).snapRanges.map (fun r => (s.core c).unwritten r.1 r.2)).sum = 0) :
    s.snapCore c = s.setCore c { s.core c with snapBuf := (s.core c).snapRanges.flatMap (fun r => (s.core c).bytes r.1 r.2), snapTick := some s.tick } := by
  unfold State.snapCore
  dsimp only
  rw [written, noteUninit_none]
end

/-- Settles O20: messages at the router, fetch replies, the stream map, the configuration, spares and snapshots, one lemma each. -/
theorem fabricMessagesStreamMapAndSpares : Obligations.FabricMessagesStreamMapAndSpares := by
  unfold Obligations.FabricMessagesStreamMapAndSpares
  refine ⟨fun m s l => exec_msgEject, fun m s => exec_msgEject_waits, fun c m s => arrive_placed m, fun c m s => arrive_waits m, fun c m s => arrive_sunk m,
    fun c s x m waiting expired => ⟨_, exec_ejectWaitExpiry waiting expired, dropped_spec s c.val _ _ rfl⟩,
    fun c k s e f outstanding serving written => ⟨_, exec_fetchReply outstanding serving written, OnlyCore.setCore s c.val _, State.core_setCore_same s c.val _⟩,
    fun c k s e f => exec_fetchReply_fenced, fun n v s reached unfit => ⟨_, exec_streamMapWrite_refused reached unfit, onlyRefused s _⟩,
    fun n v s reached fits on => ⟨_, exec_streamMapWrite_held reached fits on, ?held⟩, fun n v s => exec_streamMapWrite_now, fun n s v w nw => exec_streamMapEffect,
    fun n v f s => applyMap_invalid s n f, fun what s reached busy => ⟨_, exec_galCfgWrite_busy reached busy, ?busy⟩, fun v s => exec_galCfgWrite_dsel,
    fun v s => exec_galCfgWrite_seed, fun s g group => noProgram_discardPrograms s group, fun c b s l p => exec_spareSubstitute_own b,
    fun c b s l p => exec_spareSubstitute_borrowed b,
    fun c s l fenced serves spent alone => ⟨_, exec_spareSubstitute_none fenced serves spent alone, ?noSpare⟩,
    fun c s loaded serving => ⟨_, exec_spareStart loaded serving, setCore_gapStreams_spec s c.val _ _ rfl⟩, fun l s => rfl, fun c s => snapCore_written⟩
  case held =>
    refine ⟨rfl, ?_, fun a other => ?_, State.stream_setStream_same _ _ _, fun m other => ?_⟩
    · rw [State.bit_setStream]
      exact s.bit_setBit_same _ true rfl (by decide : 29 < 32)
    · rw [State.reg_setStream, State.reg_setBit_ne _ _ _ other]
    · rw [State.stream_setStream_ne _ _ other, State.stream_setBit]
  case busy => exact onlyAlarm s _ _ rfl (by decide) (by decide) (by decide)
  case noSpare => exact onlyAlarm s _ _ rfl (by decide) (by decide) (by decide)

end Sys2Proof.Machine
end

section
/-! PROOFS.  The scalar instructions, branches and jumps of Flint (05_flint_instructions R170, R171, R179; Tables FLINT-3, FLINT-4). -/

namespace Sys2Proof.Machine

section

variable {mk : Issue → Instr} {rd ra rb : SReg}

/-! ### Scalar results (Table FLINT-3) -/

/-- A scalar register-register instruction completes with its value in RD. -/
theorem completesOn_formR {f : Word → Word → Word} {v : CoreSt → Word} (run : ∀ i s, exec (mk i) s = .next (s.formR i rd ra rb f))
    (value : ∀ k, f (k.s ra) (k.s rb) = v k) : CompletesOn mk (hazS ra ++ hazS rb) 1 (fun k => k.setS rd (v k)) [] 0 := by
  obtain rfl : (fun k : CoreSt => f (k.s ra) (k.s rb)) = v := funext value
  exact completesOn_of_core run (fun k => k.setS_pc rd _)

/-- A scalar instruction whose result the next one waits for completes with its value in RD (R170). -/
theorem completesOn_lateS {reads : List Nat} {f v : CoreSt → Word} {n : Nat}
    (run : ∀ i s, exec (mk i) s = .next (s.issue i reads (fun k => lateS k rd (f k) n))) (value : ∀ k, f k = v k) :
    CompletesOn mk reads 1 (fun k => k.setS rd (v k)) (hazS rd) n := by
  obtain rfl : f = v := funext value
  exact completesOn_of_core run (fun k => k.setS_pc rd _)

end

theorem satS32_word (x : Int) : BitVec.ofInt 32 (satS32 x) = BitVec.ofInt 32 (max (-2147483648) (min 2147483647 x)) :=
  congrArg _ (satS32_eq x)

theorem fxWord_eq (x : Int) : fxWord x = BitVec.ofInt 32 (max (-32768) (min 32767 x)) := congrArg (BitVec.ofInt 32) (clampInt_eq (by decide))

/-- Settles O1: each instruction writes one value to RD; the values are the table's as numbers. -/
theorem scalarInstructionsWriteTheirResult : Obligations.ScalarInstructionsWriteTheirResult := by
  unfold Obligations.ScalarInstructionsWriteTheirResult
  refine ⟨?add, ?sub, ?and, ?or, ?xor, ?sll, ?srl, ?sra, ?slt, ?sltu, ?mul, ?mulh, ?adds, ?subs, ?min, ?max, ?popc, ?clz, ?ctz, ?fxadd, ?fxsub, ?fxmul⟩
  case sra => exact fun rd ra rb => completesOn_formR (fun _ _ => rfl) (fun k => sshiftRight_eq_ofInt _ _)
  case slt => exact fun rd ra rb => completesOn_formR (fun _ _ => rfl) (fun k => boolWord_slt _ _)
  case sltu => exact fun rd ra rb => completesOn_formR (fun _ _ => rfl) (fun k => boolWord_ult _ _)
  case mul => exact fun rd ra rb => completesOn_lateS (fun _ _ => rfl) (fun k => BitVec.mul_def)
  case mulh => exact fun rd ra rb => completesOn_lateS (fun _ _ => rfl) (fun k => rfl)
  case adds => exact fun rd ra rb => completesOn_formR (fun _ _ => rfl) (fun k => satS32_word _)
  case subs => exact fun rd ra rb => completesOn_formR (fun _ _ => rfl) (fun k => satS32_word _)
  case min => exact fun rd ra rb => completesOn_formR (fun _ _ => rfl) (fun k => min_word _ _)
  case max => exact fun rd ra rb => completesOn_formR (fun _ _ => rfl) (fun k => max_word _ _)
  case popc => exact fun rd ra rb => completesOn_of_core (fun _ _ => rfl) (fun k => k.setS_pc rd _)
  case clz => exact fun rd ra rb => completesOn_of_core (fun _ _ => rfl) (fun k => k.setS_pc rd _)
  case ctz => exact fun rd ra rb => completesOn_of_core (fun _ _ => rfl) (fun k => k.setS_pc rd _)
  case fxadd => exact fun rd ra rb => completesOn_formR (fun _ _ => rfl) (fun k => fxWord_eq _)
  case fxsub => exact fun rd ra rb => completesOn_formR (fun _ _ => rfl) (fun k => fxWord_eq _)
  case fxmul => exact fun rd ra rb => completesOn_lateS (fun _ _ => rfl) (fun k => fxWord_eq _)
  all_goals exact fun rd ra rb => completesOn_formR (fun _ _ => rfl) (fun k => rfl)

/-! ### Branches and jumps (R170) -/

theorem not_slt_iff {a b : Word} : (!a.slt b) = true ↔ b.toInt ≤ a.toInt := by
  simp [BitVec.slt]

theorem not_ult_iff {a b : Word} : (!a.ult b) = true ↔ b.toNat ≤ a.toNat := by
  simp [BitVec.ult]

section

variable {mk : Issue → Instr} {ra rb : SReg} {imm : Imm16} {cond : Word → Word → Bool}
  (run : ∀ i s, exec (mk i) s = .next (s.branch i rb ra imm cond))

include run

theorem completes_branch_taken (holds : ∀ k, ok k → cond (k.s ra) (k.s rb) = true) :
    Completes mk (hazS rb ++ hazS ra) ok 2 id (fun k => k.pc + 4 + 4 * imm.signExtend 32) [] 0 :=
  completes_of_act _ run (fun _ _ k h => ⟨_, if_pos (holds k h), rfl, rfl, rfl, rfl, rfl, rfl, rfl⟩)

theorem completes_branch_passed (fails : ∀ k, ok k → cond (k.s ra) (k.s rb) = false) :
    Completes mk (hazS rb ++ hazS ra) ok 1 id (fun k => k.pc + 4) [] 0 :=
  completes_of_act _ run (fun _ _ k h => ⟨_, if_neg (by rw [fails k h]; decide), rfl, rfl, rfl, rfl, rfl, rfl, rfl⟩)

end

theorem exec_eret (off : BitVec 26) (i : Issue) (s : State) : exec (.eret i off) s = .next (s.issue i [] (fun k =>
    if off ≠ 0 then .exc excILLEGAL 0 else .done { core := { k with inHandler := false }, target := some k.epc, cycles := 2 })) := rfl

/-- Settles O6: a branch goes by its condition, a jump by its target, and ERET stands behind the check of OFF. -/
theorem branchesAndJumpsSetThePc : Obligations.BranchesAndJumpsSetThePc := by
  unfold Obligations.BranchesAndJumpsSetThePc
  refine ⟨?beqTaken, ?beqPassed, ?bneTaken, ?bnePassed, ?bltTaken, ?bltPassed, ?bgeTaken, ?bgePassed, ?bltuTaken, ?bltuPassed, ?bgeuTaken, ?bgeuPassed,
    fun off => ?jal, fun rd ra imm => ?jalr, ?eret, fun off => ?eretIllegal⟩
  case beqTaken => exact fun rb ra imm => completes_branch_taken (fun _ _ => rfl) (fun k h => beq_iff_eq.2 h)
  case beqPassed => exact fun rb ra imm => completes_branch_passed (fun _ _ => rfl) (fun k h => beq_eq_false_iff_ne.2 h)
  case bneTaken => exact fun rb ra imm => completes_branch_taken (fun _ _ => rfl) (fun k h => bne_iff_ne.2 h)
  case bnePassed => exact fun rb ra imm => completes_branch_passed (fun _ _ => rfl) (fun k h => bne_eq_false_iff_eq.2 h)
  case bltTaken => exact fun rb ra imm => completes_branch_taken (fun _ _ => rfl) (fun k h => decide_eq_true h)
  case bltPassed => exact fun rb ra imm => completes_branch_passed (fun _ _ => rfl) (fun k h => decide_eq_false h)
  case bgeTaken => exact fun rb ra imm => completes_branch_taken (fun _ _ => rfl) (fun k h => not_slt_iff.2 h)
  case bgePassed => exact fun rb ra imm => completes_branch_passed (fun _ _ => rfl) (fun k h => Bool.eq_false_iff.2 (mt not_slt_iff.1 h))
  case bltuTaken => exact fun rb ra imm => completes_branch_taken (fun _ _ => rfl) (fun k h => decide_eq_true h)
  case bltuPassed => exact fun rb ra imm => completes_branch_passed (fun _ _ => rfl) (fun k h => decide_eq_false h)
  case bgeuTaken => exact fun rb ra imm => completes_branch_taken (fun _ _ => rfl) (fun k h => not_ult_iff.2 h)
  case bgeuPassed => exact fun rb ra imm => completes_branch_passed (fun _ _ => rfl) (fun k h => Bool.eq_false_iff.2 (mt not_ult_iff.1 h))
  case jal => exact completes_of_act _ (fun _ _ => rfl) (fun _ _ k _ => ⟨_, rfl, rfl, rfl, rfl, rfl, rfl, rfl, rfl⟩)
  case jalr => exact completes_of_act _ (fun _ _ => rfl) (fun _ _ k _ => ⟨_, rfl, rfl, rfl, rfl, rfl, rfl, rfl, rfl⟩)
  case eret => exact completes_of_act _ (exec_eret 0) (fun _ _ k _ => ⟨_, if_neg (not_not_intro rfl), rfl, rfl, rfl, rfl, rfl, rfl, rfl⟩)
  case eretIllegal => exact traps_of_act _ (exec_eret off) (fun _ _ k h => if_pos h)

end Sys2Proof.Machine
end

section
/-! PROOFS.  The loads and stores of Flint (05_flint_instructions R165, R170; 06_spiking_execution R192). -/

namespace Sys2Proof.Machine

/-! ### Bytes read from SRAM -/

theorem CoreSt.bytes_one (k : CoreSt) (a : Nat) : k.bytes a 1 = [k.byte a] := rfl

theorem leValue_byte (b : Byte) : leValue [b] = b.toNat := rfl

theorem getD_bytes (k : CoreSt) (a : Nat) {n j : Nat} (inside : j < n) : (k.bytes a n).getD j 0 = k.byte (a + j) := by
  simp [CoreSt.bytes, CoreSt.byte, inside]

theorem tallyOf_congr {n : Nat} {f g : Nat → Int} (same : ∀ j, j < n → f j = g j) : tallyOf n f = tallyOf n g := by
  unfold tallyOf
  rw [List.map_congr_left fun j listed => by rw [same j (List.mem_range.1 listed)]]

/-- The counters that TLOAD takes are the bytes at its address (Table FLINT-5). -/
theorem tallyFrom_bytes (k : CoreSt) (a : Nat) : tallyFrom (k.bytes a 256) = tallyOf 256 (fun j => (k.byte (a + j)).toInt) :=
  tallyOf_congr fun _ inside => congrArg BitVec.toInt (getD_bytes k a inside)

/-! ### Accesses that take no exception -/

/-- An access's act, once the address checks pass. -/
theorem match_memFault_none {k : CoreSt} {a n align : Nat} (clear : memFault k a n align = none) (act : Act) :
    (match memFault k a n align with | some e => Act.exc e.1 e.2 | none => act) = act := by
  rw [clear]

/-- A scalar load completes with the value of its bytes in RD, which the next instruction waits for (R170). -/
theorem loads_of_loadN {mk : Issue → Instr} {rd ra : SReg} {imm : Imm16} {n : Nat} {ext : Nat → Word} {v : CoreSt → Word}
    (run : ∀ i s, exec (mk i) s = .next (s.loadN i rd ra imm n ext))
    (value : ∀ k, ext (leValue (k.bytes (k.s ra + imm.signExtend 32).toNat n)) = v k) :
    Loads mk (hazS ra) 1 (fun k => (k.s ra + imm.signExtend 32).toNat) n (fun k => k.setS rd (v k)) (hazS rd) 1 := by
  obtain rfl : (fun k : CoreSt => ext (leValue (k.bytes (k.s ra + imm.signExtend 32).toNat n))) = v := funext value
  exact loads_of_act _ run (fun _ _ k clear => ⟨_, match_memFault_none clear _, rfl, rfl, rfl, rfl, rfl, rfl, rfl, rfl, rfl⟩)

/-- Settles O3: past the address checks a load takes the bytes at its address, and the tally's counters are bytes too. -/
theorem loadsBringMemoryToTheirRegister : Obligations.LoadsBringMemoryToTheirRegister := by
  unfold Obligations.LoadsBringMemoryToTheirRegister
  refine ⟨?lw, ?lh, ?lhu, ?lb, ?lbu, fun vd ra imm => ?vld, fun ra imm => ?tload⟩
  case lw => exact fun rd ra imm => loads_of_loadN (fun _ _ => rfl) (fun k => rfl)
  case lh => exact fun rd ra imm => loads_of_loadN (fun _ _ => rfl) (fun k => rfl)
  case lhu => exact fun rd ra imm => loads_of_loadN (fun _ _ => rfl) (fun k => rfl)
  case lb => exact fun rd ra imm => loads_of_loadN (fun _ _ => rfl) (fun k => by rw [CoreSt.bytes_one, leValue_byte, BitVec.ofNat_toNat, BitVec.setWidth_eq])
  case lbu => exact fun rd ra imm => loads_of_loadN (fun _ _ => rfl) (fun k => by rw [CoreSt.bytes_one, leValue_byte, BitVec.ofNat_toNat])
  case vld => exact loads_of_act _ (fun _ _ => rfl) (fun _ _ k clear => ⟨_, match_memFault_none clear _, rfl, rfl, rfl, rfl, rfl, rfl, rfl, rfl, rfl⟩)
  case tload =>
    simp only [← tallyFrom_bytes]
    exact loads_of_act _ (fun _ _ => rfl)
      (fun _ _ k clear => ⟨_, (if_neg (not_not_intro rfl)).trans (match_memFault_none clear _), rfl, rfl, rfl, rfl, rfl, rfl, rfl, rfl, rfl⟩)

/-! ### Stores -/

/-- A store that reads nothing before it stores completes. -/
theorem completes_of_store {mk : Issue → Instr} {reads : List Nat} {act : Issue → State → CoreSt → Act} {addr : CoreSt → Nat}
    {n cycles : Nat} {bytes : CoreSt → List Byte} {rewrites : Bool}
    (run : ∀ i s, exec (mk i) s = .next (s.issue i reads (act i s)))
    (stores : ∀ i s k, memFault k (addr k) n n = none → act i s k = .done { core := k.store (addr k) (bytes k), cycles := cycles, rewrite := rewrites }) :
    Completes mk reads (fun k => Accessible k (addr k) n n) cycles (fun k => k.store (addr k) (bytes k)) (fun k => k.pc + 4) [] 0 :=
  completes_of_act act run (fun i s k clear => ⟨_, stores i s k (memFault_of_accessible clear), rfl, rfl, rfl, rfl, rfl, rfl, rfl⟩)

/-- Settles O4: SW, VST and TSAVE store at once, SH and SB after reading the word they lie in. -/
theorem storesWriteTheirBytes : Obligations.StoresWriteTheirBytes := by
  unfold Obligations.StoresWriteTheirBytes
  refine ⟨fun rb ra imm => ?sw, fun rb ra imm => ?sh, fun rb ra imm => ?sb, fun vd ra imm => ?vst, fun ra imm => ?tsave⟩
  case sw => exact completes_of_store (fun _ _ => rfl) (fun _ _ k clear => match_memFault_none clear _)
  case sh => exact stores_of_act _ (fun _ _ => rfl) (fun _ _ k clear => ⟨_, _, _, match_memFault_none clear _, rfl, rfl, rfl, rfl, rfl, rfl, rfl, rfl, rfl⟩)
  case sb => exact stores_of_act _ (fun _ _ => rfl) (fun _ _ k clear => ⟨_, _, _, match_memFault_none clear _, rfl, rfl, rfl, rfl, rfl, rfl, rfl, rfl, rfl⟩)
  case vst => exact completes_of_store (fun _ _ => rfl) (fun _ _ k clear => match_memFault_none clear _)
  case tsave => exact completes_of_store (fun _ _ => rfl) (fun _ _ k clear => (if_neg (not_not_intro rfl)).trans (match_memFault_none clear _))

end Sys2Proof.Machine
end

section
/-! PROOFS.  The tally instructions of Flint (02_hypervector_algebra R69, R72, R73; 05_flint_instructions R172, Table FLINT-5). -/

namespace Sys2Proof.Machine

/-! ### Bundling and binarising (R69, R72) -/

theorem sat8_eq (x : Int) : sat8 x = max (-128) (min 127 x) := clampInt_eq (by decide)

theorem tallyGet_bundleTally (t : List (Nat × Int)) (w : Int) (val : Nat → Int) {j : Nat} (dim : j < 256) :
    tallyGet (bundleTally t w val).1 j = max (-128) (min 127 (tallyGet t j + w * val j)) := by
  unfold bundleTally
  rw [tallyGet_tallyOf 256 _ j dim, sat8_eq]

/-- A bundle reports saturation when a sum leaves the range of a counter. -/
theorem bundleTally_saturates (t : List (Nat × Int)) (w : Int) (val : Nat → Int) :
    (bundleTally t w val).2 = true ↔ ∃ j, j < 256 ∧ (tallyGet t j + w * val j < -128 ∨ 127 < tallyGet t j + w * val j) := by
  simp only [bundleTally, List.any_eq_true, List.mem_range, Bool.or_eq_true, decide_eq_true_eq]

theorem getLsbD_binariseTally (t : List (Nat × Int)) (tie : Sliver) {j : Nat} (dim : j < 256) :
    (binariseTally t tie).getLsbD j = if tallyGet t j = 0 then tie.getLsbD j else decide (tallyGet t j < 0) :=
  sliverOf_getLsbD _ j dim

/-! ### The instructions -/

@[simp] theorem CoreSt.bundle_pc (k : CoreSt) (w : Int) (val : Nat → Int) : (k.bundle w val).pc = k.pc := rfl

theorem exec_tclr (vd va vb : VReg) (sx : SReg) (i : Issue) (s : State) : exec (.tclr i vd va vb sx) s = .next (s.issue i [] (fun k =>
    if vd ≠ 0 ∨ va ≠ 0 ∨ vb ≠ 0 ∨ sx ≠ 0 then .exc excILLEGAL 0 else .done { core := { k with tally := [], tlsat := false } })) := rfl

/-- Settles O9: the algebra's clauses read the counters one by one, and each instruction is one update of its core. -/
theorem tallyInstructionsBundleSignAndThin : Obligations.TallyInstructionsBundleSignAndThin := by
  unfold Obligations.TallyInstructionsBundleSignAndThin
  refine ⟨fun t w val j => tallyGet_bundleTally t w val, bundleTally_saturates, fun vd va vb sx => ?vcadd, fun vd va vb sx => ?vcaddt,
    fun vd va vb sx => ?vcaddtOdd, fun vd va vb sx => ?vsign, fun t tie j => getLsbD_binariseTally t tie, fun vd va vb sx => ?vthin,
    fun t th j => getLsbD_thinTally t th, fun vd va vb sx => ?vthinOdd, ?tclr, fun vd va vb sx => ?tclrIllegal⟩
  case vcadd => exact completesOn_of_core (fun _ _ => rfl) (fun _ => rfl)
  case vcaddt => exact completes_of_even (fun _ _ => rfl) (fun _ => rfl) (fun _ h => h)
  case vcaddtOdd => exact traps_of_odd (fun _ _ => rfl) (fun _ h => h)
  case vsign => exact completesOn_of_core (fun _ _ => rfl) (fun k => (CoreSt.setS_pc _ sx _).trans (k.setV_pc vd _))
  case vthin => exact completes_of_even (fun _ _ => rfl) (fun k => (CoreSt.setV_pc _ (vd + 1) _).trans (k.setV_pc vd _)) (fun _ h => h)
  case vthinOdd => exact traps_of_odd (fun _ _ => rfl) (fun _ h => h)
  case tclr => exact completes_of_act _ (exec_tclr 0 0 0 0) (fun _ _ k _ => ⟨_, if_neg (by decide), rfl, rfl, rfl, rfl, rfl, rfl, rfl⟩)
  case tclrIllegal => exact traps_of_act _ (exec_tclr vd va vb sx) (fun _ _ k h => if_pos h)

end Sys2Proof.Machine
end

section
/-! PROOFS.  The settings of a core's overflow area while it holds messages (05_flint_instructions R168). -/

namespace Sys2Proof.Machine

/-- A write of the overflow area's base or size leaves a core that holds a message in it as it is. -/
theorem csrStore_ovf_held {k : CoreSt} (t : Nat) {n : Nat} (v : Word) (ovf : n = 0x09 ∨ n = 0x0A) (held : 0 < k.ovfUse) : k.csrStore t n v = k := by
  rcases ovf with rfl | rfl
  · exact if_pos held
  · exact if_pos held

theorem exec_csrw_ovf (rd ra : SReg) {imm : Imm16} (ovf : immLo imm = 0x09 ∨ immLo imm = 0x0A) (i : Issue) (s : State) :
    exec (.csrw i rd ra imm) s = .next (s.issue i (hazS ra) (fun k => .done { core := k.csrStore (s.coreCycle i.core.val) (immLo imm) (k.s ra) })) := by
  show execCsrw i rd ra imm s = _
  unfold execCsrw
  rcases ovf with e | e <;> simp only [e] <;> rfl

theorem exec_csrc_ovf (rd ra : SReg) {imm : Imm16} (ovf : immLo imm = 0x09 ∨ immLo imm = 0x0A) (i : Issue) (s : State) :
    exec (.csrc i rd ra imm) s = .next (s.issue i (hazS ra) (fun k =>
      .done { core := k.csrStore (s.coreCycle i.core.val) (immLo imm) (k.csrRw (immLo imm) &&& ~~~(k.s ra)) })) := by
  show execCsrc i rd ra imm s = _
  unfold execCsrc
  rcases ovf with e | e <;> simp only [e] <;> rfl

/-- An instruction whose act stores one value in the overflow area's base or size changes nothing while the area holds a message. -/
theorem completes_of_ovf_held {mk : Issue → Instr} {reads : List Nat} {n : Nat} {v : CoreSt → Word} (ovf : n = 0x09 ∨ n = 0x0A)
    (run : ∀ i s, exec (mk i) s = .next (s.issue i reads (fun k => .done { core := k.csrStore (s.coreCycle i.core.val) n (v k) }))) :
    Completes mk reads (fun k => 0 < k.ovfUse) 1 (fun k => k) (fun k => k.pc + 4) [] 0 := by
  refine completes_of_act _ run (fun i s k held => ?_)
  have same := csrStore_ovf_held (s.coreCycle i.core.val) (v k) ovf held
  exact ⟨_, rfl, rfl, rfl, same, congrArg (·.pc + 4) same, rfl, rfl, rfl⟩

/-- Settles O56: both instructions store through the one operation that R168 has ignored while the area holds a message. -/
theorem overflowSettingsStandWhileMessagesAreHeld : Obligations.OverflowSettingsStandWhileMessagesAreHeld := by
  unfold Obligations.OverflowSettingsStandWhileMessagesAreHeld
  exact fun rd ra imm ovf => ⟨completes_of_ovf_held ovf (exec_csrw_ovf rd ra ovf), completes_of_ovf_held ovf (exec_csrc_ovf rd ra ovf)⟩

end Sys2Proof.Machine
end

section
/-! PROOFS.  The instructions that wait, barriers, and their ends (04_gallery_fabric R149; 05_flint_instructions R174 to R176, R184,
Table FLINT-6). -/

namespace Sys2Proof.Machine

/-! ### Instructions that complete at once or hold their core -/

section

variable {mk : Issue → Instr} {bad : Prop} [Decidable bad] {met : CoreSt → Prop} [DecidablePred met] {go f : CoreSt → CoreSt} {wait : Wait}
  {ok : CoreSt → Prop}
  (run : ∀ i s, exec (mk i) s = .next (s.issue i [] (fun k => if bad then .exc excILLEGAL 0
    else if met k then .done { core := go k } else .done { core := { k with wait := wait }, hold := true })))

include run

theorem completes_of_met (holds : ∀ k, ok k → ¬ bad ∧ met k ∧ go k = f k) (pc : ∀ k, (f k).pc = k.pc) :
    Completes mk [] ok 1 f (fun k => k.pc + 4) [] 0 := by
  refine completes_of_act _ run (fun _ _ k h => ?_)
  obtain ⟨legal, now, goes⟩ := holds k h
  exact ⟨_, (if_neg legal).trans (if_pos now), rfl, rfl, goes, congrArg (· + 4) ((congrArg CoreSt.pc goes).trans (pc k)), rfl, rfl, rfl⟩

/-- An instruction whose condition does not hold leaves the core waiting at its pc (R175). -/
theorem holds_of_unmet {mine : Wait} (fails : ∀ k, ok k → ¬ bad ∧ ¬ met k ∧ wait = mine) :
    Completes mk [] ok 1 (fun k => { k with wait := mine }) (fun k => k.pc) [] 0 := by
  refine completes_of_act _ run (fun _ _ k h => ?_)
  obtain ⟨legal, later, rfl⟩ := fails k h
  exact ⟨_, (if_neg legal).trans (if_neg later), rfl, rfl, rfl, rfl, rfl, rfl, rfl⟩

theorem traps_of_illegal (illegal : ∀ k, ok k → bad) : Traps mk ok excILLEGAL (fun _ => 0) :=
  traps_of_act _ run (fun _ _ k h => if_pos (illegal k h))

end

/-! ### Conditions of the waits -/

theorem testBit_waitBits (k : CoreSt) (j : Nat) : k.waitBits.testBit j = match j with
    | 0 => !k.held.isEmpty
    | 1 => k.tickev
    | 2 => k.tmrev
    | 3 => k.fetchDone != 0
    | _ => false := by
  unfold CoreSt.waitBits
  rw [(bitsNat_testBit 4 _ j).1]
  match j with
  | 0 | 1 | 2 | 3 => exact Bool.true_and _
  | j + 4 => exact Bool.and_eq_false_iff.2 (.inl (decide_eq_false (by omega)))

@[simp] theorem CoreSt.wake_pc (k : CoreSt) (rd : SReg) (bits : Nat) : (k.wake rd bits).pc = k.pc := CoreSt.setS_pc _ rd _

theorem drained_iff (k : CoreSt) (mask : Nat) :
    k.fenced_ mask = true ↔ (mask.testBit 1 = true → k.fetches = []) ∧ (mask.testBit 2 = true → k.traceQ = []) := by
  unfold CoreSt.fenced_
  simp only [Bool.and_eq_true, Bool.or_eq_true, Bool.not_eq_true', List.isEmpty_iff, imp_iff_not_or, Bool.not_eq_true]

/-- The drains that FENCE names are those of the low three bits of its immediate (Table FLINT-6). -/
theorem drained_mod_iff (k : CoreSt) (n : Nat) :
    k.fenced_ (n % 8) = true ↔ (n.testBit 1 = true → k.fetches = []) ∧ (n.testBit 2 = true → k.traceQ = []) := by
  rw [drained_iff, show (8 : Nat) = 2 ^ 3 from rfl, Nat.testBit_mod_two_pow, Nat.testBit_mod_two_pow]
  simp

/-! ### WAIT, FWAIT and FENCE -/

theorem exec_wait (rd : SReg) (imm : Imm16) (i : Issue) (s : State) : exec (.wait i rd 0 imm) s =
    .next (s.issue i [] (fun k => if imm.toNat % 16 = 0 ∨ 16 ≤ imm.toNat ∨ (0 : SReg) ≠ 0 then .exc excILLEGAL 0
      else if k.waitBits &&& imm.toNat % 16 ≠ 0 then .done { core := k.wake rd (k.waitBits &&& imm.toNat % 16) }
      else .done { core := { k with wait := .wait rd.toNat (imm.toNat % 16) }, hold := true })) := rfl

/-- A mask of WAIT that is not zero and has no bit above 3 is legal and used whole (Table FLINT-6). -/
theorem waitMask_legal {imm : Imm16} (nonzero : 0 < imm.toNat) (low : imm.toNat < 16) :
    ¬ (imm.toNat % 16 = 0 ∨ 16 ≤ imm.toNat ∨ (0 : SReg) ≠ 0) ∧ imm.toNat % 16 = imm.toNat := by
  have whole := Nat.mod_eq_of_lt low
  exact ⟨by rw [whole]; simp; omega, whole⟩

theorem exec_fwait (rd ra : SReg) (imm : Imm16) (i : Issue) (s : State) : exec (.fwait i rd ra imm) s =
    .next (s.issue i [] (fun k => if imm.toNat % 16 = 0 then .exc excILLEGAL 0
      else if k.fetchDone &&& imm.toNat % 16 = imm.toNat % 16 then .done { core := k }
      else .done { core := { k with wait := .fwait (imm.toNat % 16) }, hold := true })) := rfl

theorem exec_fence (rd ra : SReg) (imm : Imm16) (i : Issue) (s : State) : exec (.fence i rd ra imm) s =
    .next (s.issue i [] (fun k => if imm.toNat % 8 = 0 then .exc excILLEGAL 0
      else if k.fenced_ (imm.toNat % 8) = true then .done { core := k }
      else .done { core := { k with wait := .fence (imm.toNat % 8) }, hold := true })) := rfl

/-! ### Wakes -/

/-- A core that goes on is the only one that changes. -/
theorem resume_spec (s : State) (c extra : Nat) (k : CoreSt) : OnlyCore s (s.resume c extra k) c ∧
    (s.resume c extra k).core c = { k with wait := .none, pc := k.pc + 4, busy := s.coreCycle c + extra } :=
  ⟨OnlyCore.setCore s c _, State.core_setCore_same s c _⟩

section

variable {c : CoreId} {s : State} {mask : Nat}

theorem exec_waitWake {rd : Nat} (waits : (s.core c.val).wait = .wait rd mask) (runs : s.coreRuns c.val = true)
    (holds : (s.core c.val).waitBits &&& mask ≠ 0) :
    exec (.waitWake c) s = .next (s.resume c.val 2 ((s.core c.val).wake (BitVec.ofNat 5 rd) ((s.core c.val).waitBits &&& mask))) := by
  show execWaitWake c s = _
  simp only [execWaitWake, waits, runs, holds, Bool.not_true, Bool.false_eq_true, or_self, if_false]

theorem exec_fwaitDone (waits : (s.core c.val).wait = .fwait mask) (runs : s.coreRuns c.val = true)
    (done : (s.core c.val).fetchDone &&& mask = mask) : exec (.fwaitDone c) s = .next (s.resume c.val 2 (s.core c.val)) := by
  show execFwaitDone c s = _
  simp only [execFwaitDone, waits, runs, done, ne_eq, not_true_eq_false, Bool.not_true, Bool.false_eq_true, or_self, if_false]

theorem exec_fenceDone (waits : (s.core c.val).wait = .fence mask) (runs : s.coreRuns c.val = true)
    (drained : (s.core c.val).fenced_ mask = true) : exec (.fenceDone c) s = .next (s.resume c.val 0 (s.core c.val)) := by
  show execFenceDone c s = _
  simp only [execFenceDone, waits, runs, drained, Bool.not_true, Bool.false_eq_true, or_self, if_false]

end

/-- Settles O11: the three instructions complete or hold by their condition, and each wake resumes its core. -/
theorem waitingInstructionsHoldAndWake : Obligations.WaitingInstructionsHoldAndWake := by
  unfold Obligations.WaitingInstructionsHoldAndWake
  refine ⟨fun rd imm => ?waitNow, fun rd imm => ?waitLater, testBit_waitBits, fun _ _ _ => rfl, fun c s rd mask waits runs holds => ?waitWake,
    fun rd ra imm => ?fwaitNow, fun rd ra imm => ?fwaitLater, fun rd ra imm => ?fwaitIllegal,
    fun c s mask waits runs done => ⟨_, exec_fwaitDone waits runs done, resume_spec s _ 2 _⟩,
    fun rd ra imm => ?fenceNow, fun rd ra imm => ?fenceLater, fun rd ra imm => ?fenceIllegal,
    fun c s mask waits runs fetched traced => ⟨_, exec_fenceDone waits runs ((drained_iff _ _).2 ⟨fetched, traced⟩), resume_spec s _ 0 _⟩⟩
  case waitNow =>
    refine completes_of_met (exec_wait rd imm) (fun k ⟨nonzero, low, holds⟩ => ?_) (fun k => k.wake_pc rd _)
    obtain ⟨legal, whole⟩ := waitMask_legal nonzero low
    exact ⟨legal, by rwa [whole], by rw [whole]⟩
  case waitLater =>
    refine holds_of_unmet (exec_wait rd imm) (fun k ⟨nonzero, low, fails⟩ => ?_)
    obtain ⟨legal, whole⟩ := waitMask_legal nonzero low
    exact ⟨legal, by rw [whole]; exact not_not_intro fails, by rw [whole]⟩
  case waitWake =>
    refine ⟨_, exec_waitWake waits runs holds, ?_⟩
    have woken := resume_spec s c.val 2 ((s.core c.val).wake (BitVec.ofNat 5 rd) ((s.core c.val).waitBits &&& mask))
    rwa [CoreSt.wake_pc] at woken
  case fwaitNow => exact completes_of_met (exec_fwait rd ra imm) (fun k ⟨legal, done⟩ => ⟨legal, done, rfl⟩) (fun _ => rfl)
  case fwaitLater => exact holds_of_unmet (exec_fwait rd ra imm) (fun k ⟨legal, pending⟩ => ⟨legal, pending, rfl⟩)
  case fwaitIllegal => exact traps_of_illegal (exec_fwait rd ra imm) (fun _ zero => zero)
  case fenceNow =>
    exact completes_of_met (exec_fence rd ra imm) (fun k ⟨legal, drained⟩ => ⟨legal, (drained_mod_iff k _).2 drained, rfl⟩) (fun _ => rfl)
  case fenceLater =>
    refine holds_of_unmet (exec_fence rd ra imm) (fun k ⟨legal, left⟩ => ⟨legal, fun drained => ?_, rfl⟩)
    obtain ⟨fetched, traced⟩ := (drained_mod_iff k _).1 drained
    rcases left with ⟨named, unfinished⟩ | ⟨named, unfinished⟩
    · exact unfinished (fetched named)
    · exact unfinished (traced named)
  case fenceIllegal => exact traps_of_illegal (exec_fence rd ra imm) (fun _ zero => zero)

/-! ### Barriers (R176) -/

/-- The core waiting at a barrier of a scope from cycle `t` on, with the expiry that FLINT_BAR_TIMEOUT sets (R176). -/
def CoreSt.atBarrierFrom (k : CoreSt) (sc : Scope) (t : Nat) : CoreSt :=
  { k with wait := .barrier sc (if k.barTimeout = 0 then none else some (t + k.barTimeout.toNat)) }

theorem scopeOf_small {imm : Imm16} (small : imm.toNat ≤ 2) :
    scopeOf imm.toNat = some (if imm = 0 then .sliver else if imm = 1 then .group else .device) := by
  have scopes : imm = 0 ∨ imm = 1 ∨ imm = 2 := by bv_omega
  rcases scopes with rfl | rfl | rfl <;> rfl

theorem scopeOf_large {n : Nat} (large : 2 < n) : scopeOf n = none := by
  match n, large with
  | n + 3, _ => rfl

theorem barrier_retires {rd ra : SReg} {imm : Imm16} {i : Issue} {s : State} {k : CoreSt} {w : Nat} {sc : Scope} (fetched : Fetches s i k w)
    (scope : scopeOf imm.toNat = some sc) : Answers (.barrier i rd ra imm) s (fun t =>
      Retires s t i (k.atBarrierFrom sc (s.coreCycle i.core.val)) k.pc (retireCycle s i [] w 1) [] 0) := by
  refine ⟨_, rfl, issue_retires fetched [] _ { core := k.atBarrierFrom sc (s.coreCycle i.core.val), hold := true } ?_ rfl rfl⟩
  rw [scope]
  rfl

theorem barrierFull_iff (s : State) (sc : Scope) (region : Nat) :
    s.barrierFull sc region = true ↔ ∀ c ∈ s.barrierCores sc region, (s.core c).atBarrier sc = true := List.all_eq_true

/-- A complete barrier lets each of its cores go on, in the same cycle, and touches no other core. -/
theorem barrierRelease_spec (s : State) (sc : Scope) (region : Nat) : s.barrierRelease sc region = { s with cores := (s.barrierRelease sc region).cores } ∧
    ∀ d, (s.barrierRelease sc region).core d =
      if d ∈ s.barrierCores sc region then { s.core d with wait := .none, pc := (s.core d).pc + 4, busy := s.coreCycle d } else s.core d :=
  resume_all s 0 (s.barrierCores sc region) s rfl (fun _ => .inl rfl) rfl

/-- An exception outside a handler enters the handler and touches no other core (R179). -/
theorem raise_enters {s : State} {c : Nat} (cause : Nat) (addr : Word) (handler : (s.core c).excVec ≠ 0) (out : (s.core c).inHandler = false) :
    s.raise c cause addr = s.setCore c ((s.core c).entered cause addr (s.coreCycle c + 3)) := by
  unfold State.raise
  dsimp only
  rw [if_neg (by simpa [out] using handler)]
  rfl

section

variable {c : CoreId} {s : State} {sc : Scope} {x : Nat} (waits : (s.core c.val).wait = .barrier sc (some x)) (runs : s.coreRuns c.val = true)
  (expired : x ≤ s.cycleNow)

include waits runs expired

theorem exec_barrierTimeout : exec (.barrierTimeout c) s = .next (if s.barrierFull sc (s.regionOf sc c.val) = true
    then s.barrierRelease sc (s.regionOf sc c.val) else s.raise c.val excBARTIMEOUT 0) := by
  show execBarrierTimeout c s = _
  simp only [execBarrierTimeout, waits, runs, Nat.not_lt.2 expired, Bool.not_true, Bool.false_eq_true, or_self, if_false]
  exact (apply_ite Host.Outcome.next _ _ _).symm

end

/-- Settles O12: BARRIER holds its core, a complete region is released by one fold over its cores, and an incomplete one raises. -/
theorem barriersReleaseTogetherOrTimeOut : Obligations.BarriersReleaseTogetherOrTimeOut := by
  unfold Obligations.BarriersReleaseTogetherOrTimeOut
  refine ⟨fun rd ra imm small i s k w fetched => barrier_retires fetched (scopeOf_small small), fun rd ra imm => ?illegal,
    fun sc region s full => ?complete, fun c s sc x waits runs expired missing handler out => ?timeout,
    fun c s sc x waits runs expired full => ?both⟩
  case illegal => exact traps_of_act _ (fun _ _ => rfl) (fun _ _ k large => by rw [scopeOf_large large])
  case complete =>
    exact ⟨_, if_pos ((barrierFull_iff s sc _).2 full), barrierRelease_spec s sc _⟩
  case timeout =>
    obtain ⟨d, listed, away⟩ := missing
    have short : ¬ s.barrierFull sc (s.regionOf sc c.val) = true := fun full => by
      rw [(barrierFull_iff s sc _).1 full d listed] at away
      exact Bool.noConfusion away
    refine ⟨_, exec_barrierTimeout waits runs expired, ?_⟩
    rw [if_neg short, raise_enters _ _ handler out]
    exact ⟨OnlyCore.setCore s _ _, State.core_setCore_same s _ _⟩
  case both =>
    refine ⟨_, exec_barrierTimeout waits runs expired, ?_⟩
    rw [if_pos ((barrierFull_iff s sc _).2 full)]
    exact barrierRelease_spec s sc _

end Sys2Proof.Machine
end

section
/-! PROOFS.  FETCH, HALT, undefined words, the timer, tick notices and restarts of a core (04_gallery_fabric R149, R150;
05_flint_instructions R167, R169, R178, R179, R181, R182). -/

namespace Sys2Proof.Machine

/-! ### FETCH (R149, R150) -/

theorem issue_stall {s : State} {i : Issue} {k : CoreSt} {w : Nat} (fetched : Fetches s i k w) (reads : List Nat) (act : CoreSt → Act)
    (stalls : act k = .stall) : s.issue i reads act = s := by
  obtain ⟨can, first, last, written, clean⟩ := fetched
  simp only [State.issue, can, first, last, written, clean, stalls, Bool.not_true, Bool.false_eq_true, Bool.and_self, ↓reduceIte, ne_eq, not_true_eq_false]

/-- A FETCH that takes no exception: its length defined, its SRAM address aligned and touchable, its HBM units in the fetch window. -/
structure FetchAllowed (k : CoreSt) (u b : Word) (fn : BitVec 6) : Prop where
  length : fn.toNat < 8
  aligned : b.toNat % 32 = 0
  above : k.fwinLo.toNat ≤ u.toNat
  below : u.toNat + (fn.toNat + 1) ≤ k.fwinHi.toNat
  touchable : ∀ j, j < 32 * (fn.toNat + 1) → k.byteOk (b.toNat + j) = true

/-- The core with a fetch of `n` bytes from HBM unit `u` to `b` outstanding in a slot that RD reports (R149). -/
def CoreSt.fetching (k : CoreSt) (rd : SReg) (slot u b n : Nat) : CoreSt :=
  { k.setS rd (BitVec.ofNat 32 slot) with
    fetches := k.fetches ++ [(slot, ⟨32 * u, b, n⟩)]
    fetchDone := if k.fetchDone.testBit slot then k.fetchDone - 2 ^ slot else k.fetchDone }

/-- How FETCH completes: its fetch is outstanding, and every prefetcher sees its lines (R150). -/
def CoreSt.fetchIssued (k : CoreSt) (rd : SReg) (slot u b n : Nat) : Done :=
  { core := k.fetching rd slot u b n, post := fun t => t.prefetchAll (32 * u) n }

theorem badByte_none {k : CoreSt} {a n : Nat} (touchable : ∀ j, j < n → k.byteOk (a + j) = true) : k.badByte a n = none := by
  have pass : memFault k a n 1 = none := memFault_of_accessible ⟨Nat.mod_one a, touchable⟩
  rw [memFault, if_neg (not_not_intro (Nat.mod_one a))] at pass
  exact Option.map_eq_none_iff.1 pass

/-- The act of an allowed FETCH, once its checks pass. -/
theorem fetchChecks_passed {k : CoreSt} {u b : Word} {fn : BitVec 6} (allowed : FetchAllowed k u b fn) (act : Nat → Act) :
    (if 8 ≤ fn.toNat then Act.exc excILLEGAL 0
      else if b.toNat % 32 ≠ 0 then .exc excMISALIGN b
      else if (u.toNat < k.fwinLo.toNat || k.fwinHi.toNat < u.toNat + 32 * (fn.toNat % 8 + 1) / 32) = true then .exc excADDR u
      else match k.badByte b.toNat (32 * (fn.toNat % 8 + 1)) with
        | some x => .exc excADDR (BitVec.ofNat 32 x)
        | none => act (32 * (fn.toNat % 8 + 1))) = act (32 * (fn.toNat + 1)) := by
  obtain ⟨length, aligned, above, below, touchable⟩ := allowed
  rw [Nat.mod_eq_of_lt length, if_neg (by omega), if_neg (not_not_intro aligned), if_neg (by simp; omega), badByte_none touchable]

/-- What an allowed FETCH does: it takes the lowest free slot, and stalls while there is none (Table FLINT-6). -/
def CoreSt.fetchAct (k : CoreSt) (rd : SReg) (u b n : Nat) : Act :=
  match k.freeSlot with
  | none => .stall
  | some slot => .done (k.fetchIssued rd slot u b n)

section

variable {i : Issue} {rd ra rb : SReg} {fn : BitVec 6} {s : State} {k : CoreSt} {w : Nat} (fetched : Fetches s i k w)
  (allowed : FetchAllowed k (k.s ra) (k.s rb) fn)

include fetched allowed

theorem exec_fetch_full (full : k.freeSlot = none) : exec (.fetch i rd ra rb fn) s = .next s := by
  have act : k.fetchAct rd (k.s ra).toNat (k.s rb).toNat (32 * (fn.toNat + 1)) = .stall := by
    rw [CoreSt.fetchAct, full]
  exact congrArg Host.Outcome.next
    (issue_stall fetched (hazS ra ++ hazS rb) _ ((fetchChecks_passed allowed (k.fetchAct rd (k.s ra).toNat (k.s rb).toNat)).trans act))

/-- An allowed FETCH with a free slot leaves its fetch outstanding on its core; beyond it only the prefetchers act. -/
theorem exec_fetch_free {slot : Nat} (free : k.freeSlot = some slot) :
    ∃ u, Retires s u i (k.fetching rd slot (k.s ra).toNat (k.s rb).toNat (32 * (fn.toNat + 1))) (k.pc + 4) (retireCycle s i (hazS ra ++ hazS rb) w 1) [] 0 ∧
      exec (.fetch i rd ra rb fn) s = .next (u.prefetchAll (32 * (k.s ra).toNat) (32 * (fn.toNat + 1))) := by
  have act : k.fetchAct rd (k.s ra).toNat (k.s rb).toNat (32 * (fn.toNat + 1)) =
      .done (k.fetchIssued rd slot (k.s ra).toNat (k.s rb).toNat (32 * (fn.toNat + 1))) := by
    rw [CoreSt.fetchAct, free]
  obtain ⟨u, retires, done, -⟩ := commit_post s i k (s.coreCycle i.core.val + (s.core i.core.val).interlock (hazS ra ++ hazS rb) + w)
    (k.fetchIssued rd slot (k.s ra).toNat (k.s rb).toNat (32 * (fn.toNat + 1)))
  refine ⟨u, ?_, congrArg Host.Outcome.next ((issue_done fetched (hazS ra ++ hazS rb) _ (k.fetchIssued rd slot _ _ _)
    ((fetchChecks_passed allowed (k.fetchAct rd (k.s ra).toNat (k.s rb).toNat)).trans act) rfl).trans done)⟩
  have pc : (k.fetching rd slot (k.s ra).toNat (k.s rb).toNat (32 * (fn.toNat + 1))).pc = k.pc := k.setS_pc rd _
  rw [← pc]
  exact retires

end

/-- A core's instruction followed by the prefetchers: only that core, the hit counters and the prefetchers' memory change (R150). -/
theorem prefetchAll_spec {s u : State} {c : Nat} (only : OnlyCore s u c) (a n : Nat) {t : State} (set : t = u.prefetchAll a n) :
    t = { s with cores := t.cores, regs := t.regs, prefetched := t.prefetched } ∧
      (∀ b, (∀ q, q < 32 → b ≠ (F.GAL_PF_HITS_COUNT q).addr) → t.reg b = s.reg b) ∧ (∀ d, d ≠ c → t.core d = s.core d) ∧ t.core c = u.core c := by
  subst set
  obtain ⟨same, others⟩ := only
  obtain ⟨keeps, counters⟩ := prefetchAll_eq u a n
  have cores : ∀ d, (u.prefetchAll a n).core d = u.core d := fun d => by rw [keeps]; rfl
  refine ⟨?_, fun b other => (counters b other).trans ?_, fun d other => (cores d).trans (others d other), cores c⟩
  · rw [keeps, same]
  · rw [same]
    rfl

/-! ### HALT (R181) -/

theorem exec_halt (off : BitVec 26) (i : Issue) (s : State) : exec (.halt i off) s = .next (s.issue i [] (fun k =>
    if off ≠ 0 then .exc excILLEGAL 0
    else .done { core := { k with finished := true }, hold := true, post := fun t => t.gapStreams (k.logical.getD 0) })) := rfl

/-- HALT finishes its core, and the windows of its sliver group's streams are marked. -/
theorem exec_halt_finishes {i : Issue} {s : State} {k : CoreSt} {w : Nat} (fetched : Fetches s i k w) :
    ∃ u, Retires s u i { k with finished := true } k.pc (retireCycle s i [] w 1) [] 0 ∧ u.regs = s.regs ∧
      exec (.halt i 0) s = .next (u.gapStreams (k.logical.getD 0)) := by
  obtain ⟨u, retires, done, regs⟩ := commit_post s i k (s.coreCycle i.core.val + (s.core i.core.val).interlock [] + w)
    { core := { k with finished := true }, hold := true, post := fun t => t.gapStreams (k.logical.getD 0) }
  exact ⟨u, retires, regs, (exec_halt 0 i s).trans (congrArg Host.Outcome.next ((issue_done fetched [] _ _ (if_neg (not_not_intro rfl)) rfl).trans done))⟩

/-- A core's instruction followed by a mark on windows: only that core and the marked streams change. -/
theorem gapStreams_spec {s u : State} {c : Nat} (only : OnlyCore s u c) (regs : u.regs = s.regs) (l : Nat) {t : State} (set : t = u.gapStreams l) :
    t = { s with cores := t.cores, streams := t.streams } ∧ (∀ d, d ≠ c → t.core d = s.core d) ∧ t.core c = u.core c ∧
      ∀ n, t.stream n = if n ∈ s.sliverStreams l then { s.stream n with gapNow := true } else s.stream n := by
  subst set
  obtain ⟨same, others⟩ := only
  obtain ⟨keeps, marked⟩ := gapStreams_eq u l
  have cores : ∀ d, (u.gapStreams l).core d = u.core d := fun d => (gapStreams_only u l).core d
  refine ⟨?_, fun d other => (cores d).trans (others d other), cores c, fun n => ?_⟩
  · rw [keeps, same]
  · rw [marked, sliverStreams_congr regs, same]
    rfl

/-! ### Undefined words (R169) -/

theorem exec_illegalInstruction {word : Word} (undefinedWord : flintLegal word = false) (i : Issue) (s : State) :
    exec (.illegalInstruction i word) s = .next (s.issue i [] (fun _ => .exc excILLEGAL 0)) := by
  show execIllegalInstruction i word s = _
  unfold execIllegalInstruction
  rw [undefinedWord]
  rfl

theorem illegalInstruction_traps (word : Word) : Traps (.illegalInstruction · word) (fun _ => flintLegal word = false) excILLEGAL (fun _ => 0) := by
  cases legal : flintLegal word
  · exact traps_of_act _ (exec_illegalInstruction legal) (fun _ _ _ _ => rfl)
  · exact fun _ _ _ _ _ no => Bool.noConfusion no

/-! ### Timer, ticks and restarts (R167, R178, R182) -/

section

variable {c : CoreId} {s : State}

theorem exec_flintTimerMatch (set : (s.core c.val).tmr ≠ 0) (first : (s.core c.val).tmrDone = false) (serving : (s.core c.val).fenced = false)
    (out : (s.core c.val).inReset = false) (reached : (s.core c.val).tmr.toNat ≤ s.coreCycle c.val - (s.core c.val).tickCycle) :
    exec (.flintTimerMatch c) s = .next (s.setCore c.val { s.core c.val with tmrev := true, tmrDone := true }) := by
  show execFlintTimerMatch c s = _
  unfold execFlintTimerMatch
  dsimp only
  rw [if_neg (by simpa [first, serving, out, reached] using set)]

theorem exec_tickNotice (serving : (s.core c.val).fenced = false) (out : (s.core c.val).inReset = false) : exec (.tickNotice c) s =
    .next (s.setCore c.val { s.core c.val with tick := s.tick, tickCycle := s.cycleNow, tickev := true, tmrDone := false }) := by
  show execTickNotice c s = _
  unfold execTickNotice
  dsimp only
  rw [if_neg (by simp [serving, out])]

/-- Loading a core begins its group's image at the sliver index of the address it serves (R188). -/
theorem loadCore_eq (s : State) {c : Nat} {l : Nat} (serves : (s.core c).logical = some l) :
    s.loadCore c = s.setCore c ((s.core c).begin_ (s.grp (l / 128)).image (l % s.groupCores)) := by
  unfold State.loadCore
  dsimp only
  rw [serves]

/-- A restarted core: reset, loaded with its group's image, and due to start at the next tick boundary. -/
def State.restarted (s : State) (c l : Nat) : CoreSt :=
  { ((s.core c).resetCore s.cycleNow false).begin_ (s.grp (l / 128)).image (l % s.groupCores) with restartPend := true }

/-- CORE_RESTART changes its core, and its home streams start afresh (R157). -/
theorem exec_coreRestart {l : Nat} (stopped : (s.core c.val).faulted = true) (serving : (s.core c.val).fenced = false)
    (serves : (s.core c.val).logical = some l) :
    ∃ u, OnlyCore s u c.val ∧ u.core c.val = s.restarted c.val l ∧ exec (.coreRestart c) s = .next (u.loseStreams l) := by
  let v := s.setCore c.val ((s.core c.val).resetCore s.cycleNow false)
  have reset : v.core c.val = (s.core c.val).resetCore s.cycleNow false := State.core_setCore_same s _ _
  have load := loadCore_eq v (c := c.val) (l := l) (by rw [reset]; exact serves)
  refine ⟨(v.loadCore c.val).setCore c.val { (v.loadCore c.val).core c.val with restartPend := true }, ?_, ?_, ?_⟩
  · rw [load]
    exact ((OnlyCore.setCore s _ _).trans (OnlyCore.setCore v _ _)).trans (OnlyCore.setCore _ _ _)
  · rw [State.core_setCore_same, load, State.core_setCore_same, reset]
    rfl
  · show execCoreRestart c s = _
    unfold execCoreRestart
    dsimp only
    rw [if_neg (by simp [stopped, serving]), serves]
    rfl

end

theorem core_loseStreams (s : State) (l c : Nat) : (s.loseStreams l).core c = s.core c := by
  rw [loseStreams_keeps]
  rfl

/-- Settles O14: each command acts on its core; FETCH, HALT and CORE_RESTART add the prefetchers, the marked windows and the home streams. -/
theorem fetchHaltAndTheCoreEvents : Obligations.FetchHaltAndTheCoreEvents := by
  unfold Obligations.FetchHaltAndTheCoreEvents
  refine ⟨fun rd ra rb fn i s k w n fetched length aligned above below touchable free => ?fetch,
    fun rd ra rb fn i s k w fetched length aligned above below touchable => exec_fetch_full fetched ⟨length, aligned, above, below, touchable⟩,
    fun rd ra rb fn => traps_of_act _ (fun _ _ => rfl) (fun _ _ k long => if_pos long), fun i s k w fetched => ?halt,
    fun off => traps_of_act _ (exec_halt off) (fun _ _ k h => if_pos h), illegalInstruction_traps,
    fun c s set first serving out reached =>
      ⟨_, exec_flintTimerMatch set first serving out reached, OnlyCore.setCore s _ _, State.core_setCore_same s _ _⟩,
    fun c s serving out => ⟨_, exec_tickNotice serving out, OnlyCore.setCore s _ _, State.core_setCore_same s _ _⟩,
    fun c s l stopped serving serves => ?restart⟩
  case fetch =>
    obtain ⟨u, ⟨only, core⟩, run⟩ := exec_fetch_free (rd := rd) fetched ⟨length, aligned, above, below, touchable⟩ free
    obtain ⟨keeps, counters, others, own⟩ := prefetchAll_spec only _ _ rfl
    exact ⟨_, run, keeps, counters, others, own.trans core⟩
  case halt =>
    obtain ⟨u, ⟨only, core⟩, regs, run⟩ := exec_halt_finishes fetched
    obtain ⟨keeps, others, own, marked⟩ := gapStreams_spec only regs (k.logical.getD 0) rfl
    exact ⟨_, run, keeps, others, own.trans core, marked⟩
  case restart =>
    obtain ⟨u, ⟨same, others⟩, core, run⟩ := exec_coreRestart stopped serving serves
    refine ⟨_, run, ?_, fun d other => (core_loseStreams u l d).trans (others d other), (core_loseStreams u l c.val).trans core⟩
    rw [loseStreams_keeps, same]

end Sys2Proof.Machine
end

section
/-! PROOFS.  The home core's networks and the slivers of a record: spikes, ticks due, sliver encoding and epoch notices
(02_hypervector_algebra R76, R77; 06_spiking_execution R197, R198, R201, R214; 12_chisel_learning R395). -/

namespace Sys2Proof.Machine

section

variable {stream : Stream} {s : State}

/-! ### Spikes taken (R198, R201) -/

theorem exec_aditSpikes_none (none : (s.core (s.homeCore stream.toNat)).held.find? (spikesOf stream.toNat) = none) :
    exec (.aditSpikes stream) s = .next s := by
  show execAditSpikes stream s = _
  unfold execAditSpikes
  dsimp only
  rw [none]

/-- The oldest message of the stream's spikes leaves the held messages as RECV takes one, and the program acts on it. -/
theorem exec_aditSpikes_take {e : Bool × Msg} (oldest : (s.core (s.homeCore stream.toNat)).held.find? (spikesOf stream.toNat) = some e)
    (runs : s.coreRuns (s.homeCore stream.toNat) = true) : exec (.aditSpikes stream) s = .next ((s.setCore (s.homeCore stream.toNat)
      ((s.core (s.homeCore stream.toNat)).takeHeld (dropFirst e (s.core (s.homeCore stream.toNat)).held))).took (s.homeCore stream.toNat) e.2) := by
  show execAditSpikes stream s = _
  unfold execAditSpikes
  dsimp only
  rw [oldest]
  exact if_neg (by simp [runs])

/-! ### Ticks processed (R197, R214) -/

/-- The cycle at which the home core processes tick `t`: TPROC cycles after the tick became due (R197). -/
def State.tickCycleDue (s : State) (n : Nat) (d : NetDef) (t : Nat) : Nat := 8 * s.tickStart (t + s.delay n + 1) + d.tproc.toNat

theorem nextTick_of_next {n t : Nat} (next : (s.net n).next = some t) : s.nextTick n = some t := by
  unfold State.nextTick
  rw [next]

section

variable {d : NetDef} {t : Nat} (net : (s.net stream.toNat).net = some d) (next : (s.net stream.toNat).next = some t)
include net next

/-- TPROC_EXPIRY of a loaded network whose next tick is known: the tick is processed where nothing holds it back. -/
theorem exec_tprocExpiry : exec (.tprocExpiry stream) s =
    if !s.coreRuns (s.homeCore stream.toNat) ∨ !s.mapped stream.toNat ∨ !s.ticking ∨ s.cycleNow < s.tickCycleDue stream.toNat d t then .next s
    else .next ((s.setNet stream.toNat { s.net stream.toNat with first := some ((s.net stream.toNat).first.getD t), next := some t }).processTick
      stream.toNat t) := by
  show execTprocExpiry stream s = _
  unfold execTprocExpiry
  dsimp only
  rw [net, nextTick_of_next next]
  rfl

theorem exec_tprocExpiry_due (runs : s.coreRuns (s.homeCore stream.toNat) = true) (mapped : s.mapped stream.toNat = true)
    (ticking : s.ticking = true) (due : s.tickCycleDue stream.toNat d t ≤ s.cycleNow) :
    exec (.tprocExpiry stream) s = .next ((s.setNet stream.toNat
      { s.net stream.toNat with first := some ((s.net stream.toNat).first.getD t), next := some t }).processTick stream.toNat t) := by
  rw [exec_tprocExpiry net next]
  exact if_neg (by simp [runs, mapped, ticking, due])

theorem exec_tprocExpiry_early (early : s.cycleNow < s.tickCycleDue stream.toNat d t) : exec (.tprocExpiry stream) s = .next s := by
  rw [exec_tprocExpiry net next]
  exact if_pos (.inr (.inr (.inr early)))

end

/-! ### Slivers encoded (R76, R77) -/

theorem exec_sliverEncode {b : Broadcast} {rest : List Broadcast} (broadcast : (s.net stream.toNat).outbox = b :: rest) :
    exec (.sliverEncode stream) s = .next ((List.range s.groupCores).foldl (fun a j => a.encodeCore stream.toNat b j)
      (s.setNet stream.toNat { s.net stream.toNat with outbox := rest })) := by
  show execSliverEncode stream s = _
  unfold execSliverEncode
  dsimp only
  rw [broadcast]

end

section

variable {n j : Nat} {s : State}

/-- A core that is missing its sliver, or that does not run, sends nothing. -/
theorem encodeCore_silent (b : Broadcast)
    (silent : s.sliverMissing (s.sgroup n * s.groupCores + j) = true ∨ s.coreRuns (s.physOf (s.sgroup n * s.groupCores + j)) = false) :
    s.encodeCore n b j = s := by
  have guard : (s.sliverMissing (s.sgroup n * s.groupCores + j) || !s.coreRuns (s.physOf (s.sgroup n * s.groupCores + j))) = true := by
    simpa using silent
  exact if_pos guard

/-- The payload of a sliver message: the sliver's word, the window's start, and the 256 bits in four words (Table GAL-4). -/
def sliverPayload (n j : Nat) (b : Broadcast) (loss : Bool) (x : List (Nat × Int)) (sat : Bool) (bits : BitVec 256) : List Word64 :=
  [sliverWord n j (popc bits) sat loss (tallyZero x), BitVec.ofNat 64 b.start,
    bits.extractLsb' 0 64, bits.extractLsb' 64 64, bits.extractLsb' 128 64, bits.extractLsb' 192 64]

theorem encodeCore_sends {c : Nat} {b : Broadcast} {x : List (Nat × Int)} {sat : Bool}
    (whole : s.sliverMissing (s.sgroup n * s.groupCores + j) = false) (serves : s.physOf (s.sgroup n * s.groupCores + j) = c)
    (runs : s.coreRuns c = true) (sliver : encodeSliver s.seed (s.bin n) j b.spikes = (x, sat)) :
    s.encodeCore n b j = (s.setCore c { s.core c with loss := false }).sendFrom c (0x2000 + coreX c) tagSLIVER
      (sliverPayload n j b ((s.core c).loss || (b.loss && s.sgroup n * s.groupCores + j == s.homeLogical n)) x sat
        (binariseTally x (tieSliver s.seed j))) := by
  unfold State.encodeCore
  dsimp only
  rw [serves, if_neg (by simp [whole, runs]), sliver]
  rfl

end

/-! ### Epoch notices (R395) -/

section

variable {s : State} {c : Nat}

theorem exec_epochHandshake {core : CoreId} (runs : s.coreRuns core.val = true) :
    exec (.epochHandshake core) s = .next (s.handshake core.val) := if_pos runs

theorem handshake_none (none : (s.core c).notice = none) : s.handshake c = s := by
  unfold State.handshake
  dsimp only
  rw [none]

/-- A notice of the epoch a core has already applied is dropped. -/
theorem handshake_applied {e : EpochCfg} (pending : (s.core c).notice = some e) (applied : e.number = (s.core c).epoch.number) :
    s.handshake c = s.setCore c { s.core c with notice := none } := by
  unfold State.handshake
  dsimp only
  rw [pending]
  exact if_pos applied

end

/-- Settles O21: each command by its one condition, and the encoding and the handshake of a core by theirs. -/
theorem homeCoresRunTheirNetworks : Obligations.HomeCoresRunTheirNetworks := by
  unfold Obligations.HomeCoresRunTheirNetworks
  exact ⟨fun n s e oldest runs => exec_aditSpikes_take oldest runs, fun n s none => exec_aditSpikes_none none,
    fun n s d t net next runs mapped ticking due => exec_tprocExpiry_due net next runs mapped ticking due,
    fun n s d t net next early => exec_tprocExpiry_early net next early,
    fun n s b r broadcast => exec_sliverEncode broadcast,
    fun n j b s silent => encodeCore_silent b silent,
    fun n j c b s x sat whole serves runs sliver => encodeCore_sends whole serves runs sliver,
    fun c s runs => exec_epochHandshake runs,
    fun c s e pending applied => handshake_applied pending applied,
    fun c s none => handshake_none none⟩

end Sys2Proof.Machine
end

section
/-! PROOFS.  A tile pass from its latch point to its result, Shaft links, and calibrations (07_seam_arrays R224 to R229, R240, R247, R248;
08_seam_upkeep R260, R262, R264, R272; 01_window_to_result R30, R38, R39). -/

namespace Sys2Proof.Machine

/-! ### One pass of an evaluation -/

/-- An evaluation whose pass `q` has come to `st`. -/
def Eval.withPass (e : Eval) (q : PassJob) (st : PassSt) : Eval :=
  { e with passes := e.passes.map (fun y => if y = q then { q with st := st } else y) }

/-- The same after `n` more repeats (Table SEAM-7). -/
def Eval.retried (e : Eval) (n : Nat) (q : PassJob) (st : PassSt) : Eval := { e.withPass q st with retries := min 255 (e.retries + n) }

/-! ### The start of a pass (R224 to R226, R264) -/

section

variable {k : Die} {j : BitVec 13} {tag : Word} {r : BitVec 5} {s : State} {e : Eval} {q : PassJob}

/-- A pass that drives no row takes no slot and reads zero (R226). -/
theorem exec_tilePassStart_undriven (found : s.waitingEval k.toNat j.toNat tag.toNat r.toNat = some e) (ready : s.dieReady k.toNat = true)
    (job : e.waitingJob r.toNat = some q) (undriven : rowsDriven (passInput e.input e.kind q) = 0) (pat : List RefRead) :
    exec (.tilePassStart k j tag r pat) s = .next (s.setEval k.toNat e (e.withPass q (.done (List.replicate 1024 0) 0 0 0))) := by
  show execTilePassStart k j tag r pat s = _
  simp only [execTilePassStart, found, ready, job, undriven, Bool.not_true, Bool.false_eq_true, if_false, if_true]
  rfl

/-- The state in which a pass on tile `p` latches: the tile is recalibrated first when its calibration is not current (R264). -/
def State.latchPoint (s : State) (k p : Nat) (pat : List RefRead) : State := if s.calCurrent k p then s else s.recalibrate k p pat

theorem exec_tilePassStart_latches (found : s.waitingEval k.toNat j.toNat tag.toNat r.toNat = some e) (ready : s.dieReady k.toNat = true)
    (job : e.waitingJob r.toNat = some q) (driven : rowsDriven (passInput e.input e.kind q) ≠ 0)
    (idle : s.passRunning k.toNat j.toNat q.tile = false) (slot : s.slotFree k.toNat e.cls = true) (pat : List RefRead) {p : Nat}
    (place : s.physTile k.toNat (j.toNat * (s.dim / 1024) + q.tile) = p) :
    exec (.tilePassStart k j tag r pat) s = .next (((s.latchPoint k.toNat p pat).takeSlots k.toNat 1 false).setEval k.toNat e (e.withPass q
      (.running { phys := p, tile := (s.latchPoint k.toNat p pat).tileSt k.toNat p, input := passInput e.input e.kind q }))) := by
  show execTilePassStart k j tag r pat s = _
  simp only [execTilePassStart, found, ready, job, idle, slot, place, if_neg driven, Bool.not_true, Bool.false_eq_true, if_false]
  rfl

/-! ### The end of a pass (R226 to R229, R240 to R248) -/

/-- The state in which the conversion of a pass has been counted (R229, Table SEAM-13). -/
def State.passCounted (s : State) (k : Nat) (l : Latch) : State :=
  (s.bump64 (R.SEAM_EVALS_LO k) 1).bump (F.SEAM_TRUNC_COUNT k) (if passTrunc (fullRange l.tile.levels l.input.sum) = 0 then 0 else 1)

variable {l : Latch} {noise : List (BitVec 11 × Int)}

section

variable (found : s.runningEval k.toNat j.toNat tag.toNat r.toNat = some e) (job : e.runningJob r.toNat = some q) (latched : q.st = .running l)
include found job latched

/-- A pass that passes its checks is done, and its references are accumulated. -/
theorem exec_tilePassComplete_done (good : s.checkPasses k.toNat l noise = true) : exec (.tilePassComplete k j tag r noise) s =
    .next ((((s.passCounted k.toNat l).setTile k.toNat l.phys (((s.passCounted k.toNat l).tileSt k.toNat l.phys).accumulate
        (refCols.map (fun c => (s.columnRaw k.toNat l noise c : Int))) ((refExact l.tile.levels l.input).map Int.ofNat))).giveSlots k.toNat 1 false).setEval
      k.toNat e (e.retried 0 q (.done (s.passCounts k.toNat l q.digits noise) l.input.sum (passTrunc (fullRange l.tile.levels l.input.sum))
        (corrections l)))) := by
  show execTilePassComplete k j tag r noise s = _
  simp only [execTilePassComplete, found, job, latched, if_pos good]
  rfl

/-- A pass that fails its checks is run again in its slot, three times at most (R248). -/
theorem exec_tilePassComplete_again (bad : s.checkPasses k.toNat l noise = false) (more : l.tries < 3) : exec (.tilePassComplete k j tag r noise) s =
    .next (((s.passCounted k.toNat l).bump (F.SEAM_RETRY_COUNT k.toNat) 1).setEval k.toNat e
      (e.retried 1 q (.running { l with tries := l.tries + 1 }))) := by
  show execTilePassComplete k j tag r noise s = _
  simp only [execTilePassComplete, found, job, latched, bad, Bool.false_eq_true, if_false, if_pos more]
  rfl

/-- The result of a tile whose pass has failed four times is withheld, and the fault is charged to the tile (R248). -/
theorem exec_tilePassComplete_withheld (bad : s.checkPasses k.toNat l noise = false) (spent : 3 ≤ l.tries) :
    exec (.tilePassComplete k j tag r noise) s =
    .next ((((((s.passCounted k.toNat l).bump (F.SEAM_CHECK_FAIL_COUNT k.toNat) 1).alarm (F.SEAM_ALARM_CHECK_FAIL k.toNat) l.phys).tileFault
      k.toNat l.phys false).giveSlots k.toNat 1 false).setEval k.toNat e (e.retried 0 q .withheld)) := by
  show execTilePassComplete k j tag r noise s = _
  simp only [execTilePassComplete, found, job, latched, bad, Bool.false_eq_true, if_false, if_neg (Nat.not_lt.2 spent)]
  rfl

end

end

/-! ### Ranges of a conversion (R225, R227, R229, R240) -/

theorem converted_lt (q : Int) (b t : Nat) : converted q b t < 2 ^ b := by
  have codes : 0 < 2 ^ b := Nat.two_pow_pos b
  unfold converted
  omega

theorem clampInt_mem {lo hi : Int} (ordered : lo ≤ hi) (x : Int) : lo ≤ clampInt lo hi x ∧ clampInt lo hi x ≤ hi := by
  rw [clampInt_eq ordered]
  omega

theorem calibrated_mem (g : Nat) (o : Int) (t raw S : Nat) : 0 ≤ calibrated g o t raw S ∧ calibrated g o t raw S ≤ S :=
  clampInt_mem (Int.natCast_nonneg S) _

/-- A pass converts in at most 12 bits, and cuts none off while its full range fits in them (R225). -/
theorem passBits_passTrunc (S : Nat) : passBits S ≤ 12 ∧ (S < 4096 → passTrunc S = 0) := by
  refine ⟨Nat.min_le_right _ _, fun fits => ?_⟩
  have bits : bitsFull S ≤ 12 := Nat.clog_le_of_le_pow (by omega)
  unfold passTrunc passBits
  rw [Nat.min_eq_left bits, Nat.sub_self]

/-! ### Shaft links (R30, R272) -/

/-- With no Shaft link up the die is not ready, and its evaluations not yet latched end. -/
def State.linkFallen (s : State) (k : Nat) : State :=
  if s.fld (F.SEAM_STATUS_SHAFT_UP k) = 0 then (s.setFld (F.SEAM_STATUS_DIE_READY k) 0).markNotReady k (fun _ => true) else s

theorem linkFallen_only (s : State) (k : Nat) : OnlyRegsSeam s (s.linkFallen k) [R.SEAM_STATUS k] := by
  unfold State.linkFallen
  split
  · exact (onlyRegsSeam_setFld s (F.SEAM_STATUS_DIE_READY k) 0 List.mem_cons_self).trans ⟨markNotReady_eq _ _ _, fun a _ => reg_markNotReady _ _ _ a⟩
  · exact OnlyRegsSeam.refl s _

theorem regBit_linkFallen (s : State) (k : Nat) {i : Nat} (apart : i < 31) : (s.linkFallen k).regBit (R.SEAM_STATUS k) i = s.regBit (R.SEAM_STATUS k) i := by
  unfold State.linkFallen
  split
  · rw [regBit_markNotReady, regBit_setFld_apart _ _ _ _ _ (.inr (.inl apart))]
  · rfl

theorem notReady_linkFallen (s : State) (k : Nat) (fallen : (s.linkFallen k).fld (F.SEAM_STATUS_SHAFT_UP k) = 0) :
    (s.linkFallen k).fld (F.SEAM_STATUS_DIE_READY k) = 0 := by
  unfold State.linkFallen at fallen ⊢
  split at fallen
  next down => rw [if_pos down, fld_markNotReady, State.fld_setFld_same _ _ _ (by decide : 31 + 1 ≤ 32)]; rfl
  next up => exact absurd fallen up

theorem onlyRegsSeam_setRegBit (s : State) (a i : Nat) (b : Bool) : OnlyRegsSeam s (s.setRegBit a i b) [a] :=
  ⟨rfl, fun _ other => s.reg_setRegBit_ne a i b (fun same => other (List.mem_singleton.2 same))⟩

section

variable {k : Die} {l : BitVec 1} {s : State}

theorem exec_shaftLinkDown : exec (.shaftLinkDown k l) s = .next ((s.setRegBit (R.SEAM_STATUS k.toNat) (28 + l.toNat) false).linkFallen k.toNat) :=
  (apply_ite Host.Outcome.next _ _ _).symm

theorem exec_shaftLinkRetire : exec (.shaftLinkRetire k l) s =
    .next (((s.setRegBit (R.SEAM_STATUS k.toNat) (26 + l.toNat) true).setRegBit (R.SEAM_STATUS k.toNat) (28 + l.toNat) false).linkFallen k.toNat) :=
  (apply_ite Host.Outcome.next _ _ _).symm

end

/-! ### Calibrations (R260, R262, R264) -/

theorem exec_recalibrationDue {k : Die} {l : BitVec 15} {s : State} (ready : s.dieReady k.toNat = true)
    (due : ∀ x c, (s.tileSt k.toNat (s.physTile k.toNat l.toNat)).calAt = some (x, c) → x + s.fld (F.SEAM_PLAN_TIME_RECAL_MS k.toNat) ≤ s.uptime)
    (pat : List RefRead) : exec (.recalibrationDue k l pat) s = .next (s.recalibrate k.toNat (s.physTile k.toNat l.toNat) pat) := by
  show execRecalibrationDue k l pat s = _
  unfold execRecalibrationDue
  dsimp only
  rw [ready, Bool.true_and]
  split
  · rfl
  next x c last => exact if_pos (by simp [due x c last])

theorem calAt_recalibrate (k p : Nat) (pat : List RefRead) (s : State) :
    ((s.recalibrate k p pat).tileSt k p).calAt = some (s.uptime, (s.die k).temp) := by
  show ((s.setTile k p _).tileSt k p).calAt = _
  rw [State.tileSt_setTile_same]

theorem exec_fullCalibration {k : Die} {p : BitVec 16} {s : State} (ready : s.dieReady k.toNat = true) (place : p.toNat < physTiles)
    (sound : s.tileRole k.toNat p.toNat ≠ 3) (cells : List CellRead) (fits : List ColFit) (w : Bool) {a : State}
    (remedied : a = s.afterCalibration k.toNat p.toNat cells fits w) : exec (.fullCalibration k p cells fits w) s =
      .next (a.setDie k.toNat { a.die k.toNat with calDue := (a.die k.toNat).calDue.filter (fun l => s.physTile k.toNat l != p.toNat) }) := by
  show execFullCalibration k p cells fits w s = _
  unfold execFullCalibration
  dsimp only
  rw [if_neg (by simp [ready, place, sound]), remedied]

/-- Settles O22: a pass by the outcome of its start and of its checks, conversions by their ranges, and a link by what its fall leaves. -/
theorem tilePassesConvertCheckAndRetry : Obligations.TilePassesConvertCheckAndRetry := by
  unfold Obligations.TilePassesConvertCheckAndRetry
  refine ⟨fun k j tag r pat s e q found ready job undriven => exec_tilePassStart_undriven found ready job undriven pat,
    fun k j tag r pat s e q p found ready job driven idle slot place =>
      ⟨_, exec_tilePassStart_latches found ready job driven idle slot pat place, _, rfl, rfl⟩,
    fun k j tag r noise s e q l put found job latched same => ?complete, converted_lt, calibrated_mem, passBits_passTrunc, fun k l s => ?down,
    fun k l s => ?retire, fun k l pat s ready never => exec_recalibrationDue ready (by simp [never]) pat,
    fun k l pat s x c ready last due => exec_recalibrationDue ready (by simpa [last] using due) pat, calAt_recalibrate,
    fun k p cells fits w s ready place sound => ⟨_, exec_fullCalibration ready place sound cells fits w rfl, _, rfl, rfl⟩⟩
  case complete =>
    subst same
    cases good : s.checkPasses k.toNat l noise with
    | true => exact ⟨_, exec_tilePassComplete_done found job latched good, _, rfl, nofun, nofun, fun _ => rfl⟩
    | false =>
      by_cases more : l.tries < 3
      · exact ⟨_, exec_tilePassComplete_again found job latched good more, _, rfl, fun _ _ => rfl, fun _ spent => absurd more (Nat.not_lt.2 spent), nofun⟩
      · exact ⟨_, exec_tilePassComplete_withheld found job latched good (Nat.not_lt.1 more), _, rfl, fun _ again => absurd again more,
          fun _ _ => rfl, nofun⟩
  case down =>
    have link : l.toNat < 2 := l.isLt
    obtain ⟨same, others⟩ := (onlyRegsSeam_setRegBit s _ (28 + l.toNat) false).trans (linkFallen_only _ k.toNat)
    refine ⟨_, exec_shaftLinkDown, ?_, notReady_linkFallen _ _, same, fun a other => others a (mt List.mem_singleton.1 other)⟩
    rw [regBit_linkFallen _ _ (by omega), State.regBit_setRegBit_same _ _ _ _ (by omega)]
  case retire =>
    have link : l.toNat < 2 := l.isLt
    obtain ⟨same, others⟩ := ((onlyRegsSeam_setRegBit s _ (26 + l.toNat) true).trans (onlyRegsSeam_setRegBit _ _ (28 + l.toNat) false)).trans
      (linkFallen_only _ k.toNat)
    refine ⟨_, exec_shaftLinkRetire, ?_, ?_, notReady_linkFallen _ _, same, fun a other => others a (mt List.mem_singleton.1 other)⟩
    · rw [regBit_linkFallen _ _ (by omega), State.regBit_setRegBit_same _ _ _ _ (by omega)]
    · rw [regBit_linkFallen _ _ (by omega), State.regBit_setRegBit_other _ _ _ _ _ _ (.inr (by omega)), State.regBit_setRegBit_same _ _ _ _ (by omega)]

end Sys2Proof.Machine
end

section
/-! PROOFS.  The bench commands OFFLINE, ONLINE and CHECK (07_seam_arrays R239, Table SEAM-8). -/

namespace Sys2Proof.Machine

/-! ### Benches and the die's registers -/

/-- Neither alarm register of a Seam die is a register of the power block. -/
theorem seamAlarm_notPower (k : Nat) {a : Nat} (own : a = R.SEAM_ALARM k ∨ a = R.SEAM_UPKEEP_ALARM k) (die : k < 8) :
    a ≠ R.POWER_SUMMARY ∧ a ∉ lostRegs := by
  simp only [lostRegs, R.SEAM_ALARM, R.SEAM_UPKEEP_ALARM, R.POWER_SUMMARY, R.POWER_ALARM, R.POWER_ALARM_LOST, List.mem_cons, List.not_mem_nil, or_false,
    not_or] at own ⊢
  omega

/-- A refused command of a die raises CMD_REFUSED and does nothing else. -/
theorem onlyAlarm_benchRefused (s : State) (k : Die) (j : Nat) : OnlyAlarm s (s.benchRefused k.toNat j) (F.SEAM_ALARM_CMD_REFUSED k.toNat) := by
  obtain ⟨summary, lost⟩ := seamAlarm_notPower k.toNat (.inl rfl) k.isLt
  exact onlyAlarm s _ j rfl (by decide : 6 < 32) summary lost

/-- Does a batch run on a bench of the die? -/
def State.batchOn (s : State) (k j : Nat) : Bool := (s.die k).batches.any (fun b => b.bench == some j && b.started)

theorem movedTo_moveBenchState (s : State) (k j : Nat) (st : BenchState) : ((s.moveBenchState k j st).benchSt k j).state = st :=
  congrArg BenchSt.state (moveBenchState_state s k j st)

theorem check_moveBenchState (s : State) (k j : Nat) (st : BenchState) : ((s.moveBenchState k j st).benchSt k j).check = (s.benchSt k j).check := by
  rw [moveBenchState_state]

section

variable {k : Die} {s : State}

/-! ### Commands taken -/

theorem exec_offline (reached : Reached s 4) (bench : s.selBench k.toNat < s.perDie) (ready : (s.benchSt k.toNat (s.selBench k.toNat)).state = .ready) :
    exec (.offline k) s = .next (if s.batchOn k.toNat (s.selBench k.toNat) = true
      then s.putBench k.toNat (s.selBench k.toNat) { s.benchSt k.toNat (s.selBench k.toNat) with offlinePend := true }
      else s.moveBenchState k.toNat (s.selBench k.toNat) .offline) := by
  show execOffline k s = _
  unfold execOffline
  dsimp only
  rw [gate_reached s reached, if_neg (by simp [ready, bench]), apply_ite Host.Outcome.next]
  rfl

theorem exec_online (reached : Reached s 4) (bench : s.selBench k.toNat < s.perDie) (off : (s.benchSt k.toNat (s.selBench k.toNat)).state = .offline)
    (current : ∀ p ∈ s.benchPhys k.toNat (s.selBench k.toNat), s.calCurrent k.toNat p = true) :
    exec (.online k) s = .next (s.moveBenchState k.toNat (s.selBench k.toNat) .ready) := by
  show execOnline k s = _
  unfold execOnline
  dsimp only
  rw [gate_reached s reached, if_neg (by simpa [off, bench] using current)]

theorem exec_check (reached : Reached s 4) (bench : s.selBench k.toNat < s.perDie) (off : (s.benchSt k.toNat (s.selBench k.toNat)).state = .offline) :
    exec (.check k) s = .next ((s.putBench k.toNat (s.selBench k.toNat) { s.benchSt k.toNat (s.selBench k.toNat) with check := none }).moveBenchState
      k.toNat (s.selBench k.toNat) .checking) := by
  show execCheck k s = _
  unfold execCheck
  dsimp only
  rw [gate_reached s reached, if_neg (by simp [off, bench])]

/-! ### Commands refused -/

theorem offline_refused (reached : Reached s 4) (no : s.perDie ≤ s.selBench k.toNat ∨ (s.benchSt k.toNat (s.selBench k.toNat)).state ≠ .ready) :
    Answers (.offline k) s (fun t => OnlyAlarm s t (F.SEAM_ALARM_CMD_REFUSED k.toNat)) :=
  ⟨_, (gate_reached s reached _).trans (if_pos (by simpa using no)), onlyAlarm_benchRefused s k _⟩

theorem check_refused (reached : Reached s 4) (no : s.perDie ≤ s.selBench k.toNat ∨ (s.benchSt k.toNat (s.selBench k.toNat)).state ≠ .offline) :
    Answers (.check k) s (fun t => OnlyAlarm s t (F.SEAM_ALARM_CMD_REFUSED k.toNat)) :=
  ⟨_, (gate_reached s reached _).trans (if_pos (by simpa using no)), onlyAlarm_benchRefused s k _⟩

theorem online_refused (reached : Reached s 4) (no : (s.perDie ≤ s.selBench k.toNat ∨ (s.benchSt k.toNat (s.selBench k.toNat)).state ≠ .offline) ∨
      ∃ p ∈ s.benchPhys k.toNat (s.selBench k.toNat), s.calCurrent k.toNat p = false) :
    Answers (.online k) s (fun t => OnlyAlarm s t (F.SEAM_ALARM_CMD_REFUSED k.toNat)) :=
  ⟨_, (gate_reached s reached _).trans (if_pos (by simpa using no)), onlyAlarm_benchRefused s k _⟩

end

end Sys2Proof.Machine
end

section
/-! PROOFS.  The bring-up of a die, bench checks, batches and program loops (07_seam_arrays R251, R252, R255; 08_seam_upkeep R271, R272;
01_window_to_result R50). -/

namespace Sys2Proof.Machine

section

variable {k : Die} {s : State}

/-! ### Bring-up (R255, R272) -/

theorem exec_dieReady_unreadable {l : BitVec 2} (runs : s.lanternRuns = true) (up : l.toNat &&& (3 - s.fld (F.SEAM_STATUS_SHAFT_RETIRED k.toNat)) ≠ 0)
    (waits : s.dieReady k.toNat = false) : exec (.dieReady k l 0) s = .next (s.deviceFault 4 k.toNat) := by
  show execDieReady k l 0 s = _
  unfold execDieReady
  dsimp only
  rw [if_neg (by simp [runs, up, waits]), if_pos rfl]

/-- A die with both copies readable, every pump in service tested and no bench in its record but retired ones becomes ready. -/
theorem exec_dieReady {l : BitVec 2} {up : Nat} (runs : s.lanternRuns = true) (links : up = l.toNat &&& (3 - s.fld (F.SEAM_STATUS_SHAFT_RETIRED k.toNat)))
    (linked : up ≠ 0) (waits : s.dieReady k.toNat = false)
    (pumps : ∀ p, p < 16 → s.regBit (R.SEAM_PUMPS k.toNat) (16 + p) = true ∨ p ∈ (s.die k.toNat).tested)
    (benches : ∀ e ∈ s.seam.benches, e.1 / 8192 ≠ k.toNat ∨ e.2.state = .retired) : exec (.dieReady k l 3) s =
      .next ((((s.setFld (F.SEAM_STATUS_DIE_READY k.toNat) 1).setFld (F.SEAM_STATUS_RECORD_OK k.toNat) 1).setFld
        (F.SEAM_STATUS_SHAFT_UP k.toNat) up).countSpares k.toNat) := by
  have untested : (List.range 16).any (fun p => !s.regBit (R.SEAM_PUMPS k.toNat) (16 + p) && !((s.die k.toNat).tested.contains p)) = false := by
    simpa [or_iff_not_imp_left] using pumps
  have mine : s.seam.benches.filter (fun e => e.1 / 8192 == k.toNat && decide (e.2.state ≠ .retired)) = [] := by
    simpa [List.filter_eq_nil_iff, or_iff_not_imp_left] using benches
  show execDieReady k l 3 s = _
  unfold execDieReady
  dsimp only
  rw [← links, if_neg (by simp [runs, linked, waits]), if_neg (by decide), if_neg (by rw [untested]; decide), if_pos rfl]
  simp only [State.setFld_seam, mine, List.map_nil, List.foldl_nil]

/-! ### Bench checks (R50, R271) -/

/-- The first bench in the order of R50 begins its check when slots for its tiles are free. -/
theorem exec_benchCheckStart {j : Nat} {r : List Nat} (order : s.checkOrder k.toNat = j :: r) (ready : s.dieReady k.toNat = true)
    (runs : s.upkeepRuns = true)
    (few : (s.seam.benches.filter (fun e => e.1 / 8192 == k.toNat && e.2.check.isSome)).length < s.slotLimit k.toNat / (s.dim / 1024))
    (slots : s.slotsActive k.toNat + s.dim / 1024 ≤ s.slotLimit k.toNat) : exec (.benchCheckStart k) s =
      .next ((s.putBench k.toNat j { s.benchSt k.toNat j with check := some {} }).takeSlots k.toNat (s.dim / 1024) true) := by
  show execBenchCheckStart k s = _
  unfold execBenchCheckStart
  dsimp only
  rw [order]
  dsimp only
  rw [if_neg (by simpa [ready, runs] using ⟨few, slots⟩)]

theorem exec_benchCheckDone {j : BitVec 13} {ck : BenchCheck} (running : (s.benchSt k.toNat j.toNat).check = some ck)
    (checking : (s.benchSt k.toNat j.toNat).state = .checking) (unowned : (s.benchSt k.toNat j.toNat).lib = none)
    (all : ∀ r, r < s.dim / 1024 → r ∈ ck.done) (sump : s.sumpReady = true)
    (idle : (s.die k.toNat).batches.any (fun b => b.bench == some j.toNat) = false)
    (sound : (s.die k.toNat).replaceDue.any (fun l => l / (s.dim / 1024) == j.toNat) = false)
    (empty : s.entriesIn (s.devBench k.toNat j.toNat) [esVALID, esINVALID, esQUARANTINED] = []) : exec (.benchCheckDone k j [] []) s =
      .next ((((s.putBench k.toNat j.toNat { s.benchSt k.toNat j.toNat with check := none }).giveSlots k.toNat
        (ck.cols.map Prod.fst).eraseDups.length true).moveBenchState k.toNat j.toNat .ready).countUsed) := by
  have tiles : (List.range (s.dim / 1024)).all ck.done.contains = true := by simpa using all
  show execBenchCheckDone k j [] [] s = _
  unfold execBenchCheckDone
  dsimp only
  rw [running]
  dsimp only
  rw [if_neg (by simp only [checking, tiles, sump, idle, sound, List.all_nil]; decide), empty]
  conv_lhs => rw [unowned]
  rfl

/-! ### Batches and program loops (R251, R252) -/

theorem exec_batchStart {j : BitVec 13} {b : Batch} (first : (s.die k.toNat).batches.find? (fun b => decide (b.target = .bench j) && !b.started) = some b)
    (ready : s.dieReady k.toNat = true) (free : s.writesHeld = false)
    (alone : (s.die k.toNat).batches.any (fun x => decide (x.target = .bench j) && x.started) = false)
    (writable : b.phys.any (s.unwritable k.toNat) = false) (slots : s.slotsActive k.toNat + b.phys.length ≤ s.slotLimit k.toNat) {a : State}
    (held : a = s.takeSlots k.toNat b.phys.length true) : exec (.batchStart k j) s = .next (a.setDie k.toNat { a.die k.toNat with
      batches := (a.die k.toNat).batches.map (fun x => if x = b then { b with started := true } else x) }) := by
  show execBatchStart k j s = _
  unfold execBatchStart
  dsimp only
  rw [first]
  dsimp only
  rw [if_neg (by simp [ready, free, alone]), if_neg (by simp [writable]), if_neg (Nat.not_lt.2 slots), held]

section

variable {g : ProgTarget} {b : Batch} (first : (s.die k.toNat).batches.find? (fun b => decide (b.target = g) && (b.started || b.upkeep)) = some b)
  (started : b.started = true)
include first started

/-- A running batch spends its erase loops first. -/
theorem exec_programLoop_erases (erases : 0 < b.erase) (left : List LoopCell) : exec (.programLoop k g left) s =
    .next (s.setDie k.toNat { s.die k.toNat with
      batches := (s.die k.toNat).batches.map (fun y => if y = b then { b with erase := b.erase - 1 } else y) }) := by
  have same : ({ b with started := true, erase := b.erase - 1 } : Batch) = { b with erase := b.erase - 1 } := by rw [started]
  show execProgramLoop k g left s = _
  unfold execProgramLoop
  dsimp only
  rw [first]
  dsimp only
  rw [if_neg (by simp [started]), if_pos erases, if_pos (by simp [started]), same]

/-- A program loop that leaves no cell outside its window ends the batch. -/
theorem exec_programLoop_ends (erased : b.erase = 0) : exec (.programLoop k g []) s =
    .next ((s.setDie k.toNat { s.die k.toNat with
      batches := (s.die k.toNat).batches.map (fun y => if y = b then { b with loops := b.loops + 1, stuck := [] } else y) }).finishBatch
      k.toNat { b with loops := b.loops + 1, stuck := [] }) := by
  show execProgramLoop k g [] s = _
  unfold execProgramLoop
  dsimp only
  rw [first]
  dsimp only
  rw [if_neg (by simp [started]), if_neg (by omega)]
  simp only [started, Bool.true_or, if_true, List.filter_nil, List.map_nil, ite_self, List.isEmpty_nil, List.append_nil]

end

end

end Sys2Proof.Machine
end

section
/-! PROOFS.  Refresh, staging fills and swaps, replacements and bench moves (08_seam_upkeep R268 to R270, R276, R277, R282), and the statement of
benches and batches. -/

namespace Sys2Proof.Machine

section

variable {k : Die} {s : State}

/-! ### Refresh (R268, R269) -/

/-- A refresh of a tile whose pump is retired has the tile replaced. -/
theorem exec_refresh_replaces {f : RefreshJob}
    (first : s.firstJob k.toNat ((s.die k.toNat).refreshQ.filter (fun j => !s.byFill k.toNat j.tile j.col)) = some f) (ready : s.dieReady k.toNat = true)
    (runs : s.upkeepRuns = true) (free : s.writesHeld = false) (slot : s.slotsActive k.toNat < s.slotLimit k.toNat)
    (dead : s.unwritable k.toNat (s.physTile k.toNat f.tile) = true) : exec (.refresh k) s = .next (s.replaceTile k.toNat f.tile) := by
  show execRefresh k s = _
  unfold execRefresh
  dsimp only
  rw [first]
  dsimp only
  rw [if_neg (by simp [ready, runs, free, slot]), if_pos dead]

theorem exec_refresh_none (empty : (s.die k.toNat).refreshQ = []) : exec (.refresh k) s = .next s := by
  show execRefresh k s = _
  unfold execRefresh
  dsimp only
  rw [empty]
  rfl

theorem dim_setQueue (s : State) (k : Nat) (q : List RefreshJob) : (s.setQueue k q).dim = s.dim := by
  have other : R.GAL_CFG ≠ R.SEAM_UPKEEP_STATUS k := by
    unfold R.GAL_CFG R.SEAM_UPKEEP_STATUS
    omega
  unfold State.dim State.setQueue
  rw [State.fld_setFld_other _ _ _ _ (.inl other), State.fld_setDie]

theorem benchOfTile_congr {s t : State} (same : t.dim = s.dim) (l : Nat) : t.benchOfTile l = s.benchOfTile l := by
  unfold State.benchOfTile State.perDie
  rw [same]

/-- The last batch of a die is started. -/
def DieSt.startLast (d : DieSt) : DieSt :=
  { d with batches := d.batches.dropLast ++ (d.batches.drop (d.batches.length - 1)).map (fun b => { b with started := true }) }

/-- The one job of a queue, of a tile that is no bench's, is written in a slot of upkeep. -/
theorem exec_refresh_one {f : RefreshJob} (queue : (s.die k.toNat).refreshQ = [f]) (direct : s.byFill k.toNat f.tile f.col = false)
    (unowned : s.benchOfTile f.tile = none) (ready : s.dieReady k.toNat = true) (runs : s.upkeepRuns = true) (free : s.writesHeld = false)
    (slot : s.slotsActive k.toNat < s.slotLimit k.toNat) (writable : s.unwritable k.toNat (s.physTile k.toNat f.tile) = false) {a : State}
    (written : a = (s.setQueue k.toNat []).upkeepWrite k.toNat f.tile [f.col]) : exec (.refresh k) s =
      .next ((a.setDie k.toNat (a.die k.toNat).startLast).takeSlots k.toNat 1 true) := by
  have due : [f].filter (fun j => !s.byFill k.toNat j.tile j.col) = [f] := List.filter_cons_of_pos (by simp [direct])
  have group : ([f].filter (fun j => j.tile == f.tile && j.late == f.late && !s.byFill k.toNat j.tile j.col)).take 64 = [f] := by simp [direct]
  have rest : [f].filter (fun j => !([f].contains j)) = [] := by simp
  have column : (s.setQueue k.toNat []).freeColumn k.toNat f.tile f.col = (true, s.setQueue k.toNat []) :=
    freeColumn_none _ _ _ _ ((benchOfTile_congr (dim_setQueue s _ _) _).trans unowned)
  show execRefresh k s = _
  unfold execRefresh
  dsimp only
  rw [queue, due, show s.firstJob k.toNat [f] = some f from rfl]
  dsimp only
  rw [if_neg (by simp [ready, runs, free, slot]), if_neg (by simp [writable]), group, rest, List.filter_cons_of_pos (by rw [unowned]), List.filter_nil,
    List.foldl_cons, List.foldl_nil, column, written]
  rfl

/-! ### Staging fills and swaps (R270) -/

/-- The tile of a fill stays in service as a fill of `l` when its fit is sound, and is retired otherwise. -/
theorem exec_stagingFill {l : BitVec 15} {m : Nat} {r : List Nat} (place : s.freeStaging k.toNat = m :: r) (ready : s.dieReady k.toNat = true)
    (free : s.writesHeld = false) (due : s.fillDue k.toNat l.toNat = true) (fresh : (s.die k.toNat).fills.any (fun f => f.1 == l.toNat) = false)
    (writable : s.unwritable k.toNat (s.physTile k.toNat m) = false) (settled : (s.die k.toNat).remapDue = []) (stuck : List CellRead) {a : State}
    (filled : a = (s.fillTile k.toNat (s.physTile k.toNat m) (s.tileSt k.toNat (s.physTile k.toNat l.toNat)).fourLevel
      (s.tileSt k.toNat (s.physTile k.toNat l.toNat)).colmap (s.fillLevels k.toNat l.toNat) stuck).calibrate k.toNat (s.physTile k.toNat m) [] []) :
    exec (.stagingFill k l stuck []) s = .next (if tileFails [] false || !((a.tileSt k.toNat (s.physTile k.toNat m)).failingCols []).isEmpty
      then a.retireTile k.toNat (s.physTile k.toNat m)
      else a.setDie k.toNat { a.die k.toNat with fills := (a.die k.toNat).fills ++ [(l.toNat, m)] }) := by
  show execStagingFill k l stuck [] s = _
  unfold execStagingFill
  dsimp only
  rw [place]
  dsimp only
  rw [if_neg (by simp [ready, free, due, fresh, writable]), settled, List.filter_nil, List.foldl_nil, ← filled, apply_ite Host.Outcome.next]

theorem exec_stagingSwap {l : BitVec 15} {f : Nat × Nat} (fill : (s.die k.toNat).fills.find? (fun f => f.1 == l.toNat) = some f)
    (settled : (s.die k.toNat).remapDue = []) {a : State} (swapped : a = (s.swapTiles k.toNat l.toNat f.2).setDie k.toNat
      { s.die k.toNat with fills := (s.die k.toNat).fills.filter (fun x => x.1 != l.toNat), remapDue := [] }) : exec (.stagingSwap k l) s =
      .next ((a.setQueue k.toNat ((s.die k.toNat).refreshQ.filter (fun q => q.tile != l.toNat))).bump (F.SEAM_REFRESH_COLS_COUNT k.toNat)
        (((s.die k.toNat).refreshQ.filter (fun q => q.tile == l.toNat)).length)) := by
  show execStagingSwap k l s = _
  unfold execStagingSwap
  dsimp only
  rw [fill]
  dsimp only
  rw [settled, List.filter_nil, List.filter_nil, List.length_nil, if_pos rfl, swapped]

theorem physTile_swapTiles (s : State) {k l m : Nat} (apart : k * logicalTiles + l ≠ k * logicalTiles + m) :
    (s.swapTiles k l m).physTile k l = s.physTile k m ∧ (s.swapTiles k l m).physTile k m = s.physTile k l :=
  ⟨(setMap_ne _ _ _ _ _ apart).trans (setMap_same _ _ _ _), setMap_same _ _ _ _⟩

/-! ### Replacement (R276) -/

theorem exec_tileReplace {l : BitVec 15} {q : Nat} (spare : s.pickSpare k.toNat (s.physTile k.toNat l.toNat) = some q) (ready : s.dieReady k.toNat = true)
    (due : l.toNat ∈ (s.die k.toNat).replaceDue) (unowned : s.benchOfTile l.toNat = none) (stuck : List CellRead) {a : State}
    (replaced : a = ((s.setMap k.toNat l.toNat q).fillTile k.toNat q (s.tileSt k.toNat (s.physTile k.toNat l.toNat)).fourLevel []
      (s.fillLevels k.toNat l.toNat) stuck).retireTile k.toNat (s.physTile k.toNat l.toNat)) : exec (.tileReplace k l stuck) s =
      .next ((a.setDie k.toNat { a.die k.toNat with
        replaceDue := (a.die k.toNat).replaceDue.filter (· != l.toNat),
        remapDue := (a.die k.toNat).remapDue.filter (fun r => r.1 != l.toNat) }).countSpares k.toNat) := by
  show execTileReplace k l stuck s = _
  unfold execTileReplace
  dsimp only
  rw [spare]
  dsimp only
  rw [if_neg (by simp [ready, due]), unowned, replaced]

/-! ### Bench moves (R277) -/

/-- The tiles due for replacement of a bench. -/
def State.badTiles (s : State) (k j : Nat) : List Nat :=
  (s.die k).replaceDue.filter (fun l => l / (s.dim / 1024) == j && l < s.perDie * (s.dim / 1024))

/-- The state in which a bench has gone to MOVING: its check has ended, its bad tiles are retired, and the alarm stands. -/
def State.moveBegun (s : State) (k j : Nat) : State :=
  ((s.badTiles k j).foldl (fun a l => a.retireTile k (a.physTile k l))
    ((s.putBench k j { s.benchSt k j with check := none }).moveBenchState k j .moving)).alarm (F.SEAM_UPKEEP_ALARM_NO_SPARE_TILE k) j

theorem benchSt_retireTiles (k j : Nat) (l : List Nat) (s : State) : (l.foldl (fun a l => a.retireTile k (a.physTile k l)) s).benchSt k j = s.benchSt k j := by
  induction l generalizing s with
  | nil => rfl
  | cons x l ih => rw [List.foldl_cons, ih, retire_benchSt]

theorem onlySeam_moveBegun (s : State) (k j : Nat) : OnlySeam s (s.moveBegun k j) :=
  (((show OnlySeam s (s.putBench k j { s.benchSt k j with check := none }) from rfl).trans (onlySeam_bench _ k j .moving)).trans
    (OnlySeam.foldl _ (fun a _ => onlySeam_retire a k _) (s.badTiles k j) _)).trans (onlySeam_alarm _ _ j)

theorem moving_moveBegun (s : State) (k j : Nat) : ((s.moveBegun k j).benchSt k j).state = .moving := by
  unfold State.moveBegun
  rw [State.alarm_keeps]
  show (State.benchSt ((s.badTiles k j).foldl _ _) k j).state = _
  rw [benchSt_retireTiles, movedTo_moveBenchState]

theorem noSpareTile_moveBegun (s : State) (k : Die) (j : Nat) : (s.moveBegun k.toNat j).bit (F.SEAM_UPKEEP_ALARM_NO_SPARE_TILE k.toNat) = true := by
  obtain ⟨summary, lost⟩ := seamAlarm_notPower k.toNat (.inr rfl) k.isLt
  exact State.bit_alarm _ _ j rfl (by decide : 3 < 32) summary lost

/-- A READY bench of no library with a replacement due and no spare tile left goes to MOVING. -/
theorem exec_benchMove_begins {j : BitVec 13} (bench : j.toNat < s.perDie) (bad : s.badTiles k.toNat j.toNat ≠ []) (spent : s.spareTiles k.toNat = [])
    (ready : (s.benchSt k.toNat j.toNat).state = .ready) (unowned : s.benchLib (s.devBench k.toNat j.toNat) = none) :
    exec (.benchMove k j) s = .next ((s.moveBegun k.toNat j.toNat).setDie k.toNat { (s.moveBegun k.toNat j.toNat).die k.toNat with
      replaceDue := ((s.moveBegun k.toNat j.toNat).die k.toNat).replaceDue.filter (fun l => !(s.badTiles k.toNat j.toNat).contains l) }) := by
  have starts : (!(s.badTiles k.toNat j.toNat).isEmpty && (s.spareTiles k.toNat).isEmpty &&
      decide ((s.benchSt k.toNat j.toNat).state = .checking ∨ (s.benchSt k.toNat j.toNat).state = .ready)) = true := by simp [bad, spent, ready]
  have outside : ∀ d : DieSt, ((s.moveBegun k.toNat j.toNat).setDie k.toNat d).benchLib (s.devBench k.toNat j.toNat) = none := fun d =>
    (onlySeam_benchLib ((onlySeam_moveBegun s k.toNat j.toNat).trans (show OnlySeam _ (State.setDie _ k.toNat d) from rfl)) _).trans unowned
  unfold State.badTiles at starts
  unfold State.moveBegun State.badTiles at outside ⊢
  show execBenchMove k j s = _
  unfold execBenchMove
  dsimp only
  rw [if_neg (by rw [starts]; simpa using bench), if_pos starts, outside]

end

/-- Settles O23: the bench commands by the bench they meet, then the die's bring-up, its checks, batches and loops, and its upkeep. -/
theorem benchesMoveBetweenTheirStatesAndBatchesRun : Obligations.BenchesMoveBetweenTheirStatesAndBatchesRun := by
  unfold Obligations.BenchesMoveBetweenTheirStatesAndBatchesRun
  refine ⟨fun k s reached bench ready idle => ⟨_, exec_offline reached bench ready, ?offline⟩,
    fun k s reached bench ready busy => (exec_offline reached bench ready).trans (congrArg _ (if_pos busy)),
    fun k s reached bench off current => ⟨_, exec_online reached bench off current, movedTo_moveBenchState _ _ _ _, moveBenchState_keeps _ _ _ _⟩,
    fun k s reached bench off => ⟨_, exec_check reached bench off, movedTo_moveBenchState _ _ _ _,
      (check_moveBenchState _ _ _ _).trans (congrArg BenchSt.check (State.benchSt_putBench_same _ _ _ _)), moveBenchState_keeps _ _ _ _⟩,
    fun k s reached => ⟨offline_refused reached, fun no => ⟨check_refused reached no, online_refused reached (.inl no)⟩,
      fun stale => online_refused reached (.inr stale)⟩,
    fun k l s runs up waits => exec_dieReady_unreadable runs up waits,
    fun k l s up runs links linked waits pumps benches => exec_dieReady runs links linked waits pumps benches,
    fun k s j r order ready runs few slots => exec_benchCheckStart order ready runs few slots,
    fun k j s ck running checking unowned all sump idle sound empty => exec_benchCheckDone running checking unowned all sump idle sound empty,
    fun k j s b first ready free alone writable slots => ⟨_, exec_batchStart first ready free alone writable slots rfl, _, rfl, rfl⟩,
    fun k g left s b first started erases => exec_programLoop_erases first started erases left,
    fun k g s b first started erased => exec_programLoop_ends first started erased,
    fun k s f first ready runs free slot dead => exec_refresh_replaces first ready runs free slot dead,
    fun k s empty => exec_refresh_none empty,
    fun k s f queue direct unowned ready runs free slot writable =>
      ⟨_, exec_refresh_one queue direct unowned ready runs free slot writable rfl, _, rfl, rfl⟩,
    fun k l stuck s m r place ready free due fresh writable settled =>
      ⟨_, exec_stagingFill place ready free due fresh writable settled stuck rfl, _, rfl, fun sound fits => if_neg (by simp [sound, fits])⟩,
    fun k l s f fill settled => ⟨_, exec_stagingSwap fill settled rfl, _, rfl, rfl⟩,
    fun k l m s apart => physTile_swapTiles s apart,
    fun k l stuck s q spare ready due unowned => ⟨_, exec_tileReplace spare ready due unowned stuck rfl, _, rfl, rfl⟩,
    fun k j s bench bad spent ready unowned _ =>
      ⟨_, exec_benchMove_begins bench bad spent ready unowned, moving_moveBegun s k.toNat j.toNat, noSpareTile_moveBegun s k j.toNat⟩⟩
  case offline =>
    rw [show s.batchOn k.toNat (s.selBench k.toNat) = false from idle, if_neg Bool.false_ne_true]
    exact ⟨movedTo_moveBenchState _ _ _ _, moveBenchState_keeps _ _ _ _⟩

end Sys2Proof.Machine
end

section
/-! PROOFS.  The order of ranked entries (09_associative_search R309). -/

namespace Sys2Proof.Machine

theorem Rank.before_iff (a b : Rank) : a.before b = true ↔ (a.rank < b.rank ∨ (a.rank = b.rank ∧
    (b.prio < a.prio ∨ (b.prio = a.prio ∧ (a.lib < b.lib ∨ (a.lib = b.lib ∧ a.entry < b.entry)))))) := by
  simp only [Rank.before, rankBefore, Bool.or_eq_true, Bool.and_eq_true, decide_eq_true_eq, beq_iff_eq, Nat.cast_lt, Nat.cast_inj, eq_comm (a := a.prio)]

theorem Rank.before_irrefl (a : Rank) : a.before a = false := by
  rw [← Bool.not_eq_true, Rank.before_iff]
  omega

theorem Rank.before_trans {a b c : Rank} (ab : a.before b = true) (bc : b.before c = true) : a.before c = true := by
  rw [Rank.before_iff] at *
  omega

theorem Rank.before_total {a b : Rank} (apart : (a.rank, a.prio, a.lib, a.entry) ≠ (b.rank, b.prio, b.lib, b.entry)) :
    a.before b = true ∨ b.before a = true := by
  simp only [ne_eq, Prod.mk.injEq] at apart
  rw [Rank.before_iff, Rank.before_iff]
  omega

/-- No entry of the list stands before one that R309 places ahead of it. -/
def RankOrdered (l : List Rank) : Prop := l.Pairwise (fun a b => b.before a = false)

theorem perm_insRank (x : Rank) (l : List Rank) : (insRank x l).Perm (x :: l) := by
  induction l with
  | nil => exact .refl _
  | cons y t ih =>
    unfold insRank
    split
    · exact .refl _
    · exact (ih.cons y).trans (.swap x y t)

/-- What stands ahead of the first entry of an ordered list stands ahead of all of it. -/
theorem RankOrdered.none_before {x y : Rank} {t : List Rank} (ordered : RankOrdered (y :: t)) (ahead : x.before y = true) :
    ∀ z ∈ y :: t, z.before x = false := by
  intro z mem
  rw [← Bool.not_eq_true]
  intro before
  have first : z.before y = true := Rank.before_trans before ahead
  rcases List.mem_cons.1 mem with rfl | rest
  · exact absurd first (by simp [Rank.before_irrefl])
  · exact absurd first (by simp [(List.pairwise_cons.1 ordered).1 z rest])

theorem rankOrdered_insRank {l : List Rank} (ordered : RankOrdered l) (x : Rank) : RankOrdered (insRank x l) := by
  induction l with
  | nil => exact List.pairwise_singleton _ _
  | cons y t ih =>
    obtain ⟨first, rest⟩ := List.pairwise_cons.1 ordered
    unfold insRank
    split
    next ahead => exact List.pairwise_cons.2 ⟨ordered.none_before ahead, ordered⟩
    next behind =>
      refine List.pairwise_cons.2 ⟨fun z mem => ?_, ih rest⟩
      rcases List.mem_cons.1 ((perm_insRank x t).mem_iff.1 mem) with rfl | old
      · exact Bool.eq_false_of_not_eq_true behind
      · exact first z old

theorem perm_foldl_insRank (l a : List Rank) : (l.foldl (fun a x => insRank x a) a).Perm (l ++ a) := by
  induction l generalizing a with
  | nil => exact .refl _
  | cons x l ih => exact (ih (insRank x a)).trans (((perm_insRank x a).append_left l).trans List.perm_middle)

theorem rankOrdered_foldl_insRank {a : List Rank} (ordered : RankOrdered a) (l : List Rank) : RankOrdered (l.foldl (fun a x => insRank x a) a) := by
  induction l generalizing a with
  | nil => exact ordered
  | cons x l ih => exact ih (rankOrdered_insRank ordered x)

theorem perm_sortRanks (l : List Rank) : (sortRanks l).Perm l := (perm_foldl_insRank l []).trans (.of_eq l.append_nil)

theorem rankOrdered_sortRanks (l : List Rank) : RankOrdered (sortRanks l) := rankOrdered_foldl_insRank List.Pairwise.nil l

/-- Settles O28: each insertion keeps the entries and their order, and the order itself is the lexicographic one of R309. -/
theorem rankedCandidatesStandInOrder : Obligations.RankedCandidatesStandInOrder := by
  unfold Obligations.RankedCandidatesStandInOrder
  exact ⟨fun l => ⟨perm_sortRanks l, rankOrdered_sortRanks l⟩, Rank.before_iff, Rank.before_irrefl, fun _ _ _ => Rank.before_trans,
    fun _ _ => Rank.before_total⟩

end Sys2Proof.Machine
end

section
/-! PROOFS.  The library operations (09_associative_search Table SUMP-2; 13_host_rings Table HOST-8): how a descriptor is taken and ended, and
what each operation answers. -/

namespace Sys2Proof.Machine

section

variable {s a : State} {r : Ring} {i : Word} {op : Nat} {hasBuf : Bool} {x : LibDesc} {d : Slot} {c : Instr}
  {body : LibDesc → State × Option (Nat × Nat × Nat)}

/-! ### Taking a descriptor (R422 to R424, R434) -/

/-- A descriptor whose operation has answered: completed with the status, AUX and RESULT given, or begun when none is. -/
def State.answered (b : State × Option (Nat × Nat × Nat)) (r i : Nat) : State :=
  match b.2 with
  | none => b.1.beginDesc r i
  | some (st, aux, res) => b.1.complete r i st 0 aux res

/-- What a library operation of Sump comes to, by the descriptor taken: a bad layout, an unread buffer, Sump not ready, or its own answer. -/
theorem libOp_taken (taken : s.takenDesc r.toNat i.toNat 2 = some d) (safe : s.fatal = false) (ok : Bool) :
    s.libOp r i (libDesc d).op hasBuf ok body = if libDescBad d hasBuf then s.complete r.toNat i.toNat stBAD_DESC 0 0 0
      else if hasBuf && !ok then s.dmaError.complete r.toNat i.toNat stDMA_ERR 0 0 0
      else if !s.sumpReady then s.complete r.toNat i.toNat stNOT_READY 0 0 0
      else State.answered (body (libDesc d)) r.toNat i.toNat := by
  unfold State.libOp State.libOpWhen
  dsimp only
  rw [taken]
  dsimp only
  rw [if_neg (by simp [safe])]
  rfl

/-- A good descriptor taken while Sump is ready is ended as its operation answers. -/
theorem LibTaken.libOp (taken : LibTaken s r i op hasBuf x) : s.libOp r i op hasBuf true body = State.answered (body x) r.toNat i.toNat := by
  obtain ⟨d, slot, rfl, rfl, good, safe, ready⟩ := taken
  rw [libOp_taken slot safe, if_neg (by simp [good]), if_neg (by simp), if_neg (by simp [ready])]

theorem LibTaken.ends {st aux res : Nat} (taken : LibTaken s r i op hasBuf x) (runs : exec c s = .next (s.libOp r i op hasBuf true body))
    (answer : body x = a.ends st aux res) : LibEnds c s r i a st aux res := by
  unfold LibEnds
  rw [runs, taken.libOp, answer]
  rfl

theorem LibTaken.begins (taken : LibTaken s r i op hasBuf x) (runs : exec c s = .next (s.libOp r i op hasBuf true body))
    (answer : body x = (a, none)) : exec c s = .next (a.beginDesc r.toNat i.toNat) := by
  rw [runs, taken.libOp, answer]
  rfl

/-- Every library command of Sump takes its descriptor by its code; one that reads no buffer has none that could fail. -/
theorem exec_libCommand {buf : List Byte} {ok : Bool} {c : Nat × Bool × Instr} (mem : c ∈ libCommands r i buf ok) (s : State) :
    ∃ body, exec c.2.2 s = .next (s.libOp r i c.1 c.2.1 (!c.2.1 || ok) body) := by
  simp only [libCommands, List.mem_cons, List.not_mem_nil, or_false] at mem
  rcases mem with rfl | rfl | rfl | rfl | rfl | rfl | rfl | rfl | rfl | rfl | rfl <;> exact ⟨_, rfl⟩

/-- The three ends that every library command shares. -/
theorem libCommand_ends (taken : s.takenDesc r.toNat i.toNat 2 = some d) (safe : s.fatal = false) {buf : List Byte} {ok : Bool}
    {c : Nat × Bool × Instr} (mem : c ∈ libCommands r i buf ok) (code : (libDesc d).op = c.1) :
    (libDescBad d c.2.1 = true → LibEnds c.2.2 s r i s stBAD_DESC 0 0) ∧
    (libDescBad d c.2.1 = false → c.2.1 = true → ok = false → LibEnds c.2.2 s r i s.dmaError stDMA_ERR 0 0) ∧
    (libDescBad d c.2.1 = false → (c.2.1 = true → ok = true) → s.sumpReady = false → LibEnds c.2.2 s r i s stNOT_READY 0 0) := by
  obtain ⟨body, runs⟩ := exec_libCommand mem s
  rw [← code] at runs
  unfold LibEnds
  rw [runs, libOp_taken taken safe]
  refine ⟨fun bad => ?_, fun good reads failed => ?_, fun good read asleep => ?_⟩
  · rw [if_pos bad]
  · rw [if_neg (by simp [good]), if_pos (by simp [reads, failed])]
  · rw [if_neg (by simp [good]), if_neg (by simpa using read), if_pos (by simp [asleep])]

/-! ### CREATE and DELETE -/

theorem create_badKind (taken : LibTaken s r i 1 false x) (kind : 3 < x.arg0) : LibEnds (.create r i) s r i s stBAD_DESC 0 0 :=
  taken.ends rfl (if_pos kind)

theorem create_refused (taken : LibTaken s r i 1 false x) (kind : x.arg0 ≤ 3) (no : s.libActive x.lib = true ∨ x.arg0 = 3) :
    LibEnds (.create r i) s r i s stREFUSED 0 0 :=
  taken.ends rfl ((if_neg (by omega)).trans (if_pos (by simpa using no)))

theorem create_ok (taken : LibTaken s r i 1 false x) (kind : x.arg0 < 3) (free : s.libActive x.lib = false) : LibEnds (.create r i) s r i
    (((s.setFld (F.SUMP_LIB_CFG_ACTIVE x.lib) 1).setFld (F.SUMP_LIB_CFG_KIND x.lib) x.arg0).setBenches x.lib []) stOK 0 0 :=
  taken.ends rfl ((if_neg (by omega)).trans (if_neg (by simp [free]; omega)))

theorem delete_refused (taken : LibTaken s r i 2 false x) (no : s.libActive x.lib = false ∨ s.updating x.lib = true ∨ (s.lib x.lib).queue ≠ []) :
    LibEnds (.deleteLib r i) s r i s stREFUSED 0 0 :=
  taken.ends rfl (if_pos (by rcases no with no | no | no <;> simp [no]))

theorem delete_ok (taken : LibTaken s r i 2 false x) (active : s.libActive x.lib = true) (still : s.updating x.lib = false)
    (idle : (s.lib x.lib).queue = []) (bare : ∀ m, m < 256 → s.bit (F.SUMP_MTX_VALID m) = true → s.fld (F.SUMP_MTX_LIBRARY m) ≠ x.lib)
    (ready : ∀ b ∈ (s.lib x.lib).benches, s.benchReady b = true) : LibEnds (.deleteLib r i) s r i (s.freeLib x.lib) stOK 0 0 := by
  have unused : (List.range 256).any (fun m => s.bit (F.SUMP_MTX_VALID m) && s.fld (F.SUMP_MTX_LIBRARY m) == x.lib) = false := by simpa using bare
  exact taken.ends rfl ((if_neg (by simp only [unused]; simp [active, still, idle])).trans (if_neg (by simpa using ready)))

/-! ### ADD_BENCH and REMOVE_BENCH -/

theorem addBench_refused (taken : LibTaken s r i 3 false x) (active : s.libActive x.lib = true) (still : s.updating x.lib = false)
    (bench : x.arg0 < 8 * s.perDie) (no : s.benchErased x.arg0 = false ∨ s.isReserved x.arg0 = true ∨ x.arg0 ∈ s.sump.held) :
    LibEnds (.addBench r i) s r i s stREFUSED 0 0 :=
  taken.ends rfl ((if_neg (by simpa [active, still] using bench)).trans (if_pos (by rcases no with no | no | no <;> simp [no])))

theorem addBench_ok (taken : LibTaken s r i 3 false x) (active : s.libActive x.lib = true) (still : s.updating x.lib = false)
    (bench : x.arg0 < 8 * s.perDie) (free : (s.benchOf x.arg0).lib = none) (any : (s.benchOf x.arg0).fourLevel = none)
    (erased : s.benchErased x.arg0 = true) (unreserved : s.isReserved x.arg0 = false) (unheld : x.arg0 ∉ s.sump.held)
    (single : s.isSpan x.lib = false) (ready : s.benchReady x.arg0 = true) : LibEnds (.addBench r i) s r i
      ((s.setBenches x.lib ((s.lib x.lib).benches ++ [x.arg0])).assignBench x.arg0 (some x.lib) (s.libFour x.lib)) stOK 0 (s.lib x.lib).benches.length :=
  taken.ends rfl (((if_neg (by simpa [active, still] using bench)).trans (if_neg (by simp [free, any, erased, unreserved, unheld]))).trans
    ((if_neg (by simp [single])).trans (if_neg (by simp [ready]))))

theorem removeBench_none (taken : LibTaken s r i 4 false x) (empty : (s.lib x.lib).benches = []) : LibEnds (.removeBench r i) s r i s stREFUSED 0 0 :=
  taken.ends rfl (by rw [empty]; rfl)

theorem removeBench_ok (taken : LibTaken s r i 4 false x) {l : List Nat} {b : Nat} (last : (s.lib x.lib).benches = l ++ [b])
    (active : s.libActive x.lib = true) (still : s.updating x.lib = false) (empty : s.entriesIn b [esVALID, esINVALID, esQUARANTINED] = []) :
    LibEnds (.removeBench r i) s r i (((s.setBenches x.lib l).assignBench b none false).queueErase b) stOK 0 0 :=
  taken.ends rfl (by
    rw [last, List.getLast?_concat, List.dropLast_concat]
    exact if_neg (by simp [active, still, empty]))

/-! ### WRITE -/

theorem write_badItems {buf : List Byte} (taken : LibTaken s r i 5 true x) (bad : s.writeItems x buf = none) :
    LibEnds (.write r i buf true) s r i s stBAD_DESC 0 0 :=
  taken.ends rfl (by rw [bad])

theorem write_refused {buf : List Byte} {ws : List WriteItem} (taken : LibTaken s r i 5 true x) (writes : s.writeItems x buf = some ws)
    (no : s.libActive x.lib = false ∨ s.libKind x.lib = 2) : LibEnds (.write r i buf true) s r i s stREFUSED 0 0 :=
  taken.ends rfl (by
    rw [writes]
    exact if_pos (by simpa using no))

theorem write_ok {buf : List Byte} {ws : List WriteItem} {b : Nat} (taken : LibTaken s r i 5 true x) (writes : s.writeItems x buf = some ws)
    (active : s.libActive x.lib = true) (kind : s.libKind x.lib ≠ 2) (bench : (s.lib x.lib).benches[x.arg0]? = some b)
    (apart : (ws.map (fun w => w.col)).eraseDups.length = (ws.map (fun w => w.col)).length) (writable : s.writable b (ws.map (fun w => w.col)) = true)
    (room : s.kindCount (s.libKind x.lib) + ws.length ≤ kindLimit (s.libKind x.lib)) (own : s.awayPeer x.lib x.arg0 = none)
    (ready : s.benchReady b = true) : exec (.write r i buf true) s =
      .next ((s.queueBatch x.lib { src := .host r.toNat i.toNat, pos := x.arg0, items := ws }).beginDesc r.toNat i.toNat) :=
  taken.begins rfl (by
    have fresh := List.length_filter_le (fun c => (s.entry b c).state != esVALID && (s.entry b c).state != esINVALID) (ws.map (fun w => w.col))
    rw [List.length_map] at fresh
    rw [writes]
    dsimp only
    rw [if_neg (by simp [active, kind]), bench]
    dsimp only
    rw [if_neg (by simp [apart, writable]), if_neg (by omega), own]
    exact if_neg (by simp [ready]))

/-! ### INVALIDATE -/

theorem invalidate_badItems {buf : List Byte} (taken : LibTaken s r i 6 true x) (bad : entryItems x buf = none) :
    LibEnds (.invalidate r i buf true) s r i s stBAD_DESC 0 0 :=
  taken.ends rfl (by rw [bad])

theorem invalidate_unnamed {buf : List Byte} {es : List Nat} (taken : LibTaken s r i 6 true x) (entries : entryItems x buf = some es)
    (missing : s.named x.lib es = none) : LibEnds (.invalidate r i buf true) s r i s stREFUSED 0 0 :=
  taken.ends rfl (by
    rw [entries]
    dsimp only
    rw [missing])

theorem nearby_one {l e : Nat} (own : s.awayPeer l (e / 1024) = none) : s.nearby l [e] = [e] := List.filter_cons_of_pos (by simp [own])

theorem invalidate_one {buf : List Byte} {e b c : Nat} {l : List (Nat × Nat)} (taken : LibTaken s r i 6 true x) (entries : entryItems x buf = some [e])
    (named : s.named x.lib [e] = some l) (own : s.awayPeer x.lib (e / 1024) = none) (at_ : s.entryAt x.lib e = some (b, c))
    (ready : s.benchReady b = true) (used : (s.entry b c).state ≠ esEMPTY) :
    LibEnds (.invalidate r i buf true) s r i (s.invalidateEntry x.lib e) stOK 0 1 :=
  taken.ends rfl (by
    have near : [e].filterMap (s.entryAt x.lib) = [(b, c)] := by simp [at_]
    have emptied : [(b, c)].eraseDups.filter (fun p => (s.entry p.1 p.2).state != esEMPTY) = [(b, c)] := by simp [List.eraseDups_cons, used]
    have far : [e].eraseDups.filter (fun e' => !([e] : List Nat).contains e') = [] := by simp [List.eraseDups_cons]
    rw [entries]
    dsimp only
    rw [named]
    dsimp only
    rw [nearby_one own, near, emptied, far, if_neg (by simp [ready])]
    rfl)

/-! ### SET_FIELDS (R317) -/

theorem setFields_badItems {buf : List Byte} (taken : LibTaken s r i 7 true x) (bad : items x 8 buf = none) :
    LibEnds (.setFields r i buf true) s r i s stBAD_DESC 0 0 :=
  taken.ends rfl (by rw [bad])

/-- Writing a side-record leaves the positions that peers serve alone. -/
theorem awayPeer_setEntry (s : State) (b c : Nat) (v : Entry) (l p : Nat) : (s.setEntry b c v).awayPeer l p = s.awayPeer l p := by
  unfold State.awayPeer State.setEntry
  dsimp only
  split <;> rfl

/-- Items that all name entries the device serves itself send nothing to peers. -/
theorem sendAway_own {l : Nat} (op : Nat) {is : List (Nat × List Byte)} (own : ∀ y ∈ is, s.awayPeer l (y.1 / 1024) = none) : s.sendAway l op is = s := by
  have far : is.filter (fun y => (s.awayPeer l (y.1 / 1024)).isSome) = [] := List.filter_eq_nil_iff.2 fun y mem => by simp [own y mem]
  unfold State.sendAway
  dsimp only
  rw [far]
  rfl

theorem setFields_one {buf it : List Byte} {b c : Nat} {l : List (Nat × Nat)} (taken : LibTaken s r i 7 true x) (one : items x 8 buf = some [it])
    (named : s.named x.lib [sliceLE it 0 3] = some l) (own : s.awayPeer x.lib (sliceLE it 0 3 / 1024) = none)
    (at_ : s.entryAt x.lib (sliceLE it 0 3) = some (b, c)) (used : (s.entry b c).state ≠ esEMPTY) (ready : s.benchReady b = true) :
    LibEnds (.setFields r i buf true) s r i (s.setEntry b c { s.entry b c with prio := sliceLE it 3 1, cls := sliceLE it 4 4 }) stOK 0 1 :=
  taken.ends rfl (by
    have mine : [it].filter (fun y => (s.awayPeer x.lib (sliceLE y 0 3 / 1024)).isNone) = [it] := List.filter_cons_of_pos (by simp [own])
    have places : [it].filterMap (fun y => s.entryAt x.lib (sliceLE y 0 3)) = [(b, c)] := by simp [at_]
    rw [one]
    dsimp only
    rw [List.map_singleton, named]
    dsimp only
    rw [mine, places, if_neg (by simp [List.eraseDups_cons, used]), if_neg (by simp [ready])]
    exact congrArg (State.ends · stOK 0 1) (sendAway_own 7 (by simp [awayPeer_setEntry, own])))

/-! ### READ (R442) -/

theorem read_badRing {buf : List Byte} (taken : LibTaken s r i 8 true x) (closed : s.isExportRing x.export_ = false) :
    LibEnds (.read r i buf true) s r i s stBAD_DESC 0 0 :=
  taken.ends rfl (by
    cases entryItems x buf with
    | none => rfl
    | some es => exact if_pos (by simp [closed]))

theorem read_one {buf : List Byte} {es : List Nat} {b c : Nat} {key : Key} (taken : LibTaken s r i 8 true x) (entries : entryItems x buf = some es)
    (ring : s.isExportRing x.export_ = true) (named : s.named x.lib es = some [(b, c)]) (ready : s.benchReady b = true) (kept : s.mirror b c = some key) :
    exec (.read r i buf true) s = .next ((s.exportOut x.export_
      { ring := r.toNat, idx := i.toNat, tag := x.tag, bytes := (s.entry b c).bytes ++ keyBytes s.dim key, uninit := false, status := stOK,
        result := 1 }).beginDesc r.toNat i.toNat) :=
  taken.begins rfl (by
    have out : [(b, c)].flatMap (fun p => (s.entry p.1 p.2).bytes ++ keyBytes s.dim ((s.mirror p.1 p.2).getD 0)) =
        (s.entry b c).bytes ++ keyBytes s.dim key := by simp [kept]
    have whole : [(b, c)].any (fun p => (s.mirror p.1 p.2).isNone) = false := by simp [kept]
    rw [entries]
    dsimp only
    rw [if_neg (by simp [ring]), named]
    dsimp only
    rw [if_neg (by simp [ready]), out, whole]
    rfl)

/-! ### DEFINE_MATRIX and WRITE_MATRIX (R213, R318) -/

theorem defineMatrix_refused (taken : LibTaken s r i 9 false x) (zero : x.arg0 / 512 % 128 = 0) (rows : 1 ≤ x.arg1 % 65536) (few : x.arg1 % 65536 ≤ 1024)
    (area : x.arg2 < 2 ^ 32) (defined : s.bit (F.SUMP_MTX_VALID (x.arg0 % 256)) = true) : LibEnds (.defineMatrix r i) s r i s stREFUSED 0 0 :=
  taken.ends rfl ((if_neg (by simp [zero]; omega)).trans (if_pos (by simp [defined])))

theorem defineMatrix_ok {b : Nat} (taken : LibTaken s r i 9 false x) (zero : x.arg0 / 512 % 128 = 0) (rows : 1 ≤ x.arg1 % 65536)
    (few : x.arg1 % 65536 ≤ 1024) (area : x.arg2 < 2 ^ 32) (active : s.libActive x.lib = true) (kind : s.libKind x.lib = 2)
    (undefined : s.bit (F.SUMP_MTX_VALID (x.arg0 % 256)) = false) (i8 : hasBit x.arg0 8 = false) (fits : x.arg1 / 65536 ≤ s.dim / 1024 * 256)
    (bench : (s.lib x.lib).benches[x.arg0 / 65536]? = some b) (ready : s.benchReady b = true) (placed : x.arg2 ≠ 0) : LibEnds (.defineMatrix r i) s r i
      (((((((s.setFld (F.SUMP_MTX_VALID (x.arg0 % 256)) 1).setFld (F.SUMP_MTX_FORMAT (x.arg0 % 256)) 0).setFld (F.SUMP_MTX_LIBRARY (x.arg0 % 256)) x.lib).setFld
        (F.SUMP_MTX_POS (x.arg0 % 256)) (x.arg0 / 65536)).setFld (F.SUMP_MTX_SHAPE_COLS (x.arg0 % 256)) (x.arg1 / 65536)).setFld
        (F.SUMP_MTX_SHAPE_ROWS (x.arg0 % 256)) (x.arg1 % 65536)).setFld (F.SUMP_MTX_AREA_BASE (x.arg0 % 256)) x.arg2) stOK 0 x.arg2 :=
  taken.ends rfl (by
    dsimp only
    rw [if_neg (by simp [zero]; omega), if_neg (by simpa [active, kind, undefined, i8] using fits), bench]
    dsimp only
    rw [if_neg (by simp [ready]), if_neg placed, if_neg placed, i8]
    rfl)

theorem writeMatrix_refused {buf : List Byte} (taken : LibTaken s r i 10 true x) (zero : x.arg0 / 256 = 0)
    (undefined : s.bit (F.SUMP_MTX_VALID (x.arg0 % 256)) = false) : LibEnds (.writeMatrix r i buf true) s r i s stREFUSED 0 0 :=
  taken.ends rfl ((if_neg (by simp [zero])).trans (if_pos (by simp [undefined])))

theorem writeMatrix_ok {buf : List Byte} {b : Nat} (taken : LibTaken s r i 10 true x) (zero : x.arg0 / 256 = 0)
    (defined : s.bit (F.SUMP_MTX_VALID (x.arg0 % 256)) = true) (own : s.fld (F.SUMP_MTX_LIBRARY (x.arg0 % 256)) = x.lib)
    (i8 : s.mtxI4 (x.arg0 % 256) = false) {rows n : Nat} (shape : rows = s.fld (F.SUMP_MTX_SHAPE_ROWS (x.arg0 % 256))) (cols : n = x.arg1 / 65536)
    (inside : x.arg1 % 65536 + n ≤ s.fld (F.SUMP_MTX_SHAPE_COLS (x.arg0 % 256))) (len : n * rows ≤ x.len) (full : n * rows ≤ buf.length)
    (bench : s.matrixBench (x.arg0 % 256) = some b) (ready : s.benchReady b = true) : exec (.writeMatrix r i buf true) s =
      .next ((s.queueBatch x.lib
        { src := .host r.toNat i.toNat, pos := s.fld (F.SUMP_MTX_POS (x.arg0 % 256)), items := [],
          matrix := some (x.arg0 % 256, x.arg1 % 65536, (List.range n).map (fun c => weightsOf false rows ((buf.drop (c * rows)).take rows))) }).beginDesc
            r.toNat i.toNat) :=
  taken.begins rfl (by
    subst shape cols
    dsimp only
    rw [i8, if_neg Bool.false_ne_true, if_neg (by simp [zero]), if_neg (by simp [defined, own]), if_neg (by simp; omega), bench]
    exact if_neg (by simp [ready]))

/-! ### REPAIR (R311) -/

theorem repair_unnamed (taken : LibTaken s r i 11 false x) (missing : s.named x.lib [x.arg0] = none) : LibEnds (.repair r i) s r i s stREFUSED 0 0 :=
  taken.ends rfl (by rw [missing])

theorem repair_refused {b c : Nat} (taken : LibTaken s r i 11 false x) (named : s.named x.lib [x.arg0] = some [(b, c)])
    (sound : (s.entry b c).state ≠ esQUARANTINED) : LibEnds (.repair r i) s r i s stREFUSED 0 0 :=
  taken.ends rfl (by
    rw [named]
    exact if_pos (by simp [sound]))

theorem repair_starts {b c : Nat} (taken : LibTaken s r i 11 false x) (named : s.named x.lib [x.arg0] = some [(b, c)])
    (bad : (s.entry b c).state = esQUARANTINED) (fresh : s.repairing b c = false) (ready : s.benchReady b = true) :
    exec (.repair r i) s = .next ((s.startRepair b c (some (r.toNat, i.toNat))).beginDesc r.toNat i.toNat) :=
  taken.begins rfl (by
    rw [named]
    exact (if_neg (by simp [bad, fresh])).trans (if_neg (by simp [ready])))

end

/-- Settles O25: what all library descriptors share, then each operation by its own lemmas. -/
theorem libraryOperationsCompleteTheirDescriptor : Obligations.LibraryOperationsCompleteTheirDescriptor := by
  unfold Obligations.LibraryOperationsCompleteTheirDescriptor
  exact ⟨fun r i buf ok s d taken safe c mem code => libCommand_ends taken safe mem code,
    fun r i s x taken => ⟨create_badKind taken, create_refused taken, create_ok taken⟩,
    fun r i s x taken => ⟨delete_refused taken, delete_ok taken⟩,
    fun r i s x taken active still bench => ⟨addBench_refused taken active still bench, addBench_ok taken active still bench⟩,
    fun r i s x taken => ⟨removeBench_none taken, fun l b => removeBench_ok taken⟩,
    fun r i buf s x taken => ⟨write_badItems taken, fun ws => write_refused taken, fun ws b => write_ok taken⟩,
    fun r i buf s x taken => ⟨invalidate_badItems taken, fun es => invalidate_unnamed taken, fun e b c l => invalidate_one taken⟩,
    fun r i buf s x taken => ⟨setFields_badItems taken, fun it b c l => setFields_one taken⟩,
    fun r i buf s x taken => ⟨read_badRing taken, fun es b c key => read_one taken⟩,
    fun r i s x taken zero rows few area => ⟨defineMatrix_refused taken zero rows few area, fun b => defineMatrix_ok taken zero rows few area⟩,
    fun r i buf s x taken zero => ⟨writeMatrix_refused taken zero, fun b rows n size defined own i8 shape square cols inside len full bench ready => by
      subst square
      exact writeMatrix_ok taken zero defined own i8 shape cols inside len full bench ready⟩,
    fun r i s x taken => ⟨repair_unnamed taken, fun b c => repair_refused taken, fun b c => repair_starts taken⟩⟩

end Sys2Proof.Machine
end

section
/-! PROOFS.  The later steps of an update: WRITE_STEP, batch results, repairs and pending appends (09_associative_search R300, R311, R315, R316,
R322, Table SUMP-4). -/

namespace Sys2Proof.Machine

section

variable {s a : State} {l : Lib} {q : LibBatch} {rest : List LibBatch}

/-! ### WRITE_STEP (R315 step 2) -/

/-- A begun batch of entries that nothing waits for is written and sent. -/
theorem exec_writeStep {b : Nat} (queue : (s.lib l.toNat).queue = q :: rest) (bench : s.benchAt l.toNat q.pos = some b) (begun : q.begun = true)
    (unsent : q.sent = false) (sump : s.sumpReady = true) (ready : s.benchReady b = true)
    (settled : s.sump.active.any (fun r => q.waits.contains r.tag && r.owed b) = false) (plain : q.matrix = none) (unwritten : q.written = false)
    (written : a = q.items.foldl (fun a i => a.writeEntry b i) s) : exec (.writeStep l) s =
      .next ((a.setLib l.toNat { a.lib l.toNat with queue := { q with sent := true, waits := [] } :: rest }).sendEntries l.toNat b q.items) := by
  show execWriteStep l s = _
  unfold execWriteStep
  dsimp only
  rw [queue]
  dsimp only
  rw [bench]
  dsimp only
  rw [if_neg (by simp only [settled]; simp [begun, unsent, sump, ready]), unwritten, if_neg Bool.false_ne_true, plain, written]

/-- A batch not begun, or already sent, is left alone. -/
theorem exec_writeStep_waits (queue : (s.lib l.toNat).queue = q :: rest) (no : q.begun = false ∨ q.sent = true) : exec (.writeStep l) s = .next s := by
  show execWriteStep l s = _
  unfold execWriteStep
  dsimp only
  rw [queue]
  dsimp only
  cases s.benchAt l.toNat q.pos with
  | none => rfl
  | some b => exact if_pos (by rcases no with no | no <;> simp [no])

/-! ### Batch results (R315 step 3) -/

theorem exec_batchResult {k : Die} {j : BitVec 13} {r : BatchRes} (result : (s.die k.toNat).results.find? (fun r => r.bench == j.toNat) = some r)
    (link : s.fld (F.SEAM_STATUS_SHAFT_UP k.toNat) ≠ 0) (sump : s.sumpReady = true) (job : s.lantern.libJob = none) : exec (.batchResult k j) s =
      .next ((s.setDie k.toNat { s.die k.toNat with results := dropFirst r (s.die k.toNat).results }).takeBatch k.toNat r) := by
  have outside : (s.setDie k.toNat { s.die k.toNat with results := dropFirst r (s.die k.toNat).results }).lantern.libJob = none := job
  show execBatchResult k j s = _
  unfold execBatchResult
  dsimp only
  rw [result]
  dsimp only
  rw [if_neg (by simp [link, sump]), outside]

theorem exec_batchResult_none {k : Die} {j : BitVec 13} (absent : (s.die k.toNat).results.find? (fun r => r.bench == j.toNat) = none) :
    exec (.batchResult k j) s = .next s := by
  show execBatchResult k j s = _
  unfold execBatchResult
  dsimp only
  rw [absent]

/-- The items of a batch whose columns are sound, of entries still INVALID: these become VALID (Table SUMP-4). -/
def State.soundItems (s : State) (b : Nat) (r : BatchRes) (q : LibBatch) : List WriteItem :=
  q.items.filter (fun i => (r.cols.filter (fun c => !r.failing.contains c)).contains i.col && (s.entry b i.col).state == esINVALID)

/-- The items of a batch whose columns failed, of entries still INVALID: these stay INVALID and are counted. -/
def State.failedItems (s : State) (b : Nat) (r : BatchRes) (q : LibBatch) : List WriteItem :=
  q.items.filter (fun i => !(r.cols.filter (fun c => !r.failing.contains c)).contains i.col && (s.entry b i.col).state == esINVALID)

/-- The state after a result has been applied to the entries its batch wrote. -/
def State.resultApplied (s : State) (b l : Nat) (r : BatchRes) (q : LibBatch) : State :=
  let sound := (s.soundItems b r q).foldl (fun (a : State) (i : WriteItem) => a.setEntryState b i.col esVALID) s
  if r.failing.isEmpty then sound else (sound.bump F.SUMP_WRITE_FAILS_COUNT (s.failedItems b r q).length).alarm F.SUMP_ALARM_WRITE_FAIL l

/-- The result of a host's batch of entries, in a library that does not learn and with no batch of Chisel waiting: it is applied, the library's
next batch begins, and the descriptor completes with the counts. -/
theorem takeBatch_host {k b l p ri ii : Nat} {r : BatchRes} (bench : s.devBench k r.bench = b) (lib : s.benchLib b = some (l, p))
    (queue : (s.lib l).queue = q :: rest) (sent : q.sent = true) (pos : q.pos = p) (plain : q.matrix = none)
    (answers : q.items.map (fun i => i.col) = r.cols) (src : q.src = .host ri ii) (applied : a = s.resultApplied b l r q)
    (unlearned : a.learningLib l = false) (others : ∀ y ∈ rest, y.src ≠ .chisel) : s.takeBatch k r =
      ((a.setLib l { a.lib l with queue := rest }).beginBatch l).complete ri ii stOK 0 (s.failedItems b r q).length (s.soundItems b r q).length := by
  subst applied
  unfold State.resultApplied State.soundItems State.failedItems at *
  unfold State.takeBatch
  dsimp only at *
  rw [bench, lib]
  dsimp only
  rw [queue]
  dsimp only
  rw [if_pos (by simp [sent, pos, plain, answers]), src, plain]
  dsimp only
  rw [unlearned, if_pos Bool.not_false, List.map_congr_left (g := id) ?kept, List.map_id]
  case kept =>
    intro y mem
    cases origin : y.src
    case chisel => exact absurd origin (others y mem)
    all_goals rfl

/-! The result of a batch of one item, of an entry still INVALID: the column is sound or it failed. -/

section

variable {b : Nat} {r : BatchRes} {w : WriteItem} (one : q.items = [w]) (invalid : (s.entry b w.col).state = esINVALID) (cols : r.cols = [w.col])

include one invalid cols

theorem items_of_sound (sound : r.failing = []) : s.soundItems b r q = [w] ∧ s.failedItems b r q = [] := by
  unfold State.soundItems State.failedItems
  rw [one, cols, sound]
  simp [invalid]

theorem items_of_failing (failing : r.failing = [w.col]) : s.soundItems b r q = [] ∧ s.failedItems b r q = [w] := by
  unfold State.soundItems State.failedItems
  rw [one, cols, failing]
  simp [invalid]

theorem resultApplied_of_sound (l : Nat) (sound : r.failing = []) : s.resultApplied b l r q = s.setEntryState b w.col esVALID := by
  obtain ⟨good, bad⟩ := items_of_sound one invalid cols sound
  unfold State.resultApplied
  rw [good, sound]
  rfl

theorem resultApplied_of_failing (l : Nat) (failing : r.failing = [w.col]) :
    s.resultApplied b l r q = (s.bump F.SUMP_WRITE_FAILS_COUNT 1).alarm F.SUMP_ALARM_WRITE_FAIL l := by
  obtain ⟨good, bad⟩ := items_of_failing one invalid cols failing
  unfold State.resultApplied
  rw [good, bad, failing]
  rfl

end

/-! ### Repairs and pending appends (R300, R311, R322) -/

/-- A repair that ends: its job leaves the list; a quarantined entry whose read-back key agrees takes it as its mirror and becomes VALID, any other
raises QUARANTINE. -/
theorem exec_repairDone {e : BitVec 24} {cells : List CellRead} {b c : Nat} {j : RepairJob} (entry : s.entryAt l.toNat e.toNat = some (b, c))
    (job : s.sump.repairs.find? (fun j => j.at_ == b * 1024 + c) = some j)
    (ended : a = { s with sump := { s.sump with repairs := s.sump.repairs.filter (fun x => x.at_ != b * 1024 + c) } }) (stands : j.dropped = false)
    (unasked : j.host = none) : exec (.repairDone l e cells) s =
      .next (if decide ((a.entry b c).state = esQUARANTINED) && (a.entry b c).agrees s.dim (a.readBack b c cells)
        then (a.setMirror (a.entry b c).mirror (some (a.readBack b c cells))).setEntryState b c esVALID
        else a.alarm F.SUMP_ALARM_QUARANTINE (b * 1024 + c)) := by
  show execRepairDone l e cells s = _
  unfold execRepairDone
  rw [entry]
  dsimp only
  rw [job, ← ended]
  dsimp only
  rw [unasked, stands]
  rfl

theorem exec_appendWaitExpiry {p t : Nat} {is : List WriteItem} (pending : (s.lib l.toNat).pend = some (p, t, is)) :
    exec (.appendWaitExpiry l) s = if t + 100000 * s.appendWait ≤ s.now then .next (s.sendPending l.toNat) else .next s := by
  show execAppendWaitExpiry l s = _
  unfold execAppendWaitExpiry
  rw [pending]

theorem appendWait_range (s : State) : 1 ≤ s.appendWait ∧ s.appendWait ≤ 60000 := by
  unfold State.appendWait
  omega

end

/-- Settles O26: the batch sent, its result taken, the repair ended, and the pending appends sent. -/
theorem writesAreSentAndTheirResultsTaken : Obligations.WritesAreSentAndTheirResultsTaken := by
  unfold Obligations.WritesAreSentAndTheirResultsTaken
  refine ⟨fun l s q rest b queue bench begun unsent sump ready settled plain unwritten =>
      ⟨_, exec_writeStep queue bench begun unsent sump ready settled plain unwritten rfl, _, rfl, rfl⟩,
    fun l s q rest queue no => exec_writeStep_waits queue no,
    fun k j s r result link sump job => exec_batchResult result link sump job,
    fun k j s absent => exec_batchResult_none absent,
    ?sound, ?failing, ?repair,
    fun l s p t is pending => ⟨fun passed => (exec_appendWaitExpiry pending).trans (if_pos passed),
      fun before => (exec_appendWaitExpiry pending).trans (if_neg (by omega))⟩,
    appendWait_range⟩
  case sound =>
    intro s k r b l p ri ii q rest w bench lib queue sent pos plain one cols sound src invalid _ unlearned others
    obtain ⟨good, bad⟩ := items_of_sound one invalid cols sound
    rw [takeBatch_host bench lib queue sent pos plain (by rw [one, cols]; rfl) src (resultApplied_of_sound one invalid cols l sound).symm unlearned
      others, good, bad]
    rfl
  case failing =>
    intro s k r b l p ri ii q rest w bench lib queue sent pos plain one cols failing src invalid _ unlearned others
    obtain ⟨good, bad⟩ := items_of_failing one invalid cols failing
    rw [takeBatch_host bench lib queue sent pos plain (by rw [one, cols]; rfl) src (resultApplied_of_failing one invalid cols l failing).symm unlearned
      others, good, bad]
    rfl
  case repair =>
    intro l e cells s b c j s0 entry job ended stands unasked
    have done := exec_repairDone (cells := cells) entry job ended stands unasked
    exact ⟨fun bad agrees => done.trans (congrArg _ (if_pos (by simp [bad, agrees]))), fun differs => done.trans (congrArg _ (if_neg (by simp [differs])))⟩

end Sys2Proof.Machine
end

section
/-! PROOFS.  Search from slivers to records: assembly, synapse requests, admission, bench results, verification and the approximate distance
(06_spiking_execution R209, R211; 07_seam_arrays R238; 09_associative_search R302 to R311; 10_approximate_modes R333). -/

namespace Sys2Proof.Machine

section

variable {s : State} {m : Msg}

/-! ### Slivers and the waits of an assembly (R305, R306) -/

/-- A message at a Sump port that is no synapse request: a sliver is taken, any other is discarded and counted. -/
theorem exec_sliver (oldest : s.atSump m = true) (other : m.tag.toNat ≠ tagSYNAPSE) : exec (.sliver m) s =
    .next (if m.tag.toNat = tagSLIVER then (s.unlist m).takeSliver m else (s.unlist m).bump F.SUMP_BADTAG_COUNT 1) := by
  show execSliver m s = _
  unfold execSliver
  rw [if_neg (by simp [oldest, other]), apply_ite Host.Outcome.next]
  exact if_congr decide_eq_true_iff rfl rfl

theorem exec_sliver_elsewhere (elsewhere : s.atSump m = false) : exec (.sliver m) s = .next s := if_pos (by simp [elsewhere])

/-- A sliver of a window that is not in assembly is late (R306). -/
theorem takeSliver_late
    (absent : s.asm.find? (fun a => a.stream == ((msgWord m 0).extractLsb' 0 16).toNat && a.start == (msgWord m 1).toNat) = none) :
    s.takeSliver m = s.bump F.SUMP_LATE_SLIVERS_COUNT 1 := by
  unfold State.takeSliver
  dsimp only
  rw [absent]

theorem exec_sliverWaitExpiry {n : Stream} {w : Word64} {a : Assembly} {t : Nat} (assembly : s.asmOf n.toNat w.toNat = some a)
    (wait : a.sliverBy = some t) : exec (.sliverWaitExpiry n w) s = if t ≤ s.now || s.asmComplete a then .next (s.assemble a) else .next s := by
  show execSliverWaitExpiry n w s = _
  unfold execSliverWaitExpiry
  rw [assembly]
  dsimp only
  rw [wait]

theorem exec_closeWaitExpiry {n : Stream} {w : Word64} {a : Assembly} {t : Nat} (assembly : s.asmOf n.toNat w.toNat = some a)
    (wait : a.closeBy = some t) : exec (.closeWaitExpiry n w) s = if t ≤ s.now then .next (s.assemble a) else .next s := by
  show execCloseWaitExpiry n w s = _
  unfold execCloseWaitExpiry
  rw [assembly]
  dsimp only
  rw [wait]

/-- A window none of whose slivers came is reported NO_QUERY. -/
theorem assemble_none {a : Assembly} (empty : a.slivers = []) :
    s.assemble a = State.skipWindow { s with asm := dropFirst a s.asm } a.stream skNO_QUERY a.start a.aditFlags :=
  if_pos (by simp [empty])

/-! ### Synapse requests (R209, R211) -/

theorem exec_synapseRequest_notReady (oldest : s.atSump m = true) (tag : m.tag.toNat = tagSYNAPSE) (asleep : s.sumpReady = false) :
    exec (.synapseRequest m) s = .next (s.unlist m) :=
  (if_neg (by simp [oldest, tag])).trans (if_pos (by simp [asleep]))

/-- The request that a message names, with the rows of the message alone. -/
def synRequest (m : Msg) : Request :=
  { kind := .synapse, stream := ((msgWord m 0).extractLsb' 0 16).toNat, start := (msgWord m 1).toNat,
    matrix := ((msgWord m 0).extractLsb' 16 8).toNat, rows := rowVector (synRows m) }

/-- A request whose first message is its last joins the ORDINARY queue. -/
theorem exec_synapseRequest_whole (oldest : s.atSump m = true) (tag : m.tag.toNat = tagSYNAPSE) (ready : s.sumpReady = true)
    (last : (msgWord m 0).getLsbD 24 = true) (first : s.sump.syn = []) (room : s.sump.ordQ.filter (fun r => decide (r.kind = .synapse)) = []) :
    exec (.synapseRequest m) s = .next { s.unlist m with sump := { s.sump with ordQ := s.sump.ordQ ++ [synRequest m] } } := by
  have parts : (s.unlist m).sump.syn = [] := first
  have kept : { s.sump with syn := [] } = s.sump := by rw [← first]
  have queue : (s.unlist m).sump.ordQ.filter (fun r => decide (r.kind = .synapse)) = [] := room
  show execSynapseRequest m s = _
  unfold execSynapseRequest
  dsimp only
  rw [if_neg (by simp [oldest, tag]), if_neg (by simp [ready]), if_pos last, parts, queue, List.filter_nil]
  exact congrArg (fun u : SumpSt => Host.Outcome.next { s.unlist m with sump := { u with ordQ := u.ordQ ++ [synRequest m] } }) kept

/-! ### Admission (R302, R303) -/

section

variable {r : Request} {q : List Request} (ready : s.sumpReady = true)

include ready

theorem exec_requestAdmit_watch (watch : s.sump.watchQ = r :: q) :
    exec .requestAdmit s = .next (State.admitSearch { s with sump := { s.sump with watchQ := q } } r) := by
  show execRequestAdmit s = _
  unfold execRequestAdmit
  rw [if_neg (by simp [ready]), watch]

/-- With WATCH empty the first of ORDINARY is admitted, as a search or as a synapse request. -/
theorem exec_requestAdmit_ordinary (watch : s.sump.watchQ = []) (ordinary : s.sump.ordQ = r :: q) : exec .requestAdmit s =
    .next (if r.kind = .synapse then State.admitMatrix { s with sump := { s.sump with ordQ := q } } r
      else State.admitSearch { s with sump := { s.sump with ordQ := q } } r) := by
  show execRequestAdmit s = _
  unfold execRequestAdmit
  rw [if_neg (by simp [ready]), watch]
  dsimp only
  rw [ordinary]

/-- With WATCH and ORDINARY empty the first of RECALL is admitted, unless its ring's backlog holds its record back. -/
theorem exec_requestAdmit_recall (watch : s.sump.watchQ = []) (ordinary : s.sump.ordQ = []) (recalls : s.sump.recallQ = r :: q) (kind : r.kind = .rcall) :
    exec .requestAdmit s = .next (if s.backlogFull r.ring then s else State.admitSearch { s with sump := { s.sump with recallQ := q } } r) := by
  have held : s.recordHeld r = s.backlogFull r.ring := by
    unfold State.recordHeld
    rw [kind]
  show execRequestAdmit s = _
  unfold execRequestAdmit
  rw [if_neg (by simp [ready]), watch]
  dsimp only
  rw [ordinary]
  dsimp only
  rw [recalls]
  dsimp only
  rw [held, kind, apply_ite Host.Outcome.next]

end

/-! ### Results and verification (R238, R311) -/

/-- A finished evaluation leaves its die over a Shaft link, and is added to its request where that still stands. -/
theorem exec_benchResult {k : Die} {j : BitVec 13} {tag : Word} {e : Eval} {a : State}
    (finished : (s.die k.toNat).evals.find? (fun e => e.bench == j.toNat && e.tag == tag.toNat && (e.finished || s.shaftGone k.toNat)) = some e)
    (link : s.fld (F.SEAM_STATUS_SHAFT_UP k.toNat) ≠ 0)
    (taken : a = s.setDie k.toNat { s.die k.toNat with evals := dropFirst e (s.die k.toNat).evals }) :
    exec (.benchResult k j tag) s = .next (((a.req tag.toNat).map (fun r => a.takeEval r (s.devBench k.toNat j.toNat) e)).getD a) := by
  show execBenchResult k j tag s = _
  unfold execBenchResult
  dsimp only
  rw [finished]
  dsimp only
  rw [decide_eq_false link, if_neg (by simp), ← taken]
  cases a.req tag.toNat <;> rfl

theorem exec_verify {tag : Word} {r : Request} (request : s.req tag.toNat = some r) (back : r.ready = true) (ready : s.sumpReady = true)
    (bad : List (Lib × BitVec 24)) : exec (.verify tag bad) s = .next (s.verifyStep r (bad.map (fun e => (e.1.toNat, e.2.toNat)))) := by
  show execVerify tag bad s = _
  unfold execVerify
  rw [request]
  exact if_pos (by simp [back, ready])

theorem exec_verify_none {tag : Word} (gone : s.req tag.toNat = none) (bad : List (Lib × BitVec 24)) : exec (.verify tag bad) s = .next s := by
  show execVerify tag bad s = _
  unfold execVerify
  rw [gone]

/-! ### The approximate distance (R308) -/

/-- A whole number of half steps rounds to itself. -/
theorem round_exact (x : Int) {den : Int} (pos : 0 < den) : (2 * (x * den) + den) / (2 * den) = x := by
  rw [show 2 * (x * den) + den = den + x * (2 * den) by ring, Int.add_mul_ediv_right _ _ (by omega), Int.ediv_eq_zero_of_lt pos.le (by omega), zero_add]

/-- With every dimension present and counted the distance is the exact |q| − 2c + |p|, in 1/16 count. -/
theorem approx16_whole {dim present counted : Nat} (pos : 0 < dim) (all : eDims dim present counted = dim) (whole : presentDims dim present = dim)
    (q : Key) (e : Entry) (c : Nat) : approx16 dim present counted q e c = (16 * ((qBits dim counted q : Int) - 2 * c + e.pop), false) := by
  have every : isAll dim present counted = true := by simp [isAll, all]
  have area : (0 : Int) < dim * dim := by positivity
  unfold approx16
  dsimp only
  rw [every, all, whole, if_pos rfl, Nat.cast_mul, show (16 * (dim : Int) * (((qBits dim counted q : Int) - 2 * c) * dim + e.pop * dim)) =
    16 * ((qBits dim counted q : Int) - 2 * c + e.pop) * (dim * dim) by ring, round_exact _ area]
  rfl

end

/-- Settles O27: a query from its slivers to its queue, a request from its queue to its record, and the distance its ranking rests on. -/
theorem searchRunsFromSliversToRecords : Obligations.SearchRunsFromSliversToRecords := by
  unfold Obligations.SearchRunsFromSliversToRecords
  exact ⟨fun m s oldest sliver => (exec_sliver oldest (by rw [sliver]; decide)).trans (congrArg _ (if_pos sliver)),
    fun m s oldest other synapse => (exec_sliver oldest synapse).trans (congrArg _ (if_neg other)),
    fun m s elsewhere => exec_sliver_elsewhere elsewhere,
    fun m s absent => takeSliver_late absent,
    fun n w s a t assembly wait => ⟨fun due => (exec_sliverWaitExpiry assembly wait).trans (if_pos (by simpa using due)),
      fun before short => (exec_sliverWaitExpiry assembly wait).trans (if_neg (by simpa [short] using before))⟩,
    fun n w s a t assembly wait => ⟨fun due => (exec_closeWaitExpiry assembly wait).trans (if_pos due),
      fun before => (exec_closeWaitExpiry assembly wait).trans (if_neg (by omega))⟩,
    fun s a empty => assemble_none empty,
    fun m s oldest tag asleep => exec_synapseRequest_notReady oldest tag asleep,
    fun m s oldest tag ready last first room => ⟨_, exec_synapseRequest_whole oldest tag ready last first room, rfl⟩,
    fun s r q ready watch => exec_requestAdmit_watch ready watch,
    fun s r q ready watch ordinary search => (exec_requestAdmit_ordinary ready watch ordinary).trans (congrArg _ (if_neg search)),
    fun s r q ready watch ordinary synapse => (exec_requestAdmit_ordinary ready watch ordinary).trans (congrArg _ (if_pos synapse)),
    fun s r q ready watch ordinary recalls kind => exec_requestAdmit_recall ready watch ordinary recalls kind,
    fun k j tag s e finished link => ⟨_, exec_benchResult finished link rfl, _, rfl, fun gone => by rw [gone]; rfl, fun r request => by rw [request]; rfl⟩,
    fun tag bad s r request back ready => exec_verify request back ready bad,
    fun tag bad s gone => exec_verify_none gone bad,
    fun dim present counted q e c pos all whole => approx16_whole pos all whole q e c⟩

end Sys2Proof.Machine
end

section
/-! PROOFS.  Frames of the Tunnel: what a port takes, passes on, sends and sends again (11_cascade R363 to R365, R359, R360). -/

namespace Sys2Proof.Machine

section

variable {q : TPort} {f : Frame} {s : State}

/-! ### Each frame command is one taking of its frame -/

theorem exec_append_taken {ok : Bool} (ready : ok = true → s.appendWaits f = false) :
    exec (.append q f ok) s = .next (s.takeTunnelFrame q ftAPPEND f ok (fun a => a.takeAppend f)) := by
  refine if_neg fun both => ?_
  obtain ⟨good, waits⟩ := Bool.and_eq_true_iff.1 both
  exact absurd waits (by simp [ready good])

theorem exec_append_waits (waits : s.appendWaits f = true) : exec (.append q f true) s = .next s := if_pos waits

/-- A TOKEN is learned outside its taking only by a member that takes it in order and that it is not addressed to. -/
theorem exec_token_taken {ok : Bool} {t : State} (taken : s.takeTunnelFrame q ftTOKEN f ok (fun a => a.receiveToken f) = t)
    (here : s.addressed f = true ∨ (t.tport q.toNat).rxSeq = (s.tport q.toNat).rxSeq) : exec (.token q f ok) s = .next t := by
  subst taken
  refine congrArg _ (if_neg fun passed => ?_)
  obtain ⟨moved, elsewhere⟩ := passed
  rcases here with mine | kept
  · simp [mine] at elsewhere
  · exact moved kept

variable {h : HelloRec} {k : List KeyCopy} {c : Nat × (Bool → Instr) × (State → State)}

/-- APPEND and TOKEN apart, a frame command is the taking of its frame and nothing else. -/
theorem frameCommands_cases (hc : c ∈ frameCommands q f h k) :
    c = (ftAPPEND, (fun ok => .append q f ok), (fun a => a.takeAppend f)) ∨ c = (ftTOKEN, (fun ok => .token q f ok), (fun a => a.receiveToken f)) ∨
      ∀ ok s, exec (c.2.1 ok) s = .next (s.takeTunnelFrame q c.1 f ok c.2.2) := by
  revert c
  simp only [frameCommands, List.forall_mem_cons]
  refine ⟨?_, ?_, ?_, .inl trivial, ?_, .inr (.inl trivial), ?_, ?_, ?_, ?_, ?_, nofun⟩ <;> exact .inr (.inr fun _ _ => rfl)

/-- Every frame command answers what taking its frame comes to, unless an APPEND must wait or a TOKEN is passed on. -/
theorem exec_frameCommand (hc : c ∈ frameCommands q f h k) {ok : Bool} {t : State} (ready : ok = true → c.1 = ftAPPEND → s.appendWaits f = false)
    (here : c.1 = ftTOKEN → s.addressed f = true ∨ (t.tport q.toNat).rxSeq = (s.tport q.toNat).rxSeq)
    (taken : s.takeTunnelFrame q c.1 f ok c.2.2 = t) : exec (c.2.1 ok) s = .next t := by
  rcases frameCommands_cases hc with rfl | rfl | plain
  · exact (exec_append_taken fun good => ready good rfl).trans (congrArg _ taken)
  · exact exec_token_taken taken (here rfl)
  · exact (plain ok s).trans (congrArg _ taken)

theorem frameCommands_type_ne_idle (hc : c ∈ frameCommands q f h k) : c.1 ≠ ftIDLE := by
  have types : (frameCommands q f h k).map Prod.fst = [1, 2, 3, 4, 5, 6, 7, 8, 9, 10, 11] := rfl
  have known := types ▸ List.mem_map_of_mem hc
  intro idle
  rw [idle] at known
  exact absurd known (by decide)

/-- At a port that is down a frame command does nothing; an APPEND that would wait is no exception. -/
theorem exec_frameCommand_down (hc : c ∈ frameCommands q f h k) (down : s.portUp q.toNat = false) (ok : Bool) : exec (c.2.1 ok) s = .next s := by
  have stays := takeFrame_down s q c.1 f ok c.2.2 down
  rcases frameCommands_cases hc with rfl | rfl | plain
  · by_cases wait : ok = true ∧ s.appendWaits f = true
    · obtain ⟨rfl, waits⟩ := wait
      exact exec_append_waits waits
    · exact (exec_append_taken (by simpa using wait)).trans (congrArg _ stays)
  · exact exec_token_taken stays (.inr rfl)
  · exact (plain ok s).trans (congrArg _ stays)

/-! ### IDLE: only its acknowledgement counts -/

theorem exec_idle_good (type : f.type.toNat = ftIDLE) (up : s.portUp q.toNat = true) : exec (.idle q f true) s = .next (s.ackTaken q.toNat f) := by
  show Host.Outcome.next (s.takeTunnelFrame q ftIDLE f true fun a => a) = _
  unfold State.takeTunnelFrame
  simp only [type, up]
  rfl

theorem exec_idleFrameSend (q : TPort) (s : State) : exec (.idleFrameSend q) s = .next (if s.portUp q.toNat = true ∧ (s.tport q.toNat).lastSent + 100 ≤ s.now then
    s.sendFrame q.toNat (s.mkFrame ftIDLE (s.peerOf q.toNat) 0 0 0 []) else s) := by
  show execIdleFrameSend q s = _
  unfold execIdleFrameSend
  by_cases silent : s.portUp q.toNat = true ∧ (s.tport q.toNat).lastSent + 100 ≤ s.now
  · rw [if_pos silent]
    exact if_pos (by simpa using silent)
  · rw [if_neg silent]
    exact if_neg (by simpa using silent)

/-! ### Sending and sending again (R364) -/

theorem sendFrame_down {p : Nat} (f : Frame) (down : s.portUp p = false) : s.sendFrame p f = s := if_pos (by simp [down])

/-- The frame as it leaves port `p`: under the next LSEQ, with the last LSEQ received as its ACK. -/
def State.numbered (s : State) (p : Nat) (f : Frame) : Frame :=
  { f with lseq := BitVec.ofNat 16 ((s.tport p).txSeq + 1), ack := BitVec.ofNat 16 (s.tport p).rxSeq }

theorem sendFrame_up {p : Nat} (up : s.portUp p = true) (type : f.type.toNat ≠ ftIDLE) :
    s.sendFrame p f = State.setTPort { s with tunnel := { s.tunnel with sent := s.tunnel.sent ++ [(p, s.numbered p f)] } } p
      { s.tport p with txSeq := ((s.tport p).txSeq + 1) % 65536, replay := (s.tport p).replay ++ [s.numbered p f], lastSent := s.now } := by
  unfold State.sendFrame
  rw [if_neg (by simp [up]), decide_eq_false type]
  rfl

/-- The frames sent again are those from the first with the named LSEQ on. -/
theorem dropWhile_lseq {n : Nat} {l r : List Frame} {x : Frame} (before : ∀ y ∈ l, y.lseq.toNat ≠ n) (named : x.lseq.toNat = n) :
    (l ++ x :: r).dropWhile (fun y => y.lseq.toNat != n) = x :: r := by
  rw [List.dropWhile_append_of_pos (by simpa using before), List.dropWhile_cons_of_neg (by simp [named])]

theorem takeNak_again {p : Nat} {l : List Frame} (again : (s.tport p).replay.dropWhile (fun x => x.lseq.toNat != f.arg0.toNat % 65536) = l)
    (named : l ≠ []) (few : (s.tport p).replays < 7) :
    s.takeNak p f = (State.bump { s with tunnel := { s.tunnel with sent := s.tunnel.sent ++ l.map (fun x => (p, x)) } }
      (F.TUNNEL_PORT_REPLAY_COUNT p) l.length).setTPort p { s.tport p with replays := (s.tport p).replays + 1, lastSent := s.now } := by
  unfold State.takeNak
  dsimp only
  rw [again, if_neg (by simpa using named), if_neg (by omega)]

end

/-- Settles O29: what taking a frame comes to, by its CRC and its LSEQ; IDLE; what sending a frame and a NAK do. -/
theorem framesAreTakenInOrderAndPassedOn : Obligations.FramesAreTakenInOrderAndPassedOn := by
  unfold Obligations.FramesAreTakenInOrderAndPassedOn
  refine ⟨fun q f h k s c hc type up => ⟨?badCrc, fun again ready => ?again, fun other gap ready => ?gap, fun next mine ready => ?mine,
      fun next elsewhere ready noToken => ?passed⟩,
    fun q f h k ok s c hc down => exec_frameCommand_down hc down ok,
    fun q f s waits => exec_append_waits waits,
    fun q f s type up => ⟨exec_idle_good type up, congrArg _ (takeFrame_bad s q _ f _ type up)⟩,
    fun s p f down => sendFrame_down f down,
    fun s p f g up type numbered => ?sent,
    fun s p f l l2 split before named few => ?resent,
    exec_idleFrameSend⟩
  case badCrc => exact exec_frameCommand hc (nofun) (fun _ => .inr (nakSent_rx ..)) (takeFrame_bad s q _ f _ type up)
  case again => exact exec_frameCommand hc (fun _ => ready) (fun _ => .inr (ackTaken_rx ..)) (takeFrame_dup s q _ f _ type up again)
  case gap =>
    exact exec_frameCommand hc (fun _ => ready) (fun _ => .inr ((nakSent_rx ..).trans (ackTaken_rx ..)))
      (takeFrame_gap s q _ f _ type up (frameCommands_type_ne_idle hc) other gap)
  case mine =>
    refine exec_frameCommand hc (fun _ => ready) (fun _ => .inl mine) ?_
    rw [takeFrame_ord s q _ f _ type up (frameCommands_type_ne_idle hc) next, if_pos mine]
  case passed =>
    refine exec_frameCommand hc (fun _ => ready) (fun token => absurd token noToken) ?_
    rw [takeFrame_ord s q _ f _ type up (frameCommands_type_ne_idle hc) next, if_neg (by simp [elsewhere])]
  case sent =>
    obtain rfl : g = s.numbered p f := numbered
    rw [sendFrame_up up type]
    exact ⟨rfl, tport_setTPort .., fun q other => tport_setTPort_ne _ _ _ other _, rfl⟩
  case resent =>
    obtain ⟨x, r, rfl, named⟩ := named
    rw [takeNak_again (split ▸ dropWhile_lseq before named) (List.cons_ne_nil x r) few]
    exact ⟨rfl, State.fld_bump_same _ _ _ (by show 0 + 32 ≤ 32; decide), tport_setTPort ..⟩

end Sys2Proof.Machine
end

section
/-! PROOFS.  The learning counters and the order of due entries (12_chisel_learning R387, R389, R390, R401, R402; 02_hypervector_algebra R68). -/

namespace Sys2Proof.Machine

/-! ### Counters (R389, R390) -/

/-- The range of a learning counter (R387). -/
def CountersInRange (u : List Int) : Prop := ∀ x ∈ u, -128 ≤ x ∧ x ≤ 127

theorem sat8_mem (x : Int) : -128 ≤ sat8 x ∧ sat8 x ≤ 127 := clampInt_mem (by decide) x

@[simp] theorem length_padTo (dim : Nat) (u : List Int) : (padTo dim u).length = dim := by
  simp only [padTo, List.length_take, List.length_append, List.length_replicate]
  omega

theorem getElem_padTo {dim d : Nat} (u : List Int) (inside : d < (padTo dim u).length) : (padTo dim u)[d] = u.getD d 0 := by
  simp only [padTo, List.getElem_take, List.getElem_append, List.getElem_replicate, List.getD_eq_getElem?_getD]
  split
  next stored => rw [List.getElem?_eq_getElem stored, Option.getD_some]
  next absent => rw [List.getElem?_eq_none (Nat.le_of_not_lt absent), Option.getD_none]

theorem CountersInRange.padTo {u : List Int} (range : CountersInRange u) (dim : Nat) : CountersInRange (padTo dim u) := by
  intro x mem
  rcases List.mem_append.1 (List.mem_of_mem_take mem) with stored | absent
  · exact range x stored
  · rw [List.eq_of_mem_replicate absent]
    decide

@[simp] theorem length_addKey (dim : Nat) (u : List Int) (q m : Key) (w : Int) : (addKey dim u q m w).length = dim := by simp [addKey]

theorem getD_addKey {dim d : Nat} (u : List Int) (q m : Key) (w : Int) (inside : d < dim) :
    (addKey dim u q m w).getD d 0 = if m.getLsbD d = true then sat8 (u.getD d 0 + w * b1val (q.getLsbD d)) else u.getD d 0 := by
  rw [List.getD_eq_getElem _ _ (by simpa using inside)]
  simp only [addKey, List.getElem_map, List.getElem_zipIdx, getElem_padTo, Nat.zero_add]

theorem CountersInRange.addKey {u : List Int} (range : CountersInRange u) (dim : Nat) (q m : Key) (w : Int) :
    CountersInRange (addKey dim u q m w) := by
  intro x mem
  obtain ⟨⟨c, d⟩, old, rfl⟩ := List.mem_map.1 mem
  dsimp only
  split
  · exact sat8_mem _
  · exact range.padTo dim c (List.fst_mem_of_mem_zipIdx old)

@[simp] theorem length_closeCounters (dim k : Nat) (p u : List Int) : (closeCounters dim k p u).length = dim := by simp [closeCounters]

theorem getD_closeCounters {dim d : Nat} (k : Nat) (p u : List Int) (inside : d < dim) :
    (closeCounters dim k p u).getD d 0 = sat8 (p.getD d 0 - (if k = 0 then 0 else p.getD d 0 >>> k) + u.getD d 0) := by
  rw [List.getD_eq_getElem _ _ (by simpa using inside)]
  simp only [closeCounters, List.getElem_map, List.getElem_zip, getElem_padTo, Int.shiftRight_eq_div_pow, Nat.cast_pow, Nat.cast_ofNat]

theorem countersInRange_closeCounters (dim k : Nat) (p u : List Int) : CountersInRange (closeCounters dim k p u) := by
  intro x mem
  obtain ⟨c, _, rfl⟩ := List.mem_map.1 mem
  exact sat8_mem _

/-! ### Due entries (R402) -/

/-- May `a` stand ahead of `b`: a larger δ, or the same and no higher an entry number? -/
def DueEntry.Leads (a b : DueEntry) : Prop := b.delta < a.delta ∨ (b.delta = a.delta ∧ a.entry ≤ b.entry)

theorem DueEntry.Leads.trans {a b c : DueEntry} (ab : a.Leads b) (bc : b.Leads c) : a.Leads c := by
  unfold DueEntry.Leads at *
  omega

theorem perm_insDue (x : DueEntry) (l : List DueEntry) : (insDue x l).Perm (x :: l) := by
  induction l with
  | nil => exact .refl _
  | cons y t ih =>
    unfold insDue
    split
    · exact .refl _
    · exact (ih.cons y).trans (.swap x y t)

/-- Either the new entry goes before the first, and may, or the first may stay ahead of it. -/
theorem insDue_cons (x y : DueEntry) (t : List DueEntry) :
    (insDue x (y :: t) = x :: y :: t ∧ x.Leads y) ∨ (insDue x (y :: t) = y :: insDue x t ∧ y.Leads x) := by
  unfold DueEntry.Leads
  by_cases ahead : y.delta < x.delta ∨ (y.delta = x.delta ∧ x.entry < y.entry)
  · exact .inl ⟨if_pos (by simpa using ahead), by omega⟩
  · exact .inr ⟨if_neg (by simpa using ahead), by omega⟩

theorem pairwise_leads_insDue {l : List DueEntry} (ordered : l.Pairwise DueEntry.Leads) (x : DueEntry) : (insDue x l).Pairwise DueEntry.Leads := by
  induction l with
  | nil => exact List.pairwise_singleton _ _
  | cons y t ih =>
    obtain ⟨first, rest⟩ := List.pairwise_cons.1 ordered
    rcases insDue_cons x y t with ⟨eq, leads⟩ | ⟨eq, leads⟩
    · rw [eq]
      exact List.pairwise_cons.2 ⟨List.forall_mem_cons.2 ⟨leads, fun z mem => leads.trans (first z mem)⟩, ordered⟩
    · rw [eq]
      refine List.pairwise_cons.2 ⟨fun z mem => ?_, ih rest⟩
      rcases List.mem_cons.1 ((perm_insDue x t).mem_iff.1 mem) with rfl | old
      · exact leads
      · exact first z old

theorem perm_foldl_insDue (l : List DueEntry) : (l.foldl (fun a x => insDue x a) []).Perm l := by
  induction l using List.reverseRecOn with
  | nil => exact .refl _
  | append_singleton l x ih =>
    rw [List.foldl_concat]
    exact (perm_insDue x _).trans ((ih.cons x).trans (List.perm_append_singleton x l).symm)

theorem pairwise_leads_foldl_insDue (l : List DueEntry) : (l.foldl (fun a x => insDue x a) []).Pairwise DueEntry.Leads :=
  List.foldlRecOn l _ List.Pairwise.nil fun _ ordered x _ => pairwise_leads_insDue ordered x

/-- Settles O34: the counters dimension by dimension, the banks by the parity of the epoch, and the insertion sort of due entries. -/
theorem learningCountersCloseWithinTheirRange : Obligations.LearningCountersCloseWithinTheirRange := by
  unfold Obligations.LearningCountersCloseWithinTheirRange
  exact ⟨fun dim u q m w => ⟨length_addKey dim u q m w, fun _ => getD_addKey u q m w, fun range => CountersInRange.addKey range dim q m w⟩,
    fun dim k p u => ⟨length_closeCounters dim k p u, fun _ => getD_closeCounters k p u, countersInRange_closeCounters dim k p u⟩,
    fun _ _ _ _ even => if_pos even, fun _ _ _ _ odd => if_neg (by omega),
    fun _ _ _ _ _ _ even => if_pos even, fun _ _ _ _ _ _ odd => if_neg (by omega),
    fun l => ⟨perm_foldl_insDue l, pairwise_leads_foldl_insDue l⟩⟩

end Sys2Proof.Machine
end

section
/-! PROOFS.  CONFIRM, EXPORT and LOAD_SHADOW (12_chisel_learning R393, R400, R405 to R407, Table CHISEL-2). -/

namespace Sys2Proof.Machine

section

variable {s a : State} {r : Ring} {i : Word} {op : Nat} {hasBuf : Bool} {x : LibDesc} {c : Instr}
  {body : LibDesc → State × Option (Nat × Nat × Nat)}

/-! ### Taking a descriptor of Chisel (R422 to R424) -/

/-- A good descriptor taken while Chisel is ready is ended as its operation answers. -/
theorem LearnTaken.answers {b : State × Option (Nat × Nat × Nat)} (taken : LearnTaken s r i op hasBuf x)
    (runs : exec c s = .next (s.libOpWhen s.chiselReady r i op hasBuf true body)) (answer : body x = b) :
    exec c s = .next (State.answered b r.toNat i.toNat) := by
  obtain ⟨d, slot, rfl, rfl, good, safe, ready⟩ := taken
  subst answer
  rw [runs]
  unfold State.libOpWhen
  dsimp only
  rw [slot]
  dsimp only
  rw [if_neg (by simp [safe]), if_neg (by simp [good]), if_neg (by simp), if_neg (by simp [ready])]
  rfl

theorem LearnTaken.ends {st aux res : Nat} (taken : LearnTaken s r i op hasBuf x)
    (runs : exec c s = .next (s.libOpWhen s.chiselReady r i op hasBuf true body)) (answer : body x = a.ends st aux res) :
    LibEnds c s r i a st aux res := taken.answers runs answer

theorem LearnTaken.begins (taken : LearnTaken s r i op hasBuf x)
    (runs : exec c s = .next (s.libOpWhen s.chiselReady r i op hasBuf true body)) (answer : body x = (a, none)) :
    exec c s = .next (a.beginDesc r.toNat i.toNat) := taken.answers runs answer

/-! ### CONFIRM up to its window's slot (R393) -/

variable {n v k : Nat} {h : HoldSlot} {w : Nat × Nat × Nat}

/-- The fields of a CONFIRM descriptor that is not BAD_DESC (R393): stream `n`, verdict `v`, and its window's epoch `k`. -/
structure ConfirmNames (s : State) (x : LibDesc) (n v k : Nat) : Prop where
  stream : n = x.arg0 % 65536
  verdict : v = x.arg0 / 65536 % 256
  epoch : k = s.windowEpoch n x.arg2
  own : x.arg0 / 2 ^ 24 % 16 = x.lib
  low : 1 ≤ v
  high : v ≤ 4

theorem ConfirmNames.not_bad (names : ConfirmNames s x n v k) :
    ¬(decide (x.arg0 / 2 ^ 24 % 16 ≠ x.lib) || decide (x.arg0 / 65536 % 256 < 1) || decide (4 < x.arg0 / 65536 % 256)) = true := by
  obtain ⟨_, rfl, _, own, low, high⟩ := names
  simp only [Bool.or_eq_true, decide_eq_true_eq]
  omega

theorem confirm_badDesc (taken : LearnTaken s r i 14 false x) (verdict : v = x.arg0 / 65536 % 256)
    (bad : x.arg0 / 2 ^ 24 % 16 ≠ x.lib ∨ v < 1 ∨ 4 < v) : LibEnds (.confirm r i) s r i s stBAD_DESC 0 0 :=
  taken.ends rfl (if_pos (by
    subst verdict
    simpa [or_assoc] using bad))

theorem confirm_learnOff (taken : LearnTaken s r i 14 false x) (names : ConfirmNames s x n v k)
    (off : s.learnOn k = false ∨ s.bit (F.CHISEL_STREAM_LEARN n) = false) :
    LibEnds (.confirm r i) s r i (s.bump F.CHISEL_CONF_DROPS_COUNT 1) stLEARN_OFF 0 0 :=
  taken.ends rfl ((if_neg names.not_bad).trans (if_pos (by
    obtain ⟨rfl, _, rfl, _⟩ := names
    simpa using off)))

/-- A CONFIRM of a stream and an epoch that learn is not LEARN_OFF. -/
theorem ConfirmNames.not_off (names : ConfirmNames s x n v k) (on : s.learnOn k = true) (learns : s.bit (F.CHISEL_STREAM_LEARN n) = true) :
    ¬(!s.learnOn (s.windowEpoch (x.arg0 % 65536) x.arg2) || !s.bit (F.CHISEL_STREAM_LEARN (x.arg0 % 65536))) = true := by
  obtain ⟨rfl, _, rfl, _⟩ := names
  simp [on, learns]

theorem confirm_epochClosed (taken : LearnTaken s r i 14 false x) (names : ConfirmNames s x n v k) (on : s.learnOn k = true)
    (learns : s.bit (F.CHISEL_STREAM_LEARN n) = true) (past : s.epochClosed k = true) :
    LibEnds (.confirm r i) s r i ((s.bump F.CHISEL_LATE_COUNT 1).bump F.CHISEL_CONF_DROPS_COUNT 1) stEPOCH_CLOSED 0 0 :=
  taken.ends rfl (((if_neg names.not_bad).trans (if_neg (names.not_off on learns))).trans (if_pos (by
    obtain ⟨rfl, _, rfl, _⟩ := names
    exact past)))

theorem confirm_notHeld (taken : LearnTaken s r i 14 false x) (names : ConfirmNames s x n v k) (on : s.learnOn k = true)
    (learns : s.bit (F.CHISEL_STREAM_LEARN n) = true) (before : s.epochClosed k = false)
    (missing : s.chisel.hold.find? (fun h => h.stream == n && h.start == x.arg2) = none) :
    LibEnds (.confirm r i) s r i (s.bump F.CHISEL_CONF_DROPS_COUNT 1) stNOT_HELD 0 0 :=
  taken.ends rfl (by
    refine ((if_neg names.not_bad).trans (if_neg (names.not_off on learns))).trans ?_
    obtain ⟨rfl, _, rfl, _⟩ := names
    rw [if_neg (by simp [before]), missing]
    rfl)

/-! ### CONFIRM of a window held (R393, R400) -/

/-- What CONFIRM answers of a learning entry: the last status of R393, or the query bundled with the sign of the verdict. -/
def State.confirmEntry (s : State) (x : LibDesc) (h : HoldSlot) (v k : Nat) (w : Nat × Nat × Nat) : State × Option (Nat × Nat × Nat) :=
  match s.entryAt x.lib (x.arg1 % 2 ^ 24) with
  | none => s.confDrop stENTRY_GONE
  | some (b, c) =>
    if (s.entry b c).state = esEMPTY || (s.entry b c).state = esQUARANTINED || decide ((s.benchOf b).state = .retired) ||
        !s.learningLib x.lib || (s.shadow b c).isNone then s.confDrop stENTRY_GONE
    else ((s.learnEntry b c k h.key (presentMask s.dim h.present) (if v = 1 then s.wSup else -s.wSup)).noteVerdict h w).ends stAPPLIED 0 0

/-- What CONFIRM answers once it has found its window's slot `h`, by its verdict `v`, which it notes in the slot as `w`. -/
def State.confirmHeld (s : State) (x : LibDesc) (h : HoldSlot) (n v k : Nat) (w : Nat × Nat × Nat) : State × Option (Nat × Nat × Nat) :=
  if h.applied.contains w then s.confDrop stDUPLICATE
  else match v with
    | 3 =>
      if s.poolFull then (s.alarm F.CHISEL_ALARM_POOL_FULL x.lib).confDrop stPOOL_FULL
      else ((s.newProto x.lib k h.key (s.fld F.CHISEL_POOL_MIN_HITS) x.arg3).tookUpdate.noteVerdict h w).ends stAPPLIED 0 0
    | 4 => ((s.learnBg n k h.key (presentMask s.dim h.present) s.wSup).noteVerdict h w).ends stAPPLIED 0 0
    | _ => s.confirmEntry x h v k w

/-- CONFIRM of a window held is answered by its verdict alone. -/
theorem confirm_held {st : Nat} (taken : LearnTaken s r i 14 false x) (names : ConfirmNames s x n v k) (on : s.learnOn k = true)
    (learns : s.bit (F.CHISEL_STREAM_LEARN n) = true) (before : s.epochClosed k = false)
    (held : s.chisel.hold.find? (fun h => h.stream == n && h.start == x.arg2) = some h)
    (mark : w = if v ≤ 2 then (v, x.lib, x.arg1 % 2 ^ 24) else (v, 0, 0)) (answer : s.confirmHeld x h n v k w = a.ends st 0 0) :
    LibEnds (.confirm r i) s r i a st 0 0 :=
  taken.ends rfl (by
    refine (((if_neg names.not_bad).trans (if_neg (names.not_off on learns))).trans ?_).trans answer
    obtain ⟨rfl, rfl, rfl, _⟩ := names
    subst mark
    rw [if_neg (by simp [before]), held]
    rfl)

theorem confirmHeld_duplicate (again : w ∈ h.applied) : s.confirmHeld x h n v k w = s.confDrop stDUPLICATE := if_pos (by simpa using again)

theorem confirmHeld_poolFull (fresh : w ∉ h.applied) (new : v = 3) (full : s.poolFull = true) :
    s.confirmHeld x h n v k w = (s.alarm F.CHISEL_ALARM_POOL_FULL x.lib).confDrop stPOOL_FULL := by
  subst new
  exact (if_neg (by simpa using fresh)).trans (if_pos full)

theorem confirmHeld_new (fresh : w ∉ h.applied) (new : v = 3) (room : s.poolFull = false) : s.confirmHeld x h n v k w =
    ((s.newProto x.lib k h.key (s.fld F.CHISEL_POOL_MIN_HITS) x.arg3).tookUpdate.noteVerdict h w).ends stAPPLIED 0 0 := by
  subst new
  exact (if_neg (by simpa using fresh)).trans (if_neg (by simp [room]))

theorem confirmHeld_background (fresh : w ∉ h.applied) (background : v = 4) : s.confirmHeld x h n v k w =
    ((s.learnBg n k h.key (presentMask s.dim h.present) s.wSup).noteVerdict h w).ends stAPPLIED 0 0 := by
  subst background
  exact if_neg (by simpa using fresh)

theorem confirmHeld_entry (fresh : w ∉ h.applied) (named : v ≤ 2) : s.confirmHeld x h n v k w = s.confirmEntry x h v k w := by
  refine (if_neg (by simpa using fresh)).trans ?_
  split
  · omega
  · omega
  · rfl

theorem confirmEntry_none (missing : s.entryAt x.lib (x.arg1 % 2 ^ 24) = none) : s.confirmEntry x h v k w = s.confDrop stENTRY_GONE := by
  unfold State.confirmEntry
  rw [missing]

theorem confirmEntry_gone {b c : Nat} (at_ : s.entryAt x.lib (x.arg1 % 2 ^ 24) = some (b, c)) (gone : (s.entry b c).state = esEMPTY ∨
    (s.entry b c).state = esQUARANTINED ∨ (s.benchOf b).state = .retired ∨ s.learningLib x.lib = false) :
    s.confirmEntry x h v k w = s.confDrop stENTRY_GONE := by
  unfold State.confirmEntry
  rw [at_]
  exact if_pos (by rcases gone with gone | gone | gone | gone <;> simp [gone])

theorem learnEntry_shadow {b c : Nat} {q : Shadow} (sound : (s.entry b c).state ≠ esQUARANTINED) (kept : s.shadow b c = some q) (key mask : Key) (wt : Int) :
    s.learnEntry b c k key mask wt = (s.setShadow b c (some (q.add s.dim k key mask wt))).tookUpdate := by
  unfold State.learnEntry
  rw [if_neg sound, kept]

theorem confirmEntry_applied {b c : Nat} {q : Shadow} (at_ : s.entryAt x.lib (x.arg1 % 2 ^ 24) = some (b, c)) (used : (s.entry b c).state ≠ esEMPTY)
    (sound : (s.entry b c).state ≠ esQUARANTINED) (alive : (s.benchOf b).state ≠ .retired) (learning : s.learningLib x.lib = true)
    (kept : s.shadow b c = some q) : s.confirmEntry x h v k w =
      (((s.setShadow b c (some (q.add s.dim k h.key (presentMask s.dim h.present) (if v = 1 then s.wSup else -s.wSup)))).tookUpdate).noteVerdict h w).ends
        stAPPLIED 0 0 := by
  unfold State.confirmEntry
  rw [at_]
  dsimp only
  rw [if_neg (by simp [used, sound, alive, learning, kept]), learnEntry_shadow sound kept]

/-! ### EXPORT (R405, R406) -/

theorem export_badDesc {kind : Nat} (taken : LearnTaken s r i 12 false x) (named : kind = x.arg0 % 8)
    (bad : kind < 1 ∨ 4 < kind ∨ s.isExportRing x.export_ = false ∨ (kind = 2 ∧ x.arg1 / 65536 < x.arg1 % 65536) ∨
      (kind = 3 ∧ x.arg1 / 65536 < x.arg1 % 65536)) : LibEnds (.exportOp r i) s r i s stBAD_DESC 0 0 :=
  taken.ends rfl (if_pos (by
    subst named
    simpa [or_assoc, or_and_right] using bad))

/-- An export of a kind, to a ring and of a range that R405 allows is not BAD_DESC. -/
theorem export_not_bad (low : 1 ≤ x.arg0 % 8) (high : x.arg0 % 8 ≤ 4) (ring : s.isExportRing x.export_ = true) (range : x.arg1 % 65536 ≤ x.arg1 / 65536) :
    ¬(decide (x.arg0 % 8 < 1) || decide (4 < x.arg0 % 8) || !s.isExportRing x.export_ ||
      (decide (x.arg0 % 8 = 2 ∨ x.arg0 % 8 = 3) && decide (x.arg1 / 65536 < x.arg1 % 65536))) = true := by
  simp only [ring, Bool.or_eq_true, Bool.and_eq_true, decide_eq_true_eq, Bool.not_true, Bool.false_eq_true, or_false]
  omega

theorem export_busy {kind : Nat} (taken : LearnTaken s r i 12 false x) (named : kind = x.arg0 % 8) (low : 1 ≤ kind) (high : kind ≤ 4)
    (ring : s.isExportRing x.export_ = true) (range : x.arg1 % 65536 ≤ x.arg1 / 65536) (opened : s.chisel.exportSt ≠ none) :
    LibEnds (.exportOp r i) s r i s stBUSY 0 0 := by
  subst named
  exact taken.ends rfl ((if_neg (export_not_bad low high ring range)).trans (if_pos (Option.isSome_iff_ne_none.2 opened)))

theorem export_opens {kind k : Nat} {recs : List (List Byte)} (taken : LearnTaken s r i 12 false x) (named : kind = x.arg0 % 8) (low : 1 ≤ kind)
    (high : kind ≤ 4) (ring : s.isExportRing x.export_ = true) (range : x.arg1 % 65536 ≤ x.arg1 / 65536) (closed : s.chisel.exportSt = none)
    (epoch : k = s.chisel.closed.getD 0) (drawn : recs = s.exportRecords kind k x.lib (x.arg1 % 65536) (x.arg1 / 65536)) :
    exec (.exportOp r i) s = .next (((State.setFld { s with chisel := { s.chisel with exportSt := some ⟨r.toNat, i.toNat, kind⟩ } }
      F.CHISEL_STATUS_EXPORT_OPEN 1).exportOut x.export_
        { ring := r.toNat, idx := i.toNat, tag := x.tag, bytes := recs.flatMap id ++ exportRecord 0xFF 0 k 0 0 (recs.length % 65536) 0 [],
          result := recs.length, learn := true }).beginDesc r.toNat i.toNat) := by
  subst named epoch drawn
  exact taken.begins rfl ((if_neg (export_not_bad low high ring range)).trans (if_neg (by simp [closed])))

/-! ### LOAD_SHADOW (R407) -/

theorem loadShadow_badItems {buf : List Byte} (taken : LearnTaken s r i 13 true x) (bad : items x (48 + s.dim) buf = none) :
    LibEnds (.loadShadow r i buf true) s r i s stBAD_DESC 0 0 :=
  taken.ends rfl (by rw [bad])

theorem loadShadow_ok {buf : List Byte} {l : List (List Byte)} (taken : LearnTaken s r i 13 true x) (records : items x (48 + s.dim) buf = some l) :
    LibEnds (.loadShadow r i buf true) s r i
      (State.bump { s with chisel := { s.chisel with loads := s.chisel.loads ++ l.filterMap s.parseProto } } F.CHISEL_SHADOW_DISCARDS_COUNT
        (l.length - (l.filterMap s.parseProto).length)) stOK 0 (l.filterMap s.parseProto).length :=
  taken.ends rfl (by rw [records])

end

/-- Settles O33: CONFIRM status by status and verdict by verdict, then EXPORT and LOAD_SHADOW, each clause by its own lemma. -/
theorem confirmationsExportsAndLoadsComplete : Obligations.ConfirmationsExportsAndLoadsComplete := by
  unfold Obligations.ConfirmationsExportsAndLoadsComplete
  refine ⟨fun r i s x n v k taken stream verdict epoch => ⟨confirm_badDesc taken verdict, fun own low high => ?named⟩,
    fun r i s x kind taken named => ⟨export_badDesc taken named, export_busy taken named, fun recs k => export_opens taken named⟩,
    fun r i buf s x taken => ⟨loadShadow_badItems taken, fun l => loadShadow_ok taken⟩⟩
  have names : ConfirmNames s x n v k := ⟨stream, verdict, epoch, own, low, high⟩
  refine ⟨confirm_learnOff taken names, fun on learns => ⟨confirm_epochClosed taken names on learns, confirm_notHeld taken names on learns,
    fun h w before held mark => ?held⟩⟩
  have answers {a : State} {st : Nat} : s.confirmHeld x h n v k w = a.ends st 0 0 → LibEnds (.confirm r i) s r i a st 0 0 :=
    confirm_held taken names on learns before held mark
  exact ⟨fun again => answers (confirmHeld_duplicate again),
    fun fresh new full => answers (confirmHeld_poolFull fresh new full),
    fun fresh new room => answers (confirmHeld_new fresh new room),
    fun fresh background => answers (confirmHeld_background fresh background),
    fun fresh entry missing => answers ((confirmHeld_entry fresh entry).trans (confirmEntry_none missing)),
    fun b c fresh entry at_ gone => answers ((confirmHeld_entry fresh entry).trans (confirmEntry_gone at_ gone)),
    fun b c q fresh entry at_ used sound alive learning kept =>
      answers ((confirmHeld_entry fresh entry).trans (confirmEntry_applied at_ used sound alive learning kept))⟩

end Sys2Proof.Machine
end

section
/-! PROOFS.  Host memory, HBM and SRAM after a write, and their canonical form (13_host_rings R417, R443; 04_gallery_fabric R147;
05_flint_instructions R165). -/

namespace Sys2Proof.Machine

/-! ### HBM (R443) -/

/-- The pages of a range hold its bytes. -/
theorem mem_pagesOf {a n x : Nat} (low : a ≤ x) (high : x < a + n) : x / 4096 ∈ pagesOf a n := by
  unfold pagesOf
  rw [if_neg (by omega), List.mem_map]
  exact ⟨x / 4096 - a / 4096, List.mem_range.2 (by omega), by omega⟩

/-- The pages of a range that nothing has written. -/
def State.freshPages (s : State) (a n : Nat) : List Nat := (pagesOf a n).filter (fun p => !tget (fun _ => false) s.hbmPages p)

theorem mem_freshPages {s : State} {a n p : Nat} :
    p ∈ s.freshPages a n ↔ p ∈ pagesOf a n ∧ tget (fun _ => false) s.hbmPages p = false := by
  simp [State.freshPages]

theorem tget_foldl_mark (l : List Nat) (p : Nat) : ∀ m : List (Nat × Bool),
    tget (fun _ => false) (l.foldl (fun m q => tset (fun _ => false) m q true) m) p = (decide (p ∈ l) || tget (fun _ => false) m p) := by
  induction l with
  | nil => exact fun m => rfl
  | cons q l ih =>
    intro m
    rw [List.foldl_cons, ih, tget_tset]
    by_cases here : p = q <;> simp [here]

/-- A write marks the pages it writes for the first time. -/
theorem tget_hbmPages_hbmWrite (s : State) (a : Nat) (bs : List Byte) (p : Nat) : tget (fun _ => false) (s.hbmWrite a bs).hbmPages p =
    (decide (p ∈ s.freshPages a bs.length) || tget (fun _ => false) s.hbmPages p) := tget_foldl_mark _ _ _

theorem hbmByte_hbmWrite_inside {s : State} {a : Nat} {bs : List Byte} {x : Nat} (low : a ≤ x) (high : x < a + bs.length) :
    (s.hbmWrite a bs).hbmByte x = bs.getD (x - a) 0 := by
  have marked : tget (fun _ => false) (s.hbmWrite a bs).hbmPages (x / 4096) = true := by
    rw [tget_hbmPages_hbmWrite, Bool.or_eq_true, decide_eq_true_eq, mem_freshPages]
    cases tget (fun _ => false) s.hbmPages (x / 4096)
    · exact .inl ⟨mem_pagesOf low high, rfl⟩
    · exact .inr rfl
  obtain ⟨j, rfl⟩ := Nat.exists_eq_add_of_le low
  rw [Nat.add_sub_cancel_left]
  unfold State.hbmByte
  rw [if_pos marked]
  exact tget_foldl_bytes _ _ _ _ (by omega)

/-- A byte outside the range stands: in a page written for the first time it is zero, as it read before. -/
theorem hbmByte_hbmWrite_outside (s : State) {a : Nat} {bs : List Byte} {x : Nat} (outside : x < a ∨ a + bs.length ≤ x) :
    (s.hbmWrite a bs).hbmByte x = s.hbmByte x := by
  have kept : tget (fun _ => 0#8) (s.hbmWrite a bs).hbm x = if (s.freshPages a bs.length).contains (x / 4096) then 0#8 else tget (fun _ => 0#8) s.hbm x :=
    (tget_foldl_ne _ (fun i => a + i) (fun i => bs.getD i 0) x _ _ (fun i hi => by have := List.mem_range.1 hi; omega)).trans
      (tget_filter (fun _ => 0#8) (fun y => (s.freshPages a bs.length).contains (y / 4096)) s.hbm x)
  unfold State.hbmByte
  rw [tget_hbmPages_hbmWrite, kept]
  by_cases fresh : x / 4096 ∈ s.freshPages a bs.length
  · simp [fresh, (mem_freshPages.1 fresh).2]
  · simp [fresh]

theorem hbmByte_hbmWrite (s : State) (a : Nat) (bs : List Byte) (x : Nat) :
    (s.hbmWrite a bs).hbmByte x = if a ≤ x ∧ x < a + bs.length then bs.getD (x - a) 0 else s.hbmByte x := by
  split
  case isTrue inside => exact hbmByte_hbmWrite_inside inside.1 inside.2
  case isFalse outside => exact hbmByte_hbmWrite_outside s (by omega)

/-- Settles O36: what a read gives after a write in each of the three memories, and the canonical form each write keeps. -/
theorem memoriesReadBackAndKeepTheirForm : Obligations.MemoriesReadBackAndKeepTheirForm := by
  unfold Obligations.MemoriesReadBackAndKeepTheirForm
  exact ⟨State.hostByte_hostWrite, byte_store, hbmByte_hbmWrite, fun s x unwritten => if_neg (by simp [unwritten]),
    fun s a bs wf => ⟨Memory.wf_hostWrite a bs wf, Memory.wf_hbmWrite a bs wf⟩,
    fun s c k a bs wf sound => Memory.wf_setCore c _ wf (CoreSt.memWf_store a bs sound), fun s a v wf => Memory.wf_setReg a v wf, Memory.wf_reset⟩

end Sys2Proof.Machine
end

section
/-! PROOFS.  Completions of a ring's descriptors: the eight bytes, the status line, DEV_INDEX, messages and counts (13_host_rings R416, R417,
R422, R426, R427, R431; Tables HOST-2, HOST-4). -/

namespace Sys2Proof.Machine

theorem hostByte_of_hostMem {s t : State} (same : t.hostMem = s.hostMem) (x : Nat) : t.hostByte x = s.hostByte x := congrArg (cellGet · x) same

theorem OnlyRegs.hostByte {s t : State} {l : List Nat} (h : OnlyRegs s t l) (x : Nat) : t.hostByte x = s.hostByte x :=
  hostByte_of_hostMem (by rw [h.1]) x

theorem OnlyRegs.ring {s t : State} {l : List Nat} (h : OnlyRegs s t l) (r : Nat) : t.ring r = s.ring r := by
  rw [h.1]
  rfl

/-! ### MSI-X messages (R416, R427) -/

@[simp] theorem hostMem_sendMsi (s : State) (v : Nat) : (s.sendMsi v).hostMem = s.hostMem := by
  unfold State.sendMsi
  split <;> rfl

@[simp] theorem ring_sendMsi (s : State) (v r : Nat) : (s.sendMsi v).ring r = s.ring r := by
  unfold State.sendMsi
  split <;> rfl

/-- A message changes no register below the pending bits of the vectors. -/
theorem reg_sendMsi (s : State) (v : Nat) {a : Nat} (low : a < 0x109000) : (s.sendMsi v).reg a = s.reg a := by
  unfold State.sendMsi
  split
  · exact State.reg_setRegBit_ne _ _ _ _ (by omega)
  · rfl

@[simp] theorem hostMem_covered (s : State) (r n : Nat) : (s.covered r n).hostMem = s.hostMem := by
  unfold State.covered
  dsimp only
  split
  · rfl
  · split
    · exact hostMem_sendMsi _ _
    · rfl

theorem reg_covered (s : State) (r n : Nat) {a : Nat} (low : a < 0x109000) : (s.covered r n).reg a = s.reg a := by
  unfold State.covered
  dsimp only
  split
  · rfl
  · split
    · exact reg_sendMsi _ _ low
    · rfl

theorem taken_covered (s : State) (r n : Nat) : ((s.covered r n).ring r).taken = (s.ring r).taken := by
  unfold State.covered
  dsimp only
  split
  · rfl
  · split
    · rw [ring_sendMsi, ring_setRing]
    · rw [ring_setRing]

/-! ### The status line and DEV_INDEX (R417, R426) -/

/-- The host address of a ring's status line (Table HOST-2). -/
def State.lineAddr (s : State) (r : Nat) : Nat := s.get64 R.HOST_SP_LO / 4096 * 4096 + 64 * r

theorem hostByte_statusLine (s : State) (r x : Nat) : (s.statusLine r).hostByte x =
    if s.lineAddr r ≤ x ∧ x < s.lineAddr r + 8 then some ((bytesLE 4 (s.devIndex r) ++ bytesLE 4 (s.ringState r)).getD (x - s.lineAddr r) 0)
    else s.hostByte x := by
  refine (State.hostByte_hostWrite s _ _ x).trans ?_
  rw [List.length_append, bytesLE_length, bytesLE_length]
  rfl

/-- No register of a ring lies where the address of the status lines is held. -/
theorem lineAddr_setFld (s : State) (f : Fld) (v r : Nat) (ringReg : 0x101000 ≤ f.addr) : (s.setFld f v).lineAddr r = s.lineAddr r := by
  unfold State.lineAddr State.setFld
  rw [State.get64_setReg_ne _ _ _ _ (show 0x100010 ≠ f.addr by omega) (show 0x100014 ≠ f.addr by omega)]

/-- Advancing DEV_INDEX writes the ring's status line and no other byte of host memory. -/
theorem hostByte_devAdvance (s : State) {r x : Nat} (n : Nat) (outside : x < s.lineAddr r ∨ s.lineAddr r + 8 ≤ x) :
    (s.devAdvance r n).hostByte x = s.hostByte x := by
  unfold State.devAdvance
  dsimp only
  rw [hostByte_of_hostMem (hostMem_covered _ _ _), hostByte_statusLine, lineAddr_setFld _ _ _ _ (show 0x101000 ≤ 0x101014 + 0x40 * r by omega), if_neg (by omega)]
  rfl

theorem taken_devAdvance (s : State) (r n : Nat) : ((s.devAdvance r n).ring r).taken = (s.ring r).taken := taken_covered _ _ _

/-- A sum of ring indices is a ring index (R418). -/
theorem idxAdd_lt (i n : Nat) : idxAdd i n < 2 ^ 32 := Nat.mod_lt _ (Nat.two_pow_pos 32)

theorem devIndex_lt (s : State) (r : Nat) : s.devIndex r < 2 ^ 32 := s.fld_lt _

theorem devIndex_devAdvance (s : State) {r : Nat} (n : Nat) (ring : r < 64) : (s.devAdvance r n).devIndex r = idxAdd (s.devIndex r) n := by
  unfold State.devAdvance State.devIndex
  dsimp only
  rw [fld_of_reg (reg_covered _ _ _ (show 0x101014 + 0x40 * r < 0x109000 by omega)), State.fld_statusLine, State.fld_setFld_same _ (F.HOST_RING_DEV_INDEX r) _ (Nat.le_refl 32)]
  exact Nat.mod_eq_of_lt (idxAdd_lt _ _)

/-- DEV_INDEX advanced over the completed indices that follow on from it, if there are any (R422). -/
def State.advance (s : State) (r n : Nat) : State := if n = 0 then s else s.devAdvance r n

theorem hostByte_advance (s : State) {r x : Nat} (n : Nat) (outside : x < s.lineAddr r ∨ s.lineAddr r + 8 ≤ x) :
    (s.advance r n).hostByte x = s.hostByte x := by
  unfold State.advance
  split
  · rfl
  · exact hostByte_devAdvance s n outside

theorem taken_advance (s : State) (r n : Nat) : ((s.advance r n).ring r).taken = (s.ring r).taken := by
  unfold State.advance
  split
  · rfl
  · exact taken_devAdvance s r n

theorem devIndex_advance (s : State) {r : Nat} (n : Nat) (ring : r < 64) : (s.advance r n).devIndex r = idxAdd (s.devIndex r) n := by
  unfold State.advance
  split
  case isTrue none =>
    subst none
    exact (Nat.mod_eq_of_lt (devIndex_lt s r)).symm
  case isFalse => exact devIndex_devAdvance s n ring

/-! ### A completion in a ring that is not DISABLED (R422) -/

/-- Bytes 56 to 63 of a completed descriptor (Table HOST-4). -/
def completionBytes (st cf aux res : Nat) : List Byte := bytesLE 1 st ++ bytesLE 1 (cf ||| 1) ++ bytesLE 2 aux ++ bytesLE 4 res

theorem length_completionBytes (st cf aux res : Nat) : (completionBytes st cf aux res).length = 8 := by
  simp only [completionBytes, List.length_append, bytesLE_length]

/-- How many completed indices follow on from DEV_INDEX once index `i` is one of them. -/
def State.leading (s : State) (r i : Nat) : Nat := runFrom (i :: (s.ring r).doneIdx) ((s.ring r).doneIdx.length + 1) (s.devIndex r)

/-- A descriptor's completion is written and its index moves from the taken to the completed ones, but for those DEV_INDEX is to cover. -/
def State.endSlot (s : State) (r i : Nat) (bytes : List Byte) : State :=
  (s.hostWrite (s.slotAddr r i + 56) bytes).setRing r { s.ring r with
    taken := (s.ring r).taken.filter (fun e => e.1 != i), begun := (s.ring r).begun.filter (· != i)
    doneIdx := (i :: (s.ring r).doneIdx).filter (fun j => !(idxSub j (s.devIndex r) < s.leading r i)) }

/-- A completion's status and flags are counted (R428, R430, Table HOST-4). -/
def State.countEnd (s : State) (r st cf : Nat) : State :=
  let a := if st = stFLUSHED then s.bump (F.HOST_RING_FLUSHED_COUNT r) 1 else if st = stCANCELLED then s.bump (F.HOST_RING_CANCELLED_COUNT r) 1 else s
  if cf.testBit 1 then a.bump F.HOST_UNINIT_COUNT 1 else a

theorem onlyRegs_countEnd (s : State) (r st cf : Nat) :
    OnlyRegs s (s.countEnd r st cf) [R.HOST_RING_FLUSHED r, R.HOST_RING_CANCELLED r, R.HOST_UNINIT] := by
  have status : OnlyRegs s (if st = stFLUSHED then s.bump (F.HOST_RING_FLUSHED_COUNT r) 1
      else if st = stCANCELLED then s.bump (F.HOST_RING_CANCELLED_COUNT r) 1 else s) [R.HOST_RING_FLUSHED r, R.HOST_RING_CANCELLED r, R.HOST_UNINIT] := by
    split
    · exact onlyRegs_setFld s _ _ (by simp)
    · split
      · exact onlyRegs_setFld s _ _ (by simp)
      · exact ⟨rfl, fun _ _ => rfl⟩
  unfold State.countEnd
  dsimp only
  split
  · exact status.trans (onlyRegs_setFld _ _ _ (by simp))
  · exact status

theorem devIndex_countEnd (s : State) (r st cf : Nat) : (s.countEnd r st cf).devIndex r = s.devIndex r :=
  fld_of_reg ((onlyRegs_countEnd s r st cf).2 _ (by
    have : R.HOST_RING_DEV r ≠ R.HOST_UNINIT := by
      show 0x101014 + 0x40 * r ≠ 0x100028
      omega
    simpa using this))

/-- A completion of a descriptor taken since its ring was enabled: the slot, then DEV_INDEX, then the counts. -/
theorem complete_open {s : State} {r i : Nat} (enabled : s.ringState r ≠ ringDISABLED) (own : i ∉ (s.ring r).orphans) (st cf aux res : Nat) :
    s.complete r i st cf aux res = ((s.endSlot r i (completionBytes st cf aux res)).advance r (s.leading r i)).countEnd r st cf := by
  unfold State.complete
  dsimp only
  rw [if_neg enabled, if_neg (by simpa using own)]
  rfl

theorem devIndex_endSlot (s : State) (r i : Nat) (bytes : List Byte) : (s.endSlot r i bytes).devIndex r = s.devIndex r :=
  State.fld_setRing _ _ _ _

theorem lineAddr_endSlot (s : State) (r i : Nat) (bytes : List Byte) : (s.endSlot r i bytes).lineAddr r = s.lineAddr r := rfl

theorem hostByte_endSlot (s : State) (r i : Nat) (bytes : List Byte) (x : Nat) : (s.endSlot r i bytes).hostByte x =
    if s.slotAddr r i + 56 ≤ x ∧ x < s.slotAddr r i + 56 + bytes.length then some (bytes.getD (x - (s.slotAddr r i + 56)) 0) else s.hostByte x :=
  (hostByte_of_hostMem (State.setRing_hostMem _ _ _) x).trans (s.hostByte_hostWrite _ _ _)

/-- Outside the ring's status line a completion leaves host memory as the writing of its eight bytes does. -/
theorem hostByte_complete {s : State} {r i x : Nat} (enabled : s.ringState r ≠ ringDISABLED) (own : i ∉ (s.ring r).orphans) (st cf aux res : Nat)
    (outside : x < s.lineAddr r ∨ s.lineAddr r + 8 ≤ x) : (s.complete r i st cf aux res).hostByte x =
    if s.slotAddr r i + 56 ≤ x ∧ x < s.slotAddr r i + 64 then some ((completionBytes st cf aux res).getD (x - (s.slotAddr r i + 56)) 0)
    else s.hostByte x := by
  rw [complete_open enabled own, (onlyRegs_countEnd _ _ _ _).hostByte, hostByte_advance _ _ (by rwa [lineAddr_endSlot]), hostByte_endSlot,
    length_completionBytes]

theorem taken_complete {s : State} {r i : Nat} (enabled : s.ringState r ≠ ringDISABLED) (own : i ∉ (s.ring r).orphans) (st cf aux res : Nat) :
    ((s.complete r i st cf aux res).ring r).taken = (s.ring r).taken.filter (fun e => e.1 != i) := by
  rw [complete_open enabled own, (onlyRegs_countEnd _ _ _ _).ring, taken_advance]
  unfold State.endSlot
  rw [ring_setRing]

theorem devIndex_complete {s : State} {r i : Nat} (ring : r < 64) (enabled : s.ringState r ≠ ringDISABLED) (own : i ∉ (s.ring r).orphans)
    (st cf aux res : Nat) : (s.complete r i st cf aux res).devIndex r = idxAdd (s.devIndex r) (s.leading r i) := by
  rw [complete_open enabled own, devIndex_countEnd, devIndex_advance _ _ ring, devIndex_endSlot]

/-! ### A completion that is discarded (R431) -/

/-- In a DISABLED ring, or of a descriptor taken before the ring was enabled anew, a completion changes its ring's hidden state and is counted. -/
theorem complete_discarded {s : State} {r i : Nat} (gone : s.ringState r = ringDISABLED ∨ i ∈ (s.ring r).orphans) (st cf aux res : Nat) :
    ∃ q : RingSt, s.complete r i st cf aux res = (s.setRing r q).bump (F.HOST_RING_FLUSHED_COUNT r) 1 := by
  unfold State.complete
  dsimp only
  by_cases disabled : s.ringState r = ringDISABLED
  · exact ⟨_, if_pos disabled⟩
  · exact ⟨_, (if_neg disabled).trans (if_pos (by simpa using gone.resolve_left disabled))⟩

/-- Settles O35: a completion's bytes, its frame, the taken descriptors and DEV_INDEX, then the completion that is discarded. -/
theorem completionsWriteTheirEightBytes : Obligations.CompletionsWriteTheirEightBytes := by
  unfold Obligations.CompletionsWriteTheirEightBytes
  refine ⟨fun s r i st cf aux res ring enabled own => ⟨fun k inside apart => ?bytes, fun x outside apart => ?frame,
    taken_complete enabled own st cf aux res, devIndex_complete ring enabled own st cf aux res⟩, fun s r i st cf aux res gone => ?discarded⟩
  case bytes =>
    rw [hostByte_complete enabled own st cf aux res (by unfold State.lineAddr; omega), if_pos (by omega), Nat.add_sub_cancel_left]
    rfl
  case frame =>
    rw [hostByte_complete enabled own st cf aux res apart, if_neg (by omega)]
  case discarded =>
    obtain ⟨q, ends⟩ := complete_discarded gone st cf aux res
    rw [ends]
    exact ⟨rfl, State.fld_bump_same _ _ _ (Nat.le_refl 32)⟩

end Sys2Proof.Machine
end

section
/-! PROOFS.  Ring commands, doorbells and CANCEL (13_host_rings R419, R420, R422, R424, R425, R428 to R430, R432, Table HOST-9;
15_power_health R481). -/

namespace Sys2Proof.Machine

section

variable {s : State} {r : Ring}

/-! ### ENABLE (R425, R429) -/

theorem exec_ringEnable_refused (reached : Reached s 1) (on : s.ringState r.toNat ≠ ringDISABLED) (cfg : Word) (h : Option Word) :
    exec (.ringEnable r cfg h) s = .next (s.alarm F.HOST_ALARM_CMD_REFUSED r.toNat) := (gate_reached s reached _).trans (if_pos on)

theorem exec_ringEnable (reached : Reached s 1) (off : s.ringState r.toNat = ringDISABLED) (cfg : Word) (h : Option Word) :
    exec (.ringEnable r cfg h) s =
      .next ((s.setReg (R.HOST_RING_CFG r.toNat) (cfg &&& 0x7FFFBF00#32)).enableRing r.toNat (h.map (fun h => h.toNat))) :=
  (gate_reached s reached _).trans (if_neg (by simp [off]))

theorem onlyAlarm_cmdRefused (s : State) (u : Nat) : OnlyAlarm s (s.alarm F.HOST_ALARM_CMD_REFUSED u) F.HOST_ALARM_CMD_REFUSED :=
  onlyAlarm s _ u rfl (by decide) (by decide) (by decide)

theorem enableRing_invalid {r : Nat} (invalid : s.ringValid r = false) (h : Option Nat) :
    s.enableRing r h = s.alarm F.HOST_ALARM_CMD_REFUSED r := if_pos (by simp [invalid])

/-- Ring `r` emptied and enabled with both indices at `h`, before its state changes; what it had begun is orphaned (R431). -/
def State.emptyRing (s : State) (r h : Nat) : State :=
  ((((s.bump (F.HOST_RING_FLUSHED_COUNT r) ((s.ring r).taken.length - (s.ring r).begun.length)).setRing r { s.ring r with
      taken := [], begun := [], orphans := (s.ring r).orphans ++ (s.ring r).begun, doneIdx := [], next := h, marks := [], irqCount := 0, irqAt := 0 }
    |>.setBit (F.HOST_RING_CFG_EN r) true).setFld (F.HOST_RING_DEV_INDEX r) h).setFld (F.HOST_RING_HOST_INDEX r) h)

theorem ring_emptyRing_same (s : State) (r h : Nat) :
    ((s.emptyRing r h).ring r).next = h ∧ ((s.emptyRing r h).ring r).taken = [] ∧ ((s.emptyRing r h).ring r).marks = [] := by
  unfold State.emptyRing
  simp

theorem ring_emptyRing_ne (s : State) {r q : Nat} (h : Nat) (other : q ≠ r) : (s.emptyRing r h).ring q = s.ring q := by
  unfold State.emptyRing
  simp [State.ring_setRing_ne _ _ other]

theorem hostIndex_emptyRing (s : State) {r h : Nat} (small : h < 2 ^ 32) : (s.emptyRing r h).hostIndex r = h :=
  (State.fld_setFld_same _ (F.HOST_RING_HOST_INDEX r) _ (Nat.le_refl 32)).trans (Nat.mod_eq_of_lt small)

theorem devIndex_emptyRing (s : State) {r h : Nat} (small : h < 2 ^ 32) : (s.emptyRing r h).devIndex r = h := by
  unfold State.emptyRing State.devIndex
  rw [State.fld_setFld_other _ _ _ _ (.inl (by simp)), State.fld_setFld_same _ (F.HOST_RING_DEV_INDEX r) _ (Nat.le_refl 32)]
  exact Nat.mod_eq_of_lt small

/-- A submission ring whose HOST_INDEX has been read passes INIT at once. -/
theorem enableRing_submission {r : Nat} (valid : s.ringValid r = true) (submission : isSubmission (s.ringType r) = true) (h : Nat) :
    s.enableRing r (some h) = ((s.emptyRing r h).setRingState r ringINIT).setRingState r ringACTIVE := by
  unfold State.enableRing
  dsimp only
  rw [valid, submission, if_neg (by decide), if_neg (by decide), if_neg (by simp), if_pos rfl]
  rfl

/-- A record ring starts at index 0 and waits in INIT. -/
theorem enableRing_record {r : Nat} (valid : s.ringValid r = true) (record : isSubmission (s.ringType r) = false) (h : Option Nat) :
    s.enableRing r h = (s.emptyRing r 0).setRingState r ringINIT := by
  unfold State.enableRing
  dsimp only
  rw [valid, record, if_neg (by decide), if_pos (by decide), if_neg (by decide)]
  rfl

theorem devIndex_setRingState (s : State) (r st : Nat) : (s.setRingState r st).devIndex r = s.devIndex r :=
  setRingState_fld s r st _ (by simp)

theorem hostIndex_setRingState (s : State) (r st : Nat) : (s.setRingState r st).hostIndex r = s.hostIndex r :=
  setRingState_fld s r st _ (by simp)

/-! ### The zero fill and the status line (R417, R425) -/

theorem exec_ringZeroFillDone_ignored (no : s.ringState r.toNat ≠ ringINIT ∨ isSubmission (s.ringType r.toNat) = true) (ok : Bool) :
    exec (.ringZeroFillDone r ok) s = .next s := if_pos (by simpa using no)

theorem exec_ringZeroFillDone (init : s.ringState r.toNat = ringINIT) (record : isSubmission (s.ringType r.toNat) = false) (ok : Bool) :
    exec (.ringZeroFillDone r ok) s = if !ok then .next (s.ringError r.toNat) else
      .next ((s.hostWrite (s.get64 (R.HOST_RING_BASE_LO r.toNat)) (List.replicate (64 * s.ringSize r.toNat) 0)).setRingState r.toNat ringACTIVE) :=
  if_neg (by simp [init, record])

/-- Bytes 4 to 7 of a ring's status line show the state it changes to. -/
theorem hostByte_setRingState (s : State) {r st x : Nat} (code : st < 8) (link : s.linkUp = true) (state : x < 4) :
    (s.setRingState r st).hostByte (s.lineAddr r + 4 + x) = some ((bytesLE 4 st).getD x 0) := by
  have linked : (s.setFld (F.HOST_RING_STATUS_STATE r) st).linkUp = true :=
    (State.bit_setFld_other _ _ _ _ (.inl (show 0x100000 ≠ 0x101010 + 0x40 * r by omega))).trans link
  have shown : (s.setFld (F.HOST_RING_STATUS_STATE r) st).ringState r = st :=
    (State.fld_setFld_same _ (F.HOST_RING_STATUS_STATE r) _ (Nat.le_refl 32)).trans (Nat.mod_eq_of_lt code)
  unfold State.setRingState
  dsimp only
  rw [if_pos linked, hostByte_statusLine, lineAddr_setFld _ _ _ _ (show 0x101000 ≤ 0x101010 + 0x40 * r by omega), if_pos (by omega), shown,
    List.getD_append_right _ _ _ _ (by rw [bytesLE_length]; omega), bytesLE_length, show s.lineAddr r + 4 + x - s.lineAddr r - 4 = x by omega]

/-! ### DISABLE and STOPPED (R429, R430) -/

theorem exec_ringDisable (reached : Reached s 1) (on : s.ringState r.toNat = ringACTIVE ∨ s.ringState r.toNat = ringERROR) :
    exec (.ringDisable r) s = .next (s.disableRing r.toNat) := (gate_reached s reached _).trans (if_pos (by simpa using on))

theorem exec_ringDisable_refused (reached : Reached s 1) (active : s.ringState r.toNat ≠ ringACTIVE) (error : s.ringState r.toNat ≠ ringERROR) :
    exec (.ringDisable r) s = .next (s.alarm F.HOST_ALARM_CMD_REFUSED r.toNat) :=
  (gate_reached s reached _).trans (if_neg (by simp [active, error]))

theorem exec_ringStopped_ignored (no : s.ringState r.toNat ≠ ringSTOPPING ∨ (s.ring r.toNat).taken ≠ []) :
    exec (.ringStopped r) s = .next s := if_pos (by simpa using no)

theorem exec_ringStopped (stopping : s.ringState r.toNat = ringSTOPPING) (idle : (s.ring r.toNat).taken = []) : exec (.ringStopped r) s =
    .next ((s.setRing r.toNat { s.ring r.toNat with marks := [] }).setRingState r.toNat ringDISABLED) :=
  if_neg (by simp [stopping, idle])

/-! ### Doorbells (R419, R420, R481) -/

variable {d : Doorbell}

theorem exec_kick_dead (no : s.alive = false ∨ s.linkUp = false) : exec (.kick d) s = .next s := if_pos (by simpa using no)

theorem exec_kick (live : s.alive = true) (link : s.linkUp = true) :
    exec (.kick d) s = .next (if s.asleep = true then s.bump F.POWER_ASLEEP_ACCESS_COUNT 1 else s.readDoorbell d) :=
  (if_neg (by simp [live, link])).trans (apply_ite Host.Outcome.next _ _ _).symm

theorem exec_doorbellPoll_idle (l : List Doorbell) (no : s.alive = false ∨ s.linkUp = false ∨ s.asleep = true ∨ s.fld F.HOST_POLL_US = 0 ∨
    s.now < s.host.polledAt + s.pollEvery) : exec (.doorbellPoll l) s = .next s := if_pos (by simpa [or_assoc] using no)

theorem exec_doorbellPoll_one (live : s.alive = true) (link : s.linkUp = true) (awake : s.asleep = false) (polls : s.fld F.HOST_POLL_US ≠ 0)
    (due : s.host.polledAt + s.pollEvery ≤ s.now) : exec (.doorbellPoll [d]) s =
    .next (if s.ringState d.ring.toNat = ringACTIVE ∨ s.ringState d.ring.toNat = ringSTOPPING
      then State.readDoorbell { s with host := { s.host with polledAt := s.now } } d else { s with host := { s.host with polledAt := s.now } }) := by
  refine (if_neg (by simpa [live, link, awake, polls] using due)).trans (congrArg Host.Outcome.next ?_)
  rw [List.foldl_cons, List.foldl_nil]
  simp only [Bool.or_eq_true, decide_eq_true_eq]
  rfl

theorem readDoorbell_failed (failed : d.host = none) : s.readDoorbell d = s.ringError d.ring.toNat := by
  unfold State.readDoorbell
  rw [failed]

theorem readDoorbell_some {h : Word} (read : d.host = some h) : s.readDoorbell d =
    if isSubmission (s.ringType d.ring.toNat) = true then (s.setFld (F.HOST_RING_HOST_INDEX d.ring.toNat) h.toNat).takeDescs d.ring.toNat d.descs
    else s.setFld (F.HOST_RING_HOST_INDEX d.ring.toNat) h.toNat := by
  unfold State.readDoorbell
  rw [read]

/-! ### Taking descriptors (R422, R424, R428) -/

theorem takeDescs_stops {r : Nat} (no : (s.ring r).next = s.hostIndex r ∨ s.mayTake r = false) (d : Option Slot) (l : List (Option Slot)) :
    s.takeDescs r (d :: l) = s := if_pos (by simpa using no)

/-- What taking the next descriptor comes to: a mark completes it CANCELLED without a look at it. -/
theorem takeDescs_marked {r : Nat} (released : (s.ring r).next ≠ s.hostIndex r) (may : s.mayTake r = true)
    (mark : marked (s.ring r).marks (s.ring r).next = true) (d : Option Slot) (l : List (Option Slot)) : s.takeDescs r (d :: l) =
    ((s.setRing r { s.ring r with next := idxAdd (s.ring r).next 1, marks := unmark (s.ring r).marks (s.ring r).next }).complete r (s.ring r).next
      stCANCELLED 0 0 0).takeDescs r l :=
  (if_neg (by simp [released, may])).trans (if_pos mark)

theorem takeDescs_unmarked {r : Nat} (released : (s.ring r).next ≠ s.hostIndex r) (may : s.mayTake r = true)
    (clear : marked (s.ring r).marks (s.ring r).next = false) (w : Slot) (l : List (Option Slot)) {a : State}
    (taken : a = s.setRing r { s.ring r with next := idxAdd (s.ring r).next 1, taken := (s.ring r).taken ++ [((s.ring r).next, w)] }) :
    s.takeDescs r (some w :: l) =
      (if opListed (s.ringType r) (slotField w 0 1) = true then a else a.complete r (s.ring r).next stBAD_DESC 0 0 0).takeDescs r l := by
  subst taken
  exact (if_neg (by simp [released, may])).trans (if_neg (by simp [clear]))

/-! ### CANCEL (R420, R428) -/

variable {v : Word64}

theorem exec_cancel_bad (live : s.alive = true) (link : s.linkUp = true) (awake : s.asleep = false)
    (bad : v.toNat / 2 ^ 48 ≠ 0 ∨ isSubmission (s.ringType r.toNat) = false ∨ s.ringState r.toNat ≠ ringACTIVE) :
    exec (.cancel r v) s = .next s.accessError :=
  (if_neg (by simp [live, link])).trans ((if_neg (by simp [awake])).trans (if_pos (by simpa [or_assoc] using bad)))

/-- An index lies no distance beyond itself. -/
theorem idxSub_self (c : Nat) : idxSub c c = 0 := by
  unfold idxSub
  omega

/-- CANCEL from the next index on marks every index it names. -/
theorem exec_cancel {c n : Nat} (live : s.alive = true) (link : s.linkUp = true) (awake : s.asleep = false) (zero : v.toNat / 2 ^ 48 = 0)
    (submission : isSubmission (s.ringType r.toNat) = true) (active : s.ringState r.toNat = ringACTIVE) (first : c = v.toNat % 2 ^ 32)
    (count : n = v.toNat / 2 ^ 32 % 65536) (some_ : n ≠ 0) (next : (s.ring r.toNat).next = c) : exec (.cancel r v) s =
    .next ((s.bump (F.HOST_RING_LATECANCEL_COUNT r.toNat) 0).setRing r.toNat { s.ring r.toNat with marks := (s.ring r.toNat).marks ++ [(c, n)] }) := by
  have index : c < 2 ^ 32 := first ▸ Nat.mod_lt _ (Nat.two_pow_pos 32)
  have named : (if v.toNat / 2 ^ 32 % 65536 = 0 then 65536 else v.toNat / 2 ^ 32 % 65536) = n := by
    rw [← count, if_neg some_]
  show execCancel r v s = _
  unfold execCancel
  dsimp only
  rw [if_neg (by simp [live, link]), if_neg (by simp [awake]), if_neg (by rw [zero]; simp [submission, active]), named, ← first, next, idxSub_self]
  simp only [Nat.lt_irrefl, decide_false, Bool.false_and, Bool.false_eq_true, if_false]
  rw [if_neg some_, Nat.sub_zero]
  unfold idxAdd
  rw [Nat.add_zero, Nat.mod_eq_of_lt index]

/-- An index lies as far beyond the first of a span as its place in it. -/
theorem idxSub_idxAdd {c j : Nat} (place : j < 2 ^ 32) : idxSub (idxAdd c j) c = j := by
  unfold idxSub idxAdd
  omega

/-- Beyond the index after place `i` lie the places after it; the others lie a whole turn further. -/
theorem idxSub_idxAdd_after {c i j : Nat} (mark : i < 2 ^ 16) (place : j < 2 ^ 16) :
    idxSub (idxAdd c j) (idxAdd (idxAdd c i) 1) = if i < j then j - i - 1 else 2 ^ 32 + j - i - 1 := by
  unfold idxSub idxAdd
  split <;> omega

/-- Clearing the mark at place `i` of a span leaves the marks before it and after it. -/
theorem marked_unmark {c n i j : Nat} (span : n ≤ 65536) (mark : i < n) (place : j < n) :
    marked (unmark [(c, n)] (idxAdd c i)) (idxAdd c j) = decide (j ≠ i) := by
  unfold unmark marked
  simp only [idxSub_idxAdd (show i < 2 ^ 32 by omega), if_pos mark, List.append_nil, List.any_filter, List.any_cons, List.any_nil, Bool.or_false,
    idxSub_idxAdd (show j < 2 ^ 32 by omega), idxSub_idxAdd_after (show i < 2 ^ 16 by omega) (show j < 2 ^ 16 by omega)]
  rw [Bool.eq_iff_iff]
  simp only [Bool.or_eq_true, Bool.and_eq_true, decide_eq_true_eq]
  split <;> omega

end

/-- Settles O37: the commands on a ring, then doorbells, the taking of descriptors and CANCEL, each by the lemmas of its command. -/
theorem ringsMoveThroughTheStatesOfTheirTable : Obligations.RingsMoveThroughTheStatesOfTheirTable := by
  unfold Obligations.RingsMoveThroughTheStatesOfTheirTable
  refine ⟨fun r cfg h s reached on => ⟨_, exec_ringEnable_refused reached on cfg h, onlyAlarm_cmdRefused s _⟩,
    fun r cfg h s reached off => exec_ringEnable reached off cfg h, fun s r h invalid => ?invalid,
    fun s r h ring small valid submission => ?submission, fun s r h ring valid record => ?record,
    fun r ok s no => exec_ringZeroFillDone_ignored no ok, fun r s init record => ⟨exec_ringZeroFillDone init record false, exec_ringZeroFillDone init record true⟩,
    fun s r st ring code => ⟨setRingState_state s r st code, fun link x => hostByte_setRingState s code link⟩,
    fun r s reached on => exec_ringDisable reached on,
    fun r s reached active error => ⟨_, exec_ringDisable_refused reached active error, onlyAlarm_cmdRefused s _⟩,
    fun s r record => if_neg (by simp [record]), fun r s no => exec_ringStopped_ignored no, fun r s stopping idle => ?stopped,
    fun d s no => exec_kick_dead no, fun d s live link => exec_kick live link, fun l s no => exec_doorbellPoll_idle l no,
    fun d s a live link awake polls due polled => ?poll, fun d s failed => readDoorbell_failed failed, fun d s h read => readDoorbell_some read,
    fun s r d l no => takeDescs_stops no d l, fun s r d l released may mark => takeDescs_marked released may mark d l,
    fun s r w l released may clear => takeDescs_unmarked released may clear w l rfl,
    fun r v s live link awake bad => exec_cancel_bad live link awake bad,
    fun r v s c n live link awake zero submission active first count some_ next =>
      ⟨_, exec_cancel live link awake zero submission active first count some_ next, ?marks⟩,
    fun c n i span index mark => ⟨?cleared, fun j place other => ?kept⟩⟩
  case invalid =>
    rw [enableRing_invalid invalid]
    exact onlyAlarm_cmdRefused s r
  case submission =>
    obtain ⟨next, taken, marks⟩ := ring_emptyRing_same s r h
    simp only [enableRing_submission valid submission, hostIndex_setRingState, devIndex_setRingState, setRingState_ring]
    exact ⟨setRingState_state _ r _ (by decide), hostIndex_emptyRing s small, devIndex_emptyRing s small, next, taken, marks,
      fun q other => ring_emptyRing_ne s h other⟩
  case record =>
    rw [enableRing_record valid record, devIndex_setRingState]
    exact ⟨setRingState_state _ r _ (by decide), devIndex_emptyRing s (by decide)⟩
  case stopped =>
    refine ⟨_, exec_ringStopped stopping idle, setRingState_state _ _ _ (by decide), ?_⟩
    rw [setRingState_ring, ring_setRing]
  case poll =>
    subst polled
    exact exec_doorbellPoll_one live link awake polls due
  case marks =>
    dsimp only
    rw [ring_setRing]
  case cleared =>
    rw [marked_unmark span mark mark]
    simp
  case kept =>
    rw [marked_unmark span mark place]
    simpa using other

end Sys2Proof.Machine
end

section
/-! PROOFS.  Host queries, buffers for output, the IRQ timer and the draining of backlogs (13_host_rings R416, R427, R432, R434, R436, R438; Tables
HOST-5, HOST-7; 09_associative_search R302). -/

namespace Sys2Proof.Machine

section

variable {s : State} {r : Ring} {i : Word} {d : Slot}

/-! ### SEARCH and MATRIX (R434, Table HOST-7) -/

/-- The request of a SEARCH descriptor, with the key read into `buf`. -/
def State.searchRequest (s : State) (r i : Nat) (d : Slot) (buf : List Byte) : Request :=
  { kind := .host r i, stream := slotField d 4 2, start := slotField d 24 8, startTs := s.tickStart (slotField d 24 8),
    key := BitVec.ofNat 32768 (sliceLE buf 0 (s.dim / 8)), present := 2 ^ (s.dim / 256) - 1,
    mask := slotField d 16 2, k := slotField d 18 1, q := slotField d 19 1 % 16, append := hasBit (slotField d 19 1) 4,
    ring := s.fld (F.HOST_RING_CFG_RESULT_RING r), hostTag := slotField d 4 4 }

/-- What a taken SEARCH descriptor comes to: the first status that holds, a wait while RECALL is full, or its request in RECALL. -/
theorem exec_search (taken : s.takenDesc r.toNat i.toNat 1 = some d) (safe : s.fatal = false) (op : slotField d 0 1 = 1) (buf : List Byte) (ok : Bool) :
    exec (.search r i buf ok) s = .next (if queryReserved d = true ∨ 32 < slotField d 18 1 then s.complete r.toNat i.toNat stBAD_DESC 0 0 0
      else if s.sumpReady = false then s.complete r.toNat i.toNat stNOT_READY 0 0 0
      else if ok = false then s.dmaError.complete r.toNat i.toNat stDMA_ERR 0 0 0
      else if recallCap ≤ s.sump.recallQ.length then s
      else s.queueRecall r.toNat i.toNat (s.searchRequest r.toNat i.toNat d buf)) := by
  show execSearch r i buf ok s = _
  unfold execSearch
  dsimp only
  rw [taken]
  dsimp only
  rw [if_neg (by simp [safe, op])]
  simp only [Bool.or_eq_true, decide_eq_true_eq, Bool.not_eq_true', apply_ite Host.Outcome.next]
  rfl

section

variable {buf : List Byte} {ok : Bool} (taken : s.takenDesc r.toNat i.toNat 1 = some d) (safe : s.fatal = false) (op : slotField d 0 1 = 1)
include taken safe op

theorem search_badDesc (bad : queryReserved d = true ∨ 32 < slotField d 18 1) : LibEnds (.search r i buf ok) s r i s stBAD_DESC 0 0 := by
  unfold LibEnds
  rw [exec_search taken safe op, if_pos bad]

variable (good : queryReserved d = false) (few : slotField d 18 1 ≤ 32)
include good few

theorem search_notReady (asleep : s.sumpReady = false) : LibEnds (.search r i buf ok) s r i s stNOT_READY 0 0 := by
  unfold LibEnds
  rw [exec_search taken safe op, if_neg (by simp [good, few]), if_pos asleep]

variable (ready : s.sumpReady = true)
include ready

theorem search_dmaError (failed : ok = false) : LibEnds (.search r i buf ok) s r i s.dmaError stDMA_ERR 0 0 := by
  unfold LibEnds
  rw [exec_search taken safe op, if_neg (by simp [good, few]), if_neg (by simp [ready]), if_pos failed]

theorem search_waits (read : ok = true) (full : recallCap ≤ s.sump.recallQ.length) : exec (.search r i buf ok) s = .next s := by
  rw [exec_search taken safe op, if_neg (by simp [good, few]), if_neg (by simp [ready]), if_neg (by simp [read]), if_pos full]

theorem search_queued (read : ok = true) (room : s.sump.recallQ.length < recallCap) :
    exec (.search r i buf ok) s = .next (s.queueRecall r.toNat i.toNat (s.searchRequest r.toNat i.toNat d buf)) := by
  rw [exec_search taken safe op, if_neg (by simp [good, few]), if_neg (by simp [ready]), if_neg (by simp [read]), if_neg (Nat.not_le.2 room)]

end

/-- The request of a MATRIX descriptor, with the input read into `buf`. -/
def State.matrixRequest (s : State) (r i : Nat) (d : Slot) (buf : List Byte) : Request :=
  { kind := .matrix r i, stream := slotField d 4 2, start := slotField d 24 8, q := slotField d 19 1 % 16, matrix := slotField d 20 1,
    inkind := slotField d 21 1, rows := matrixInput (slotField d 21 1) (s.fld (F.SUMP_MTX_SHAPE_ROWS (slotField d 20 1))) buf,
    export_ := slotField d 22 1, ring := s.fld (F.HOST_RING_CFG_RESULT_RING r), hostTag := slotField d 4 4 }

theorem rows_matrixRequest (s : State) (r i : Nat) (d : Slot) (buf : List Byte) : (s.matrixRequest r i d buf).rows =
    matrixInput (slotField d 21 1) (s.fld (F.SUMP_MTX_SHAPE_ROWS (slotField d 20 1))) buf := by
  unfold State.matrixRequest
  dsimp only

/-- What a taken MATRIX descriptor comes to, as for SEARCH. -/
theorem exec_matrix (taken : s.takenDesc r.toNat i.toNat 1 = some d) (safe : s.fatal = false) (op : slotField d 0 1 = 2) (buf : List Byte) (ok : Bool) :
    exec (.matrix r i buf ok) s = .next (if queryReserved d = true ∨ 2 < slotField d 21 1 ∨ s.isExportRing (slotField d 22 1) = false
        then s.complete r.toNat i.toNat stBAD_DESC 0 0 0
      else if s.sumpReady = false then s.complete r.toNat i.toNat stNOT_READY 0 0 0
      else if s.bit (F.SUMP_MTX_VALID (slotField d 20 1)) = false then s.complete r.toNat i.toNat stREFUSED 0 0 0
      else if ok = false then s.dmaError.complete r.toNat i.toNat stDMA_ERR 0 0 0
      else if recallCap ≤ s.sump.recallQ.length then s
      else s.queueRecall r.toNat i.toNat (s.matrixRequest r.toNat i.toNat d buf)) := by
  show execMatrix r i buf ok s = _
  unfold execMatrix
  dsimp only
  rw [taken]
  dsimp only
  rw [if_neg (by simp [safe, op])]
  simp only [Bool.or_eq_true, or_assoc, decide_eq_true_eq, Bool.not_eq_true', apply_ite Host.Outcome.next]
  rfl

section

variable {buf : List Byte} {ok : Bool} (taken : s.takenDesc r.toNat i.toNat 1 = some d) (safe : s.fatal = false) (op : slotField d 0 1 = 2)
include taken safe op

theorem matrix_badDesc (bad : queryReserved d = true ∨ 2 < slotField d 21 1 ∨ s.isExportRing (slotField d 22 1) = false) :
    LibEnds (.matrix r i buf ok) s r i s stBAD_DESC 0 0 := by
  unfold LibEnds
  rw [exec_matrix taken safe op, if_pos bad]

variable (good : queryReserved d = false) (kind : slotField d 21 1 ≤ 2) (ring : s.isExportRing (slotField d 22 1) = true)
include good kind ring

theorem matrix_notReady (asleep : s.sumpReady = false) : LibEnds (.matrix r i buf ok) s r i s stNOT_READY 0 0 := by
  unfold LibEnds
  rw [exec_matrix taken safe op, if_neg (by simp [good, kind, ring]), if_pos asleep]

variable (ready : s.sumpReady = true)
include ready

/-- A matrix that is not defined is refused before its input is read. -/
theorem matrix_refused (undefined : s.bit (F.SUMP_MTX_VALID (slotField d 20 1)) = false) : LibEnds (.matrix r i buf ok) s r i s stREFUSED 0 0 := by
  unfold LibEnds
  rw [exec_matrix taken safe op, if_neg (by simp [good, kind, ring]), if_neg (by simp [ready]), if_pos undefined]

theorem matrix_queued (defined : s.bit (F.SUMP_MTX_VALID (slotField d 20 1)) = true) (read : ok = true) (room : s.sump.recallQ.length < recallCap) :
    exec (.matrix r i buf ok) s = .next (s.queueRecall r.toNat i.toNat (s.matrixRequest r.toNat i.toNat d buf)) := by
  rw [exec_matrix taken safe op, if_neg (by simp [good, kind, ring]), if_neg (by simp [ready]), if_neg (by simp [defined]), if_neg (by simp [read]),
    if_neg (Nat.not_le.2 room)]

end

/-! ### EXPORT_BUFFER (R436, Table HOST-6) -/

/-- A field of an EXPORT_BUFFER descriptor is outside its alignment, its length or its reserved zeros. -/
def exportBad (d : Slot) : Bool :=
  slotField d 1 3 ≠ 0 || slotField d 8 8 % 64 ≠ 0 || slotField d 16 4 % 64 ≠ 0 || slotField d 16 4 < 4096 || 16777216 < slotField d 16 4 || slotField d 20 36 ≠ 0

theorem exportBad_iff : exportBad d = true ↔ slotField d 1 3 ≠ 0 ∨ slotField d 8 8 % 64 ≠ 0 ∨ slotField d 16 4 % 64 ≠ 0 ∨ slotField d 16 4 < 4096 ∨
    16777216 < slotField d 16 4 ∨ slotField d 20 36 ≠ 0 := by
  simp [exportBad, or_assoc]

/-- The buffer of `d` takes the bytes `out` of request `q`, and its ring's waiting output then is `left`: the bytes and the tag are written, and the
descriptor completes, with `last` for the flag of a request's last part. -/
def State.writeBuffer (s : State) (r i : Nat) (d : Slot) (q : ExportReq) (left : List ExportReq) (out : List Byte) (last : Nat) : State :=
  (((s.setRing r { s.ring r with exports := left }).hostWrite (slotField d 8 8) out).hostWrite (s.slotAddr r i + 48)
    (bytesLE 4 q.tag ++ bytesLE 1 q.ring ++ bytesLE 3 0)).complete r i stOK
      ((if q.first then cfFIRST else 0) + last + (if q.uninit then cfUNINIT else 0)) 0 out.length

/-- What a good buffer, the oldest of its ring, comes to: it waits for output, cannot be written, or takes the last part or a part of the oldest
request. -/
def State.fillBuffer (s : State) (r i : Nat) (d : Slot) (ok : Bool) : State :=
  match (s.ring r).exports with
  | [] => s
  | q :: rest =>
    if ok = false then ((s.setRing r { s.ring r with exports := rest }).dmaError.complete r i stDMA_ERR 0 0 0).endExport { q with record := none } stDMA_ERR 0
    else if (q.bytes.drop (slotField d 16 4)).isEmpty && q.closed then
      (s.writeBuffer r i d q rest (q.bytes.take (slotField d 16 4)) cfLAST).endExport q q.status q.result
    else s.writeBuffer r i d q ({ q with bytes := q.bytes.drop (slotField d 16 4), first := false } :: rest) (q.bytes.take (slotField d 16 4)) 0

theorem exec_exportBuffer (taken : s.takenDesc r.toNat i.toNat 3 = some d) (safe : s.fatal = false)
    (oldest : (s.ring r.toNat).taken.head?.map Prod.fst = some i.toNat) (ok : Bool) :
    exec (.exportBuffer r i ok) s = .next (if exportBad d then s.complete r.toNat i.toNat stBAD_DESC 0 0 0 else s.fillBuffer r.toNat i.toNat d ok) := by
  show execExportBuffer r i ok s = _
  unfold execExportBuffer
  dsimp only
  rw [taken]
  dsimp only
  rw [if_neg (by simp [safe, oldest]), apply_ite Host.Outcome.next]
  refine if_congr (by unfold exportBad; exact Iff.rfl) rfl ?_
  unfold State.fillBuffer
  cases (s.ring r.toNat).exports with
  | nil => rfl
  | cons q rest =>
    dsimp only
    cases ok with
    | false => rw [if_pos rfl, if_pos (by rfl)]
    | true =>
      unfold State.writeBuffer
      cases (q.bytes.drop (slotField d 16 4)).isEmpty && q.closed <;> simp only [Bool.not_true, reduceCtorEq, if_true, if_false]

theorem exportBuffer_badDesc {ok : Bool} (taken : s.takenDesc r.toNat i.toNat 3 = some d) (safe : s.fatal = false)
    (oldest : (s.ring r.toNat).taken.head?.map Prod.fst = some i.toNat) (bad : slotField d 1 3 ≠ 0 ∨ slotField d 8 8 % 64 ≠ 0 ∨
      slotField d 16 4 % 64 ≠ 0 ∨ slotField d 16 4 < 4096 ∨ 16777216 < slotField d 16 4 ∨ slotField d 20 36 ≠ 0) :
    LibEnds (.exportBuffer r i ok) s r i s stBAD_DESC 0 0 := by
  unfold LibEnds
  rw [exec_exportBuffer taken safe oldest, if_pos (exportBad_iff.2 bad)]

theorem exportBuffer_fills (taken : s.takenDesc r.toNat i.toNat 3 = some d) (safe : s.fatal = false)
    (oldest : (s.ring r.toNat).taken.head?.map Prod.fst = some i.toNat) (good : exportBad d = false) (ok : Bool) :
    exec (.exportBuffer r i ok) s = .next (s.fillBuffer r.toNat i.toNat d ok) := by
  rw [exec_exportBuffer taken safe oldest, if_neg (by simp [good])]

theorem fillBuffer_none {n m : Nat} (empty : (s.ring n).exports = []) (ok : Bool) : s.fillBuffer n m d ok = s := by
  unfold State.fillBuffer
  rw [empty]

theorem fillBuffer_part {n m : Nat} {q : ExportReq} {rest : List ExportReq} (waiting : (s.ring n).exports = q :: rest)
    (more : slotField d 16 4 < q.bytes.length) : s.fillBuffer n m d true =
    s.writeBuffer n m d q ({ q with bytes := q.bytes.drop (slotField d 16 4), first := false } :: rest) (q.bytes.take (slotField d 16 4)) 0 := by
  unfold State.fillBuffer
  rw [waiting]
  exact (if_neg (by decide)).trans (if_neg (by simpa using fun fits : q.bytes.length ≤ _ => absurd more (Nat.not_lt.2 fits)))

theorem fillBuffer_last {n m : Nat} {q : ExportReq} {rest : List ExportReq} (waiting : (s.ring n).exports = q :: rest)
    (fits : q.bytes.length ≤ slotField d 16 4) (closed : q.closed = true) : s.fillBuffer n m d true =
    (s.writeBuffer n m d q rest q.bytes cfLAST).endExport q q.status q.result := by
  unfold State.fillBuffer
  rw [waiting]
  refine (if_neg (by decide)).trans ((if_pos (by simp [closed, fits])).trans ?_)
  rw [List.take_of_length_le fits]

/-! ### The IRQ timer and masked vectors (R416, R427) -/

theorem exec_irqTimer_idle (no : s.fld (F.HOST_RING_IRQ_TIME_US r.toNat) = 0 ∨ s.fld (F.HOST_RING_IRQ_COUNT r.toNat) = 0 ∨ (s.ring r.toNat).irqCount = 0 ∨
    s.now < (s.ring r.toNat).irqAt + 100 * s.fld (F.HOST_RING_IRQ_TIME_US r.toNat)) : exec (.irqTimer r) s = .next s :=
  if_pos (by simpa [or_assoc] using no)

theorem exec_irqTimer (timed : s.fld (F.HOST_RING_IRQ_TIME_US r.toNat) ≠ 0) (counted : s.fld (F.HOST_RING_IRQ_COUNT r.toNat) ≠ 0)
    (some_ : (s.ring r.toNat).irqCount ≠ 0) (due : (s.ring r.toNat).irqAt + 100 * s.fld (F.HOST_RING_IRQ_TIME_US r.toNat) ≤ s.now) :
    exec (.irqTimer r) s = .next ((s.setRing r.toNat { s.ring r.toNat with irqCount := 0 }).sendMsi (s.fld (F.HOST_RING_CFG_VECTOR r.toNat))) :=
  if_neg (by simpa [timed, counted, some_] using due)

theorem sendMsi_open {v : Nat} (clear : s.regBit (0x10800C + 16 * v) 0 = false) :
    s.sendMsi v = { s with host := { s.host with msix := v :: s.host.msix } } := if_neg (by simp [clear])

/-- A masked vector's message is not sent and becomes its pending bit. -/
theorem sendMsi_masked {v : Nat} (mask : s.regBit (0x10800C + 16 * v) 0 = true) :
    s.sendMsi v = s.setRegBit (0x109000 + 4 * (v / 32)) (v % 32) true := if_pos mask

/-! ### Backlogs (R438) -/

theorem exec_backlogDrain_idle (no : s.alive = false ∨ s.fatal = true ∨ s.asleep = true ∨ s.ringState r.toNat ≠ ringACTIVE ∨ s.ringType r.toNat ≠ 4 ∨
    s.ringRoom r.toNat = false) (ok : Bool) : exec (.backlogDrain r ok) s = .next s := if_pos (by simpa [or_assoc] using no)

/-- The result ring `n` takes records: it is ACTIVE with room, and the part runs. -/
structure Drains (s : State) (n : Nat) : Prop where
  live : s.alive = true
  safe : s.fatal = false
  awake : s.asleep = false
  active : s.ringState n = ringACTIVE
  result : s.ringType n = 4
  room : s.ringRoom n = true

theorem Drains.not_idle {n : Nat} (drains : Drains s n) :
    ¬(!s.alive || s.fatal || s.asleep || decide (s.ringState n ≠ ringACTIVE) || decide (s.ringType n ≠ 4) || !s.ringRoom n) = true := by
  obtain ⟨live, safe, awake, active, result, room⟩ := drains
  simp [live, safe, awake, active, result, room]

theorem exec_backlogDrain_failed (drains : Drains s r.toNat) :
    exec (.backlogDrain r false) s = .next (if (s.ring r.toNat).backlog = [] then s else s.ringError r.toNat) := by
  refine (if_neg drains.not_idle).trans ((if_pos rfl).trans (congrArg Host.Outcome.next ?_))
  simp only [List.isEmpty_iff]

theorem exec_backlogDrain (drains : Drains s r.toNat) : exec (.backlogDrain r true) s = .next
    ((s.enterRuns r.toNat (s.host.runs.length + 65536)).drainRing r.toNat ((s.enterRuns r.toNat (s.host.runs.length + 65536)).ringSize r.toNat)) :=
  (if_neg drains.not_idle).trans (if_neg (by decide))

theorem drainRing_next {n : Nat} {w : RingRec} {l : List RingRec} (room : s.ringRoom n = true) (waiting : (s.ring n).backlog = w :: l) (fuel : Nat) :
    s.drainRing n (fuel + 1) =
      (((s.setRing n { s.ring n with backlog := l }).putRec n w).enterRuns n s.host.runs.length).drainRing n fuel := by
  refine (if_neg (by simp [room])).trans ?_
  rw [waiting]

end

/-- Settles O38: queries and output buffers by what their descriptor comes to, then the timer, messages and backlogs. -/
theorem queriesExportsMessagesAndBacklogsRun : Obligations.QueriesExportsMessagesAndBacklogsRun := by
  unfold Obligations.QueriesExportsMessagesAndBacklogsRun
  refine ⟨fun r i buf ok s d taken safe op => ⟨search_badDesc taken safe op, search_notReady taken safe op, search_dmaError taken safe op,
      search_waits taken safe op, fun good few ready read room => ?search⟩,
    fun r i buf ok s d taken safe op => ⟨matrix_badDesc taken safe op, fun good kind ring => ⟨matrix_notReady taken safe op good kind ring,
      matrix_refused taken safe op good kind ring, fun ready defined read room => ?matrix⟩⟩,
    fun r i ok s d taken safe oldest => ⟨exportBuffer_badDesc taken safe oldest, fun z1 aligned whole low high z2 => ?buffer⟩,
    fun r s no => exec_irqTimer_idle no, fun r s timed counted some_ due => exec_irqTimer timed counted some_ due, fun s v clear => sendMsi_open clear,
    fun s v vector mask => ?masked, fun r ok s no => exec_backlogDrain_idle no ok,
    fun r s live safe awake active result room => exec_backlogDrain_failed ⟨live, safe, awake, active, result, room⟩,
    fun r s live safe awake active result room none => ?drain, fun s r n w l room waiting => drainRing_next room waiting n⟩
  case search => exact ⟨_, search_queued taken safe op good few ready read room, rfl, rfl, rfl, rfl, rfl, rfl, rfl, rfl⟩
  case matrix =>
    exact ⟨_, matrix_queued taken safe op good kind ring ready defined read room, rfl, rfl, rfl, rfl, rows_matrixRequest _ _ _ _ _⟩
  case buffer =>
    have good : exportBad d = false := by simp [exportBad, z1, aligned, whole, low, high, z2]
    have fills := exportBuffer_fills taken safe oldest good ok
    refine ⟨fun empty => ?_, fun q rest waiting more read => ?_, fun q rest waiting fits closed read => ?_⟩
    · rw [fills, fillBuffer_none empty]
    · rw [fills, read, fillBuffer_part waiting more]
      unfold State.writeBuffer
      rw [List.length_take_of_le more.le]
      rfl
    · rw [fills, read, fillBuffer_last waiting fits closed]
      rfl
  case masked =>
    rw [sendMsi_masked mask]
    exact ⟨State.regBit_setRegBit_same _ _ _ _ (Nat.mod_lt _ (by decide)), rfl⟩
  case drain =>
    refine ⟨_, exec_backlogDrain ⟨live, safe, awake, active, result, room⟩, _, rfl, ?_⟩
    rw [none, List.length_nil, Nat.zero_add]

end Sys2Proof.Machine
end

section
/-! PROOFS.  The key store under every command and every step (14_lantern_mailboxes_updates R466). -/

namespace Sys2Proof.Machine

/-! ### The commands that the key store's laws do not name yet: frames of the Tunnel, and Chisel's library operations -/

theorem secret_tunnelFrame (s : State) (port : TPort) (type : Nat) (f : Frame) (crcOk : Bool) {act : State → State}
    (keeps : ∀ a, (act a).lantern.secret = a.lantern.secret) : secretOf (.next (s.takeTunnelFrame port type f crcOk act)) = some s.lantern.secret :=
  congrArg some (secret_State_takeTunnelFrame s port type f crcOk act keeps)

theorem secret_execAppend (port : TPort) (frame : Frame) (crcOk : Bool) (s : State) : secretOf (execAppend port frame crcOk s) = some s.lantern.secret := by
  unfold execAppend
  split
  · rfl
  · exact secret_tunnelFrame _ _ _ _ _ fun a => secret_State_takeAppend a frame

theorem secret_execLost (port : TPort) (frame : Frame) (crcOk : Bool) (s : State) : secretOf (execLost port frame crcOk s) = some s.lantern.secret :=
  secret_tunnelFrame _ _ _ _ _ fun a => foldl_secret (fun b m => secret_State_loseMember b m) _ a

theorem secret_execConfirm (ring : Ring) (idx : Word) (s : State) : secretOf (execConfirm ring idx s) = some s.lantern.secret := by
  refine congrArg some (secret_State_libOpWhen _ _ _ _ _ _ _ _ fun x => ?_)
  dsimp only
  (repeat' split) <;> simp

theorem secret_execLoadShadow (ring : Ring) (idx : Word) (buf : List Byte) (dmaOk : Bool) (s : State) :
    secretOf (execLoadShadow ring idx buf dmaOk s) = some s.lantern.secret := by
  refine congrArg some (secret_State_libOpWhen _ _ _ _ _ _ _ _ fun x => ?_)
  dsimp only
  split <;> simp

/-- No command but KEY_ENROL touches the key store. -/
theorem exec_keeps_secret (i : Instr) (s : State) (other : ∀ c a b d, i ≠ .keyEnrol c a b d) : secretOf (exec i s) = some s.lantern.secret := by
  cases i
  case keyEnrol => exact absurd rfl (other _ _ _ _)
  case hello => exact secret_tunnelFrame _ _ _ _ _ fun a => secret_State_takeHello a _ _ _
  case query => exact secret_tunnelFrame _ _ _ _ _ fun a => secret_State_takeQuery a _
  case answer => exact secret_tunnelFrame _ _ _ _ _ fun a => secret_State_takeAnswer a _
  case append => exact secret_execAppend _ _ _ s
  case appendAck => exact secret_tunnelFrame _ _ _ _ _ fun a => secret_State_takeAck a _
  case lost => exact secret_execLost _ _ _ s
  case mirror => exact secret_tunnelFrame _ _ _ _ _ fun a => secret_State_takeMirror a _
  case nak => exact secret_tunnelFrame _ _ _ _ _ fun a => secret_State_takeNak a _ _
  case confirm => exact secret_execConfirm _ _ s
  case loadShadow => exact secret_execLoadShadow _ _ _ _ s
  all_goals unfold exec; simp

/-! ### KEY_ENROL -/

theorem keyStoreSound_clear {keys : List OwnerKey} {revoked : List Nat} (slot : Nat) (sound : KeyStoreSound (keys, revoked)) :
    KeyStoreSound (keys.filter (fun k => k.slot != slot), revoked) := by
  obtain ⟨range, single, farwin⟩ := sound
  exact ⟨fun x hx => range x (List.mem_of_mem_filter hx), single.sublist (List.filter_sublist.map _), farwin⟩

theorem keyStoreSound_enrol {keys : List OwnerKey} {revoked : List Nat} {slot : Nat} (low : 4 ≤ slot) (high : slot ≤ 7) (key : List Byte)
    (sound : KeyStoreSound (keys, revoked)) : KeyStoreSound (⟨slot, key⟩ :: keys.filter (fun k => k.slot != slot), revoked) := by
  obtain ⟨range, single, farwin⟩ := keyStoreSound_clear slot sound
  refine ⟨?_, List.nodup_cons.2 ⟨?_, single⟩, farwin⟩
  · rintro x (_ | ⟨_, hx⟩)
    exacts [⟨low, high⟩, range x hx]
  · simp [List.mem_filter]

/-- A Lantern command keeps the key store sound when its own effect does. -/
theorem keyStoreSound_command {s : State} {c : Chan} {op : Nat} {body : State → Nat → List Nat → State}
    (keeps : ∀ a tag args, KeyStoreSound a.lantern.secret → KeyStoreSound (body a tag args).lantern.secret) (sound : KeyStoreSound s.lantern.secret) :
    KeyStoreSound (s.command c op body).lantern.secret := by
  unfold State.command
  dsimp only
  split
  · exact sound
  · split
    · exact sound
    · rw [secret_State_settle]
      exact keeps _ _ _ (by rwa [secret_State_popFront])

/-- KEY_ENROL writes or clears only a slot from 4 to 7: any other slot number is a malformed record. -/
theorem keyStoreSound_keyEnrol {chan : Chan} {image : List Byte} {sigOk dmaOk : Bool} {s t : State} (sound : KeyStoreSound s.lantern.secret)
    (took : exec (.keyEnrol chan image sigOk dmaOk) s = .next t) : KeyStoreSound t.lantern.secret := by
  obtain rfl := Host.Outcome.next.inj took
  refine keyStoreSound_command (fun a tag args sound => ?_) sound
  dsimp only
  split
  · rwa [secret_State_reply]
  split
  · rwa [secret_State_reply, secret_State_dmaError]
  split
  · rwa [secret_State_reply]
  split
  · rwa [secret_State_reply]
  rename_i good _
  have slot : 4 ≤ sliceLE image 128 1 ∧ sliceLE image 128 1 ≤ 7 := by
    simp only [Bool.or_eq_true, decide_eq_true_eq, not_or, Nat.not_lt] at good
    omega
  rw [secret_State_reply]
  split
  · exact keyStoreSound_clear _ sound
  · exact keyStoreSound_enrol slot.1 slot.2 _ sound

theorem exec_secret {i : Instr} {s t : State} (other : ∀ c a b d, i ≠ .keyEnrol c a b d) (took : exec i s = .next t) : t.lantern.secret = s.lantern.secret := by
  have keeps := exec_keeps_secret i s other
  rw [took] at keeps
  exact Option.some.inj keeps

theorem exec_keyStoreSound {i : Instr} {s t : State} (sound : KeyStoreSound s.lantern.secret) (took : exec i s = .next t) : KeyStoreSound t.lantern.secret := by
  by_cases enrol : ∃ c a b d, i = .keyEnrol c a b d
  · obtain ⟨c, a, b, d, rfl⟩ := enrol
    exact keyStoreSound_keyEnrol sound took
  · simp only [not_exists] at enrol
    rwa [exec_secret enrol took]

/-- Settles O53: an idle unit and every command but KEY_ENROL leave the store as it stands, and KEY_ENROL keeps it sound. -/
theorem ownerKeyStoreStaysSound : Obligations.OwnerKeyStoreStaysSound := by
  unfold Obligations.OwnerKeyStoreStaysSound
  refine ⟨fun s t sound took => ?_, fun i s t other took => exec_secret other took⟩
  unfold step at took
  split at took
  case h_1 =>
    obtain rfl := Host.Outcome.next.inj took
    rwa [secret_State_idle]
  case h_2 rest _ => exact exec_keyStoreSound (s := { s with pending := rest }) sound took

end Sys2Proof.Machine
end

section
/-! PROOFS.  Mailboxes: a word stored, a word taken, and a core's messages at a Lantern port (14_lantern_mailboxes_updates R451 to R454,
Table LANTERN-2). -/

namespace Sys2Proof.Machine

/-! ### One mailbox: data at `data`, FULL at bit `i` of `full`, COLLISION at bit `j` of `coll` -/

/-- A word stored in a mailbox (R451). -/
def State.mailStore (s : State) (data full i coll j : Nat) (w : Word) : State :=
  ((if s.regBit full i then s.setRegBit coll j true else s).setReg data w).setRegBit full i true

/-- A mailbox read and emptied (R451). -/
def State.mailRead (s : State) (data full i : Nat) : State :=
  { (s.setReg data 0).setRegBit full i false with rdata := (s.reg data).setWidth 64 }

section

variable {s : State} {data full i coll j : Nat} {w : Word}

theorem mailStore_onlyRegs (s : State) (data full i coll j : Nat) (w : Word) : OnlyRegs s (s.mailStore data full i coll j w) [data, full, coll] := by
  have marked : OnlyRegs s (if s.regBit full i then s.setRegBit coll j true else s) [data, full, coll] := by
    split
    · exact onlyRegs_setRegBit _ _ _ _ (by simp)
    · exact ⟨rfl, fun _ _ => rfl⟩
  exact (marked.trans ((onlyRegs_setReg _ data w).widen (by simp))).trans (onlyRegs_setRegBit _ full i true (by simp))

theorem mailStore_data (apart : data ≠ full) : (s.mailStore data full i coll j w).reg data = w :=
  (State.reg_setRegBit_ne _ _ _ _ apart).trans (State.reg_setReg_same _ _ _)

theorem mailStore_full (fits : i < 32) : (s.mailStore data full i coll j w).regBit full i = true := State.regBit_setRegBit_same _ _ _ _ fits

/-- A bit of a register other than the data reads as the mark of a collision left it, FULL apart. -/
theorem mailStore_regBit {a m : Nat} (other : a ≠ data) (bit : a ≠ full ∨ m ≠ i) : (s.mailStore data full i coll j w).regBit a m =
    (if s.regBit full i then s.setRegBit coll j true else s).regBit a m :=
  (State.regBit_setRegBit_other _ _ _ _ _ _ bit).trans (regBit_setReg_ne _ _ _ _ _ other)

theorem mailStore_collision (other : coll ≠ data) (bit : coll ≠ full ∨ j ≠ i) (fits : j < 32) :
    (s.mailStore data full i coll j w).regBit coll j = (s.regBit coll j || s.regBit full i) := by
  rw [mailStore_regBit other bit]
  cases unread : s.regBit full i
  · simp
  · simpa using State.regBit_setRegBit_same s coll j true fits

theorem mailStore_others {a m : Nat} (other : a ≠ data) (bit : a ≠ full ∨ m ≠ i) (mark : a ≠ coll ∨ m ≠ j) :
    (s.mailStore data full i coll j w).regBit a m = s.regBit a m := by
  rw [mailStore_regBit other bit]
  split
  · exact State.regBit_setRegBit_other _ _ _ _ _ _ mark
  · rfl

theorem reg_mailRead (s : State) (data full i a : Nat) : (s.mailRead data full i).reg a = ((s.setReg data 0).setRegBit full i false).reg a := rfl

theorem mailRead_only (s : State) (data full i : Nat) :
    s.mailRead data full i = { s with regs := (s.mailRead data full i).regs, rdata := (s.mailRead data full i).rdata } := rfl

theorem mailRead_regs {a : Nat} (other : a ∉ [data, full]) : (s.mailRead data full i).reg a = s.reg a := by
  simp only [List.mem_cons, List.not_mem_nil, or_false, not_or] at other
  rw [reg_mailRead, State.reg_setRegBit_ne _ _ _ _ other.2, State.reg_setReg_ne _ _ other.1]

theorem mailRead_rdata (s : State) (data full i : Nat) : (s.mailRead data full i).rdata.toNat = (s.reg data).toNat :=
  BitVec.toNat_setWidth_of_le (by decide)

theorem mailRead_data (apart : data ≠ full) : (s.mailRead data full i).reg data = 0 := by
  rw [reg_mailRead, State.reg_setRegBit_ne _ _ _ _ apart, State.reg_setReg_same]

theorem mailRead_full (fits : i < 32) : (s.mailRead data full i).regBit full i = false :=
  (regBit_of_reg (reg_mailRead s data full i full) i).trans (State.regBit_setRegBit_same _ _ _ _ fits)

theorem mailRead_others {a m : Nat} (other : a ≠ data) (bit : a ≠ full ∨ m ≠ i) : (s.mailRead data full i).regBit a m = s.regBit a m :=
  (regBit_of_reg (reg_mailRead s data full i a) m).trans
    ((State.regBit_setRegBit_other _ _ _ _ _ _ bit).trans (regBit_setReg_ne _ _ _ _ _ other))

end

/-! ### The host's mailbox registers -/

theorem mbxIn_apart {n : Nat} (small : n < 32) : R.MBX_IN_DATA n ≠ R.MBX_IN_FULL ∧ R.MBX_IN_FULL ≠ R.MBX_IN_DATA n ∧ R.MBX_IN_COLLISION ≠ R.MBX_IN_DATA n := by
  unfold R.MBX_IN_DATA R.MBX_IN_FULL R.MBX_IN_COLLISION
  omega

theorem mbxOut_apart {n : Nat} (small : n < 32) :
    R.MBX_OUT_DATA n ≠ R.MBX_OUT_FULL ∧ R.MBX_OUT_FULL ≠ R.MBX_OUT_DATA n ∧ R.MBX_OUT_COLLISION ≠ R.MBX_OUT_DATA n := by
  unfold R.MBX_OUT_DATA R.MBX_OUT_FULL R.MBX_OUT_COLLISION
  omega

section

variable {s : State}

theorem exec_mbxInWrite (live : s.alive = true) (c : Chan) (w : Word) : exec (.mbxInWrite c w) s =
    .next (s.mailStore (R.MBX_IN_DATA c.toNat) R.MBX_IN_FULL c.toNat R.MBX_IN_COLLISION c.toNat w) := if_neg (by simp [live])

theorem exec_mbxOutRead (live : s.alive = true) (c : Chan) : exec (.mbxOutRead c) s =
    .next (s.mailRead (R.MBX_OUT_DATA c.toNat) R.MBX_OUT_FULL c.toNat) := if_neg (by simp [live])

/-- A store shows in its mailbox alone (R451). -/
theorem mailStore_onlyMailbox {data full coll n : Nat} (w : Word) (apart : full ≠ data ∧ coll ≠ data) :
    OnlyMailbox s (s.mailStore data full n coll n w) data full coll n := by
  obtain ⟨only, regs⟩ := mailStore_onlyRegs s data full n coll n w
  refine ⟨only.trans ?_, regs, fun m _ other => ⟨mailStore_others apart.1 (.inr other) (.inr other), mailStore_others apart.2 (.inr other) (.inr other)⟩⟩
  rw [only]

theorem mbxInWrite_stores (live : s.alive = true) (c : Chan) (w : Word) : Answers (.mbxInWrite c w) s (fun t =>
    OnlyMailbox s t (R.MBX_IN_DATA c.toNat) R.MBX_IN_FULL R.MBX_IN_COLLISION c.toNat ∧ t.rdata = s.rdata ∧ t.reg (R.MBX_IN_DATA c.toNat) = w ∧
    t.regBit R.MBX_IN_FULL c.toNat = true ∧ t.regBit R.MBX_IN_COLLISION c.toNat = (s.regBit R.MBX_IN_COLLISION c.toNat || s.regBit R.MBX_IN_FULL c.toNat)) := by
  obtain ⟨data, full, coll⟩ := mbxIn_apart (chan_lt c)
  refine ⟨_, exec_mbxInWrite live c w, mailStore_onlyMailbox w ⟨full, coll⟩, ?_, mailStore_data data, mailStore_full (chan_lt c), ?_⟩
  · rw [(mailStore_onlyRegs s _ _ _ _ _ w).1]
  · exact mailStore_collision coll (.inl (by decide)) (chan_lt c)

theorem mbxOutRead_takes (live : s.alive = true) (c : Chan) : Answers (.mbxOutRead c) s (fun t =>
    OnlyMailbox s t (R.MBX_OUT_DATA c.toNat) R.MBX_OUT_FULL R.MBX_OUT_COLLISION c.toNat ∧ t.rdata.toNat = (s.reg (R.MBX_OUT_DATA c.toNat)).toNat ∧
    t.reg (R.MBX_OUT_DATA c.toNat) = 0 ∧ t.regBit R.MBX_OUT_FULL c.toNat = false ∧ t.regBit R.MBX_OUT_COLLISION c.toNat = s.regBit R.MBX_OUT_COLLISION c.toNat) := by
  obtain ⟨data, full, coll⟩ := mbxOut_apart (chan_lt c)
  have mark : ∀ m, (s.mailRead (R.MBX_OUT_DATA c.toNat) R.MBX_OUT_FULL c.toNat).regBit R.MBX_OUT_COLLISION m = s.regBit R.MBX_OUT_COLLISION m := fun m =>
    mailRead_others coll (.inl (by decide))
  refine ⟨_, exec_mbxOutRead live c, ⟨mailRead_only s _ _ _, fun a other => mailRead_regs (fun listed => other ?_), fun m _ other =>
    ⟨mailRead_others full (.inr other), mark m⟩⟩, mailRead_rdata s _ _ _, mailRead_data data, mailRead_full (chan_lt c), mark _⟩
  exact List.mem_append_left [R.MBX_OUT_COLLISION] listed

/-! ### Gallery mailboxes from the host -/

theorem gmbx_apart {n : Nat} (box : n < 8) : R.LANTERN_GMBX_DATA n ≠ R.LANTERN_GMBX_STATUS ∧ R.LANTERN_GMBX_STATUS ≠ R.LANTERN_GMBX_DATA n := by
  unfold R.LANTERN_GMBX_DATA R.LANTERN_GMBX_STATUS
  omega

theorem gmbxStore_eq (s : State) (n : Nat) (w : Word) :
    s.gmbxStore n w = s.mailStore (R.LANTERN_GMBX_DATA n) R.LANTERN_GMBX_STATUS n R.LANTERN_GMBX_STATUS (8 + n) w := rfl

theorem gmbxStore_onlyRegs (s : State) (n : Nat) (w : Word) : OnlyRegs s (s.gmbxStore n w) [R.LANTERN_GMBX_DATA n, R.LANTERN_GMBX_STATUS] :=
  (mailStore_onlyRegs s _ _ _ _ _ w).widen (by simp)

/-- The word, FULL and COLLISION of a Gallery mailbox after a store (R451). -/
theorem gmbxStore_shows (s : State) {n : Nat} (box : n < 8) (w : Word) : (s.gmbxStore n w).reg (R.LANTERN_GMBX_DATA n) = w ∧
    (s.gmbxStore n w).regBit R.LANTERN_GMBX_STATUS n = true ∧
    (s.gmbxStore n w).regBit R.LANTERN_GMBX_STATUS (8 + n) = (s.regBit R.LANTERN_GMBX_STATUS (8 + n) || s.regBit R.LANTERN_GMBX_STATUS n) :=
  ⟨mailStore_data (gmbx_apart box).1, mailStore_full (by omega), mailStore_collision (gmbx_apart box).2 (.inr (by omega)) (by omega)⟩

theorem gmbxDataWrite_stores (reached : Reached s 0) (b : BitVec 3) (w : Word) (high : 4 ≤ b.toNat) : Answers (.gmbxDataWrite b w) s (fun t =>
    OnlyRegs s t [R.LANTERN_GMBX_DATA b.toNat, R.LANTERN_GMBX_STATUS] ∧ t.reg (R.LANTERN_GMBX_DATA b.toNat) = w ∧ t.regBit R.LANTERN_GMBX_STATUS b.toNat = true ∧
    t.regBit R.LANTERN_GMBX_STATUS (8 + b.toNat) = (s.regBit R.LANTERN_GMBX_STATUS (8 + b.toNat) || s.regBit R.LANTERN_GMBX_STATUS b.toNat) ∧
    ∀ m, m < 32 → m ≠ b.toNat → m ≠ 8 + b.toNat → t.regBit R.LANTERN_GMBX_STATUS m = s.regBit R.LANTERN_GMBX_STATUS m) := by
  obtain ⟨data, full, coll⟩ := gmbxStore_shows s b.isLt w
  refine ⟨s.gmbxStore b.toNat w, (gate_reached s reached _).trans (if_neg (by omega)), gmbxStore_onlyRegs s _ w, data, full, coll, fun m _ own mark => ?_⟩
  exact mailStore_others (gmbx_apart b.isLt).2 (.inr own) (.inr mark)

theorem gmbxDataRead_takes (reached : Reached s 0) (b : BitVec 3) (low : b.toNat < 4) : Answers (.gmbxDataRead b) s (fun t =>
    t = { s with regs := t.regs, rdata := t.rdata } ∧ (∀ a, a ∉ [R.LANTERN_GMBX_DATA b.toNat, R.LANTERN_GMBX_STATUS] → t.reg a = s.reg a) ∧
    t.rdata.toNat = (s.reg (R.LANTERN_GMBX_DATA b.toNat)).toNat ∧ t.reg (R.LANTERN_GMBX_DATA b.toNat) = 0 ∧ t.regBit R.LANTERN_GMBX_STATUS b.toNat = false ∧
    ∀ m, m < 32 → m ≠ b.toNat → t.regBit R.LANTERN_GMBX_STATUS m = s.regBit R.LANTERN_GMBX_STATUS m) := by
  obtain ⟨data, full⟩ := gmbx_apart b.isLt
  have took : exec (.gmbxDataRead b) s = .next (s.mailRead (R.LANTERN_GMBX_DATA b.toNat) R.LANTERN_GMBX_STATUS b.toNat) := by
    refine (gate_reached s reached _).trans ?_
    rw [show s.gmbxRead b.toNat = (s.setReg (R.LANTERN_GMBX_DATA b.toNat) 0).setRegBit R.LANTERN_GMBX_STATUS b.toNat false from if_pos low]
    rfl
  exact ⟨_, took, mailRead_only s _ _ _, fun a other => mailRead_regs other, mailRead_rdata s _ _ _, mailRead_data data, mailRead_full (by omega),
    fun m _ own => mailRead_others full (.inr own)⟩

theorem exec_gmbxDataRead_keeps (reached : Reached s 0) (b : BitVec 3) (high : 4 ≤ b.toNat) :
    exec (.gmbxDataRead b) s = .next { s with rdata := (s.reg (R.LANTERN_GMBX_DATA b.toNat)).setWidth 64 } := by
  have kept : s.gmbxRead b.toNat = s := if_neg (by omega)
  exact (gate_reached s reached _).trans (by rw [kept])

/-! ### A core's messages at a Lantern port -/

variable {m : Msg} {n : Nat}

theorem exec_gmbxCoreWrite (first : s.atLantern m = true) (other : m.tag.toNat ≠ 0xEF3) : exec (.gmbxCoreWrite m) s = .next (s.takeLantern m) :=
  if_pos ((Bool.and_eq_true _ _).mpr ⟨first, decide_eq_true other⟩)

theorem exec_gmbxCoreRequest (first : s.atLantern m = true) (tag : m.tag.toNat = 0xEF3) : exec (.gmbxCoreRequest m) s = .next ((s.unlist m).coreRequest m) := by
  refine (if_pos ((Bool.and_eq_true _ _).mpr ⟨first, decide_eq_true tag⟩)).trans (congrArg Host.Outcome.next ?_)
  exact (if_neg (by rw [tag]; decide)).trans (if_pos tag)

theorem exec_gmbxCore_waits (notFirst : s.atLantern m = false) : exec (.gmbxCoreWrite m) s = .next s ∧ exec (.gmbxCoreRequest m) s = .next s :=
  ⟨if_neg (by simp [notFirst]), if_neg (by simp [notFirst])⟩

theorem takeLantern_badTag (other : m.tag.toNat ≠ 0xEF3) (bad : m.tag.toNat ≠ 0xEF2 ∨ m.payload.length ≠ 1 ∨ 4 ≤ (msgWord m 0).toNat % 2 ^ 32) :
    s.takeLantern m = (s.unlist m).badTag m := by
  unfold State.takeLantern
  dsimp only
  split
  next tag =>
    have malformed := bad.resolve_left (not_not_intro tag)
    refine if_pos ?_
    simp only [Bool.or_eq_true, decide_eq_true_eq]
    omega
  next => exact if_neg other

theorem takeLantern_write (tag : m.tag.toNat = 0xEF2) (one : m.payload.length = 1) (box : n < 4) (names : (msgWord m 0).toNat % 2 ^ 32 = n) :
    s.takeLantern m = ((s.unlist m).gmbxStore n ((msgWord m 0).extractLsb' 32 32)).setFld (F.LANTERN_GMBX_SRC_LOGICAL n) m.src.toNat := by
  have low : (msgWord m 0).toNat % 4 = n := by omega
  refine (if_pos tag).trans ?_
  unfold State.coreWrite
  dsimp only
  rw [low, names, if_neg (by simp [one])]

theorem gmbxCoreWrite_stores (first : s.atLantern m = true) (tag : m.tag.toNat = 0xEF2) (one : m.payload.length = 1) (box : n < 4)
    (names : (msgWord m 0).toNat % 2 ^ 32 = n) : Answers (.gmbxCoreWrite m) s (fun t => t = { s with regs := t.regs, fabric := dropFirst m s.fabric } ∧
      (∀ a, a ∉ [R.LANTERN_GMBX_DATA n, R.LANTERN_GMBX_STATUS, R.LANTERN_GMBX_SRC n] → t.reg a = s.reg a) ∧
      t.reg (R.LANTERN_GMBX_DATA n) = (msgWord m 0).extractLsb' 32 32 ∧ t.regBit R.LANTERN_GMBX_STATUS n = true ∧ t.fld (F.LANTERN_GMBX_SRC_LOGICAL n) = m.src.toNat % 2 ^ 13 ∧
      t.regBit R.LANTERN_GMBX_STATUS (8 + n) = (s.regBit R.LANTERN_GMBX_STATUS (8 + n) || s.regBit R.LANTERN_GMBX_STATUS n)) := by
  obtain ⟨data, full, coll⟩ := gmbxStore_shows (s.unlist m) (show n < 8 by omega) ((msgWord m 0).extractLsb' 32 32)
  obtain ⟨only, regs⟩ : OnlyRegs (s.unlist m) (((s.unlist m).gmbxStore n ((msgWord m 0).extractLsb' 32 32)).setFld (F.LANTERN_GMBX_SRC_LOGICAL n) m.src.toNat)
      [R.LANTERN_GMBX_DATA n, R.LANTERN_GMBX_STATUS, R.LANTERN_GMBX_SRC n] :=
    ((gmbxStore_onlyRegs (s.unlist m) n _).widen (by simp)).trans (onlyRegs_setFld _ _ _ (by simp))
  have dataApart : R.LANTERN_GMBX_DATA n ≠ R.LANTERN_GMBX_SRC n := by
    unfold R.LANTERN_GMBX_DATA R.LANTERN_GMBX_SRC
    omega
  have statusApart : R.LANTERN_GMBX_STATUS ≠ R.LANTERN_GMBX_SRC n := by
    unfold R.LANTERN_GMBX_STATUS R.LANTERN_GMBX_SRC
    omega
  refine ⟨_, (exec_gmbxCoreWrite first (by omega)).trans (congrArg _ (takeLantern_write tag one box names)), only, regs, ?_, ?_,
    State.fld_setFld_same _ _ _ (Nat.le_of_ble_eq_true rfl), ?_⟩
  · rw [State.reg_setFld_ne _ _ _ dataApart, data]
  · rw [regBit_of_reg (State.reg_setFld_ne _ _ _ statusApart), full]
  · rw [regBit_of_reg (State.reg_setFld_ne _ _ _ statusApart), coll]
    rfl

/-- A core's request of mailbox `n` is answered with its data and FULL. -/
def State.gmbxReply (s : State) (m : Msg) (n : Nat) : Msg :=
  { tick := BitVec.ofNat 16 s.tick, tag := 0xFC0#12, src := m.dest, dest := m.src,
    payload := [s.reg (R.LANTERN_GMBX_DATA n) ++ (if s.regBit R.LANTERN_GMBX_STATUS n = true then 1#32 else 0#32)] }

theorem coreRequest_eq (s : State) (one : m.payload.length = 1) (low : 4 ≤ n) (high : n < 8) (names : (msgWord m 0).toNat = n) : s.coreRequest m =
    if s.regBit R.LANTERN_GMBX_STATUS n && ((s.core (s.physOf m.src.toNat)).fenced || (s.core (s.physOf m.src.toNat)).inReset) then
      (((s.setRegBit R.LANTERN_GMBX_STATUS n false).inject (s.gmbxReply m n)).bump F.LANTERN_MBX_DROP_COUNT 1).alarm F.LANTERN_ALARM_MBX_DROP n
    else (s.setRegBit R.LANTERN_GMBX_STATUS n false).inject (s.gmbxReply m n) := by
  subst names
  exact if_neg (by simp [one]; omega)

theorem coreRequest_badTag (bad : m.payload.length ≠ 1 ∨ (msgWord m 0).toNat < 4 ∨ 8 ≤ (msgWord m 0).toNat) : s.coreRequest m = s.badTag m :=
  if_pos (by simpa [or_assoc] using bad)

end

/-- Settles O39: a mailbox store and a mailbox read, each proved once, and a core's messages by their tag and word 0. -/
theorem mailboxesHoldWordsUntilTheyAreRead : Obligations.MailboxesHoldWordsUntilTheyAreRead := by
  unfold Obligations.MailboxesHoldWordsUntilTheyAreRead
  refine ⟨fun c w s live => mbxInWrite_stores live c w, fun c s live => mbxOutRead_takes live c,
    fun b w s reached low => (gate_reached s reached _).trans (if_pos low), fun b w s reached high => gmbxDataWrite_stores reached b w high,
    fun b s reached high => exec_gmbxDataRead_keeps reached b high, fun b s reached low => gmbxDataRead_takes reached b low,
    fun m s notFirst => exec_gmbxCore_waits notFirst, fun m s n first tag one box names => gmbxCoreWrite_stores first tag one box names,
    fun m s n first tag one low high names => ?request, fun m s first other bad => ?badWrite, fun m s first tag bad => ?badRequest⟩
  case request =>
    have took := exec_gmbxCoreRequest first tag
    rw [coreRequest_eq (s.unlist m) one low high names] at took
    have status := onlyRegs_setRegBit (s.unlist m) R.LANTERN_GMBX_STATUS n false (List.mem_singleton_self _)
    have cleared := (s.unlist m).regBit_setRegBit_same R.LANTERN_GMBX_STATUS n false (by omega)
    refine ⟨fun heard => ⟨_, took, _, status, cleared, fun i _ other => ?_, ?_⟩, fun full sunk => ⟨_, took, _, status, cleared, ?_⟩⟩
    · exact State.regBit_setRegBit_other _ _ _ _ _ _ (.inr other)
    · refine (if_neg ?_).trans rfl
      show ¬(s.regBit R.LANTERN_GMBX_STATUS n && ((s.core (s.physOf m.src.toNat)).fenced || (s.core (s.physOf m.src.toNat)).inReset)) = true
      rcases heard with empty | ⟨fenced, reset⟩ <;> simp [*]
    · refine (if_pos ?_).trans ?_
      · simpa using ⟨full, sunk⟩
      · unfold State.gmbxReply
        rw [show (s.unlist m).regBit R.LANTERN_GMBX_STATUS n = true from full]
        rfl
  case badWrite =>
    rw [exec_gmbxCoreWrite first other, takeLantern_badTag other bad]
    rfl
  case badRequest =>
    rw [exec_gmbxCoreRequest first tag, coreRequest_badTag bad]
    rfl

end Sys2Proof.Machine
end

section
/-! PROOFS.  The register-immediate instructions of Flint (05_flint_instructions Tables FLINT-4, FLINT-8). -/

namespace Sys2Proof.Machine

/-- A register-immediate instruction completes with its value in RD. -/
theorem completesOn_formI {mk : Issue → Instr} {rd ra : SReg} {f : Word → Word} {v : CoreSt → Word} (run : ∀ i s, exec (mk i) s = .next (s.formI i rd ra f))
    (value : ∀ k, f (k.s ra) = v k) : CompletesOn mk (hazS ra) 1 (fun k => k.setS rd (v k)) [] 0 := by
  obtain rfl : (fun k : CoreSt => f (k.s ra)) = v := funext value
  exact completesOn_of_core run (fun k => k.setS_pc rd _)

theorem exec_shi (rd ra : SReg) (imm : Imm16) (i : Issue) (s : State) : exec (.shi i rd ra imm) s = .next (s.issue i (hazS ra) (fun k =>
    if imm.extractLsb' 5 9 ≠ 0 then .exc excILLEGAL 0 else resS k rd (shiftWord (imm.toNat / 16384) (imm.toNat % 32) (k.s ra)))) := rfl

theorem exec_lui (rd ra : SReg) (imm : Imm16) (i : Issue) (s : State) : exec (.lui i rd ra imm) s = .next (s.issue i [] (fun k =>
    if ra ≠ 0 then .exc excILLEGAL 0 else resS k rd (immZ imm <<< 16))) := rfl

/-- An instruction that writes one scalar result completes where its reserved field is zero. -/
theorem completes_of_reserved {mk : Issue → Instr} {rd : SReg} {reads : List Nat} {bad : Prop} [Decidable bad] {ok : CoreSt → Prop} {f v : CoreSt → Word}
    (run : ∀ i s, exec (mk i) s = .next (s.issue i reads (fun k => if bad then .exc excILLEGAL 0 else resS k rd (f k)))) (good : ∀ k, ok k → ¬ bad)
    (value : ∀ k, f k = v k) : Completes mk reads ok 1 (fun k => k.setS rd (v k)) (fun k => k.pc + 4) [] 0 := by
  obtain rfl : f = v := funext value
  exact completes_of_act _ run (fun _ _ k h => ⟨_, if_neg (good k h), rfl, rfl, rfl, congrArg (· + 4) (k.setS_pc rd _), rfl, rfl, rfl⟩)

/-- IMM[15:14] as a number, which SHI selects its shift by. -/
theorem shiftSelect (imm : Imm16) : imm.toNat / 16384 = (imm.extractLsb' 14 2).toNat := by
  rw [BitVec.extractLsb'_toNat, Nat.shiftRight_eq_div_pow]
  have := imm.isLt
  omega

theorem two_bits : ∀ x : BitVec 2, x = 0#2 ∨ x = 1#2 ∨ x = 2#2 ∨ x = 3#2 := by decide

/-- Settles O2: five instructions write one value to RD, and SHI and LUI stand behind the check of their reserved field. -/
theorem immediateInstructionsWriteTheirResult : Obligations.ImmediateInstructionsWriteTheirResult := by
  unfold Obligations.ImmediateInstructionsWriteTheirResult
  refine ⟨fun rd ra imm => completesOn_formI (fun _ _ => rfl) (fun _ => rfl), fun rd ra imm => completesOn_formI (fun _ _ => rfl) (fun _ => rfl),
    fun rd ra imm => completesOn_formI (fun _ _ => rfl) (fun _ => rfl), fun rd ra imm => completesOn_formI (fun _ _ => rfl) (fun _ => rfl),
    fun rd ra imm => completesOn_formI (fun _ _ => rfl) (fun k => ?slti), fun rd ra imm => ?shi,
    fun rd ra imm => traps_of_act _ (exec_shi rd ra imm) (fun _ _ k bad => if_pos bad),
    fun rd imm => completes_of_reserved (exec_lui rd 0 imm) (fun _ _ => not_not_intro rfl) (fun _ => rfl),
    fun rd ra imm => traps_of_act _ (exec_lui rd ra imm) (fun _ _ k bad => if_pos bad)⟩
  case slti => rw [boolWord_slt, immS, BitVec.toInt_signExtend_of_le (by decide)]
  case shi =>
    refine completes_of_reserved (exec_shi rd ra imm) (fun _ zero => not_not_intro zero) (fun k => ?_)
    rw [shiftSelect]
    obtain sel | sel | sel | sel := two_bits (imm.extractLsb' 14 2) <;> rw [sel] <;> rfl

end Sys2Proof.Machine
end

section
/-! PROOFS.  The TAP's instructions, the PRBS checkers and aborted MPORT transactions (16_pins_package_test R528, R534 to R538, Table PINS-10). -/

namespace Sys2Proof.Machine

section

variable {s : State}

/-! ### The TAP (R534 to R537) -/

theorem pinsFree_iff : s.pinsFree = true ↔ s.power.inReset = true ∧ s.test.waitRelease = none ∧ ∀ r, r < 9 → r ∈ s.power.railUp := by
  simp only [State.pinsFree, Bool.and_eq_true, Option.isNone_iff_eq_none, List.all_eq_true, List.mem_range, List.contains_iff_mem, and_assoc]

/-- An instruction that may take the pins takes them. -/
theorem tapLoad_takes (free : s.pinsFree = true) (op : BitVec 8) (dr : Word) :
    s.tapLoad op true dr = { s with test := { s.test with ir := op, pinsHeld := true, dr := dr } } := by
  unfold State.tapLoad
  rw [free]
  rfl

theorem tapLoad_leaves {takes : Bool} (left : (takes && s.pinsFree) = false) (wait : s.test.waitRelease = none) (op : BitVec 8) (dr : Word) :
    s.tapLoad op takes dr = { s with test := { s.test with ir := op, pinsHeld := false, dr := dr } } := by
  unfold State.tapLoad
  rw [left]
  dsimp only
  rw [wait]

theorem tapLoad_releases {a b : Bool} (wait : s.test.waitRelease = some (a, b)) (op : BitVec 8) (dr : Word) :
    s.tapLoad op false dr = ({ s with test := { s.test with ir := op, pinsHeld := false, dr := dr } } : State).release a b := by
  unfold State.tapLoad
  rw [Bool.false_and]
  dsimp only
  rw [wait]

theorem tapTest_takes (free : s.pinsFree = true) (op : BitVec 8) (shift pins : BitVec 226) :
    s.tapTest op shift pins = { s with test := { s.test with ir := op, pinsHeld := true, dr := 0, drive := shift, sample := pins } } := by
  unfold State.tapTest
  dsimp only
  rw [if_pos free, tapLoad_takes free]

theorem tapTest_leaves (taken : s.pinsFree = false) (wait : s.test.waitRelease = none) (op : BitVec 8) (shift pins : BitVec 226) :
    s.tapTest op shift pins = { s with test := { s.test with ir := op, pinsHeld := false, dr := 0 } } := by
  unfold State.tapTest
  dsimp only
  rw [taken, if_neg (by decide), tapLoad_leaves (by rw [taken]; rfl) wait]

/-- What an instruction does where the TAP works. -/
theorem tap_works {α : Type} (works : s.tapWorks = true) (a b : α) : (if (!s.tapWorks) = true then a else b) = b := if_neg (by simp [works])

theorem tap_off (off : s.tapWorks = false) {i : Instr} (a b : BitVec 226)
    (listed : i ∈ [Instr.extest a b, .idcode, .samplePreload a b, .clamp, .highz, .extestPulse a b, .extestTrain a b, .bypass, .testLogicReset]) :
    exec i s = .next s := by
  have stopped : (!s.tapWorks) = true := by rw [off]; rfl
  simp only [List.mem_cons, List.not_mem_nil, or_false] at listed
  rcases listed with rfl | rfl | rfl | rfl | rfl | rfl | rfl | rfl | rfl <;> exact if_pos stopped

/-! ### PRBS checkers (R538) -/

variable {p : Fin 6}

theorem onlyAlarm_prbsRefuse (s : State) (p : Fin 6) : OnlyAlarm s (s.prbsRefuse p) F.TEST_ALARM_PRBS_REFUSED :=
  onlyAlarm s _ _ rfl (by decide) (by decide) (by decide)

theorem lock_prbsOff (s : State) (p : Nat) : (s.prbsOff p).bit (F.TEST_PRBS_CTRL_LOCK p) = false := by
  unfold State.prbsOff State.bit
  rw [State.fld_setFld_same _ _ _ (by decide : 31 + 1 ≤ 32)]
  rfl

/-- A mode set on a port shows in its control register alone, with LOCK clear. -/
theorem prbsMode_shows (s : State) (p : Fin 6) {m : Nat} (fits : m < 4) : OnlyRegs s ((s.prbsOff p).setFld (F.TEST_PRBS_CTRL_MODE p) m) [R.TEST_PRBS_CTRL p] ∧
    ((s.prbsOff p).setFld (F.TEST_PRBS_CTRL_MODE p) m).fld (F.TEST_PRBS_CTRL_MODE p) = m ∧
    ((s.prbsOff p).setFld (F.TEST_PRBS_CTRL_MODE p) m).bit (F.TEST_PRBS_CTRL_LOCK p) = false := by
  refine ⟨(onlyRegs_prbsOff s p).trans (onlyRegs_setFld _ _ _ (List.mem_singleton_self _)), ?_, ?_⟩
  · exact (State.fld_setFld_same _ _ _ (by decide : 0 + 2 ≤ 32)).trans (Nat.mod_eq_of_lt fits)
  · rw [State.bit_setFld_other _ _ _ _ (.inr (.inr (by decide : 0 + 2 ≤ 31)))]
    exact lock_prbsOff s p

/-- Where PRBS commands act: the port is idle, and for generation it is a Tunnel port. -/
theorem exec_prbs_idle (reached : Reached s 9) (idle : s.prbsIdle p = true) : exec (.prbsOff p) s = .next (s.prbsOff p) ∧
    exec (.prbsCheck p) s = .next ((s.prbsOff p).setFld (F.TEST_PRBS_CTRL_MODE p) 1) ∧
    (4 ≤ p.val → exec (.prbsGenerate p) s = .next ((s.prbsOff p).setFld (F.TEST_PRBS_CTRL_MODE p) 2)) := by
  refine ⟨(gate_reached s reached _).trans (congrArg _ (if_pos idle)), (gate_reached s reached _).trans (congrArg _ (if_pos idle)), fun tunnel => ?_⟩
  exact (gate_reached s reached _).trans (congrArg _ (if_pos (by simp [idle, tunnel])))

theorem exec_prbs_busy (reached : Reached s 9) (busy : s.prbsIdle p = false) {i : Instr} (listed : i ∈ [Instr.prbsOff p, .prbsCheck p, .prbsGenerate p]) :
    exec i s = .next (s.prbsRefuse p) := by
  simp only [List.mem_cons, List.not_mem_nil, or_false] at listed
  rcases listed with rfl | rfl | rfl <;> exact (gate_reached s reached _).trans (congrArg _ (if_neg (by simp [busy])))

theorem exec_prbsGenerate_adit (reached : Reached s 9) (adit : p.val < 4) : exec (.prbsGenerate p) s = .next (s.prbsRefuse p) :=
  (gate_reached s reached _).trans (congrArg _ (if_neg (by simpa using fun _ => adit)))

theorem prbsOff_shows (s : State) (p : Fin 6) : OnlyRegs s (s.prbsOff p) [R.TEST_PRBS_CTRL p] ∧ (s.prbsOff p).fld (F.TEST_PRBS_CTRL_MODE p) = 0 ∧
    (s.prbsOff p).bit (F.TEST_PRBS_CTRL_LOCK p) = false := ⟨onlyRegs_prbsOff s p, mode_prbsOff s p, lock_prbsOff s p⟩

/-- The state after a checker's lock, before its alarm. -/
def State.prbsLocked (s : State) (p errors : Nat) : State := (s.setBit (F.TEST_PRBS_CTRL_LOCK p) true).bump (F.TEST_PRBS_ERR_COUNT p) errors

theorem exec_prbsLock (live : s.alive = true) (runs : s.fld (F.TEST_PRBS_CTRL_MODE p) ≠ 0) (e : BitVec 32) :
    exec (.prbsLock p e) s = .next ((s.prbsLocked p e.toNat).alarmIf (0 < e.toNat) F.TEST_ALARM_PRBS_ERR p) := if_neg (by simpa [live] using runs)

theorem prbsErr_apart (p : Nat) : R.TEST_PRBS_CTRL p ≠ R.TEST_PRBS_ERR p := by
  unfold R.TEST_PRBS_CTRL R.TEST_PRBS_ERR
  omega

theorem prbsLocked_shows (s : State) (p e : Nat) : OnlyRegs s (s.prbsLocked p e) [R.TEST_PRBS_CTRL p, R.TEST_PRBS_ERR p] ∧
    (s.prbsLocked p e).bit (F.TEST_PRBS_CTRL_LOCK p) = true ∧
    (s.prbsLocked p e).fld (F.TEST_PRBS_ERR_COUNT p) = min (s.fld (F.TEST_PRBS_ERR_COUNT p) + e) (2 ^ 32 - 1) := by
  refine ⟨(onlyRegs_setFld s _ _ (by simp)).trans (onlyRegs_setFld _ (F.TEST_PRBS_ERR_COUNT p) _ (by simp)), ?_, ?_⟩
  · unfold State.prbsLocked
    rw [State.bit_bump_other _ _ _ _ (.inl (prbsErr_apart p))]
    exact State.bit_setBit_same _ _ _ rfl (by decide : 31 < 32)
  · unfold State.prbsLocked
    rw [State.fld_bump_same _ _ _ (by decide : 0 + 32 ≤ 32), State.fld_setBit_other _ _ _ _ (.inl (prbsErr_apart p).symm)]

/-- A register of the PRBS checkers is none that an alarm changes. -/
theorem reg_prbsAlarm (s : State) (p : Fin 6) (b : Bool) (u : Nat) {a : Nat} (own : a = R.TEST_PRBS_CTRL p ∨ a = R.TEST_PRBS_ERR p) :
    (s.alarmIf b F.TEST_ALARM_PRBS_ERR u).reg a = s.reg a := by
  have high : ∀ x ∈ R.TEST_ALARM :: R.POWER_SUMMARY :: lostRegs, x < 0x1400200 := by decide
  have apart : ∀ x ∈ R.TEST_ALARM :: R.POWER_SUMMARY :: lostRegs, a ≠ x := fun x listed => by
    have := high x listed
    unfold R.TEST_PRBS_CTRL R.TEST_PRBS_ERR at own
    omega
  exact reg_alarmIf s b _ u (apart _ (by simp)) (apart _ (by simp)) (fun listed => apart a (by simp [listed]) rfl)

/-! ### Aborted MPORT transactions (R528) -/

/-- An aborted transaction is counted with its alarm over the state its access has left. -/
def State.mportAborted (s : State) : State := (s.bump F.TEST_MPORT_ABORT_COUNT 1).alarm F.TEST_ALARM_MPORT_ABORT 0

theorem exec_mportAbort_none (a : Word) (w : Option Word) {c : BitVec 7} (no : s.alive = false ∨ 88 ≤ c.toNat) : exec (.mportAbort a w c) s = .next s :=
  if_pos (by simpa using no)

theorem exec_mportAbort_write (live : s.alive = true) (a v : Word) {c : BitVec 7} (cut : c.toNat < 88) : exec (.mportAbort a (some v) c) s =
    .next (if 72 ≤ c.toNat then s.mportWriteAccess a v false else s).mportAborted := if_neg (by simpa [live] using cut)

theorem exec_mportAbort_read (live : s.alive = true) (a : Word) {c : BitVec 7} (cut : c.toNat < 88) : exec (.mportAbort a none c) s =
    .next (if 40 ≤ c.toNat then (s.mportReadAccess a false).2 else s).mportAborted := if_neg (by simpa [live] using cut)

end

/-- Settles O50: the access of an abort by its cycle, then the count and the alarm. -/
theorem abortedTransactionsActByTheirCycle : Obligations.AbortedTransactionsActByTheirCycle := by
  unfold Obligations.AbortedTransactionsActByTheirCycle
  refine ⟨fun s a w c no => exec_mportAbort_none a w no,
    fun s => ⟨onlyAlarm _ _ _ rfl (by decide) (by decide) (by decide), State.fld_bump_same _ _ _ (by decide)⟩,
    fun s a v c live cut => ?write, fun s a c live cut => ?read⟩
  case write =>
    rw [exec_mportAbort_write live a v cut]
    exact ⟨fun early => by rw [if_neg (by omega)]; rfl, fun late => by rw [if_pos late]; rfl⟩
  case read =>
    rw [exec_mportAbort_read live a cut]
    exact ⟨fun early => by rw [if_neg (by omega)]; rfl, fun late => by rw [if_pos late]; rfl⟩

/-- Settles O48: TAP instructions by whether the pins are free, and PRBS commands by whether the port is idle. -/
theorem tapInstructionsAndPrbsCheckersAct : Obligations.TapInstructionsAndPrbsCheckersAct := by
  unfold Obligations.TapInstructionsAndPrbsCheckersAct
  refine ⟨fun s a b i off listed => tap_off off a b listed, fun s => pinsFree_iff, fun s a b works wait => ?plain, fun s a b op i works listed => ?test,
    fun s op i works listed => ?hold, fun s a b works wait => ?release, fun s p reached busy i listed => ?busy, fun s p m i reached idle listed => ?idle,
    fun s p reached adit => ⟨_, exec_prbsGenerate_adit reached adit, onlyAlarm_prbsRefuse s p⟩, fun s p e no => if_pos (by simpa using no),
    fun s p e live runs => ?lock⟩
  case plain =>
    refine ⟨(tap_works works _ _).trans ?_, (tap_works works _ _).trans ?_, (tap_works works _ _).trans ?_, (tap_works works _ _).trans ?_⟩ <;>
      rw [tapLoad_leaves rfl wait]
  case test =>
    simp only [List.mem_cons, Prod.mk.injEq, List.not_mem_nil, or_false] at listed
    rcases listed with ⟨rfl, rfl⟩ | ⟨rfl, rfl⟩ | ⟨rfl, rfl⟩ <;>
      exact ⟨fun free => (tap_works works _ _).trans (by rw [tapTest_takes free]), fun taken wait => (tap_works works _ _).trans (by rw [tapTest_leaves taken wait])⟩
  case hold =>
    simp only [List.mem_cons, Prod.mk.injEq, List.not_mem_nil, or_false] at listed
    rcases listed with ⟨rfl, rfl⟩ | ⟨rfl, rfl⟩ <;>
      exact ⟨fun free => (tap_works works _ _).trans (by rw [tapLoad_takes free]), fun taken wait => (tap_works works _ _).trans (by rw [tapLoad_leaves (takes := true) taken wait])⟩
  case release => exact (tap_works works _ _).trans (by rw [tapLoad_releases wait])
  case busy => exact ⟨_, exec_prbs_busy reached busy listed, onlyAlarm_prbsRefuse s p⟩
  case idle =>
    obtain ⟨off, check, generate⟩ := exec_prbs_idle reached idle
    simp only [List.mem_cons, Prod.mk.injEq, List.not_mem_nil, or_false] at listed
    rcases listed with (⟨rfl, rfl⟩ | ⟨rfl, rfl⟩) | ⟨tunnel, rfl, rfl⟩
    · exact ⟨_, off, prbsOff_shows s p⟩
    · exact ⟨_, check, prbsMode_shows s p (by decide)⟩
    · exact ⟨_, generate tunnel, prbsMode_shows s p (by decide)⟩
  case lock =>
    obtain ⟨only, locked, count⟩ := prbsLocked_shows s p e.toNat
    refine ⟨_, exec_prbsLock live runs e, ?_, ?_, fun none => ?_, fun some_ => ?_⟩
    · rw [bit_of_reg (reg_prbsAlarm _ p _ _ (.inl rfl)), locked]
    · rw [fld_of_reg (reg_prbsAlarm _ p _ _ (.inr rfl)), count]
    · subst none
      exact only
    · have errors : 0 < e.toNat := Nat.pos_of_ne_zero (fun zero => some_ (BitVec.eq_of_toNat_eq zero))
      rw [State.alarmIf, if_pos (decide_eq_true errors)]
      exact State.bit_alarm _ _ _ rfl (by decide) (by decide) (by decide)

end Sys2Proof.Machine
end

section
/-! PROOFS.  Power entries, exits and wakes (15_power_health R478 to R486, Tables POWER-3 to POWER-5, POWER-11). -/

namespace Sys2Proof.Machine

section

variable {s : State} {p : Path} {t n src : Nat}

/-! ### POWER_CMD (R478, R482) -/

theorem exec_entryCommand (reached : Reached s 7) {i : Instr} (cmd : EntryCommand p t i) : exec i s = .next (s.enterCmd t) := by
  cases cmd <;> exact gate_reached s reached _

theorem enterCmd_notDeeper (no : 5 ≤ s.pstate ∨ t ≤ s.pstate) : s.enterCmd t = s.alarm F.POWER_ALARM_CMD_REFUSED 0 :=
  if_pos (by simp only [Bool.or_eq_true, decide_eq_true_eq]; exact no)

theorem enterCmd_deeper (settled : s.pstate < 5) (deeper : s.pstate < t) : s.enterCmd t = match s.refuser t with
    | some n => (s.bump (F.POWER_REFUSE_REFUSED n) 1).setOutcome 2 n
    | none => s.startEntry t :=
  (if_neg (by simp only [Bool.or_eq_true, decide_eq_true_eq]; unfold psENTERING; omega)).trans (by cases s.refuser t <;> rfl)

/-- The first refuser holds, and none before it in table order does (R483). -/
theorem refuser_first (found : s.refuser t = some n) : s.refuserHolds t n = true ∧ ∀ m, m < n → s.refuserHolds t m = false := by
  obtain ⟨holds, _, before⟩ := List.find?_range_eq_some.1 found
  exact ⟨holds, fun m lower => by simpa using before m lower⟩

/-- The state in which an entry to `t` begins, before its streams are quiesced. -/
def State.entryBegun (s : State) (t : Nat) : State :=
  { (s.setFld F.POWER_STATUS_STATE 5).setFld F.POWER_STATUS_TARGET t with power := { s.power with
    from_ := s.pstate, pnr := decide (1 ≤ s.pstate ∧ t ≤ 3), wakePend := none, thermalWait := none, offFlushed := false, railsOff := 0 } }

theorem startEntry_run (run : s.pstate = 0) :
    s.startEntry t = (s.entryBegun t).enabledStreams.foldl (fun (a : State) n => a.quiesce n) (s.entryBegun t) := if_pos run

theorem startEntry_low (low : s.pstate ≠ 0) : s.startEntry t = if t = 4 then (s.entryBegun t).setBit F.POWER_STATUS_FLUSHING true else s.entryBegun t :=
  if_neg low

theorem quiesce_stopped {st : StreamSt} (at_ : s.stream n = st) (stopped : st.suspended = true ∨ st.retired = true) : s.quiesce n = s :=
  if_pos (by rw [at_]; simpa using stopped)

theorem quiesce_going {st : StreamSt} (at_ : s.stream n = st) (open_ : st.suspended = false) (kept : st.retired = false) :
    s.quiesce n = match st.nextWin with
      | none => s.setStream n { st with suspended := true }
      | some w => if s.tick < s.winStart n w then s.setStream n { st with suspended := true, nextWin := none } else s.setStream n { st with suspending := true } := by
  subst at_
  exact (if_neg (by simp [open_, kept])).trans (by cases (s.stream n).nextWin <;> rfl)

theorem exec_powerRun (reached : Reached s 7) : exec (.powerRun p) s = .next (s.runCmd p) := gate_reached s reached _

theorem runCmd_abandons (entering : s.pstate = 5) (early : s.power.pnr = false) : s.runCmd p = s.entryBack 0xF :=
  if_pos (by simp [entering, early, psENTERING])

theorem runCmd_refused (late : s.pstate = 5 → s.power.pnr = true) (no : 5 ≤ s.pstate ∨ s.pstate = 0) : s.runCmd p = s.alarm F.POWER_ALARM_CMD_REFUSED 0 :=
  have going : ¬(decide (s.pstate = psENTERING) && !s.power.pnr) = true := by
    simp only [Bool.and_eq_true, decide_eq_true_eq, Bool.not_eq_true']
    exact fun ⟨entering, early⟩ => by simp [late entering] at early
  (if_neg going).trans (if_pos (by simp only [Bool.or_eq_true, decide_eq_true_eq]; exact no))

theorem runCmd_exits (low : s.pstate < 5) (notRun : s.pstate ≠ 0) : s.runCmd p = s.startExit (match p with | .mport => 5 | .bar0 => 6) := by
  refine (if_neg (by simp only [Bool.and_eq_true, decide_eq_true_eq]; unfold psENTERING; omega)).trans
    ((if_neg (by simp only [Bool.or_eq_true, decide_eq_true_eq]; unfold psENTERING; omega)).trans ?_)
  cases p <;> rfl

/-! ### Fields of POWER_STATUS -/

theorem onlyRegs_setOutcome (s : State) (result refuser : Nat) : OnlyRegs s (s.setOutcome result refuser) [R.POWER_STATUS] :=
  (onlyRegs_setFld s F.POWER_STATUS_RESULT result (List.mem_singleton_self _)).trans (onlyRegs_setFld _ F.POWER_STATUS_REFUSER refuser (List.mem_singleton_self _))

theorem setOutcome_power (s : State) (result refuser : Nat) : (s.setOutcome result refuser).power = s.power := rfl

/-- RESULT and REFUSER after an outcome, and the fields it leaves. -/
theorem setOutcome_shows (s : State) {result refuser : Nat} (fits : result < 4) (fits' : refuser < 16) :
    (s.setOutcome result refuser).fld F.POWER_STATUS_RESULT = result ∧ (s.setOutcome result refuser).fld F.POWER_STATUS_REFUSER = refuser ∧
    (s.setOutcome result refuser).pstate = s.pstate ∧ (s.setOutcome result refuser).fld F.POWER_STATUS_TARGET = s.fld F.POWER_STATUS_TARGET := by
  unfold State.setOutcome State.pstate
  refine ⟨?_, ?_, ?_, ?_⟩
  · rw [State.fld_setFld_other _ _ _ _ (by decide), State.fld_setFld_same _ _ _ (by decide)]
    exact Nat.mod_eq_of_lt fits
  · rw [State.fld_setFld_same _ _ _ (by decide)]
    exact Nat.mod_eq_of_lt fits'
  · rw [State.fld_setFld_other _ _ _ _ (by decide), State.fld_setFld_other _ _ _ _ (by decide)]
  · rw [State.fld_setFld_other _ _ _ _ (by decide), State.fld_setFld_other _ _ _ _ (by decide)]

/-- An entry from a low state that ends before its point of no return shows in POWER_STATUS alone (Table POWER-3). -/
theorem entryBack_low (low : s.power.from_ ≠ 0) : s.entryBack n = ((s.setFld F.POWER_STATUS_STATE s.power.from_).setFld F.POWER_STATUS_TARGET 0).setOutcome 3 n :=
  if_neg low

theorem entryBack_shows (low : s.power.from_ ≠ 0) (fits : s.power.from_ < 8) (fits' : n < 16) : OnlyRegs s (s.entryBack n) [R.POWER_STATUS] ∧
    (s.entryBack n).pstate = s.power.from_ ∧ (s.entryBack n).fld F.POWER_STATUS_TARGET = 0 ∧ (s.entryBack n).fld F.POWER_STATUS_RESULT = 3 ∧
    (s.entryBack n).fld F.POWER_STATUS_REFUSER = n := by
  rw [entryBack_low low]
  obtain ⟨result, refuser, state, target⟩ := setOutcome_shows ((s.setFld F.POWER_STATUS_STATE s.power.from_).setFld F.POWER_STATUS_TARGET 0) (by decide : 3 < 4) fits'
  refine ⟨?_, ?_, ?_, result, refuser⟩
  · have here : R.POWER_STATUS ∈ [R.POWER_STATUS] := List.mem_singleton_self _
    exact ((onlyRegs_setFld s F.POWER_STATUS_STATE _ here).trans (onlyRegs_setFld _ F.POWER_STATUS_TARGET 0 here)).trans (onlyRegs_setOutcome _ _ _)
  · rw [state, State.pstate, State.fld_setFld_other _ _ _ _ (by decide), State.fld_setFld_same _ _ _ (by decide)]
    exact Nat.mod_eq_of_lt fits
  · rw [target, State.fld_setFld_same _ _ _ (by decide)]
    rfl

/-! ### Exits (R480, R485, R486) -/

theorem OnlyRegs.power {t : State} {v : PowerSt} {l : List Nat} (h : OnlyRegs { s with power := v } t l) : OnlyPower s t l := by
  refine ⟨?_, h.2⟩
  rw [h.1]

/-- An exit refused with THERMAL. -/
def State.exitRefused (s : State) (src : Nat) : State :=
  (({ s with power := { s.power with thermalWait := some (s.power.thermalWait.getD src) } } : State).bump (F.POWER_REFUSE_REFUSED 5) 1).setOutcome 2 5

theorem startExit_hot (level : s.pstate ≤ 2) (hot : 416 ≤ s.hottest) : s.startExit src = s.exitRefused src := if_pos (by simp [level, hot])

theorem exitRefused_shows (s : State) (src : Nat) : OnlyPower s (s.exitRefused src) [R.POWER_STATUS, R.POWER_REFUSE 5] ∧
    (s.exitRefused src).power.thermalWait = some (s.power.thermalWait.getD src) ∧ (s.exitRefused src).pstate = s.pstate ∧
    (s.exitRefused src).fld F.POWER_STATUS_RESULT = 2 ∧ (s.exitRefused src).fld F.POWER_STATUS_REFUSER = 5 ∧
    (s.exitRefused src).fld (F.POWER_REFUSE_REFUSED 5) = min (s.fld (F.POWER_REFUSE_REFUSED 5) + 1) 65535 := by
  obtain ⟨u, waits⟩ : ∃ u : State, u = { s with power := { s.power with thermalWait := some (s.power.thermalWait.getD src) } } := ⟨_, rfl⟩
  have counted : OnlyRegs u (u.bump (F.POWER_REFUSE_REFUSED 5) 1) [R.POWER_REFUSE 5] := onlyRegs_setFld u _ _ (List.mem_singleton_self _)
  have shown := onlyRegs_setOutcome (u.bump (F.POWER_REFUSE_REFUSED 5) 1) 2 5
  obtain ⟨result, refuser, state, _⟩ := setOutcome_shows (u.bump (F.POWER_REFUSE_REFUSED 5) 1) (by decide : 2 < 4) (by decide : 5 < 16)
  unfold State.exitRefused
  rw [← waits]
  refine ⟨?_, ?_, ?_, result, refuser, ?_⟩
  · have only := (counted.widen (m := [R.POWER_STATUS, R.POWER_REFUSE 5]) (by simp)).trans (shown.widen (by simp))
    rw [waits] at only ⊢
    exact only.power
  · rw [setOutcome_power, State.bump_power, waits]
  · rw [state, State.pstate, State.fld_bump_other _ _ _ _ (by decide), waits]
    rfl
  · rw [fld_of_reg (shown.2 _ (by decide)), State.fld_bump_same _ _ _ (by decide), waits]
    rfl

/-- An exit begun. -/
def State.exitBegun (s : State) (src : Nat) : State :=
  ({ s with power := { s.power with from_ := s.pstate, source := src, thermalWait := none, exitAt := s.power.clock } } : State).setFld F.POWER_STATUS_STATE 6

theorem startExit_goes (cool : 2 < s.pstate ∨ s.hottest < 416) : s.startExit src = s.exitBegun src := if_neg (by simpa [imp_iff_not_or] using cool)

theorem exitBegun_shows (s : State) (src : Nat) : OnlyPower s (s.exitBegun src) [R.POWER_STATUS] ∧ (s.exitBegun src).pstate = 6 ∧
    (s.exitBegun src).power = { s.power with from_ := s.pstate, source := src, thermalWait := none, exitAt := s.power.clock } :=
  ⟨(onlyRegs_setFld _ F.POWER_STATUS_STATE 6 (List.mem_singleton_self _)).power, State.fld_setFld_same _ _ _ (by decide), rfl⟩

/-- POWER_LAST_WAKE after a return to Run (R486). -/
theorem lastWake_shows (source : s.power.source < 256) (from_ : s.power.from_ < 16) : OnlyRegs s s.lastWake [R.POWER_LAST_WAKE] ∧
    s.lastWake.fld F.POWER_LAST_WAKE_SOURCE = s.power.source ∧ s.lastWake.fld F.POWER_LAST_WAKE_FROM = s.power.from_ ∧
    s.lastWake.fld F.POWER_LAST_WAKE_COUNT = (s.fld F.POWER_LAST_WAKE_COUNT + 1) % 65536 ∧ s.lastWake.bit F.POWER_LAST_WAKE_BROWNOUT = s.power.brown := by
  refine ⟨?_, ?_, ?_, ?_, State.bit_setBit_same _ _ _ rfl (by decide)⟩
  · have here : R.POWER_LAST_WAKE ∈ [R.POWER_LAST_WAKE] := List.mem_singleton_self _
    exact (((onlyRegs_setFld s F.POWER_LAST_WAKE_SOURCE _ here).trans (onlyRegs_setFld _ F.POWER_LAST_WAKE_FROM _ here)).trans
      (onlyRegs_setFld _ F.POWER_LAST_WAKE_COUNT _ here)).trans (onlyRegs_setFld _ F.POWER_LAST_WAKE_BROWNOUT _ here)
  all_goals unfold State.lastWake
  · rw [State.fld_setBit_other _ _ _ _ (by decide), State.fld_setFld_other _ _ _ _ (by decide), State.fld_setFld_other _ _ _ _ (by decide),
      State.fld_setFld_same _ _ _ (by decide)]
    exact Nat.mod_eq_of_lt source
  · rw [State.fld_setBit_other _ _ _ _ (by decide), State.fld_setFld_other _ _ _ _ (by decide), State.fld_setFld_same _ _ _ (by decide)]
    exact Nat.mod_eq_of_lt from_
  · exact (State.fld_setBit_other _ _ _ _ (by decide)).trans (State.fld_setFld_same _ _ _ (by decide))

/-- The part in Run again with its streams resumed: recalibration counts from here (R480). -/
def State.runResumed (s : State) : State :=
  let u := (List.range 8).foldl (fun (a : State) k => a.setDie k { a.die k with recalFrom := a.uptime }) s
  let v : State := { u.setFld F.POWER_STATUS_STATE 0 with power := { u.power with quiet := false } }
  v.enabledStreams.foldl (fun (a : State) n => a.resumeStream n) v

/-- The notices that fell due while the part was asleep are sent. -/
def State.noticed (s : State) : State :=
  if s.lantern.noticesDue then ({ s with lantern := { s.lantern with noticesDue := false } } : State).sendNotices else s

theorem noticed_none (none : s.lantern.noticesDue = false) : s.noticed = s := if_neg (by simp [none])

/-- The wake is reported, with the brownout before it. -/
def State.wakeReported (s : State) : State := { s.lastWake with power := { s.lastWake.power with brown := false } }

theorem returnToRun_eq (s : State) : s.returnToRun [] = (if s.power.from_ = 3 then s.recheckDies else s).runResumed.noticed.wakeReported := rfl

theorem exec_powerExitDone (live : s.alive = true) (exiting : s.pstate = 6) (l : List Doorbell) : exec (.powerExitDone l) s = .next (s.returnToRun l) :=
  if_neg (by simp [live, exiting, psEXITING])

/-! ### Steps of an entry (R479, R484) -/

theorem exec_streamQuiesceDone (entering : s.entering = true) (run : s.power.from_ = 0) (first : s.power.quiet = false) (ended : s.quiescing = false) :
    exec .streamQuiesceDone s = .next s.quiesced := if_neg (by simp [entering, run, first, ended])

theorem exec_entryAbort_none {r : BitVec 4} (no : s.entering = false ∨ s.power.pnr = true ∨
    (r.toNat ≠ 8 ∧ s.refuserHolds (s.fld F.POWER_STATUS_TARGET) r.toNat = false)) : exec (.entryAbort r) s = .next s := by
  refine if_neg (fun aborts => ?_)
  unfold State.aborts at aborts
  dsimp only at aborts
  rcases no with idle | late | ⟨other, clear⟩
  · simp [idle] at aborts
  · simp [late] at aborts
  · simp [other, clear] at aborts

theorem exec_powerEntryDone_waits (no : s.entering = false ∨ s.power.pnr = false ∨ (3 < s.fld F.POWER_STATUS_TARGET ∧ s.power.railsOff ≠ 7)) :
    exec .powerEntryDone s = .next s := by
  show execPowerEntryDone s = _
  unfold execPowerEntryDone
  dsimp only
  split
  · rfl
  next going =>
    simp only [Bool.or_eq_true, Bool.not_eq_true', not_or, Bool.not_eq_false] at going
    obtain ⟨deep, rails⟩ := (no.resolve_left (by simp [going.1])).resolve_left (by simp [going.2])
    rw [if_neg (by omega), if_neg rails]

theorem exec_powerEntryDone_low (entering : s.entering = true) (late : s.power.pnr = true) (target : s.fld F.POWER_STATUS_TARGET = t) (low : t ≤ 3) :
    exec .powerEntryDone s = .next (s.enterLow t) := by
  subst target
  exact (if_neg (by simp [entering, late])).trans (if_pos low)

theorem exec_powerEntryDone_off (entering : s.entering = true) (late : s.power.pnr = true) (target : 3 < s.fld F.POWER_STATUS_TARGET)
    (rails : s.power.railsOff = 7) : exec .powerEntryDone s = .next s.enterOff :=
  (if_neg (by simp [entering, late])).trans ((if_neg (by omega)).trans (if_pos rails))

theorem enterOff_shows (s : State) : s.enterOff.power.off = true ∧ s.enterOff.alarmQ = [] ∧
    ∀ src, s.power.wakePend = some src → s.enterOff.power.waking = true ∧ s.enterOff.power.source = src := by
  unfold State.enterOff
  dsimp only
  cases s.power.wakePend with
  | none => exact ⟨rfl, rfl, fun src no => nomatch no⟩
  | some w => exact ⟨rfl, rfl, fun src pending => ⟨rfl, Option.some.inj pending⟩⟩

/-- POWER_STATUS and the power block when Idle, Sleep or Deep sleep is reached, before the wake that may wait. -/
def State.lowShown (s : State) (t : Nat) : State :=
  (((s.setFld F.POWER_STATUS_STATE t).setFld F.POWER_STATUS_TARGET 0).setFld F.POWER_STATUS_RESULT 1).setFld F.POWER_STATUS_REFUSER 0xF

def State.lowJournal (s : State) (t : Nat) : State :=
  if t = 1 then s.lowShown t else (if s.power.from_ ≤ 1 then (s.lowShown t).lanesIdle else s.lowShown t).journalWrite

def State.lowReached (s : State) (t : Nat) : State :=
  { s.lowJournal t with power := { (s.lowJournal t).power with
    pnr := false, wakePend := none, deepAt := if t = 3 then (s.lowJournal t).power.clock else (s.lowJournal t).power.deepAt } }

theorem enterLow_eq (s : State) (t : Nat) : s.enterLow t = match s.power.wakePend with
    | none => s.lowReached t
    | some src => (s.lowReached t).startExit src := by
  unfold State.enterLow
  cases s.power.wakePend <;> rfl

/-! ### Wakes (R486, Table POWER-3) -/

variable {b : Nat} {pr : Bool}

theorem wake_disabled (no : s.regBit R.POWER_WAKE_CFG b = false ∨ s.power.vstby = false) : s.wake src b pr = s := if_pos (by simpa using no)

section

variable (enabled : s.regBit R.POWER_WAKE_CFG b = true) (standby : s.power.vstby = true)

include enabled standby

theorem wake_stopped (down : s.power.off = true ∨ s.power.tripped = true) (first : s.power.waking = false) : s.wake src b pr =
    if s.power.tripped && (s.power.lockout || pr) then s
    else { s with power := { s.power with waking := true, railsOn := 0, source := src, from_ := if s.power.tripped then 5 else 4, exitAt := s.power.clock } } :=
  (if_neg (by simp [enabled, standby])).trans ((if_pos (by simpa using down)).trans (if_neg (by simp [first])))

variable (on : s.power.off = false) (whole : s.power.tripped = false) (out : s.power.inReset = false) (runs : s.power.tripping = false)

include on whole out runs

theorem wake_powered : s.wake src b false =
    if s.pstate = 5 then
      if s.power.pnr then { s with power := { s.power with wakePend := some (lowerSource s.power.wakePend src) } } else s.entryBack 0xF
    else if s.pstate = 0 then s
    else if s.pstate = 6 then (if s.power.exitAt = s.power.clock then { s with power := { s.power with source := min s.power.source src } } else s)
    else s.startExit src := by
  refine (if_neg (by simp [enabled, standby])).trans ((if_neg (by simp [on, whole])).trans ((if_neg (by simp [out, runs])).trans ?_))
  simp only [Bool.false_and, Bool.false_or, Bool.false_eq_true, if_false, decide_eq_true_eq]
  rfl

end

end

/-- Settles O43: the commands by the state, the outcomes in POWER_STATUS, the steps of an entry, and a wake by what it meets. -/
theorem powerEntriesExitsAndWakesFollowTheirTable : Obligations.PowerEntriesExitsAndWakesFollowTheirTable := by
  unfold Obligations.PowerEntriesExitsAndWakesFollowTheirTable
  refine ⟨fun p t i s cmd reached => ?command, fun s t n found => refuser_first found, fun s n st at_ => ?quiesce, fun p s reached => ?run,
    fun s r low fits fits' => entryBack_shows low fits fits', fun s src level hot => startExit_hot level hot ▸ exitRefused_shows s src,
    fun s src cool => startExit_goes cool ▸ exitBegun_shows s src, fun s no => if_pos (by simpa [or_assoc] using no),
    fun s entering run first ended => ?quiesced, fun s r aborts => if_pos aborts, fun s r no => exec_entryAbort_none no,
    fun s no => exec_powerEntryDone_waits no, fun s t entering late target low => ?low, fun s entering late target rails => ?off,
    fun l s no => if_pos (by simp only [Bool.or_eq_true, Bool.not_eq_true', decide_eq_true_eq]; exact no), fun s live exiting shallow quiet => ?exit, fun s source from_ => lastWake_shows source from_,
    fun s => ⟨rfl, fun no => if_pos (by simpa using no), fun due => ⟨_, rfl, if_neg (by simpa using due)⟩⟩, fun s src b pr no => wake_disabled no,
    fun s src b enabled standby on whole out runs => ?wake, fun s src b pr enabled standby off whole first => ?fromOff,
    fun s src b enabled standby tripped first => ?fromTripped⟩
  case command =>
    rw [exec_entryCommand reached cmd]
    refine ⟨fun no => by rw [enterCmd_notDeeper no], fun n settled deeper found => by rw [enterCmd_deeper settled deeper, found]; rfl,
      fun settled deeper none => ⟨_, s.entryBegun t, rfl, rfl, ?_⟩⟩
    rw [enterCmd_deeper settled deeper, none]
    refine ⟨fun run => by rw [startEntry_run run], fun low shallow => ?_, fun low deep => ?_⟩
    · rw [startEntry_low low, if_neg (by omega)]
    · rw [startEntry_low low, if_pos deep]
  case quiesce =>
    refine ⟨quiesce_stopped at_, fun open_ kept => ?_⟩
    rw [quiesce_going at_ open_ kept]
    exact ⟨fun none => by rw [none], fun w next before => by rw [next]; exact if_pos before, fun w next after => by rw [next]; exact if_neg (Nat.not_lt.2 after)⟩
  case run =>
    rw [exec_powerRun reached]
    refine ⟨fun entering early => by rw [runCmd_abandons entering early], fun late no => by rw [runCmd_refused late no], fun low notRun => ?_⟩
    rw [runCmd_exits low notRun]
    exact ⟨fun m => by rw [m], fun b => by rw [b]⟩
  case quiesced =>
    refine ⟨_, _, rfl, rfl, fun notOff => ?_, fun off => ?_⟩ <;> rw [exec_streamQuiesceDone entering run first ended]
    · exact congrArg _ (if_neg notOff)
    · exact congrArg _ (if_pos off)
  case low =>
    refine ⟨s.lowShown t, s.lowJournal t, s.lowReached t, rfl, fun idle => if_pos idle, fun deep awake => (if_neg deep).trans (by rw [if_pos awake]),
      fun deep asleep => (if_neg deep).trans (by rw [if_neg (Nat.not_le.2 asleep)]), rfl, fun none => ?_, fun src pending => ?_⟩ <;>
      rw [exec_powerEntryDone_low entering late target low, enterLow_eq]
    · rw [none]
    · rw [pending]
  case off => exact ⟨exec_powerEntryDone_off entering late target rails, enterOff_shows s⟩
  case exit =>
    refine ⟨_, _, s.runResumed, rfl, rfl, rfl, fun none => ?_⟩
    rw [exec_powerExitDone live exiting, returnToRun_eq, if_neg shallow, noticed_none none]
    rfl
  case wake =>
    rw [wake_powered enabled standby on whole out runs]
    refine ⟨fun run => ?_, fun notRun low => ?_, fun entering early => ?_, fun entering late => ?_⟩
    · rw [if_neg (by omega), if_pos run]
    · rw [if_neg (by omega), if_neg notRun, if_neg (by omega)]
    · rw [if_pos entering, early]
      rfl
    · rw [if_pos entering, if_pos late]
      rfl
  case fromOff =>
    rw [wake_stopped enabled standby (.inl off) first, whole]
    rfl
  case fromTripped =>
    rw [wake_stopped enabled standby (.inr tripped) first, tripped]
    exact ⟨fun locked => by rw [locked]; rfl, fun free => by rw [free]; rfl⟩

end Sys2Proof.Machine
end

section
/-! PROOFS.  Channels: words queued, replies written, and the commands SYNC, VERSION, UPDATE_STATUS, LOAD_PROGRAM and INSPECT
(14_lantern_mailboxes_updates R455 to R463, Tables LANTERN-3 to LANTERN-5). -/

namespace Sys2Proof.Machine

section

variable {s : State} {c : Chan} {n tag : Nat}

/-! ### Words taken (R456, R459) -/

/-- The state once Lantern has read the mailbox of channel `n`. -/
def State.wordRead (s : State) (n : Nat) : State := s.setRegBit R.MBX_IN_FULL n false

theorem exec_mbxWordTake_none (no : s.served = false ∨ s.regBit R.MBX_IN_FULL c.toNat = false) : exec (.mbxWordTake c) s = .next s := if_pos (by simpa using no)

section

variable (served : s.served = true) (full : s.regBit R.MBX_IN_FULL c.toNat = true)

include served full

theorem mbxWordTake_collision (mark : s.regBit R.MBX_IN_COLLISION c.toNat = true) : exec (.mbxWordTake c) s =
    .next ((((s.wordRead c.toNat).setRegBit R.MBX_IN_COLLISION c.toNat false).enterResync c.toNat).reply c.toNat 0x0D 0 []) := by
  refine (if_neg (by simp [served, full])).trans (if_pos ?_)
  rwa [State.regBit_setRegBit_other _ _ _ _ _ _ (.inl (by decide))]

variable (clean : s.regBit R.MBX_IN_COLLISION c.toNat = false)

include clean

theorem mbxWordTake_clean : exec (.mbxWordTake c) s =
    if (s.chan c.toNat).resync && (s.chan c.toNat).queue.isEmpty then
      .next (if s.reg (R.MBX_IN_DATA c.toNat) = 0 then (s.wordRead c.toNat).setChan c.toNat { s.chan c.toNat with queue := [s.reg (R.MBX_IN_DATA c.toNat)] }
        else s.wordRead c.toNat)
    else if 16 ≤ (s.chan c.toNat).queue.length then .next ((s.wordRead c.toNat).enterResync c.toNat)
    else .next (((s.wordRead c.toNat).setChan c.toNat
      { s.chan c.toNat with queue := (s.chan c.toNat).queue ++ [s.reg (R.MBX_IN_DATA c.toNat)] }).settle c.toNat 16) := by
  refine (if_neg (by simp [served, full])).trans (if_neg ?_)
  rw [State.regBit_setRegBit_other _ _ _ _ _ _ (.inl (by decide)), clean]
  decide

end

/-! ### Replies (R457, R461) -/

theorem exec_replyWrite_none (no : s.served = false ∨ s.regBit R.MBX_OUT_FULL c.toNat = true ∨ (s.chan c.toNat).replies = []) :
    exec (.replyWrite c) s = .next s := by
  show execReplyWrite c s = _
  unfold execReplyWrite
  dsimp only
  split
  · rfl
  next held => exact if_pos (by simpa [held] using no)

/-- The state once the held word `w` stands in the outbound mailbox. -/
def State.replyWritten (s : State) (n : Nat) (w : Word) (l : List Word) : State :=
  ((s.setChan n { s.chan n with replies := l }).setReg (R.MBX_OUT_DATA n) w).setRegBit R.MBX_OUT_FULL n true

theorem replyWritten_shows (s : State) (c : Chan) (w : Word) (l : List Word) :
    OnlyMailbox (s.setChan c.toNat { s.chan c.toNat with replies := l }) (s.replyWritten c.toNat w l) (R.MBX_OUT_DATA c.toNat) R.MBX_OUT_FULL R.MBX_OUT_COLLISION c.toNat ∧
    (s.replyWritten c.toNat w l).reg (R.MBX_OUT_DATA c.toNat) = w ∧ (s.replyWritten c.toNat w l).regBit R.MBX_OUT_FULL c.toNat = true ∧
    (s.replyWritten c.toNat w l).regBit R.MBX_OUT_COLLISION c.toNat = s.regBit R.MBX_OUT_COLLISION c.toNat := by
  obtain ⟨data, full, coll⟩ := mbxOut_apart (chan_lt c)
  obtain ⟨u, held⟩ : ∃ u, u = s.setChan c.toNat { s.chan c.toNat with replies := l } := ⟨_, rfl⟩
  have other : ∀ a m, a ≠ R.MBX_OUT_DATA c.toNat → (a ≠ R.MBX_OUT_FULL ∨ m ≠ c.toNat) →
      ((u.setReg (R.MBX_OUT_DATA c.toNat) w).setRegBit R.MBX_OUT_FULL c.toNat true).regBit a m = u.regBit a m := fun a m apart bit =>
    (State.regBit_setRegBit_other _ _ _ _ _ _ bit).trans (regBit_setReg_ne _ _ _ _ _ apart)
  obtain ⟨only, regs⟩ := ((onlyRegs_setReg u (R.MBX_OUT_DATA c.toNat) w).widen (m := [R.MBX_OUT_DATA c.toNat, R.MBX_OUT_FULL, R.MBX_OUT_COLLISION]) (by simp)).trans
    (onlyRegs_setRegBit _ R.MBX_OUT_FULL c.toNat true (by simp))
  unfold State.replyWritten
  rw [← held]
  refine ⟨⟨only.trans ?_, regs, fun m _ ne => ⟨other _ m full (.inr ne), other _ m coll (.inl (by decide))⟩⟩, ?_, State.regBit_setRegBit_same _ _ _ _ (chan_lt c), ?_⟩
  · rw [only]
  · rw [State.reg_setRegBit_ne _ _ _ _ data, State.reg_setReg_same]
  · rw [other _ _ coll (.inl (by decide)), held]
    rfl

theorem exec_replyWrite {w : Word} {l : List Word} (served : s.served = true) (empty : s.regBit R.MBX_OUT_FULL c.toNat = false)
    (held : (s.chan c.toNat).replies = w :: l) : exec (.replyWrite c) s = .next
      ((if s.bit F.MBX_IRQ_EN then (s.replyWritten c.toNat w l).sendMsi (s.fld F.MBX_IRQ_VECTOR) else s.replyWritten c.toNat w l).settle c.toNat 16) := by
  have irq : (s.replyWritten c.toNat w l).reg R.MBX_IRQ = s.reg R.MBX_IRQ := by
    have data : R.MBX_IRQ ≠ R.MBX_OUT_DATA c.toNat := by
      have := chan_lt c
      unfold R.MBX_IRQ R.MBX_OUT_DATA
      omega
    unfold State.replyWritten
    rw [State.reg_setRegBit_ne _ _ _ _ (by decide), State.reg_setReg_ne _ _ data, State.reg_setChan]
  show execReplyWrite c s = _
  unfold execReplyWrite
  dsimp only
  rw [held]
  refine (if_neg (by simp [served, empty])).trans ?_
  rw [← bit_of_reg (f := F.MBX_IRQ_EN) irq, ← fld_of_reg (f := F.MBX_IRQ_VECTOR) irq]
  rfl

/-- The header word of a reply (Table LANTERN-3). -/
theorem replyHeader {st len : Nat} (status : st < 256) (few : len < 16) (small : tag < 65536) {h : Word}
    (word : h = BitVec.ofNat 32 (st * 2 ^ 24 + len * 2 ^ 20 + 0 + tag % 65536)) :
    (h.extractLsb' 24 8).toNat = st ∧ (h.extractLsb' 20 4).toNat = len ∧ h.extractLsb' 16 4 = 0 ∧ (h.extractLsb' 0 16).toNat = tag := by
  have value : h.toNat = st * 2 ^ 24 + len * 2 ^ 20 + tag := by
    rw [word, BitVec.toNat_ofNat]
    omega
  refine ⟨?_, ?_, BitVec.eq_of_toNat_eq ?_, ?_⟩ <;> rw [BitVec.extractLsb'_toNat, value, Nat.shiftRight_eq_div_pow]
  · omega
  · omega
  · show _ = 0
    omega
  · omega

/-! ### Commands turned away (R455, R460) -/

theorem turnedAway_badCmd {h : Word} (bad : cmdArgs (cmdOp h) ≠ some (cmdNargs h)) : s.turnedAway h = some 0x01 := if_pos bad

theorem settle_turned {k st : Nat} {h : Word} {l : List Word} (front : s.front n = some (h, l)) (turned : s.turnedAway h = some st) :
    s.settle n (k + 1) = ((s.popFront n).reply n st (cmdTag h) []).settle n k := by
  conv_lhs => unfold State.settle
  rw [front]
  dsimp only
  rw [turned]

theorem settle_none (k : Nat) (none : s.front n = none) : s.settle n k = s := by
  cases k with
  | zero => rfl
  | succ k =>
    unfold State.settle
    rw [none]

theorem commandFirst_pops {op : Nat} {args : List Nat} (first : CommandFirst s c op tag args) :
    ∃ h l, (s.chan c.toNat).queue = h :: l ∧ s.popFront c.toNat = s.setChan c.toNat { s.chan c.toNat with queue := l.drop args.length } := by
  obtain ⟨h, l, front, _, _, _, rfl⟩ := first
  obtain ⟨t, queue, _, length, pops⟩ := front_queue front
  exact ⟨h, t, queue, by rw [List.length_map, length, pops]⟩

/-! ### LOAD_PROGRAM (R462) and INSPECT (R463) -/

theorem imageFault_setChan (s : State) (n : Nat) (q : ChanSt) (img : List Byte) (len : Nat) : (s.setChan n q).imageFault img len = s.imageFault img len := rfl

/-- The checks that a LOAD_PROGRAM of `len` bytes for group `g` passes before its image is read. -/
structure LoadTaken (s : State) (g len : Nat) : Prop where
  group : g < 64
  ready : s.power.hbm = true
  fits : len ≤ 67108864
  idle : s.groupState g = gsIDLE
  free : (s.grp g).pend = none

variable {img : List Byte} {nets : List NetDef} {ok : Bool} {g lo hi len : Nat}

section

variable (free : s.lantern.load = none) (first : CommandFirst s c 0x10 tag [g, lo, hi, len])

include free first

theorem loadProgram_badArg (big : 64 ≤ g) : RepliesOnly (.loadProgram c img nets ok) s c 0x02 tag [] :=
  executes first (if_neg (by simp [free])) (fun q => if_pos big)

theorem loadProgram_notReady (group : g < 64) (dark : s.power.hbm = false) : RepliesOnly (.loadProgram c img nets ok) s c 0x05 tag [] :=
  executes first (if_neg (by simp [free])) (fun q => (if_neg (Nat.not_le.2 group)).trans (if_pos (by simp [dark])))

theorem loadProgram_long (group : g < 64) (ready : s.power.hbm = true) (long : 67108864 < len) :
    RepliesOnly (.loadProgram c img nets ok) s c 0x04 tag [9] :=
  executes first (if_neg (by simp [free])) (fun q => (if_neg (Nat.not_le.2 group)).trans ((if_neg (by simp [ready])).trans (if_pos long)))

theorem loadProgram_busy (group : g < 64) (ready : s.power.hbm = true) (fits : len ≤ 67108864) (busy : s.groupState g ≠ gsIDLE ∨ (s.grp g).pend.isSome = true) :
    RepliesOnly (.loadProgram c img nets ok) s c 0x04 tag [8] :=
  executes first (if_neg (by simp [free])) (fun q => (if_neg (Nat.not_le.2 group)).trans ((if_neg (by simp [ready])).trans
    ((if_neg (Nat.not_lt.2 fits)).trans (if_pos (by simp only [Bool.or_eq_true, decide_eq_true_eq]; exact busy)))))

/-- The load of group `g` under way over the state `a`: the channel waits for its end. -/
def State.loadStarted (a : State) (c : Chan) (tag g len : Nat) (img : List Byte) (nets : List NetDef) : State :=
  let b := ((a.setChan c.toNat { a.chan c.toNat with busy := true }).setGroupState g gsLOADING).setGrp g { a.grp g with loading := some (img, nets) }
  { b with lantern := { b.lantern with load := some ⟨⟨some c.toNat, tag⟩, g, len⟩ } }

/-- A LOAD_PROGRAM that passes the checks reads its image, and a good image is loaded (R187, R462). -/
theorem loadProgram_taken (taken : LoadTaken s g len) : Executes (.loadProgram c img nets ok) s c (fun a =>
    if ok = false then a.dmaError.reply c.toNat 0x06 tag [] else
      (s.imageFault (img.take len) len).elim (a.loadStarted c tag g len (img.take len) nets) (fun code => a.reply c.toNat 0x04 tag [code])) := by
  obtain ⟨group, ready, fits, idle, none⟩ := taken
  have accepted : ∀ q, ¬(decide ((s.setChan c.toNat q).groupState g ≠ gsIDLE) || ((s.setChan c.toNat q).grp g).pend.isSome) = true := fun q => by
    simp only [Bool.or_eq_true, decide_eq_true_eq, not_or, not_not]
    exact ⟨idle, fun some_ => by rw [show ((s.setChan c.toNat q).grp g).pend = Option.none from none] at some_; cases some_⟩
  refine executes first (if_neg (by simp [free])) (fun q => (if_neg (Nat.not_le.2 group)).trans ((if_neg (by simp [ready])).trans
    ((if_neg (Nat.not_lt.2 fits)).trans ((if_neg (accepted q)).trans ?_))))
  cases ok with
  | false => rfl
  | true =>
    refine (if_neg (by decide)).trans ?_
    rw [if_neg (by decide)]
    show (match s.imageFault (img.take len) len with | some code => _ | Option.none => _) = _
    cases s.imageFault (img.take len) len <;> rfl

end

/-- The range that INSPECT reads lies in a core's SRAM: a mesh position and whole words (R463). -/
def inspectBad (pos off len : Nat) : Prop :=
  16384 ≤ pos ∨ 88 ≤ pos / 128 ∨ 96 ≤ pos % 128 ∨ off % 8 ≠ 0 ∨ len % 8 ≠ 0 ∨ len < 8 ∨ 4096 < len ∨ sramSize < off + len

/-- The core at a mesh position. -/
def corePos (pos : Nat) : Nat := pos / 128 * 96 + pos % 128

/-- The bytes of an INSPECT that ECC lets through. -/
def inspectLen (len : Nat) (bad : Option (BitVec 9)) : Nat := bad.elim len (fun b => min len (8 * b.toNat))

section

variable {pos off : Nat} {bad : Option (BitVec 9)} (first : CommandFirst s c 0x11 tag [pos, off, len, lo, hi])

include first

theorem inspect_badArg (out : inspectBad pos off len) : RepliesOnly (.inspect c bad ok) s c 0x02 tag [] :=
  executes first rfl (fun q => if_pos (by simp only [Bool.or_eq_true, decide_eq_true_eq, or_assoc]; exact out))

variable (within : ¬ inspectBad pos off len)

include within

theorem inspect_fenced (fenced : (s.core (corePos pos)).fenced = true) : RepliesOnly (.inspect c bad ok) s c 0x0A tag [] :=
  executes first rfl (fun q => (if_neg (by simp only [Bool.or_eq_true, decide_eq_true_eq, or_assoc]; exact within)).trans (if_pos fenced))

variable (clear : (s.core (corePos pos)).fenced = false)

include clear

theorem inspect_failed : Executes (.inspect c bad false) s c (fun a => a.dmaError.reply c.toNat 0x06 tag []) :=
  executes first rfl (fun q => (if_neg (by simp only [Bool.or_eq_true, decide_eq_true_eq, or_assoc]; exact within)).trans
    ((if_neg (Bool.eq_false_iff.1 clear)).trans (if_pos rfl)))

theorem inspect_reads : Executes (.inspect c bad true) s c (fun a =>
    let k := s.core (corePos pos)
    let m := inspectLen len bad
    let w := a.hostWrite (lo + 2 ^ 32 * hi) (k.bytes off m)
    (if decide (0 < k.unwritten off m) = true then w.bump F.HOST_UNINIT_COUNT 1 else w).holdWords c.toNat
      (replyWords (if m < len then 0x09 else 0x00) tag (decide (0 < k.unwritten off m)) [m])) := by
  refine executes first rfl (fun q => (if_neg (by simp only [Bool.or_eq_true, decide_eq_true_eq, or_assoc]; exact within)).trans
    ((if_neg (Bool.eq_false_iff.1 clear)).trans ((if_neg (by decide)).trans ?_)))
  cases bad <;> simp only [decide_eq_true_eq] <;> rfl

end

end

/-- Settles O40: a word taken by what its mailbox and queue hold, a reply by its mailbox, and each command by its checks in order. -/
theorem channelsQueueExecuteAndReply : Obligations.ChannelsQueueExecuteAndReply := by
  unfold Obligations.ChannelsQueueExecuteAndReply
  refine ⟨fun c s no => exec_mbxWordTake_none no, fun c s served full => ?take, fun s n => rfl, fun c s no => exec_replyWrite_none no,
    fun c s w l served empty held => ?write, fun s n st tag res status few small => ?reply, fun s h bad => turnedAway_badCmd bad,
    fun s n k h l st front turned => settle_turned front turned, fun s n k none => settle_none k none, fun c s op tag args first => commandFirst_pops first,
    fun c s tag first => executes first rfl (fun q => rfl), fun c s tag first => executes first rfl (fun q => rfl),
    fun c s tag first => executes first rfl (fun q => rfl), fun c img nets ok s loading => if_pos loading,
    fun c img nets ok s tag g lo hi len free first => ?load, fun c bad ok s tag pos off len lo hi first => ?inspect⟩
  case take =>
    refine ⟨s.wordRead c.toNat, onlyRegs_setRegBit _ _ _ _ (List.mem_singleton_self _), State.regBit_setRegBit_same _ _ _ _ (chan_lt c),
      fun m _ other => State.regBit_setRegBit_other _ _ _ _ _ _ (.inr other), fun mark => mbxWordTake_collision served full mark,
      fun clean resync empty word => ?_, fun clean resync empty zero => ?_, fun clean long => ?_, fun clean open_ short => ?_⟩ <;>
      rw [mbxWordTake_clean served full clean]
    · rw [if_pos (by simp [resync, empty]), if_neg word]
    · rw [if_pos (by simp [resync, empty]), if_pos zero, zero]
    · rw [if_neg (fun empty => by simp only [Bool.and_eq_true, List.isEmpty_iff] at empty; simp [empty.2] at long), if_pos long]
    · rw [if_neg (fun empty => by simp only [Bool.and_eq_true, List.isEmpty_iff] at empty; simp [empty] at open_), if_neg (Nat.not_le.2 short)]
  case write =>
    obtain ⟨only, data, full, coll⟩ := replyWritten_shows s c w l
    refine ⟨_, only, data, full, coll, fun off => ?_, fun on => ?_⟩ <;> rw [exec_replyWrite served empty held]
    · rw [off]
      rfl
    · rw [on]
      rfl
  case reply =>
    obtain ⟨h1, h2, h3, h4⟩ := replyHeader status few small rfl
    exact ⟨_, h1, h2, h3, h4, rfl⟩
  case load =>
    refine ⟨loadProgram_badArg free first, loadProgram_notReady free first, loadProgram_long free first, loadProgram_busy free first,
      fun group ready fits idle none => ?_⟩
    have runs := @loadProgram_taken s c tag img nets ok g lo hi len free first ⟨group, ready, fits, idle, none⟩
    refine ⟨fun fails => ?_, fun code reads bad => ?_, fun reads good => ⟨_, ?_, fun a => ⟨_, rfl, rfl⟩⟩⟩
    · subst fails
      exact runs
    · subst reads
      rw [bad] at runs
      exact runs
    · subst reads
      rw [good] at runs
      exact runs
  case inspect =>
    refine ⟨inspect_badArg first, fun row column offset whole some_ few inside => ?_⟩
    have within : ¬ inspectBad pos off len := by
      unfold inspectBad
      omega
    refine ⟨inspect_fenced first within, fun clear fails => fails ▸ inspect_failed first within clear,
      fun clear reads => ⟨inspectLen len bad, decide (0 < (s.core (corePos pos)).unwritten off (inspectLen len bad)), if inspectLen len bad < len then 0x09 else 0x00,
        fun every => ?_, fun b at_ => ?_, decide_eq_true_iff, fun a => a.hostWrite (lo + 2 ^ 32 * hi) ((s.core (corePos pos)).bytes off (inspectLen len bad)),
        fun a => rfl, ?_⟩⟩
    · subst every
      exact ⟨rfl, if_neg (Nat.lt_irrefl len)⟩
    · subst at_
      exact ⟨rfl, rfl⟩
    · subst reads
      exact inspect_reads first within clear

end Sys2Proof.Machine
end

section
/-! PROOFS.  Firmware banks, trials and unplanned restarts (14_lantern_mailboxes_updates R448 to R450, R467 to R470, Tables LANTERN-6, LANTERN-8). -/

namespace Sys2Proof.Machine

section

variable {s : State} {c : Chan} {n tag b : Nat} {sig : Bool}

theorem executes_congr {i : Instr} {f g : State → State} (h : Executes i s c f) (same : ∀ a, f a = g a) : Executes i s c g := by
  obtain rfl : f = g := funext same
  exact h

/-! ### FW_DOWNLOAD (R467) -/

theorem setChan_free (free : s.lantern.fwJob = none) (q : ChanSt) : ¬ (s.setChan c.toNat q).lantern.fwJob.isSome = true := by
  rw [show (s.setChan c.toNat q).lantern.fwJob = none from free]
  exact Bool.false_ne_true

section

variable {img : List Byte} {ok : Bool} {lo hi len : Nat} (first : CommandFirst s c 0x20 tag [lo, hi, len])

include first

theorem fwDownload_busy (busy : s.lantern.fwJob.isSome = true) : RepliesOnly (.fwDownload c img ok) s c 0x03 tag [] :=
  executes first rfl (fun _ => if_pos busy)

variable (free : s.lantern.fwJob = none)

include free

theorem fwDownload_noBank (full : s.inactiveBank = none) : RepliesOnly (.fwDownload c img ok) s c 0x0B tag [] := by
  refine executes first rfl (fun q => (if_neg (setChan_free free q)).trans ?_)
  rw [show (s.setChan c.toNat q).inactiveBank = none from full]
  rfl

/-- With an inactive bank, FW_DOWNLOAD goes by its length and its read. -/
theorem fwDownload_bank (bank : s.inactiveBank = some b) : Executes (.fwDownload c img ok) s c (fun a =>
    if 1048576 < len then a.reply c.toNat 0x02 tag []
    else if !ok then ((a.emptyBank b).dmaError).reply c.toNat 0x06 tag []
    else
      let h := img.take (min len 128)
      let u := ((a.setChan c.toNat { a.chan c.toNat with busy := true }).setBank b fbDOWNLOADING).setHdr b h
      { u with lantern := { u.lantern with fwJob := some ⟨⟨some c.toNat, tag⟩, b, h⟩ } }) := by
  refine executes first rfl (fun q => (if_neg (setChan_free free q)).trans ?_)
  rw [show (s.setChan c.toNat q).inactiveBank = some b from bank]
  rfl

end

theorem fwDownloadDone_none {ok : Bool} (no : s.lantern.fwJob = none ∨ s.served = false) : exec (.fwDownloadDone ok) s = .next s := by
  show execFwDownloadDone ok s = _
  unfold execFwDownloadDone
  split
  · rfl
  next job => exact if_pos (by simpa [job] using no)

theorem fwDownloadDone_ends {ok : Bool} {j : FwJob} (served : s.served = true) (job : s.lantern.fwJob = some j) : exec (.fwDownloadDone ok) s =
    .next (if ok then (({ s with lantern := { s.lantern with fwJob := none } } : State).setBank j.bank fbDOWNLOADED).answer j.who rsOK [j.bank]
      else (({ s with lantern := { s.lantern with fwJob := none } } : State).emptyBank j.bank).answer j.who rsDMA_ERR []) := by
  show execFwDownloadDone ok s = _
  unfold execFwDownloadDone
  rw [job]
  exact if_neg (by simp [served])

/-! ### FW_VERIFY, FW_ACTIVATE, FW_CONFIRM and FW_ROLLBACK (Table LANTERN-8) -/

theorem fwVerify_noBank (first : CommandFirst s c 0x21 tag []) (none : s.bankIn fbDOWNLOADED = none) : RepliesOnly (.fwVerify c sig) s c 0x0B tag [] :=
  executes first rfl (fun q => by dsimp only; rw [show (s.setChan c.toNat q).bankIn fbDOWNLOADED = Option.none from none]; rfl)

theorem fwVerify_bank (first : CommandFirst s c 0x21 tag []) (bank : s.bankIn fbDOWNLOADED = some b) : Executes (.fwVerify c sig) s c (fun a =>
    if !(s.hdrPasses (s.bankHdr b) && sig) then a.reply c.toNat 0x07 tag []
    else if hdrSvn (s.bankHdr b) < s.fld F.LANTERN_SVN_MIN_SVN then a.reply c.toNat 0x08 tag []
    else (a.setBank b fbVERIFIED).reply c.toNat 0x00 tag [hdrVersion (s.bankHdr b), hdrSvn (s.bankHdr b)]) :=
  executes first rfl (fun q => by dsimp only; rw [show (s.setChan c.toNat q).bankIn fbDOWNLOADED = some b from bank]; rfl)

theorem fwActivate_noBank (first : CommandFirst s c 0x22 tag []) (none : s.bankIn fbVERIFIED = none) : RepliesOnly (.fwActivate c) s c 0x0B tag [] :=
  executes first rfl (fun q => by dsimp only; rw [show (s.setChan c.toNat q).bankIn fbVERIFIED = Option.none from none]; rfl)

/-- Bank `b` in trial, the other bank in FALLBACK when it was ACTIVE, and the switch begun (R469). -/
def State.trialBegun (s a : State) (n tag b : Nat) : State :=
  let u := if s.bankState (1 - b) = fbACTIVE then a.setBank (1 - b) fbFALLBACK else a
  let v := ((u.setBank b fbTRIAL).reply n 0x00 tag []).setBit F.LANTERN_STATUS_SWITCHING true
  { v with lantern := { v.lantern with boot := some { bank := b, switch := true } } }

theorem fwActivate_bank (first : CommandFirst s c 0x22 tag []) (bank : s.bankIn fbVERIFIED = some b) :
    Executes (.fwActivate c) s c (fun a => s.trialBegun a c.toNat tag b) :=
  executes first rfl (fun q => by dsimp only; rw [show (s.setChan c.toNat q).bankIn fbVERIFIED = some b from bank]; rfl)

theorem fwConfirm_noBank (first : CommandFirst s c 0x23 tag []) (none : s.bankIn fbTRIAL = none) : RepliesOnly (.fwConfirm c) s c 0x0B tag [] :=
  executes first rfl (fun q => by dsimp only; rw [show (s.setChan c.toNat q).bankIn fbTRIAL = Option.none from none]; rfl)

theorem fwConfirm_bank (first : CommandFirst s c 0x23 tag []) (bank : s.bankIn fbTRIAL = some b) : Executes (.fwConfirm c) s c (fun a =>
    (((a.setBank b fbACTIVE).setBit F.LANTERN_STATUS_TRIAL false).setFld F.LANTERN_SVN_MIN_SVN
      (max (s.fld F.LANTERN_SVN_MIN_SVN) (hdrSvn (s.bankHdr b)))).reply c.toNat 0x00 tag []) :=
  executes first rfl (fun q => by dsimp only; rw [show (s.setChan c.toNat q).bankIn fbTRIAL = some b from bank]; rfl)

theorem fwRollback_noBank (first : CommandFirst s c 0x24 tag []) (none : s.bankIn fbTRIAL = none) : RepliesOnly (.fwRollback c) s c 0x0B tag [] :=
  executes first rfl (fun q => if_pos (by rw [show (s.setChan c.toNat q).bankIn fbTRIAL = Option.none from none]; rfl))

theorem fwRollback_bank (first : CommandFirst s c 0x24 tag []) (bank : s.bankIn fbTRIAL = some b) :
    Executes (.fwRollback c) s c (fun a => (a.reply c.toNat 0x00 tag []).rollbackSwitch) :=
  executes first rfl (fun q => if_neg (by rw [show (s.setChan c.toNat q).bankIn fbTRIAL = some b from bank]; exact Bool.false_ne_true))

theorem rollbackSwitch_bank (bank : s.bankIn fbTRIAL = some b) : s.rollbackSwitch = ({ s.trialRejected b with lantern := { (s.trialRejected b).lantern with
    boot := some { bank := 1 - b, switch := true, rollback := true }, rolledBack := (s.trialRejected b).lantern.rolledBack ++ [0] } } : State).setBit
      F.LANTERN_STATUS_SWITCHING true := by
  unfold State.rollbackSwitch
  rw [bank]
  rfl

/-! ### Trials and bank switches (R469, R470) -/

theorem trialExpiry_none (no : s.lanternRuns = false ∨ s.bit F.LANTERN_STATUS_TRIAL = false ∨ s.fld F.LANTERN_TRIAL_WAIT_S = 0 ∨
    s.power.clock < s.lantern.trialAt + 100000000 * s.fld F.LANTERN_TRIAL_WAIT_S) : exec .trialExpiry s = .next s := by
  refine if_neg (fun due => ?_)
  simp only [Bool.and_eq_true, decide_eq_true_eq] at due
  obtain ⟨⟨⟨runs, trial⟩, wait⟩, passed⟩ := due
  rcases no with no | no | no | no
  · simp [runs] at no
  · simp [trial] at no
  · exact wait no
  · exact absurd passed (Nat.not_le.2 no)

theorem trialExpiry_due (runs : s.lanternRuns = true) (trial : s.bit F.LANTERN_STATUS_TRIAL = true) (wait : s.fld F.LANTERN_TRIAL_WAIT_S ≠ 0)
    (passed : s.lantern.trialAt + 100000000 * s.fld F.LANTERN_TRIAL_WAIT_S ≤ s.power.clock) : exec .trialExpiry s = .next s.rollbackSwitch :=
  if_pos (by simp only [Bool.and_eq_true, decide_eq_true_eq]; exact ⟨⟨⟨runs, trial⟩, wait⟩, passed⟩)

variable {aG bG : Bool}

theorem bankSwitchDone_none (no : s.lantern.boot = none ∨ (∃ b, s.lantern.boot = some b ∧ b.switch = false) ∨ s.alive = false ∨ s.powerLevel = 3) :
    exec (.bankSwitchDone aG bG) s = .next s := by
  show execBankSwitchDone aG bG s = _
  unfold execBankSwitchDone
  split
  · rfl
  next x boot =>
    refine if_pos ?_
    simp only [Bool.or_eq_true, Bool.not_eq_true', decide_eq_true_eq, or_assoc]
    rcases no with none | ⟨y, some_, back⟩ | dead | deep
    · rw [boot] at none
      cases none
    · rw [boot] at some_
      cases some_
      exact .inl back
    · exact .inr (.inl dead)
    · exact .inr (.inr deep)

/-- The firmware that a choice of bank leaves to run, if any, runs. -/
def State.started (s : State) : State :=
  match s.lantern.boot with
  | some b => s.startBank b
  | none => s

theorem started_none (none : s.lantern.boot = none) : s.started = s := by
  unfold State.started
  rw [none]

theorem started_some {b : Boot} (boot : s.lantern.boot = some b) : s.started = s.startBank b := by
  unfold State.started
  rw [boot]

/-- A bank that does not pass is REJECTED when it was in trial (R469). -/
def State.switchFailed (s : State) (b : Nat) : State :=
  if s.bankState b = fbTRIAL then ((s.setBank b fbREJECTED).alarm F.LANTERN_ALARM_FW_ROLLBACK b).rollbackNoted else s

theorem bankSwitchDone_acts {b : Boot} (boot : s.lantern.boot = some b) (switch : b.switch = true) (live : s.alive = true) (awake : s.powerLevel ≠ 3) :
    exec (.bankSwitchDone aG bG) s = if s.bankPasses b.bank (if b.bank = 0 then aG else bG) then .next (s.startBank b)
      else .next ((s.switchFailed b.bank).chooseBank aG bG 0).started := by
  show execBankSwitchDone aG bG s = _
  unfold execBankSwitchDone
  rw [boot]
  refine (if_neg (by simp [switch, live, awake])).trans ?_
  exact if_congr Iff.rfl rfl rfl

/-! ### Unplanned restarts (R450) -/

theorem watchdogExpiry_none (no : s.lanternRuns = false) : exec (.watchdogExpiry aG bG) s = .next s := if_neg (by simp [no])

theorem watchdogExpiry_restarts (runs : s.lanternRuns = true) : exec (.watchdogExpiry aG bG) s = .next (s.unplanned 1 aG bG) := if_pos runs

theorem flintMFault_none {m : Bool} (no : s.served = false) : exec (.flintMFault m aG bG) s = .next s := if_neg (by simp [no])

theorem flintMFault_restarts {m : Bool} (served : s.served = true) : exec (.flintMFault m aG bG) s = .next (s.unplanned (if m then 3 else 2) aG bG) := if_pos served

/-- Each of the listed channels emptied and put in resync. -/
def State.allResync (s : State) (l : List Nat) : State := l.foldl (fun (a : State) n => (a.setChan n {}).enterResync n) s

theorem lantern_allResync (s : State) (l : List Nat) : { (s.allResync l).lantern with chans := [] } = { s.lantern with chans := [] } :=
  foldl_keeps2 (fun a => { a.lantern with chans := [] }) _ (fun a n => by rw [resync_lantern]) l s

theorem fld_allResync (s : State) (l : List Nat) {g : Fld} (own : g.addr < 0x20 ∧ g.addr ≠ 4) : (s.allResync l).fld g = s.fld g :=
  foldl_keeps2 (fun a => a.fld g) _ (fun a n => resync_fld a n g own) l s

theorem loseDownloads_free (noFw : s.lantern.fwJob = none) (noLib : s.lantern.libJob = none) : s.loseDownloads = s := by
  unfold State.loseDownloads
  simp only [noFw, noLib, ite_self]

/-- The state in which an unplanned restart is counted: the fault is recorded, the count and the alarm tell it. -/
def State.restartCounted (s : State) (cause : Nat) : State :=
  (({ s with faults := keepTwo ((.lantern, s.uptime) :: s.faults) .lantern } : State).bump F.LANTERN_RESTARTS_COUNT 1).alarm F.LANTERN_ALARM_RESTART cause

theorem lantern_restartCounted (s : State) (cause : Nat) : (s.restartCounted cause).lantern = s.lantern := by
  unfold State.restartCounted
  rw [State.alarm_keeps]
  rfl

theorem fld_restartCounted (s : State) (cause : Nat) {g : Fld} (own : g.addr < 0x20 ∧ g.addr ≠ 4) : (s.restartCounted cause).fld g = s.fld g := by
  unfold State.restartCounted
  rw [fld_lanternAlarm _ _ _ _ rfl own, State.fld_bump_other]
  · rfl
  · exact .inl (fun e => absurd own.1 (by rw [e]; decide))

theorem bankIn_restart (s : State) (cause : Nat) (l : List Nat) (st : Nat) : ((s.restartCounted cause).allResync l).bankIn st = s.bankIn st := by
  have banks : ∀ n, ((s.restartCounted cause).allResync l).bankState n = s.bankState n := fun n => by
    unfold State.bankState
    split <;> exact (fld_allResync _ _ (by decide)).trans (fld_restartCounted _ _ (by decide))
  unfold State.bankIn
  simp only [banks]

/-- The jobs under way go on without the commands that began them. -/
def State.commandsForgotten (s : State) : State := { s with lantern := { s.lantern with
  fwJob := s.lantern.fwJob.map (fun j => { j with who := { j.who with chan := none } })
  load := s.lantern.load.map (fun j => { j with who := { j.who with chan := none } })
  libJob := s.lantern.libJob.map (fun j => { j with who := { j.who with chan := none } }) } }

theorem commandsForgotten_free (noFw : s.lantern.fwJob = none) (noLoad : s.lantern.load = none) (noLib : s.lantern.libJob = none) : s.commandsForgotten = s := by
  unfold State.commandsForgotten
  rw [noFw, noLoad, noLib, Option.map_none, Option.map_none, Option.map_none, ← noFw, ← noLoad, ← noLib]

/-- What an unplanned restart does once the downloads are lost: a trial rolls back, else a bank is chosen. -/
def State.restartEnds (s : State) (third : Bool) (cause : Nat) (aG bG : Bool) : State :=
  if (s.bankIn fbTRIAL).isSome then s.rollbackSwitch
  else ((if third then s.thirdRestart aG bG else s).setBit F.LANTERN_STATUS_READY false).chooseBank aG bG cause

theorem unplanned_eq (cause : Nat) : s.unplanned cause aG bG =
    ((s.restartCounted cause).allResync (List.range 32)).commandsForgotten.loseDownloads.restartEnds (false || decide (2 ≤ s.recentFaults .lantern)) cause aG bG := rfl

/-- With no download, load or trial under way and fewer than two restarts in the last day, all channels enter resync and a bank is chosen. -/
theorem unplanned_chooses (cause : Nat) (noFw : s.lantern.fwJob = none) (noLoad : s.lantern.load = none) (noLib : s.lantern.libJob = none)
    (noTrial : s.bankIn fbTRIAL = none) (rare : s.recentFaults .lantern < 2) :
    s.unplanned cause aG bG = (((s.restartCounted cause).allResync (List.range 32)).setBit F.LANTERN_STATUS_READY false).chooseBank aG bG cause := by
  have trial : ((s.restartCounted cause).allResync (List.range 32)).bankIn fbTRIAL = none := (bankIn_restart s cause _ _).trans noTrial
  have kept := (lantern_allResync (s.restartCounted cause) (List.range 32)).trans (by rw [lantern_restartCounted])
  have fw := (congrArg LanternSt.fwJob kept).trans noFw
  have load := (congrArg LanternSt.load kept).trans noLoad
  have lib := (congrArg LanternSt.libJob kept).trans noLib
  rw [unplanned_eq, commandsForgotten_free fw load lib, loseDownloads_free fw lib, decide_eq_false (Nat.not_le.2 rare)]
  exact if_neg (by rw [trial]; exact Bool.false_ne_true)

/-! ### The choice of a bank (R448) -/

/-- No bank in the state passes its checks. -/
def State.noneIn (s : State) (st : Nat) (aG bG : Bool) : Prop :=
  s.bankIn st = none ∨ ∃ n, s.bankIn st = some n ∧ s.bankPasses n (if n = 0 then aG else bG) = false

theorem filter_of_noneIn {st : Nat} (none : s.noneIn st aG bG) : (s.bankIn st).filter (fun n => s.bankPasses n (if n = 0 then aG else bG)) = .none := by
  obtain none | ⟨n, bank, fails⟩ := none
  · rw [none]
    rfl
  · rw [bank, Option.filter_some, fails]
    rfl

theorem chooseBank_fallback {n m : Nat} (cause : Nat) (active : s.bankIn fbACTIVE = some n) (fails : s.bankPasses n (if n = 0 then aG else bG) = false)
    (fallback : s.bankIn fbFALLBACK = some m) (pass : s.bankPasses m (if m = 0 then aG else bG) = true) : ∃ u : State,
    u = ((s.setBank n fbREJECTED).setBank m fbACTIVE).alarm F.LANTERN_ALARM_FALLBACK_BOOT m ∧
      s.chooseBank aG bG cause = { u with lantern := { u.lantern with boot := some { bank := m, cause := cause } } } := by
  refine ⟨_, rfl, ?_⟩
  unfold State.chooseBank
  simp only [active, fallback, Option.filter_some, fails, pass, Bool.false_eq_true, if_false, if_true]

theorem chooseBank_none (cause : Nat) (active : s.noneIn fbACTIVE aG bG) (fallback : s.noneIn fbFALLBACK aG bG) : s.chooseBank aG bG cause = s.enterRecovery := by
  unfold State.chooseBank
  simp only [filter_of_noneIn active, filter_of_noneIn fallback]

theorem enterRecovery_shows (s : State) : s.enterRecovery.bit F.LANTERN_STATUS_READY = false ∧ s.enterRecovery.bit F.LANTERN_STATUS_RECOVERY = true ∧
    s.enterRecovery.bit F.LANTERN_STATUS_TRIAL = false ∧ s.enterRecovery.lantern.boot = none := by
  unfold State.enterRecovery
  refine ⟨?_, ?_, ?_, rfl⟩
  · rw [State.bit_setFld_other _ _ _ _ (by decide), State.bit_setBit_other _ _ _ _ (by decide), State.bit_setBit_other _ _ _ _ (by decide),
      State.bit_setBit_other _ _ _ _ (by decide), State.bit_setBit_same _ _ _ rfl (by decide)]
  · rw [State.bit_setFld_other _ _ _ _ (by decide), State.bit_setBit_other _ _ _ _ (by decide), State.bit_setBit_other _ _ _ _ (by decide),
      State.bit_setBit_same _ _ _ rfl (by decide)]
  · rw [State.bit_setFld_other _ _ _ _ (by decide), State.bit_setBit_same _ _ _ rfl (by decide)]

/-! ### The start of a bank's firmware (R448 step 4) -/

/-- What the registers of Lantern show once a bank's firmware runs. -/
def State.runShown (s : State) (trial : Bool) (bank version svn : Nat) : State :=
  (((((((s.setBit F.LANTERN_STATUS_READY true).setBit F.LANTERN_STATUS_RECOVERY false).setBit F.LANTERN_STATUS_SWITCHING false).setBit
    F.LANTERN_STATUS_TRIAL trial).setFld F.LANTERN_STATUS_ACTIVE_BANK bank).setFld F.LANTERN_FW_RUN_VERSION version).setFld F.LANTERN_SVN_RUN_SVN svn)

theorem onlyRegs_runShown (s : State) (trial : Bool) (bank version svn : Nat) :
    OnlyRegs s (s.runShown trial bank version svn) [R.LANTERN_STATUS, R.LANTERN_FW_RUN, R.LANTERN_SVN] :=
  have status (a : State) (f : Fld) (v : Nat) (here : f.addr = R.LANTERN_STATUS) : OnlyRegs a (a.setFld f v) [R.LANTERN_STATUS, R.LANTERN_FW_RUN, R.LANTERN_SVN] :=
    onlyRegs_setFld a f v (by rw [here]; decide)
  (((((((status s _ _ rfl).trans (status _ _ _ rfl)).trans (status _ _ _ rfl)).trans (status _ _ _ rfl)).trans (status _ _ _ rfl)).trans
    (onlyRegs_setFld _ F.LANTERN_FW_RUN_VERSION version (by decide))).trans (onlyRegs_setFld _ F.LANTERN_SVN_RUN_SVN svn (by decide)))

/-- The bits of LANTERN_STATUS above the bank's number are those of R448's four marks. -/
theorem bit_runShown (s : State) (trial : Bool) (bank version svn : Nat) (g : Fld) (status : g.addr = R.LANTERN_STATUS) (above : 28 ≤ g.lo) :
    (s.runShown trial bank version svn).bit g = ((((s.setBit F.LANTERN_STATUS_READY true).setBit F.LANTERN_STATUS_RECOVERY false).setBit
      F.LANTERN_STATUS_SWITCHING false).setBit F.LANTERN_STATUS_TRIAL trial).bit g := by
  unfold State.runShown
  rw [State.bit_setFld_other _ _ _ _ (.inl (by rw [status]; decide)), State.bit_setFld_other _ _ _ _ (.inl (by rw [status]; decide))]
  exact State.bit_setFld_other _ F.LANTERN_STATUS_ACTIVE_BANK g bank (.inr (.inr above))

theorem runShown_status (s : State) (trial : Bool) {bank : Nat} (version svn : Nat) (two : bank < 2) :
    (s.runShown trial bank version svn).bit F.LANTERN_STATUS_READY = true ∧ (s.runShown trial bank version svn).bit F.LANTERN_STATUS_RECOVERY = false ∧
    (s.runShown trial bank version svn).bit F.LANTERN_STATUS_SWITCHING = false ∧ (s.runShown trial bank version svn).bit F.LANTERN_STATUS_TRIAL = trial ∧
    (s.runShown trial bank version svn).fld F.LANTERN_STATUS_ACTIVE_BANK = bank := by
  have other (a : State) (f g : Fld) (b : Bool) := a.bit_setBit_other f g b
  refine ⟨?_, ?_, ?_, ?_, ?_⟩
  · rw [bit_runShown _ _ _ _ _ _ rfl (by decide), other _ _ _ _ (by decide), other _ _ _ _ (by decide), other _ _ _ _ (by decide), State.bit_setBit_same _ _ _ rfl (by decide)]
  · rw [bit_runShown _ _ _ _ _ _ rfl (by decide), other _ _ _ _ (by decide), other _ _ _ _ (by decide), State.bit_setBit_same _ _ _ rfl (by decide)]
  · rw [bit_runShown _ _ _ _ _ _ rfl (by decide), other _ _ _ _ (by decide), State.bit_setBit_same _ _ _ rfl (by decide)]
  · rw [bit_runShown _ _ _ _ _ _ rfl (by decide), State.bit_setBit_same _ _ _ rfl (by decide)]
  · unfold State.runShown
    rw [State.fld_setFld_other _ _ _ _ (by decide), State.fld_setFld_other _ _ _ _ (by decide), State.fld_setFld_same _ _ _ (by decide)]
    exact Nat.mod_eq_of_lt two

theorem runShown_version (s : State) (trial : Bool) (bank version svn : Nat) :
    (s.runShown trial bank version svn).fld F.LANTERN_FW_RUN_VERSION = version % 2 ^ 32 ∧ (s.runShown trial bank version svn).fld F.LANTERN_SVN_RUN_SVN = svn % 2 ^ 16 := by
  unfold State.runShown
  exact ⟨(State.fld_setFld_other _ _ _ _ (by decide)).trans (State.fld_setFld_same _ _ _ (by decide)), State.fld_setFld_same _ _ _ (by decide)⟩

end

/-- Settles O41: each command by its rows, then what starts firmware: a switch, an unplanned restart and the choice of a bank. -/
theorem firmwareBanksAndRestartsFollowTheirTables : Obligations.FirmwareBanksAndRestartsFollowTheirTables := by
  unfold Obligations.FirmwareBanksAndRestartsFollowTheirTables
  refine ⟨?download, fun ok s no => fwDownloadDone_none no, ?downloadDone, ?verify, ?activate, fun aG bG s no => bankSwitchDone_none no, ?switch, ?confirm, ?rollback,
    fun s b bank => ⟨_, _, rfl, rfl, rollbackSwitch_bank bank⟩, fun s no => trialExpiry_none no, fun s runs trial wait passed => trialExpiry_due runs trial wait passed,
    fun aG bG s no => watchdogExpiry_none no, fun m aG bG s no => flintMFault_none no, fun aG bG s runs => watchdogExpiry_restarts runs,
    fun aG bG s served => ⟨flintMFault_restarts served, flintMFault_restarts served⟩, ?unplanned, ?choose, ?start⟩
  case download =>
    intro c img ok s tag lo hi len first
    refine ⟨fwDownload_busy first, fwDownload_noBank first, fun b free bank => ?_⟩
    have acts := fwDownload_bank (ok := ok) (img := img) first free bank
    refine ⟨fun long => ?_, fun fits failed => ?_, fun fits read => ⟨_, acts, fun a => ⟨_, rfl, ?_⟩⟩⟩
    · exact executes_congr acts (fun a => if_pos long)
    · subst failed
      exact executes_congr acts (fun a => (if_neg (Nat.not_lt.2 fits)).trans (if_pos rfl))
    · subst read
      exact (if_neg (Nat.not_lt.2 fits)).trans (if_neg Bool.false_ne_true)
  case downloadDone =>
    exact fun s n tag b h served job => ⟨_, _, rfl, fwDownloadDone_ends served job, rfl, fwDownloadDone_ends served job⟩
  case verify =>
    intro c sig s tag first
    refine ⟨fwVerify_noBank first, fun b bank => ?_⟩
    have acts := fwVerify_bank (sig := sig) first bank
    refine ⟨fun fails => ?_, fun passes signed low => ?_, fun passes signed high => ?_⟩
    · exact executes_congr acts (fun a => if_pos (by rcases fails with fails | fails <;> simp [fails]))
    · exact executes_congr acts (fun a => (if_neg (by simp [passes, signed])).trans (if_pos low))
    · exact executes_congr acts (fun a => (if_neg (by simp [passes, signed])).trans (if_neg (Nat.not_lt.2 high)))
  case activate =>
    exact fun c s tag first => ⟨fwActivate_noBank first, fun b bank => ⟨_, fwActivate_bank first bank, fun a => ⟨_, _, fun was => if_pos was, fun not => if_neg not, rfl, rfl⟩⟩⟩
  case switch =>
    intro aG bG s b boot switch live awake
    have ends := bankSwitchDone_acts (aG := aG) (bG := bG) boot switch live awake
    refine ⟨fun pass => ends.trans (if_pos pass), fun fails => ⟨_, s.switchFailed b.bank, _, fun other => if_neg other, fun trial => ⟨rfl, if_pos trial⟩, rfl, ?_⟩⟩
    have chosen := ends.trans (if_neg (by simp [fails]))
    exact ⟨fun none => by rw [chosen, started_none none], fun x some_ => by rw [chosen, started_some some_]⟩
  case confirm => exact fun c s tag first => ⟨fwConfirm_noBank first, fun b bank => fwConfirm_bank first bank⟩
  case rollback => exact fun c s tag first => ⟨fwRollback_noBank first, fun b bank => fwRollback_bank first bank⟩
  case unplanned =>
    exact fun cause aG bG s noFw noLoad noLib noTrial rare => ⟨_, _, rfl, rfl, fun n few => resyncAll _ n _ (.inl (List.mem_range.2 few)),
      unplanned_chooses cause noFw noLoad noLib noTrial rare⟩
  case choose =>
    exact fun aG bG cause s => ⟨fun n active pass => chooseBank_active aG bG cause active pass,
      fun n m active fails fallback pass => chooseBank_fallback cause active fails fallback pass,
      fun active fallback => ⟨chooseBank_none cause active fallback, enterRecovery_shows s⟩⟩
  case start =>
    intro s b two
    obtain ⟨ready, recovery, switching, trial, bank⟩ := runShown_status { s with lantern := { s.lantern with boot := none, trialAt := s.power.clock } } (s.bankState b.bank == fbTRIAL)
      (hdrVersion (s.bankHdr b.bank)) (hdrSvn (s.bankHdr b.bank)) two
    obtain ⟨version, svn⟩ := runShown_version { s with lantern := { s.lantern with boot := none, trialAt := s.power.clock } } (s.bankState b.bank == fbTRIAL)
      b.bank (hdrVersion (s.bankHdr b.bank)) (hdrSvn (s.bankHdr b.bank))
    exact ⟨_, _, onlyRegs_runShown _ _ _ _ _, ready, recovery, switching, trial, bank, version, svn, fun zero => if_pos zero, fun cause => if_neg cause, rfl⟩

end Sys2Proof.Machine
end

section
/-! PROOFS.  Library updates and owner keys (14_lantern_mailboxes_updates R465, R466, R471 to R474, Tables LANTERN-5, LANTERN-10). -/

namespace Sys2Proof.Machine

section

variable {s : State} {c : Chan} {tag l : Nat} {sig ok : Bool} {img : List Byte} {j : LibJob}

/-! ### LIB_DOWNLOAD (R471, R472) -/

/-- The update that a download of a library begins, with benches taken for it. -/
def State.offeredJob (s : State) (n tag t : Nat) (img : List Byte) (bs : List Nat) : LibJob :=
  { who := ⟨some n, tag⟩, lib := t, kind := lhField img 0 1, version := hdrVersion img, keySlot := sliceLE img 6 1, pstep := lhField img 12 1,
    novel := lhField img 16 2, recallMask := lhField img 18 2, entries := lhField img 8 4, benches := bs, todo := s.imageBatches img bs }

/-- A download accepted: its benches are formatted and held, and its writes begin. -/
def State.libBegun (s : State) (n tag t : Nat) (img : List Byte) (bs : List Nat) : State :=
  let u := (((bs.foldl (fun (x : State) b => x.formatBench b) (s.setChan n { s.chan n with busy := true })).setFld F.LANTERN_UPDATE_LIBRARY t).setFld
    F.LANTERN_UPDATE_LIB_STATE luDOWNLOADING).setFld F.LANTERN_UPDATE_ENTRIES 0
  ({ u with sump := { u.sump with held := u.sump.held ++ bs }, lantern := { u.lantern with libJob := some (s.offeredJob n tag t img bs) } } : State).feedCandidates 8

/-- An image that has been read is refused with its code, or begins an update when enough benches are free. -/
def State.libOffered (s : State) (n tag t len : Nat) (img : List Byte) : State :=
  match s.libRefused t img len with
  | some code => s.reply n rsREFUSED tag [code]
  | none =>
    if (s.pickCandidates (lhField img 2 2)).length < lhField img 2 2 then s.reply n rsNO_SPACE tag []
    else s.libBegun n tag t img (s.pickCandidates (lhField img 2 2))

theorem sumpReady_setChan (ready : s.sumpReady = true) (n : Nat) (q : ChanSt) : ¬ (!(s.setChan n q).sumpReady) = true := by
  rw [show (s.setChan n q).sumpReady = true from ready]
  exact Bool.false_ne_true

section

variable {t lo hi l0 l1 : Nat} (first : CommandFirst s c 0x30 tag [t, lo, hi, l0, l1])

include first

theorem libDownload_badLibrary (beyond : 16 ≤ t) : RepliesOnly (.libDownload c img ok) s c 0x02 tag [] := executes first rfl (fun _ => if_pos beyond)

variable (within : t < 16)

include within

theorem libDownload_busy (under : s.libState ≠ luNONE) : RepliesOnly (.libDownload c img ok) s c 0x03 tag [] :=
  executes first rfl (fun _ => (if_neg (Nat.not_le.2 within)).trans (if_pos under))

variable (free : s.libState = luNONE)

include free

theorem libDownload_noSump (off : s.sumpReady = false) : RepliesOnly (.libDownload c img ok) s c 0x05 tag [] :=
  executes first rfl (fun _ => (if_neg (Nat.not_le.2 within)).trans ((if_neg (not_not.2 free)).trans (if_pos (congrArg not off))))

variable (ready : s.sumpReady = true)

include ready

theorem libDownload_notRead : Executes (.libDownload c img false) s c (fun a => a.dmaError.reply c.toNat 0x06 tag []) :=
  executes first rfl (fun q => (if_neg (Nat.not_le.2 within)).trans ((if_neg (not_not.2 free)).trans ((if_neg (sumpReady_setChan ready c.toNat q)).trans (if_pos rfl))))

/-- A library image that has been read is offered to Sump. -/
theorem libDownload_read {f : State → State}
    (rest : ∀ q, (s.setChan c.toNat q).libOffered c.toNat tag t (l0 + 2 ^ 32 * l1) (img.take (l0 + 2 ^ 32 * l1)) = f (s.setChan c.toNat q)) :
    Executes (.libDownload c img true) s c f :=
  executes first rfl (fun q => (if_neg (Nat.not_le.2 within)).trans ((if_neg (not_not.2 free)).trans
    ((if_neg (sumpReady_setChan ready c.toNat q)).trans ((if_neg (by decide)).trans (rest q)))))

end

/-! ### The commands on an update in progress (Table LANTERN-10) -/

/-- LIB_VERIFY on its update. -/
def State.libVerified (s : State) (n tag : Nat) (sig : Bool) (j : LibJob) : State :=
  if !(sig && s.slotFilled j.keySlot) then s.reply n rsSIG_FAIL tag []
  else (s.setFld F.LANTERN_UPDATE_LIB_STATE luVERIFIED).reply n rsOK tag [j.version]

/-- The update with what its library had before. -/
def State.savedJob (s : State) (j : LibJob) : LibJob :=
  { j with oldBenches := (s.lib j.lib).benches, oldActive := s.libActive j.lib, oldKind := s.libKind j.lib, oldPstep := s.fld (F.SUMP_LIB_CFG_PSTEP j.lib),
           oldNovel := s.fld (F.SUMP_LIB_NOVEL_NOVEL_DIST j.lib), oldMask := s.fld (F.SUMP_LIB_NOVEL_RECALL_MASK j.lib) }

/-- LIB_ACTIVATE on its update. -/
def State.libActivated (s : State) (n tag : Nat) (j : LibJob) : State :=
  let u := (s.swapBenches j.lib j.benches).setLibCfg j.lib true j.kind j.pstep j.novel j.recallMask
  (({ u with lantern := { u.lantern with libJob := some (s.savedJob j) } } : State).setFld F.LANTERN_UPDATE_LIB_STATE luTRIAL).reply n rsOK tag []

/-- LIB_CONFIRM on its update. -/
def State.libConfirmed (s : State) (n tag : Nat) (j : LibJob) : State :=
  let u := s.releaseHeld j.oldBenches
  (({ u with lantern := { u.lantern with libJob := none } } : State).setFld F.LANTERN_UPDATE_LIB_STATE luNONE).reply n rsOK tag []

/-- LIB_ROLLBACK on its update. -/
def State.libRolledBack (s : State) (n tag : Nat) (j : LibJob) : State :=
  ((s.libBack j).reply n rsOK tag []).notice ncROLLED_BACK [updateWord (1 + j.lib)]

/-- LIB_ABORT on its update. -/
def State.libAborted (s : State) (n tag : Nat) (j : LibJob) : State :=
  (if s.libState = luDOWNLOADING then s.answer j.who rsSTATE [] else s).dropCandidate.reply n rsOK tag []

/-- May the lists of the update be exchanged, as a command that takes it in state `st` needs? -/
def State.listsFree (s : State) (st : Nat) : Bool :=
  match s.lantern.libJob with
  | some j => s.swapReady j.lib || s.libState ≠ st
  | none => true

/-- The pending batch of the update's library sent, when the update is in state `st`. -/
def State.pendingSent (s : State) (st : Nat) : State :=
  match s.lantern.libJob with
  | some j => if s.libState = st then s.sendPending j.lib else s
  | none => s

theorem exec_libActivate : exec (.libActivate c) s = if !s.listsFree luVERIFIED then .next (s.pendingSent luVERIFIED)
    else .next (s.command c 0x32 (fun a tag args => a.onUpdate c.toNat tag args [luVERIFIED] (a.libActivated c.toNat tag))) := rfl

theorem exec_libRollback : exec (.libRollback c) s = if !s.listsFree luTRIAL then .next (s.pendingSent luTRIAL)
    else .next (s.command c 0x34 (fun a tag args => a.onUpdate c.toNat tag args [luTRIAL] (a.libRolledBack c.toNat tag))) := rfl

theorem listsFree_of_ready (st : Nat) (quiet : UpdateQuiet s) : s.listsFree st = true := by
  unfold State.listsFree
  split
  next j job => rw [quiet j job, Bool.true_or]
  · rfl

theorem listsFree_busy {st : Nat} (job : s.lantern.libJob = some j) (state : s.libState = st) (busy : s.swapReady j.lib = false) : s.listsFree st = false := by
  unfold State.listsFree
  rw [job]
  simp [busy, state]

theorem pendingSent_some {st : Nat} (job : s.lantern.libJob = some j) (state : s.libState = st) : s.pendingSent st = s.sendPending j.lib := by
  unfold State.pendingSent
  rw [job]
  exact if_pos state

theorem exec_libVerify (sig : Bool) : exec (.libVerify c sig) s =
    .next (s.command c 0x31 (fun a tag args => a.onUpdate c.toNat tag args [luDOWNLOADED] (a.libVerified c.toNat tag sig))) := rfl

theorem exec_libConfirm : exec (.libConfirm c) s = .next (s.command c 0x33 (fun a tag args => a.onUpdate c.toNat tag args [luTRIAL] (a.libConfirmed c.toNat tag))) := rfl

theorem exec_libAbort : exec (.libAbort c) s =
    .next (s.command c 0x35 (fun a tag args => a.onUpdate c.toNat tag args [luDOWNLOADING, luDOWNLOADED, luVERIFIED] (a.libAborted c.toNat tag))) := rfl

theorem exec_libActivate_runs (quiet : UpdateQuiet s) : exec (.libActivate c) s =
    .next (s.command c 0x32 (fun a tag args => a.onUpdate c.toNat tag args [luVERIFIED] (a.libActivated c.toNat tag))) :=
  exec_libActivate.trans (if_neg (by rw [listsFree_of_ready _ quiet]; decide))

theorem exec_libRollback_runs (quiet : UpdateQuiet s) : exec (.libRollback c) s =
    .next (s.command c 0x34 (fun a tag args => a.onUpdate c.toNat tag args [luTRIAL] (a.libRolledBack c.toNat tag))) :=
  exec_libRollback.trans (if_neg (by rw [listsFree_of_ready _ quiet]; decide))

theorem libVerified_fails {n : Nat} (fails : sig = false ∨ s.slotFilled j.keySlot = false) : s.libVerified n tag sig j = s.reply n rsSIG_FAIL tag [] :=
  if_pos (by rcases fails with fails | fails <;> simp [fails])

theorem libVerified_passes {n : Nat} (signed : sig = true) (filled : s.slotFilled j.keySlot = true) :
    s.libVerified n tag sig j = (s.setFld F.LANTERN_UPDATE_LIB_STATE luVERIFIED).reply n rsOK tag [j.version] := if_neg (by simp [signed, filled])

theorem libAborted_later {n : Nat} (later : s.libState ≠ luDOWNLOADING) : s.libAborted n tag j = s.dropCandidate.reply n rsOK tag [] := by
  unfold State.libAborted
  rw [if_neg later]

/-- An unfinished download is answered STATE before it is dropped. -/
theorem libAborted_download {n m w : Nat} (state : s.libState = luDOWNLOADING) (who : j.who = ⟨some m, w⟩) :
    s.libAborted n tag j = ((s.setChan m { s.chan m with busy := false }).reply m rsSTATE w []).dropCandidate.reply n rsOK tag [] := by
  unfold State.libAborted
  rw [if_pos state, who]
  rfl

/-- The notice of a rollback names library `l` as 2^31 + l. -/
theorem libRolledBack_eq (s : State) (n tag : Nat) (j : LibJob) :
    s.libRolledBack n tag j = ((s.libBack j).reply n rsOK tag []).notice ncROLLED_BACK [2 ^ 31 + j.lib] := by
  have word : updateWord (1 + j.lib) = 2 ^ 31 + j.lib := (if_neg (by omega)).trans (by rw [Nat.add_sub_cancel_left])
  unfold State.libRolledBack
  rw [word]

/-- With the lists free, every command of Table LANTERN-10 but LIB_DOWNLOAD runs on the update in progress, in the states of its row. -/
theorem updateCommand_runs {op : Nat} {states : List Nat} {i : Instr} (cmd : UpdateCommand c sig op states i) (quiet : UpdateQuiet s) :
    ∃ body : State → Nat → LibJob → State, exec i s = .next (s.command c op (fun a tag args => a.onUpdate c.toNat tag args states (body a tag))) := by
  cases cmd with
  | verify => exact ⟨_, exec_libVerify sig⟩
  | activate => exact ⟨_, exec_libActivate_runs quiet⟩
  | confirm => exact ⟨_, exec_libConfirm⟩
  | rollback => exact ⟨_, exec_libRollback_runs quiet⟩
  | abort => exact ⟨_, exec_libAbort⟩

section

variable {op : Nat} {states : List Nat} {i : Instr} {body : State → Nat → LibJob → State} (first : CommandFirst s c op tag [l])
  (runs : exec i s = .next (s.command c op (fun a tag args => a.onUpdate c.toNat tag args states (body a tag))))

include first runs

theorem onUpdate_badLibrary (beyond : 16 ≤ l) : RepliesOnly i s c 0x02 tag [] := executes first runs (fun _ => if_pos beyond)

variable (within : l < 16)

include within

theorem onUpdate_none (none : s.lantern.libJob = none) : RepliesOnly i s c 0x0B tag [] := by
  refine executes first runs (fun q => (if_neg (Nat.not_le.2 within)).trans ?_)
  rw [show (s.setChan c.toNat q).lantern.libJob = Option.none from none]
  rfl

variable (job : s.lantern.libJob = some j)

include job

theorem onUpdate_state (other : j.lib ≠ l ∨ s.libState ∉ states) : RepliesOnly i s c 0x0B tag [] := by
  refine executes first runs (fun q => (if_neg (Nat.not_le.2 within)).trans ?_)
  rw [show (s.setChan c.toNat q).lantern.libJob = some j from job]
  refine if_pos ?_
  rw [show (s.setChan c.toNat q).libState = s.libState from rfl]
  simpa [argAt] using other

theorem onUpdate_acts {f : State → State} (own : j.lib = l) (listed : s.libState ∈ states) (acts : ∀ q, body (s.setChan c.toNat q) tag j = f (s.setChan c.toNat q)) :
    Executes i s c f := by
  refine executes first runs (fun q => (if_neg (Nat.not_le.2 within)).trans (Eq.trans ?_ (acts q)))
  rw [show (s.setChan c.toNat q).lantern.libJob = some j from job]
  refine if_neg ?_
  rw [show (s.setChan c.toNat q).libState = s.libState from rfl]
  simp [argAt, own, listed]

end

theorem libDownloadDone_none (no : s.lantern.libJob = none ∨ s.libState ≠ luDOWNLOADING ∨ s.lanternRuns = false ∨ ∃ j, s.lantern.libJob = some j ∧ s.candidateDone j = false) :
    exec .libDownloadDone s = .next s := by
  show execLibDownloadDone s = _
  unfold execLibDownloadDone
  split
  · rfl
  next k job =>
    refine if_pos ?_
    simp only [Bool.or_eq_true, Bool.not_eq_true', decide_eq_true_eq, or_assoc]
    rcases no with none | state | stopped | ⟨j, some_, undone⟩
    · rw [job] at none
      cases none
    · exact .inl state
    · exact .inr (.inl stopped)
    · rw [job] at some_
      cases some_
      exact .inr (.inr undone)

theorem libDownloadDone_ends (job : s.lantern.libJob = some j) (state : s.libState = luDOWNLOADING) (runs : s.lanternRuns = true) (done : s.candidateDone j = true) :
    exec .libDownloadDone s = .next ((s.setFld F.LANTERN_UPDATE_LIB_STATE luDOWNLOADED).answer j.who rsOK [s.fld F.LANTERN_UPDATE_ENTRIES]) := by
  show execLibDownloadDone s = _
  unfold execLibDownloadDone
  rw [job]
  exact if_neg (by simp [state, runs, done])

/-! ### KEY_ENROL (R466) -/

/-- Does a key record break its layout? -/
def keyRecordBad (img : List Byte) : Prop := sliceLE img 0 4 ≠ 0xF1A70003 ∨ sliceLE img 4 2 ≠ 1 ∨ hdrPayload img ≠ 100 ∨ sliceLE img 128 1 < 4 ∨ 7 < sliceLE img 128 1 ∨
  7 < sliceLE img 6 1 ∨ 1 < sliceLE img 129 1 ∨ zeroBytes img 130 2 = false

/-- The owner keys after a record: its slot cleared, or holding the record's key. -/
def enrolled (img : List Byte) (keys : List OwnerKey) : List OwnerKey :=
  let rest := keys.filter (fun k => k.slot != sliceLE img 128 1)
  if sliceLE img 129 1 = 1 then rest else ⟨sliceLE img 128 1, (img.drop 132).take 96⟩ :: rest

theorem mem_enrolled_other {keys : List OwnerKey} {x : OwnerKey} (other : x.slot ≠ sliceLE img 128 1) : x ∈ enrolled img keys ↔ x ∈ keys := by
  have apart : ∀ key, x ≠ ⟨sliceLE img 128 1, key⟩ := fun key same => other (congrArg OwnerKey.slot same)
  unfold enrolled
  dsimp only
  split <;> simp [other, apart]

theorem mem_enrolled_slot {keys : List OwnerKey} {x : OwnerKey} (mode : sliceLE img 129 1 ≤ 1) (slot : x.slot = sliceLE img 128 1) :
    x ∈ enrolled img keys ↔ sliceLE img 129 1 = 0 ∧ x.key = (img.drop 132).take 96 := by
  obtain ⟨n, key⟩ := x
  dsimp only at slot
  subst slot
  unfold enrolled
  dsimp only
  split
  next clear => simp [clear]
  next keep => simp [Nat.lt_one_iff.1 (Nat.lt_of_le_of_ne mode keep)]

section

variable {lo hi len : Nat} (first : CommandFirst s c 0x40 tag [lo, hi, len])

include first

theorem keyEnrol_badLength (length : len ≠ 324) : RepliesOnly (.keyEnrol c img sig ok) s c 0x02 tag [] := executes first rfl (fun _ => if_pos length)

variable (length : len = 324)

include length

theorem keyEnrol_notRead : Executes (.keyEnrol c img sig false) s c (fun a => a.dmaError.reply c.toNat 0x06 tag []) :=
  executes first rfl (fun _ => (if_neg (not_not.2 length)).trans (if_pos rfl))

theorem keyEnrol_badRecord (bad : keyRecordBad img) : RepliesOnly (.keyEnrol c img sig true) s c 0x02 tag [] := by
  refine executes first rfl (fun _ => (if_neg (not_not.2 length)).trans ((if_neg (by decide)).trans (if_pos ?_)))
  simp only [Bool.or_eq_true, Bool.not_eq_true', decide_eq_true_eq, or_assoc]
  exact bad

/-- A well-formed record goes by its signature, then writes or clears its slot. -/
theorem keyEnrol_record (good : ¬ keyRecordBad img) : Executes (.keyEnrol c img sig true) s c (fun a =>
    if !(sig && s.slotFilled (sliceLE img 6 1)) then a.reply c.toNat 0x07 tag []
    else ({ a with lantern := { a.lantern with keys := enrolled img a.lantern.keys } } : State).reply c.toNat 0x00 tag [sliceLE img 128 1]) := by
  refine executes first rfl (fun _ => (if_neg (not_not.2 length)).trans ((if_neg (by decide)).trans ((if_neg ?_).trans rfl)))
  simp only [Bool.or_eq_true, Bool.not_eq_true', decide_eq_true_eq, or_assoc]
  exact good

end

end

/-- Settles O42: LIB_DOWNLOAD and KEY_ENROL by their checks in order, the other commands through the one lemma on the update in progress. -/
theorem libraryUpdatesAndOwnerKeysFollowTheirTables : Obligations.LibraryUpdatesAndOwnerKeysFollowTheirTables := by
  unfold Obligations.LibraryUpdatesAndOwnerKeysFollowTheirTables
  refine ⟨?download, fun s no => libDownloadDone_none no, ?downloadDone, ?status, ?update, ?enrol⟩
  case download =>
    intro c img ok s tag t lo hi l0 l1 first
    refine ⟨libDownload_badLibrary first, libDownload_busy first, libDownload_noSump first, fun within free ready failed => ?_,
      fun code within free ready read refused => ?_, fun b bs image benches within free ready read accepted => ⟨fun few => ?_, fun enough => ?_⟩⟩
    · subst failed
      exact libDownload_notRead first within free ready
    · subst read
      refine libDownload_read first within free ready (fun q => ?_)
      unfold State.libOffered
      rw [show (s.setChan c.toNat q).libRefused t _ _ = some code from refused]
      rfl
    all_goals subst read image benches
    · refine libDownload_read first within free ready (fun q => ?_)
      unfold State.libOffered
      rw [show (s.setChan c.toNat q).libRefused t _ _ = none from accepted]
      exact if_pos few
    · refine ⟨fun a => a.libBegun c.toNat tag t (img.take (l0 + 2 ^ 32 * l1)) (s.pickCandidates (lhField (img.take (l0 + 2 ^ 32 * l1)) 2 2)),
        libDownload_read first within free ready (fun q => ?_),
        fun a => ⟨_, a.offeredJob c.toNat tag t (img.take (l0 + 2 ^ 32 * l1)) (s.pickCandidates (lhField (img.take (l0 + 2 ^ 32 * l1)) 2 2)), rfl, rfl, rfl, rfl, rfl, rfl, rfl, rfl, rfl, rfl, rfl, rfl⟩⟩
      unfold State.libOffered
      rw [show (s.setChan c.toNat q).libRefused t _ _ = none from accepted]
      exact if_neg (Nat.not_lt.2 enough)
  case downloadDone =>
    intro s j n tag job who state runs done
    refine ⟨_, rfl, (libDownloadDone_ends job state runs done).trans ?_⟩
    rw [who]
    rfl
  case status =>
    intro c sig s op states i tag l cmd first quiet
    obtain ⟨body, runs⟩ := updateCommand_runs cmd quiet
    exact ⟨onUpdate_badLibrary first runs, onUpdate_none first runs, fun j within job other => onUpdate_state first runs within job other⟩
  case update =>
    intro c sig s tag j job within
    have quiet : s.swapReady j.lib = true → UpdateQuiet s := fun ready k job' => by
      cases job.symm.trans job'
      exact ready
    refine ⟨fun first state => ?verify, fun state busy => ?_, fun first state ready => ?activate, fun first state => ?confirm, fun state busy => ?_,
      fun first state ready => ?rollback, fun first states => ?abort, fun m w first state who => ?abortDownload⟩
    case verify =>
      refine ⟨fun fails => ?_, fun signed filled => ?_⟩
      · exact onUpdate_acts first (exec_libVerify sig) within job rfl (by simp [state]) (fun q => libVerified_fails (s := s.setChan c.toNat q) fails)
      · exact onUpdate_acts first (exec_libVerify sig) within job rfl (by simp [state]) (fun q => libVerified_passes (s := s.setChan c.toNat q) signed filled)
    case activate =>
      exact ⟨fun a => a.libActivated c.toNat tag j, onUpdate_acts first (exec_libActivate_runs (quiet ready)) within job rfl (by simp [state]) (fun _ => rfl),
        fun a => ⟨_, a.savedJob j, rfl, rfl, rfl⟩⟩
    case confirm =>
      exact ⟨fun a => a.libConfirmed c.toNat tag j, onUpdate_acts first exec_libConfirm within job rfl (by simp [state]) (fun _ => rfl), fun a => ⟨_, rfl, rfl⟩⟩
    case rollback =>
      exact ⟨fun a => a.libRolledBack c.toNat tag j, onUpdate_acts first (exec_libRollback_runs (quiet ready)) within job rfl (by simp [state]) (fun _ => rfl),
        fun a => ⟨_, rfl, libRolledBack_eq a c.toNat tag j⟩⟩
    case abort =>
      have later : s.libState ≠ luDOWNLOADING := by rcases states with state | state <;> rw [state] <;> decide
      exact onUpdate_acts first exec_libAbort within job rfl (by rcases states with state | state <;> simp [state]) (fun q => libAborted_later (s := s.setChan c.toNat q) later)
    case abortDownload =>
      exact onUpdate_acts first exec_libAbort within job rfl (by simp [state]) (fun q => libAborted_download (s := s.setChan c.toNat q) state who)
    · rw [exec_libActivate, if_pos (by rw [listsFree_busy job state busy]; rfl), pendingSent_some job state]
    · rw [exec_libRollback, if_pos (by rw [listsFree_busy job state busy]; rfl), pendingSent_some job state]
  case enrol =>
    intro c img sig ok s tag lo hi len first
    refine ⟨keyEnrol_badLength first, fun length failed => ?_, fun bad layout length read => ?_⟩
    · subst failed
      exact keyEnrol_notRead first length
    · subst read
      obtain rfl : bad = keyRecordBad img := propext layout
      refine ⟨keyEnrol_badRecord first length, fun good failed => ?_, fun good signed filled => ⟨_, executes_congr (keyEnrol_record first length good) (fun a => if_neg (by simp [signed, filled])),
        fun a => ⟨_, rfl, fun x other => mem_enrolled_other other, fun x slot => mem_enrolled_slot ?_ slot⟩⟩⟩
      · exact executes_congr (keyEnrol_record first length good) (fun a => if_pos (by rcases failed with failed | failed <;> simp [failed]))
      · unfold keyRecordBad at good
        omega

end Sys2Proof.Machine
end
